-- ==== Sys2Proof/Word.lean ====
section
/-!
DEFINITION. The word types of the module and their plainest operations.

What the manual treats as bits (register contents, bytes, addresses while they are
computed, sync objects, FP32 lanes) is a bit vector; counts, indexes and unit numbers
are `Nat`.
-/

namespace Sys2Proof

/-- One byte of any memory of the module. -/
abbrev Byte := BitVec 8
/-- A scalar register, a vector lane, an FP32 value, a 32-bit register. -/
abbrev W32 := BitVec 32
/-- A tile-local address (R81). -/
abbrev W48 := BitVec 48
/-- A sync object, an instruction word, a 64-bit register. -/
abbrev W64 := BitVec 64

/-- Bits `hi` down to `lo` of a number, as a number. -/
def bits (v hi lo : Nat) : Nat := (v / 2 ^ lo) % 2 ^ (hi + 1 - lo)

/-- Bit `i` of a number. -/
def bitOf (v i : Nat) : Bool := v.testBit i

/-- A number cut to its low `n` bits. -/
def low (n v : Nat) : Nat := v % 2 ^ n

/-- The `n` little-endian bytes of a number (R5). -/
def leBytes : Nat → Nat → List Byte
  | 0, _ => []
  | n + 1, v => BitVec.ofNat 8 v :: leBytes n (v / 256)

/-- The number that little-endian bytes hold (R5). -/
def leVal : List Byte → Nat
  | [] => 0
  | b :: bs => b.toNat + 256 * leVal bs

/-- The number held by `n` bytes from position `off` of a list of bytes. -/
def leAt (bs : List Byte) (off n : Nat) : Nat := leVal ((bs.drop off).take n)

/-- 1 for true. -/
def b2n (b : Bool) : Nat := if b then 1 else 0

/-- Adds saturating at the largest value of a field of `n` bits. -/
def satAdd (n a b : Nat) : Nat := min (a + b) (2 ^ n - 1)

end Sys2Proof
end

