-- ==== Sys2Proof/Syntax.lean ====
section
/-!
DEFINITION. The commands that the block takes, with their operands: one constructor of
`Instr` for each row of the opcode table. Chapter 14's commands carry the fields of their
packet's header (R435) and their payload as bytes; a row that is a register write carries
the register's operands; a row that is an event of the module carries what happened.
-/

namespace Sys2Proof

/-- Where a packet came from, and so where its answer goes (R432): port and source. -/
structure ReplyTo where
  port : Nat
  src : Nat
deriving DecidableEq, Repr

/-- The header of a command packet that has passed the checks of R436 (R435). -/
structure Header where
  port : Nat
  src : Nat
  session : Nat
  seq : Nat
  claim : Nat
  crc : Nat
deriving DecidableEq, Repr

/-- A frame that reaches no command. R436: the condition that a discarded ZCP packet fails first.
R431: a fragment; a packet with extension headers or options; one whose UDP checksum is wrong; a
frame of no supported protocol. R429: a PAUSE frame; one without the 802.1Q tag that HOST_NET_CFG
requires; one longer than 9,216 B. R431: an ARP request, a Neighbour Solicitation or an Echo Request (over
IPv6 or IPv4), with the address that it asks for or is sent to. -/
inductive Discard where
  | udpLength | crc | format
  | fragment (port : Nat) | options (port : Nat) | udpSum (port : Nat) | noProtocol (port : Nat)
  | pause (port : Nat) | tag (port : Nat) | long (port : Nat)
  | arp (port src target : Nat) | neighbour (port src target : Nat)
  | echo (six : Bool) (port src target : Nat) (data : List Byte)
deriving DecidableEq, Repr

/-- The queues of a tile (R115). -/
inductive TileUnit where
  | matrix | vector | mover | fabric
deriving DecidableEq, Repr

/-- The fault sources of a tile that reset its island (R107). -/
inductive FaultSrc where
  | scrUe | rfPar | accPar | matCheck | clkFault | routerFault
deriving DecidableEq, Repr

/-- A command as the host interface holds it: its opcode, its payload, what the module
measures when it runs (R421 to R424), and the faults that strike tiles while it runs (R644). -/
structure HostCmd where
  opcode : Nat
  payload : List Byte
  meas : List Int := []
  hits : List (Nat × FaultSrc) := []
deriving DecidableEq, Repr

/-- A JOB_LOAD as it comes: its payload, and the faults that strike tiles while it runs (R644). -/
structure LoadCmd where
  payload : List Byte
  hits : List (Nat × FaultSrc) := []
deriving DecidableEq, Repr

/-- Which memory an upset strikes. -/
inductive UpsetAt where
  /-- A byte of LPDDR5X, by device physical address. -/
  | ddr (dpa : Nat)
  /-- A byte of the slice of a physical tile. -/
  | slice (t off : Nat)
  /-- A byte of the scratch of a physical tile. -/
  | scratch (t off : Nat)
deriving DecidableEq, Repr

/-- A physical error that the next read of a word will meet: a single-bit error at a bit
of the stored word, or a double-bit (or wrong-address) error. -/
structure Upset where
  at_ : UpsetAt
  double : Bool
  bit : Nat
deriving DecidableEq, Repr

/-- What training and repair of an LPDDR5X device come to (R164 steps 2 to 5): whether it
trains at 10,667 MT/s, whether it does at 8,533 MT/s, which rows hard PPR repairs, and the
fewest repair elements left in a bank. -/
structure StripTrain where
  fast : Bool
  slow : Bool
  repaired : List Nat
  pprLeft : Nat
deriving DecidableEq, Repr

/-- A new sensor value of a Marionette engine (R383, R384): the sensor's code, the bits of its
value, the value as a signed number, and whether the sensor marks it valid. -/
structure SensorRead where
  code : Nat
  width : Nat
  raw : Int
  valid : Bool
deriving DecidableEq, Repr

/-- What the march test of a slice finds (R185): rows as bank * 2048 + row, columns as
bank * 4384 + bit-column, and whether faults are left that cannot be repaired. -/
structure BistFind where
  tile : Nat
  rows : List Nat
  cols : List Nat
  bad : Bool
deriving DecidableEq, Repr

/-- What a referee's read finds of a laser (R355): how many channel indices carry its tone, the
index found, and the offset from the grid in units of 10 MHz. -/
structure LaserRead where
  laser : Nat
  tones : Nat
  index : Nat
  offset : Int
deriving DecidableEq, Repr
/-- What an owner's converter finds of one pilot slot of a burst (R334): whether a pilot is
there, its amplitude and its arrival as errors in percent and in picoseconds, and the energy
of a slot of no enabled channel in percent of one pilot's. -/
structure PilotSeen where
  found : Bool
  amp : Int
  skew : Int
  energy : Nat
deriving DecidableEq, Repr

/-- What the converter of one receive fibre measures in a burst: the light in the guard, as an
error in percent; the pilot slots; U_f for each element, in quarters of a unit. -/
structure FibreSeen where
  guard_ : Int
  pilots : List PilotSeen
  sums : List Int
deriving DecidableEq, Repr

/-- The commands of the block, one constructor for each row of the opcode table. -/
inductive Instr where
  /-- GEN_IDENTIFY (R439). -/
  | genIdentify (h : Header) (p : List Byte)
  /-- SESSION_OPEN (R442). -/
  | sessionOpen (h : Header) (p : List Byte)
  /-- SESSION_CLOSE (R444). -/
  | sessionClose (h : Header) (p : List Byte)
  /-- SESSION_KEEPALIVE (R443). -/
  | sessionKeepalive (h : Header) (p : List Byte)
  /-- REG_READ (R453). -/
  | regRead (h : Header) (p : List Byte)
  /-- REG_WRITE (R453). -/
  | regWrite (h : Header) (p : List Byte)
  /-- BULK_WRITE (R460). -/
  | bulkWrite (h : Header) (p : List Byte)
  /-- BULK_READ (R460). -/
  | bulkRead (h : Header) (p : List Byte)
  /-- BULK_BLOCK (R462). -/
  | bulkBlock (h : Header) (block : Nat) (data : List Byte)
  /-- BULK_ACK (R461). -/
  | bulkAck (h : Header) (next window mask : Nat)
  /-- BULK_ACK_TIMER (R462). -/
  | bulkAckTimer (q : Nat)
  /-- BULK_RESEND_TIMEOUT (R462). -/
  | bulkResendTimeout (q block : Nat)
  /-- BULK_DONE (R463). -/
  | bulkDone (q : Nat)
  /-- BULK_TIMEOUT (R463). -/
  | bulkTimeout (q : Nat)
  /-- ZCP_PACKET_DISCARD (R436). -/
  | zcpPacketDiscard (why : Discard)
  /-- BAD_OPCODE (R452). -/
  | badOpcode (h : Header) (op : Nat) (p : List Byte)
  /-- HELD_COMMAND_START (R446). -/
  | heldCommandStart
  /-- SESSION_IDLE_TIMEOUT (R443). -/
  | sessionIdleTimeout
  /-- NONCE_REFRESH (R440). -/
  | nonceRefresh
  /-- SESSION_OPEN_EVAL_EXPIRY (R449). -/
  | sessionOpenEvalExpiry
  /-- PORT_LINK_UP (R433). -/
  | portLinkUp (n : Nat)
  /-- PORT_LINK_DOWN (R433). -/
  | portLinkDown (n : Nat)
  /-- JOB_LOAD (R151). -/
  | jobLoad (h : Header) (p : LoadCmd)
  /-- JOB_LAUNCH (R152). -/
  | jobLaunch (h : Header) (p : List Byte)
  /-- JOB_ABORT (R154). -/
  | jobAbort (h : Header) (p : List Byte)
  /-- JOB_END (R20). -/
  | jobEnd
  /-- SYNC_SIGNAL (R224). -/
  | syncSignal (h : Header) (p : List Byte)
  /-- PLAN_LOAD (R288). -/
  | planLoad (h : Header) (p : List Byte)
  /-- PLAN_ARM (R291). -/
  | planArm (h : Header) (p : List Byte)
  /-- PLAN_DISARM (R293). -/
  | planDisarm (h : Header) (p : List Byte)
  /-- DARK_WINDOW (R305). -/
  | darkWindow (h : Header) (p : List Byte)
  /-- DARK_WINDOW_CANCEL (R305). -/
  | darkWindowCancel (h : Header) (p : List Byte)
  /-- FABRIC_DISCOVER (R273). -/
  | fabricDiscover (h : Header) (p : List Byte)
  /-- LOOP_REARM (R400). -/
  | loopRearm (h : Header) (p : List Byte)
  /-- CAL_RUN_LASER (R421). -/
  | calRunLaser (h : Header) (p : List Byte) (meas : List Int)
  /-- CAL_RUN_RING (R422). -/
  | calRunRing (h : Header) (p : List Byte) (meas : List Int)
  /-- CAL_RUN_XTALK (R423). -/
  | calRunXtalk (h : Header) (p : List Byte) (meas : List Int)
  /-- CAL_RUN_OSUM (R424). -/
  | calRunOsum (h : Header) (p : List Byte) (meas : List Int)
  /-- PWR_SET_STATE (R507). -/
  | pwrSetState (h : Header) (p : List Byte)
  /-- PWR_PENDING_START (R507). -/
  | pwrPendingStart
  /-- PWR_SET_PLEVEL (R503). -/
  | pwrSetPlevel (h : Header) (p : List Byte)
  /-- TIME_SET_ALARM (R481). -/
  | timeSetAlarm (h : Header) (p : List Byte)
  /-- EVT_READ (R605). -/
  | evtRead (h : Header) (p : List Byte)
  /-- EVT_SEAL (R606). -/
  | evtSeal (h : Header) (p : List Byte)
  /-- FW_BLOCK (R570). -/
  | fwBlock (h : Header) (p : List Byte)
  /-- FW_VERIFY (R571). -/
  | fwVerify (h : Header) (p : List Byte)
  /-- FW_ACTIVATE (R573). -/
  | fwActivate (h : Header) (p : List Byte) (meas : List Int)
  /-- FW_CONFIRM (R576). -/
  | fwConfirm (h : Header) (p : List Byte)
  /-- FW_REVERT (R577). -/
  | fwRevert (h : Header) (p : List Byte) (meas : List Int)
  /-- ATTEST_QUOTE (R589). -/
  | attestQuote (h : Header) (p : List Byte)
  /-- PAIR_CONFIGURE (R536). -/
  | pairConfigure (h : Header) (p : List Byte)
  /-- PAIR_UNPAIR (R540). -/
  | pairUnpair (h : Header) (p : List Byte)
  /-- PAIR_REJOIN (R558). -/
  | pairRejoin (h : Header) (p : List Byte)
  /-- NOP (R120). -/
  | nop (t : Nat)
  /-- HALT (R142). -/
  | halt (t : Nat)
  /-- TILE_HALTED (R142). -/
  | tileHalted (t : Nat)
  /-- BRK (R120). -/
  | brk (t : Nat)
  /-- FENCE (R120). -/
  | fence (t : Nat)
  /-- GETC (R119). -/
  | getc (t : Nat)
  /-- SETC (R119). -/
  | setc (t : Nat)
  /-- SEED (R118). -/
  | seed (t : Nat)
  /-- ADD (R121). -/
  | add (t : Nat)
  /-- SUB (R121). -/
  | sub (t : Nat)
  /-- AND (R121). -/
  | and (t : Nat)
  /-- OR (R121). -/
  | or (t : Nat)
  /-- XOR (R121). -/
  | xor (t : Nat)
  /-- SHL (R121). -/
  | shl (t : Nat)
  /-- SHR (R121). -/
  | shr (t : Nat)
  /-- SRA (R121). -/
  | sra (t : Nat)
  /-- MUL (R121). -/
  | mul (t : Nat)
  /-- MULHU (R121). -/
  | mulhu (t : Nat)
  /-- SLT (R121). -/
  | slt (t : Nat)
  /-- SLTU (R121). -/
  | sltu (t : Nat)
  /-- MIN (R121). -/
  | min (t : Nat)
  /-- MAX (R121). -/
  | max (t : Nat)
  /-- ADDI (R121). -/
  | addi (t : Nat)
  /-- SUBI (R121). -/
  | subi (t : Nat)
  /-- ANDI (R121). -/
  | andi (t : Nat)
  /-- ORI (R121). -/
  | ori (t : Nat)
  /-- XORI (R121). -/
  | xori (t : Nat)
  /-- SHLI (R121). -/
  | shli (t : Nat)
  /-- SHRI (R121). -/
  | shri (t : Nat)
  /-- SRAI (R121). -/
  | srai (t : Nat)
  /-- MULI (R121). -/
  | muli (t : Nat)
  /-- MULHUI (R121). -/
  | mulhui (t : Nat)
  /-- SLTI (R121). -/
  | slti (t : Nat)
  /-- SLTUI (R121). -/
  | sltui (t : Nat)
  /-- MINI (R121). -/
  | mini (t : Nat)
  /-- MAXI (R121). -/
  | maxi (t : Nat)
  /-- LI (R120). -/
  | li (t : Nat)
  /-- AADD (R120). -/
  | aadd (t : Nat)
  /-- AADDI (R120). -/
  | aaddi (t : Nat)
  /-- ALO (R120). -/
  | alo (t : Nat)
  /-- AHI (R120). -/
  | ahi (t : Nat)
  /-- AGET (R120). -/
  | aget (t : Nat)
  /-- AMOV (R120). -/
  | amov (t : Nat)
  /-- LW (R122). -/
  | lw (t : Nat) (ups : List Upset)
  /-- SW (R122). -/
  | sw (t : Nat)
  /-- LA (R122). -/
  | la (t : Nat)
  /-- SA (R122). -/
  | sa (t : Nat)
  /-- TILE_TRAPPED (R140). -/
  | tileTrapped (t : Nat)
  /-- ILLEGAL_WORD (R112). -/
  | illegalWord (t : Nat)
  /-- BEQ (R124). -/
  | beq (t : Nat)
  /-- BNE (R124). -/
  | bne (t : Nat)
  /-- BLT (R124). -/
  | blt (t : Nat)
  /-- BGE (R124). -/
  | bge (t : Nat)
  /-- BLTU (R124). -/
  | bltu (t : Nat)
  /-- BGEU (R124). -/
  | bgeu (t : Nat)
  /-- JMP (R124). -/
  | jmp (t : Nat)
  /-- JAL (R124). -/
  | jal (t : Nat)
  /-- JR (R124). -/
  | jr (t : Nat)
  /-- VADDF (R125). -/
  | vaddf (t : Nat)
  /-- VSUBF (R125). -/
  | vsubf (t : Nat)
  /-- VMULF (R125). -/
  | vmulf (t : Nat)
  /-- VMAXF (R125). -/
  | vmaxf (t : Nat)
  /-- VMINF (R125). -/
  | vminf (t : Nat)
  /-- VFMA (R120). -/
  | vfma (t : Nat)
  /-- VIADD (R121). -/
  | viadd (t : Nat)
  /-- VISUB (R121). -/
  | visub (t : Nat)
  /-- VIMUL (R121). -/
  | vimul (t : Nat)
  /-- VAND (R121). -/
  | vand (t : Nat)
  /-- VOR (R121). -/
  | vor (t : Nat)
  /-- VXOR (R121). -/
  | vxor (t : Nat)
  /-- VSHL (R121). -/
  | vshl (t : Nat)
  /-- VSHR (R121). -/
  | vshr (t : Nat)
  /-- VSRA (R121). -/
  | vsra (t : Nat)
  /-- VRCP (R70). -/
  | vrcp (t : Nat)
  /-- VRSQRT (R70). -/
  | vrsqrt (t : Nat)
  /-- VEXP2 (R70). -/
  | vexp2 (t : Nat)
  /-- VLOG2 (R70). -/
  | vlog2 (t : Nat)
  /-- VCVTFI (R71). -/
  | vcvtfi (t : Nat)
  /-- VCVTIF (R68). -/
  | vcvtif (t : Nat)
  /-- VBCAST (R120). -/
  | vbcast (t : Nat)
  /-- VSUMF (R125). -/
  | vsumf (t : Nat)
  /-- VMAXR (R125). -/
  | vmaxr (t : Nat)
  /-- VLD (R120). -/
  | vld (t : Nat)
  /-- VST (R120). -/
  | vst (t : Nat)
  /-- VPACK (R126). -/
  | vpack (t : Nat)
  /-- VUNPK (R126). -/
  | vunpk (t : Nat)
  /-- MSHAPE (R130). -/
  | mshape (t : Nat)
  /-- MMA (R127). -/
  | mma (t : Nat)
  /-- ACCZ (R120). -/
  | accz (t : Nat)
  /-- ACCPACK (R130). -/
  | accpack (t : Nat)
  /-- ACCGET (R130). -/
  | accget (t : Nat)
  /-- ACCPUT (R130). -/
  | accput (t : Nat)
  /-- MVSHAPE (R131). -/
  | mvshape (t : Nat)
  /-- MOV (R131). -/
  | mov (t : Nat)
  /-- SSTART (R132). -/
  | sstart (t : Nat)
  /-- STAKE (R132). -/
  | stake (t : Nat)
  /-- STAKE_SATISFIED (R194). -/
  | stakeSatisfied (t : Nat)
  /-- SFREE (R133). -/
  | sfree (t : Nat)
  /-- SYADD (R134). -/
  | syadd (t : Nat)
  /-- SYSET (R134). -/
  | syset (t : Nat)
  /-- SYRD (R220). -/
  | syrd (t : Nat)
  /-- SYWAIT (R135). -/
  | sywait (t : Nat)
  /-- SYWAIT_SATISFIED (R222). -/
  | sywaitSatisfied (t : Nat)
  /-- CPOST (R136). -/
  | cpost (t : Nat)
  /-- FPUT (R137). -/
  | fput (t : Nat)
  /-- FSIG (R137). -/
  | fsig (t : Nat)
  /-- FABRIC_ENTRY_RELEASE (R299). -/
  | fabricEntryRelease (t : Nat)
  /-- TILE_CTRL_SELFTEST (R106). -/
  | tileCtrlSelftest (h : Header) (t : Nat)
  /-- TILE_CTRL_RETIRE (R94). -/
  | tileCtrlRetire (h : Header) (t : Nat)
  /-- TILE_CTRL_RESTORE (R98). -/
  | tileCtrlRestore (h : Header) (t : Nat)
  /-- TILE_SELFTEST_DONE (R92). -/
  | tileSelftestDone (t : Nat) (fails : BitVec 8)
  /-- TILE_FAULT (R99). -/
  | tileFault (t : Nat) (src : FaultSrc)
  /-- SPARE_TILE_SELFTEST (R100). -/
  | spareTileSelftest (t : Nat)
  /-- MESH_STALL (R107). -/
  | meshStall (t : Nat)
  /-- TILE_SRNG_WRITE (R61). -/
  | tileSrngWrite (h : Header) (t v : Nat)
  /-- WSE_PASS_BEGIN (R199). -/
  | wsePassBegin (d : Nat)
  /-- CHUNK_WRITE_START (R193). -/
  | chunkWriteStart (d : Nat)
  /-- CHUNK_FULL (R193). -/
  | chunkFull (d l : Nat)
  /-- WSE_PASS_END (R197). -/
  | wsePassEnd (d : Nat)
  /-- WSE_PASS_CANCEL (R198). -/
  | wsePassCancel (d : Nat)
  /-- SYNC_VALUE_WRITE (R225). -/
  | syncValueWrite (h : Header) (i v : Nat)
  /-- SYNC_ADD_WRITE (R225). -/
  | syncAddWrite (h : Header) (i v : Nat)
  /-- REMOTE_OPERATION_RX (R230). -/
  | remoteOperationRx
  /-- SYNC_TWIN_RESTART (R234). -/
  | syncTwinRestart (failed l : Nat)
  /-- LANE_FRAME_TX (R248). -/
  | laneFrameTx (i : Nat)
  /-- LANE_FRAME_RX (R256). -/
  | laneFrameRx (i : Nat) (line : List Byte)
  /-- MARKER_LOCK_LOST (R250). -/
  | markerLockLost (i : Nat)
  /-- LOS (R266). -/
  | los (i : Nat)
  /-- FEC_UNCORR_LIMIT (R266). -/
  | fecUncorrLimit (i : Nat)
  /-- FEC_DEGRADED (R266). -/
  | fecDegraded (i : Nat)
  /-- NAK_TIMER (R263). -/
  | nakTimer (n d : Nat)
  /-- REPLAY_TIMEOUT (R263). -/
  | replayTimeout (n d : Nat)
  /-- LANE_FAULT (R267). -/
  | laneFault (i reason : Nat)
  /-- LANE_READMIT (R268). -/
  | laneReadmit (rx : Bool) (i : Nat)
  /-- LANESET_DEAD (R269). -/
  | lanesetDead (n d : Nat)
  /-- DISCOVERY_ROUND (R274). -/
  | discoveryRound
  /-- DISCOVERY_END (R276). -/
  | discoveryEnd
  /-- PHASE_TRIGGER (R296). -/
  | phaseTrigger (n : Nat)
  /-- LANESET_CLOSED (R264). -/
  | lanesetClosed (n d : Nat)
  /-- LANE_RELEASE (R302). -/
  | laneRelease (n d : Nat)
  /-- RETUNE_DONE (R354). -/
  | retuneDone (i : Nat)
  /-- PHASE_GAP_OVERRUN (R303). -/
  | phaseGapOverrun (rx : Bool) (i : Nat)
  /-- DARK_WINDOW_OPEN (R306). -/
  | darkWindowOpen
  /-- DARK_WINDOW_CLOSE (R306). -/
  | darkWindowClose
  /-- COLL_INSTANCE_START (R317). -/
  | collInstanceStart (c : Nat)
  /-- COLL_UNIT_RX (R321). -/
  | collUnitRx
  /-- COLL_INSTANCE_COMPLETE (R319). -/
  | collInstanceComplete (c : Nat)
  /-- COLL_INSTANCE_END (R318). -/
  | collInstanceEnd (c : Nat)
  /-- COLL_TIMEOUT (R318). -/
  | collTimeout (c : Nat)
  /-- OSUM_BURST_START (R333). -/
  | osumBurstStart (g : Nat)
  /-- OSUM_BURST_END (R334). -/
  | osumBurstEnd (g : Nat) (fs : List FibreSeen)
  /-- COLL_SEG_RESTART (R340). -/
  | collSegRestart (c rank seg : Nat)
  /-- REFEREE_READ (R355). -/
  | refereeRead (c b : Nat) (cal : Option Bool) (reads : List LaserRead)
  /-- LASER_ACQUIRE (R359). -/
  | laserAcquire (c n : Nat) (ok : Bool)
  /-- SPARE_LASER_CHECK (R350). -/
  | spareLaserCheck (c n : Nat) (ok : Bool)
  /-- SWAP_THRESHOLD (R362). -/
  | swapThreshold (c n : Nat) (launch : Int)
  /-- PLANNED_SWAP (R364). -/
  | plannedSwap (c n : Nat)
  /-- FORCED_SWAP (R365). -/
  | forcedSwap (c n : Nat)
  /-- RING_SCAN (R352). -/
  | ringScan (c r : Nat) (ok : Bool)
  /-- FAB_LIGHT_SWAP (R362). -/
  | fabLightSwap (h : Header) (c i : Nat)
  /-- FAB_LIGHT_RESTORE (R367). -/
  | fabLightRestore (h : Header) (c i : Nat) (ring : Bool)
  /-- EYE_TRIP (R372). -/
  | eyeTrip (c f cause : Nat)
  /-- EYE_RESTORE_START (R372). -/
  | eyeRestoreStart (c f : Nat)
  /-- FAB_EYE_CTRL_RESTORE (R372). -/
  | fabEyeCtrlRestore (h : Header) (c mask : Nat)
  /-- EYE_RESTORE_DONE (R372). -/
  | eyeRestoreDone (c f : Nat)
  /-- MAR_TICK (R385). -/
  | marTick (e : Nat) (reads : List SensorRead) (parity : List Nat)
  /-- MAR_REARM (R401). -/
  | marRearm (h : Header) (e i : Nat)
  /-- MAR_COMMIT (R395). -/
  | marCommit (h : Header) (e i mask : Nat)
  /-- MAR_LUT_COMMIT (R395). -/
  | marLutCommit (h : Header) (e i : Nat)
  /-- MAR_XT_COMMIT (R404). -/
  | marXtCommit (h : Header) (e f : Nat)
  /-- TIME_TICK (R468). -/
  | timeTick
  /-- TIME_NOW_S_READ (R470). -/
  | timeNowSRead (h : Header)
  /-- PTP_SYNC_RX (R472). -/
  | ptpSyncRx (port clock dom seq : Nat) (two : Bool) (origin : Int)
  /-- PTP_FOLLOW_UP_RX (R472). -/
  | ptpFollowUpRx (port clock dom seq : Nat) (origin : Int)
  /-- PTP_DELAY_RESP_RX (R472). -/
  | ptpDelayRespRx (port clock dom seq : Nat) (rx pred : Int)
  /-- PTP_ANNOUNCE_RX (R474). -/
  | ptpAnnounceRx (port clock dom : Nat) (key : List Nat)
  /-- DELAY_REQ (R473). -/
  | delayReq (m : Nat)
  /-- TIME_LOST (R475). -/
  | timeLost (m cause : Nat)
  /-- TIME_LISTEN_RETURN (R475). -/
  | timeListenReturn (m : Nat)
  /-- TIME_HOLDOFF_EXPIRY (R476). -/
  | timeHoldoffExpiry
  /-- HOLDOVER_EXPIRY (R479). -/
  | holdoverExpiry
  /-- TIME_SET (R488). -/
  | timeSet (h : Header)
  /-- ALARM_FIRE (R482). -/
  | alarmFire (i : Nat)
  /-- POWER_APPLY (R495). -/
  | powerApply
  /-- INPUT_LOST (R492). -/
  | inputLost (n : Nat) (torn : Bool)
  /-- VIN_OUT_OF_RANGE (R493). -/
  | vinOutOfRange (mv : Nat) (fault : Bool)
  /-- VBUS_LOW (R491). -/
  | vbusLow (mv : Nat)
  /-- PLEVEL_CHANGE (R497). -/
  | plevelChange (late : List Nat)
  /-- POWER_CAP_WINDOW (R500). -/
  | powerCapWindow (mean : Nat)
  /-- THERMAL_TRIP (R502). -/
  | thermalTrip (zone : Nat)
  /-- MEM_HOT (R501). -/
  | memHot
  /-- WAKE_PIN (R510). -/
  | wakePin
  /-- WAKE_REPLAY (R510). -/
  | wakeReplay
  /-- PWR_PAD_RELEASE (R512). -/
  | pwrPadRelease (h : Header)
  /-- RESET_ASSERT (R523). -/
  | resetAssert (mask : Nat)
  /-- RESET_L0 (R524). -/
  | resetL0 (i unit : Nat)
  /-- AON_CLK (R520). -/
  | aonClk
  /-- RESET_SOURCE_RELEASE (R525). -/
  | resetSourceRelease (i : Nat)
  /-- RESET_STAGE_4 (R525). -/
  | resetStage4 (straps : Nat)
  /-- RESET_STAGE_3 (R525). -/
  | resetStage3 (trains : List StripTrain) (bist : List BistFind) (badField : List Nat) (badFactory : List (Nat × Nat))
  /-- RESET_STAGE_2 (R525). -/
  | resetStage2
  /-- RST_HOLD (R526). -/
  | rstHold
  /-- RST_CTRL_COLD (R531). -/
  | rstCtrlCold (h : Header)
  /-- RST_CTRL_WARM (R531). -/
  | rstCtrlWarm (h : Header)
  /-- MR4_POLL (R162). -/
  | mr4Poll (n : Nat) (answered hot : Bool)
  /-- WCK2DQ_CHECK (R163). -/
  | wck2dqCheck (n c : Nat) (drifted : Bool)
  /-- LPDDR_SCRUB (R168). -/
  | lpddrScrub (g : Nat) (ups : List Upset)
  /-- MEM_RETIRE_ADDR (R169). -/
  | memRetireAddr (h : Header) (dpa : Nat)
  /-- MEM_STRIP_OFFLINE (R172). -/
  | memStripOffline (h : Header) (n : Nat)
  /-- MEM_STRIP_RESTORE (R173). -/
  | memStripRestore (h : Header) (n : Nat) (r : StripTrain)
  /-- MEM_AS_REPAIR_ROW (R182). -/
  | memAsRepairRow (h : Header) (t bank row : Nat)
  /-- MEM_AS_REPAIR_COLUMN (R183). -/
  | memAsRepairColumn (h : Header) (t bank col : Nat)
  /-- AS_COLUMN_REPAIR (R183). -/
  | asColumnRepair (t : Nat)
  /-- SLICE_SCRUB (R180). -/
  | sliceScrub (t bank row : Nat) (ups : List Upset)
  /-- WISP_PERIOD (R550). -/
  | wispPeriod
  /-- WISP_RX (R551). -/
  | wispRx (eth : Option (List Byte))
  /-- CLAIM_MSG_RX (R543). -/
  | claimMsgRx (eth : Option (List Byte))
  /-- TAKEOVER_REPEAT (R552). -/
  | takeoverRepeat
  /-- ANNOUNCE_TIMER (R547). -/
  | announceTimer
  /-- TABLE_READY (R547). -/
  | tableReady
  /-- RED_CTRL_TAKEOVER (R552). -/
  | redCtrlTakeover (h : Header)
  /-- RED_CTRL_MIRROR_NOW (R554). -/
  | redCtrlMirrorNow (h : Header)
  /-- RED_ACC_ENTRY_WRITE (R547). -/
  | redAccEntryWrite (h : Header) (v : Nat)
  /-- MIRROR_PASS_START (R555). -/
  | mirrorPassStart
  /-- MIRROR_COMMIT (R555). -/
  | mirrorCommit
  /-- MIRROR_COMMIT_RX (R555). -/
  | mirrorCommitRx
  /-- MIRROR_UNIT_RX (R555). -/
  | mirrorUnitRx
  /-- SUP_SWITCHOVER (R559). -/
  | supSwitchover (pass : Bool)
  /-- SUP_SWITCHBACK (R560). -/
  | supSwitchback
  /-- STANDBY_SELFTEST (R561). -/
  | standbySelftest (pass : Bool)
  /-- PROBATION_RUNTIME (R575). -/
  | probationRuntime
  /-- PROBATION_EXPIRY (R578). -/
  | probationExpiry
  /-- SUP_SAVE (R579). -/
  | supSave (h : Header)
  /-- SMBUS_STATUS (R627). -/
  | smbusStatus
  /-- SMBUS_WAKE (R627). -/
  | smbusWake
  /-- SMBUS_WARM_RESET (R627). -/
  | smbusWarmReset (data : Nat)
  /-- SMBUS_COLD_RESET (R627). -/
  | smbusColdReset (data : Nat)
  /-- OWNER_INSTALL (R588). -/
  | ownerInstall (data : List Byte)
  /-- OWNER_INSTALL_CHECKED (R628). -/
  | ownerInstallChecked
  /-- OWNER_CLEAR (R588). -/
  | ownerClear
  /-- RECOVERY_REQ (R588). -/
  | recoveryReq
  /-- EVENT_SUBMIT (R599). -/
  | eventSubmit (code source : Nat) (payload : List Byte)
  /-- RECORD_WRITE (R597). -/
  | recordWrite
  /-- COALESCE_WINDOW_END (R599). -/
  | coalesceWindowEnd
  /-- FLASH_COPY (R601). -/
  | flashCopy (bad : Bool)
  /-- EVT_HEALTH (R609). -/
  | evtHealth
  /-- QUEUE_ENTRY_COMPLETION (R115). -/
  | queueEntryCompletion (t : Nat) (u : TileUnit) (k : Nat) (ups : List Upset)
  /-- MARKER_LOCK_GAINED (R250). -/
  | markerLockGained (i : Nat)
  /-- CHUNK_STAGED (R209). -/
  | chunkStaged (d n : Nat)
  /-- VBUS_RECOVERED (R491). -/
  | vbusRecovered (mv : Nat)
  /-- VIN_IN_RANGE (R493). -/
  | vinInRange (mv : Nat)
  /-- INLET_HOT (R502). -/
  | inletHot (hot : Bool)
  /-- COMMAND_HOLD_EXPIRY (R567). -/
  | commandHoldExpiry
deriving DecidableEq, Repr

end Sys2Proof
end

