-- ==== Sys2Proof/Decode.lean ====
section
/-!
DEFINITION. The command that a word spells by the opcode table's bits. The table gives no
row any bits, so no word spells a command; the words of tile programs (R111) are data of
the block, and Machine/Operands.lean reads them.
-/

namespace Sys2Proof

/-- The command that an opcode-table word spells: none, since no row gives bits. -/
def decodeTableWord (_nbits _w : Nat) : Option Instr := none

end Sys2Proof
end

