-- ==== Sys2Proof/Machine/Crc.lean ====
section
/-!
DEFINITION. CRC-32C (Castagnoli), as R13's standards table names it: reflected, initial
value and final exclusive-or all ones (PRESUMED, assumption 32).
-/

namespace Sys2Proof.Machine

/-- One bit of the CRC register. -/
def crcBit (c : W32) : W32 := if c.getLsbD 0 then (c >>> 1) ^^^ 0x82F63B78#32 else c >>> 1

/-- `n` bits of the CRC register. -/
def crcBits : Nat → W32 → W32
  | 0, c => c
  | n + 1, c => crcBits n (crcBit c)

/-- CRC-32C of bytes. -/
def crc32c (bs : List Byte) : Nat :=
  (~~~(bs.foldl (fun c b => crcBits 8 (c ^^^ BitVec.setWidth 32 b)) 0xFFFFFFFF#32)).toNat

end Sys2Proof.Machine
end

