-- ==== Sys2Proof/Machine/Fec.lean ====
section
/-!
DEFINITION. The line coding of a lane frame (R249, R251): the scrambler, and eight
interleaved Reed-Solomon RS(142,132) codewords over GF(256).
-/

namespace Sys2Proof.Machine

/-- R251: multiplication by alpha = 2 under x^8 + x^4 + x^3 + x^2 + 1. -/
def gfDouble (a : Nat) : Nat := if a < 128 then 2 * a else (2 * a) ^^^ 0x11D

/-- Multiplication over the low `n` bits of the second factor. -/
def gfMulBits : Nat → Nat → Nat → Nat
  | 0, _, _ => 0
  | n + 1, a, b => (if b % 2 = 1 then a else 0) ^^^ gfMulBits n (gfDouble a) (b / 2)

/-- Multiplication in GF(256). -/
def gfMul (a b : Nat) : Nat := gfMulBits 8 a b

/-- Powers in GF(256). -/
def gfPow (a : Nat) : Nat → Nat
  | 0 => 1
  | n + 1 => gfMul a (gfPow a n)

/-- alpha to a power. -/
def gfExp (n : Nat) : Nat := gfPow 2 (n % 255)

/-- The inverse of an element that is not 0. -/
def gfInv (a : Nat) : Nat := gfPow a 254

/-- A polynomial, its coefficient of lowest degree first, at a point. -/
def polyEval (p : List Nat) (x : Nat) : Nat := p.foldr (fun c r => c ^^^ gfMul x r) 0

/-- The sum of two polynomials. -/
def polyAdd : List Nat → List Nat → List Nat
  | [], q => q
  | p, [] => p
  | a :: p, b :: q => (a ^^^ b) :: polyAdd p q

/-- A polynomial times a constant. -/
def polyScale (c : Nat) (p : List Nat) : List Nat := p.map (gfMul c)

/-- The product of two polynomials. -/
def polyMul : List Nat → List Nat → List Nat
  | [], _ => []
  | a :: p, q => polyAdd (polyScale a q) (0 :: polyMul p q)

/-- R251: the generator, with roots alpha^0 to alpha^9, lowest degree first. -/
def rsGen : List Nat := (List.range 10).foldl (fun g i => polyMul g [gfExp i, 1]) [1]

/-- The parity of a fecWord's 132 bytes: ten bytes, highest degree first. -/
def rsParity (msg : List Nat) : List Nat :=
  let taps := (rsGen.take 10).reverse
  msg.foldl (fun r b =>
    let f := b ^^^ r.headD 0
    List.zipWith (fun a t => a ^^^ gfMul f t) (r.drop 1 ++ [0]) taps) (List.replicate 10 0)

/-- The syndromes of a fecWord whose first byte is the coefficient of highest degree. -/
def rsSyndromes (cw : List Nat) : List Nat :=
  (List.range 10).map (fun j => cw.foldl (fun r b => gfMul (gfExp j) r ^^^ b) 0)

/-- The state of the search for the error locator. -/
structure Locator where
  c : List Nat := [1]
  b : List Nat := [1]
  l : Nat := 0
  m : Nat := 1
  d : Nat := 1

/-- One step of the search, on syndrome `n`. -/
def locatorStep (syn : List Nat) (z : Locator) (n : Nat) : Locator :=
  let d := (List.range (z.l + 1)).foldl (fun r i => r ^^^ gfMul (z.c.getD i 0) (syn.getD (n - i) 0)) 0
  if d = 0 then { z with m := z.m + 1 }
  else
    let c := polyAdd z.c (List.replicate z.m 0 ++ polyScale (gfMul d (gfInv z.d)) z.b)
    if 2 * z.l ≤ n then { c := c, b := z.c, l := n + 1 - z.l, m := 1, d := d }
    else { z with c := c, m := z.m + 1 }

/-- R251: a fecWord of 142 bytes decoded: its bytes with at most five corrected, and how
many were; none where it does not decode. -/
def rsDecode (cw : List Nat) : Option (List Nat × Nat) :=
  let syn := rsSyndromes cw
  if syn.all (· = 0) then some (cw, 0)
  else
    let z := (List.range 10).foldl (locatorStep syn) {}
    let om := (polyMul syn z.c).take 10
    let dc := z.c.zipIdx.drop 1 |>.map (fun p => if p.2 % 2 = 1 then p.1 else 0)
    let fix := cw.zipIdx.map (fun p =>
      let x := gfExp (141 - p.2)
      let y := gfInv x
      if polyEval z.c y = 0 then
        gfMul x (gfMul (polyEval om y) (gfInv (polyEval dc y))) else 0)
    let out := List.zipWith (· ^^^ ·) cw fix
    if z.l ≤ 5 && (rsSyndromes out).all (· = 0) then some (out, (fix.filter (· ≠ 0)).length)
    else none

/-- The bytes of fecWord `w`: every eighth byte. -/
def fecWord (w : Nat) (bs : List Nat) : List Nat :=
  (bs.zipIdx.filter (fun p => p.2 % 8 = w)).map (·.1)

/-- Eight lists of one length dealt byte by byte. -/
def interleave (n : Nat) (ws : List (List Nat)) : List Nat :=
  (List.range n).flatMap (fun i => ws.map (fun w => w.getD i 0))

/-- R251: the 80 parity bytes of the 1,056 protected bytes. -/
def fecParity (bs : List Byte) : List Byte :=
  let ns := bs.map (·.toNat)
  (interleave 10 ((List.range 8).map (fun w => rsParity (fecWord w ns)))).map (BitVec.ofNat 8)

/-- R251: the 1,136 bytes of a frame decoded: the 1,056 protected bytes and how many bytes were
corrected; none where some fecWord does not decode. -/
def fecDecode (bs : List Byte) : Option (List Byte × Nat) :=
  let ns := bs.map (·.toNat)
  let ws := (List.range 8).map (fun w => rsDecode (fecWord w ns))
  if ws.all (·.isSome) then
    let got := ws.filterMap id
    some (((interleave 132 (got.map (·.1))).map (BitVec.ofNat 8)), (got.map (·.2)).sum)
  else none

/-- R249: the next `n` bits of the generator x^31 + x^28 + 1, least significant first, and its
state after (assumption 41). -/
def scrambleBits : Nat → Nat → Nat × Nat
  | 0, st => (0, st)
  | n + 1, st =>
    let b := (st / 2 ^ 30 + st / 2 ^ 27) % 2
    let r := scrambleBits n ((2 * st + b) % 2 ^ 31)
    (b + 2 * r.1, r.2)

/-- R249: bytes added to the generator's output from a state. -/
def scrambleFrom : Nat → List Byte → List Byte
  | _, [] => []
  | st, b :: bs =>
    let r := scrambleBits 8 st
    (b ^^^ BitVec.ofNat 8 r.1) :: scrambleFrom r.2 bs

/-- R249: the generator starts with its state at all ones after each marker. -/
def scramble (bs : List Byte) : List Byte := scrambleFrom (2 ^ 31 - 1) bs

end Sys2Proof.Machine
end

