-- ==== Sys2Proof/Config.lean ====
section
/-!
DEFINITION. What an implementation fixes and the spec leaves open: the free values. Each
is a constant without a body, so a claim that is proved holds for every value of it.
-/

namespace Sys2Proof

/-- A fresh free value of the module, by the count of free values drawn before it
(`State.fresh`): nonces (R440), key material (R587), measured values that no operand
carries. Assumption 5. -/
opaque Config.free : Nat → Nat

/-- R119, R26: the tile's own cycle count, by tile and by the count of free values drawn. -/
opaque Config.cycles : Nat → Nat → W32

/-- R131: the byte that an overlapping MOV leaves at an address of the overlap. -/
opaque Config.overlapByte : Nat → Nat → Byte

/-- R166: bits 10:0 of the check word of a granule, an extended Hamming code over its 64 bytes,
POISON and its place (strip, rank, bank sequence, row, slot). The spec does not give the code's
columns. -/
opaque Config.granCode : List Byte → Bool → List Nat → BitVec 11

/-- R177: the 9 check bits of a 16-byte word of a scratch or a slice. The spec does not give the
code's columns. -/
opaque Config.sramCode : List Byte → BitVec 9

/-- R217: nanoseconds of a tick in which the strip readers' queues were all full (0), and in which
the decompressor stood at its limit (1), by the tick: what the module's own timing decides. -/
opaque Config.busyNs : Nat → Nat → Nat

/-- R70: which of the values within the stated error bound an approximate function
returns, by the function (0 VRCP, 1 VRSQRT, 2 VEXP2, 3 VLOG2) and its input. -/
opaque Config.approxPick : Nat → W32 → Nat

/-- R70: the value of an approximate function where the manual states no bound (an input
that is not finite and normal, or that lies outside the function's domain). -/
opaque Config.approxOpen : Nat → W32 → W32

/-- R587, R589, R606: the signature that the key unit makes over bytes. -/
opaque Config.sign : List Byte → List Byte

/-- R587: the module's device certificate, its public key first. -/
opaque Config.certificate : List Byte

/-- R587: the identity public key, x then y. -/
opaque Config.identityKey : List Byte

/-- R586: the fused SHA-384 digest of each Euponal public key. -/
opaque Config.keyDigest : Nat → List Byte

/-- R589: the SHA-384 digest of the ROM. -/
opaque Config.romDigest : List Byte

/-- R568: the image with which the module was shipped in slot 0. -/
opaque Config.shippedImage : List Byte

/-- R413, R414: the values of the factory calibration record of a KIND and INDEX. -/
opaque Config.factoryCal : Nat → Nat → List Int

/-- R381, R384: a launch level in tenths of dBm as the launch photodiode of a laser reads it,
in string units, by the laser and the level. -/
opaque Config.launchUnits : Nat → Int → Int

/-- R368: the power of a transmit fibre in tenths of dBm, by the fibre (4 times the chiplet plus its
number) and the readings of its lasers' launch photodiodes. -/
opaque Config.fibrePower : Nat → List (Nat × Int) → Int

/-- R368: the bias, in 12 bits, at which a launch clamp holds a laser, by the laser and the reading of
its launch photodiode. -/
opaque Config.capBias : Nat → Int → Int

/-- R410: the die temperature above 50 °C at a chiplet by the time, in the unit of the temperature
coefficients. -/
opaque Config.dieTemp : Nat → Nat → Int

/-- R389: the index that CHANNEL gives a string that has no channel, by engine and string. -/
opaque Config.lutChannel : Nat → Nat → Nat

/-- R467: the module's base MAC address. -/
opaque Config.macBase : Nat

end Sys2Proof
end

