-- ==== Sys2Proof/Machine/Cells.lean ====
section
/-!
DEFINITION. Sparse maps in one canonical form: a list of (key, value) pairs whose keys
rise strictly and none of whose values is the default, which is what an unlisted key
holds. Every table of the module that is mostly at its reset value is held so.
-/

namespace Sys2Proof.Machine

/-- A sparse table from keys to values. -/
abbrev Cells (α : Type) := List (Nat × α)

/-- The value at a key; `d` where the key is not listed. -/
def Cells.get {α : Type} (d : α) : Cells α → Nat → α
  | [], _ => d
  | (k, v) :: m, i => if k = i then v else Cells.get d m i

/-- The table with key `i` holding `v`; writing the default removes the entry. -/
def Cells.set {α : Type} [DecidableEq α] (d : α) (m : Cells α) (i : Nat) (v : α) : Cells α :=
  m.filter (fun c => c.1 < i) ++ (if v = d then [] else [(i, v)]) ++
    m.filter (fun c => i < c.1)

/-- The table with the value at key `i` changed by `f`. -/
def Cells.upd {α : Type} [DecidableEq α] (d : α) (m : Cells α) (i : Nat) (f : α → α) : Cells α :=
  Cells.set d m i (f (Cells.get d m i))

/-- The canonical form: keys rise strictly and no value is the default. -/
def Cells.wf {α : Type} [DecidableEq α] (d : α) (m : Cells α) : Bool :=
  decide (m.Pairwise (fun a b => a.1 < b.1)) && m.all (fun c => decide (c.2 ≠ d))

end Sys2Proof.Machine
end

