-- ==== Sys2Proof/Machine/Bytes.lean ====
section
/-!
DEFINITION. Byte memory: a list of (address, byte) cells in one canonical form, addresses
rising strictly and no cell 0, which is what an unlisted address reads as.

The keys are the tile-local addresses of R81 with a PHYSICAL tile number in place of the
logical one: the scratch of physical tile t is at `scratchBase t`, its slice at
`sliceBase t`, LPDDR5X at `ddrBase` plus the device physical address.
-/

namespace Sys2Proof.Machine

/-- The byte at an address; 0 where nothing is listed (R165 for LPDDR5X; for the SRAMs a
DESIGN CHOICE, assumption 3). -/
def memByte (m : List Host.Cell) (a : Nat) : Byte := Cells.get 0 m a

/-- `n` bytes from address `a`. -/
def memRead (m : List Host.Cell) (a : Nat) : Nat → List Byte
  | 0 => []
  | n + 1 => memByte m a :: memRead m (a + 1) n

/-- The listed cells of bytes laid down from address `a`: the zero bytes are left out. -/
def memCells (a : Nat) : List Byte → List Host.Cell
  | [] => []
  | b :: bs => if b = 0 then memCells (a + 1) bs else (a, b) :: memCells (a + 1) bs

/-- Memory with bytes written from address `a`. -/
def memWrite (m : List Host.Cell) (a : Nat) (bs : List Byte) : List Host.Cell :=
  m.filter (fun c => c.1 < a) ++ memCells a bs ++ m.filter (fun c => a + bs.length ≤ c.1)

/-- Memory with `n` bytes from address `a` at 0. -/
def memClear (m : List Host.Cell) (a n : Nat) : List Host.Cell :=
  m.filter (fun c => c.1 < a) ++ m.filter (fun c => a + n ≤ c.1)

/-- The canonical form of byte memory. -/
def memWf (m : List Host.Cell) : Bool := Cells.wf 0 m

/-- R81: the tile windows start here and lie this far apart. -/
def windowBase : Nat := 0x010000000000
/-- R81. -/
def windowStride : Nat := 0x20000000
/-- R81: 512 KiB of scratch. -/
def scratchSize : Nat := 0x80000
/-- R81: the slice's place in a tile's own map and in its window. -/
def sliceOff : Nat := 0x10000000
/-- R81: 32 MiB of slice. -/
def sliceSize : Nat := 0x2000000
/-- R81: LPDDR5X starts here. -/
def ddrBase : Nat := 0x800000000000
/-- R159: 1,116 GiB of device physical addresses. -/
def ddrSize : Nat := 0x11700000000
/-- R159: 69.75 GiB a strip. -/
def stripSize : Nat := 0x1170000000
/-- The key of byte 0 of the scratch of physical tile `t`. -/
def scratchBase (t : Nat) : Nat := windowBase + t * windowStride
/-- The key of byte 0 of the slice of physical tile `t`. -/
def sliceBase (t : Nat) : Nat := windowBase + t * windowStride + sliceOff

end Sys2Proof.Machine
end

