-- ==== Sys2Proof/Machine/State.lean ====
section
/-!
DEFINITION. The state of the module as plain data: every register, memory, queue, mode
and mark that the spec gives it, its state right after reset, and the reasons a step can
stop. Sparse tables are lists of (key, value) pairs in the canonical form of
Machine/Cells.lean; a register that has a register-map row and no machinery of its own
lives in `regs`, keyed by its address, and reads its Reset value where it is not listed.
-/

namespace Sys2Proof.Machine

/-- The reasons a command stops the block. -/
inductive Fault where
  /-- Raised by no command of this model: kept so that the interface is closed. Safe. -/
  | unreachable
deriving DecidableEq, Repr

/-- The reasons a command is refused. -/
inductive Refusal where
  /-- Raised by an arm of `exec` whose command has no meaning yet. Safe. -/
  | notModelled (mnemonic : String)
deriving DecidableEq, Repr

/-- A command that has started: its session and sequence number. -/
structure CmdRef where
  session : Nat
  seq : Nat
deriving DecidableEq, Repr

/-! ### The Peat log (chapter 20) -/

/-- One event as the recorder takes it (R595, R596). -/
structure LogRec where
  code : Nat
  source : Nat
  /-- Time in force at the first occurrence, in nanoseconds. -/
  time : Nat
  valid : Bool
  /-- Stamp at the last occurrence. -/
  last : Nat
  boot : Nat
  reps : Nat := 0
  /-- REPEAT_SAT. -/
  sat : Bool := false
  /-- R599: a closed record takes no more repeats. -/
  closed : Bool := false
  payload : List Byte
deriving DecidableEq, Repr

/-- A record in flash: its segment, its SEQ and its 64 bytes. -/
structure FlashRec where
  seg : Nat
  seq : Nat
  bytes : List Byte
  /-- It fails its CRC when it is read back (R602). -/
  torn : Bool := false
  /-- Its first failed read has been counted. -/
  counted : Bool := false
deriving DecidableEq, Repr

/-- The header of a flash segment (R601): its number, the SEQ of its first record, the
chain before that record. -/
structure FlashSeg where
  seg : Nat
  first : Nat
  chain : List Byte
deriving DecidableEq, Repr

/-- Totals since manufacture (R609), kept among the durable records. -/
structure Totals where
  tilesRetired : Nat := 0
  lasersSwapped : Nat := 0
  rowsRetired : Nat := 0
  sliceRepairs : Nat := 0
deriving DecidableEq, Repr

/-- The event recorder (R595 to R612). -/
structure Peat where
  /-- The staging queue, oldest first; 16 entries, and EVT_SEALED beyond (R597, R606). -/
  queue : List LogRec
  /-- The ring: SEQ and record, oldest first, at most 16,384 (R598). -/
  ring : List (Nat × LogRec)
  /-- NEXT: the SEQ of the next record. -/
  next : Nat
  /-- Events lost since the queue last emptied (R600), with TIME and TIME_VALID at the
  first loss and LAST at the last. -/
  lost : Nat
  lostTime : Nat
  lostValid : Bool
  lostLast : Nat
  boot : Nat
  flash : List FlashRec
  segs : List FlashSeg
  /-- The chain value C of R602. -/
  chain : List Byte
  /-- SEQ of the next record that the flash writer copies. -/
  copyNext : Nat
  /-- Segments out of use (EVT_FLASH_FAULT). -/
  badSegs : List Nat
  /-- A seal in progress: the SEQ to copy up to, with its nonce and the reply owed. -/
  seals : List (Nat × List Byte × CmdRef)
  totals : Totals
  /-- The run time of the last EVT_HEALTH record, and the LEVELs of the margins when they were last
  looked at (R609). -/
  healthAt : Nat
  levels : List Nat
deriving DecidableEq, Repr

/-! ### Tiles (chapters 2, 3 and 4) -/

/-- R92. -/
inductive TileCode where
  | spare | ready | running | halted | faulted | retired | testing
deriving DecidableEq, Repr

/-- Why a tile is in TESTING: a plain self-test, a restore (R98), the policy's test of a
FAULTED tile (R100), the 24 h test of a spare (R100). -/
inductive TestKind where
  | plain | restore | policy | spare
deriving DecidableEq, Repr

/-- What the scalar core waits in (R132, R135, R142). -/
inductive Wait where
  | none
  /-- SYWAIT on an object until it reaches a threshold. -/
  | sync (obj thr : Nat)
  /-- An operation has brought the object to the threshold (R222). -/
  | syncDone
  /-- STAKE on a descriptor, into an address register. -/
  | stake (desc d : Nat)
  /-- HALT, until every queue is empty. -/
  | halt
  /-- The job is ending: nothing is issued, started entries complete (R140, R154). -/
  | stop
deriving DecidableEq, Repr

/-- An entry of a matrix, vector, mover or fabric queue: the instruction word, its address
and its place in program order. -/
structure QEntry where
  word : W64
  pc : Nat
  seq : Nat
  /-- Fabric entries: handed to the fabric, waiting for the last acknowledgement (R235). -/
  handed : Bool := false
  /-- A handed FPUT whose units have gone without an acknowledgement (R235, R278). -/
  cut : Bool := false
deriving DecidableEq, Repr

/-- An exception that has been raised (R138 to R140). -/
structure Trap where
  cause : Nat
  unit : Nat
  pc : Nat
  addr : Nat
  flags : Nat
deriving DecidableEq, Repr

/-- One physical tile (R76, R92, R110, R119, R158). -/
structure Tile where
  code : TileCode
  logical : Option Nat
  /-- The logical number that it held before it last retired (R98). -/
  former : Option Nat := none
  /-- The router is marked failed (R86, R107). -/
  routerFailed : Bool := false
  test : TestKind := .plain
  /-- A module-wide reset stopped the self-test (R106). -/
  testStopped : Bool := false
  -- the program state
  pc : Nat := 0
  s : Cells W32 := []
  a : Cells W48 := []
  v : Cells (List W32) := []
  acc : Cells (List W32) := []
  trapEn : BitVec 6 := 0#6
  arg : W32 := 0#32
  codeLen : Nat := 0
  rowStride : W32 := 0#32
  colStride : W32 := 0#32
  mvRows : W32 := 0#32
  mvSrc : W32 := 0#32
  mvDst : W32 := 0#32
  srng : BitVec 16 := 0xACE1#16
  flags : BitVec 6 := 0#6
  -- issue and the queues (R115)
  mq : List QEntry := []
  vq : List QEntry := []
  oq : List QEntry := []
  fq : List QEntry := []
  issued : Nat := 0
  wait : Wait := .none
  /-- Raised and not yet recorded by TILE_TRAPPED. -/
  trap : Option Trap := none
  -- registers of R110 and R158
  cmdRej : Bool := false
  err : BitVec 9 := 0#9
  ceCount : Nat := 0
  stDone : Bool := false
  stPass : Bool := false
  stUnits : BitVec 8 := 0#8
  trapValid : Bool := false
  trapReg : Trap := ⟨0, 0, 0, 0, 0⟩
  haltPc : Nat := 0
  /-- c0 to c7 as the last job left them (R158); empty before any job has. -/
  lastC : List W32 := []
  -- the tile policy (R100, R184)
  /-- Run times of its faults. -/
  faultTimes : List Nat := []
  ceTimes : List Nat := []
  lastTest : Nat := 0
  /-- Retired when the running job completes (R100, R184). -/
  retireDue : Bool := false
  /-- The policy of R100 is due when the job has ended: to retire, or to self-test. -/
  policyDue : Option Bool := none
deriving DecidableEq, Repr

/-! ### The job (chapters 1 and 4) -/

/-- A TILE_TABLE entry as the module keeps it (R146). -/
structure JobTile where
  ltile : Nat
  seed : Nat
  codeLen : Nat
  entry : Nat
  arg : Nat
deriving DecidableEq, Repr

/-- A stream descriptor (R190). -/
structure StreamDesc where
  kind : Nat
  group : Nat
  leader : Nat
  format : Nat
  kb : Nat
  nbuf : Nat
  prefetch : Nat
  bufAddr : Nat
  nchunk : Nat
  mask : Nat
  sync : Nat
  stripOff : Nat
  sliceOff : Nat
  len : Nat
deriving DecidableEq, Repr

/-- A collective descriptor (R313). -/
structure CollDesc where
  op : Nat
  ring : Bool
  osum : Bool
  /-- Symbols per element: 1, 2, 4 or 8. -/
  integ : Nat
  degFail : Bool
  fmt : Nat
  slot : Nat
  podA : Nat
  podB : Nat
  maskA : Nat
  maskB : Nat
  count : Nat
  root : Nat
  sync : Nat
  addend : Nat
  degObj : Nat
deriving DecidableEq, Repr

/-- Why a job ends: 0 COMPLETE, 1 ABORTED, 2 TRAP, 3 TILE_FAULT (R156), with the tile, its
logical number and the cause for 2 and 3. -/
structure JobEnd where
  status : Nat
  tile : Nat := 0
  ltile : Nat := 0
  cause : Nat := 0
deriving DecidableEq, Repr

/-- The job (R18 to R20, R143 to R157). -/
structure Job where
  loaded : Bool
  launched : Bool
  /-- The job is ending, for the cause seen first. -/
  ending : Option JobEnd
  /-- The tick at which the cause was seen (R155). -/
  endTick : Nat := 0
  /-- Its tiles, streams and collectives stop once the phase switch in progress has completed
  (R39). -/
  stopDue : Bool := false
  jobId : Nat
  tiles : List JobTile
  groups : List (Nat × List Nat)
  streams : List StreamDesc
  colls : List CollDesc
deriving DecidableEq, Repr

/-! ### Memory (chapter 5) -/

/-- The error mark of a granule of LPDDR5X or a 16-byte word of a scratch or a slice. -/
inductive Mark where
  | clean
  /-- A single-bit error not yet read, at a bit of the stored word. -/
  | single (bit : Nat)
  /-- A double-bit or wrong-address error not yet read. -/
  | double
  /-- POISON (R166), or a word marked uncorrectable (R179). -/
  | bad
deriving DecidableEq, Repr

/-- R172. -/
inductive StripCode where
  | online | degraded | offline | training
deriving DecidableEq, Repr

/-- One LPDDR5X strip (R164 to R174). A row is named by 4 times its row set plus its
channel. -/
structure Strip where
  code : StripCode
  slow : Bool := false
  pprLeft : Nat := 0
  patch : List Nat := []
  lost : List Nat := []
  /-- The retired list of the settings store: rows not yet repaired. -/
  retired : List Nat := []
  /-- Rows with corrected errors: the row and the run times of its errors (R168). -/
  ceRows : List (Nat × List Nat) := []
  /-- Uncorrectable rows with their run times (R172). -/
  ueRows : List (Nat × Nat) := []
  mrMiss : Nat := 0
  ueCount : Nat := 0
  ceCount : Nat := 0
  /-- The cause codes of R641 recorded since the strip was last ONLINE. -/
  cause : Nat := 0
deriving DecidableEq, Repr

/-- The repair state of one slice (R176 to R185). -/
structure SliceRep where
  ce : Nat := 0
  /-- Spare rows used, and spare columns used, by bank. -/
  rows : Cells Nat := []
  cols : Cells Nat := []
  sparesOut : Bool := false
  bistFail : Bool := false
  /-- Rows of the maps that a spare stands in for, as bank * 2048 + row. -/
  repaired : List Nat := []
  repairedCols : List Nat := []
  /-- Corrected errors: bank * 2048 + row, bank * 4384 + bit-column, run time. -/
  ceLog : List (Nat × Nat × Nat) := []
  /-- Columns waiting for the job to end, as bank * 4384 + bit-column. -/
  colDue : List Nat := []
deriving DecidableEq, Repr

/-- The memories. `cells` is keyed as Machine/Bytes.lean says; `words` marks 16-byte words
of the SRAMs by their key over 16, `gran` marks granules by DPA over 64. -/
structure Mem where
  cells : List Host.Cell
  words : Cells Mark
  gran : Cells Mark
  strips : List Strip
  slices : Cells SliceRep
  errValid : Bool
  errType : Nat
  errWhere : Nat
  /-- Slices waiting to be copied: the retired tile, and the logical number that it held
  (R99 step 5). -/
  migrate : List (Nat × Nat)
deriving DecidableEq, Repr

/-! ### Weight streams (chapter 6) -/

/-- The state of one landing buffer in one member tile (R193). -/
inductive BufCode where
  | empty | full | taken
deriving DecidableEq, Repr

/-- A landing buffer: its state and, where any block in it is poisoned, the DPA of the
first failing granule (R214). -/
structure Buf where
  code : BufCode
  poison : Option Nat := none
deriving DecidableEq, Repr

/-- A chunk read and decoded: its delivered bytes, the DPA that R214 reports where any
block of it was poisoned under R213, and the bytes that it takes in staging. -/
structure Chunk where
  bytes : List Byte := []
  poison : Option Nat := none
  size : Nat := 0
deriving DecidableEq, Repr

/-- A pass of a descriptor: running, queued or held. -/
structure Pass where
  /-- The delivery context it holds; none while it waits in the queue or is held. -/
  ctx : Option Nat := none
  /-- Order of SSTART. -/
  order : Nat := 0
  /-- Chunk number, counted from launch, of the pass's chunk 0. -/
  first : Nat := 0
  /-- Chunks of the pass read so far. -/
  read : Nat := 0
  /-- Chunks whose writing has begun, and chunks FULL in every member. -/
  begun : Nat := 0
  done : Nat := 0
  /-- Members that have not yet received the last byte of the chunk being written. -/
  writing : List Nat := []
  cur : Chunk := {}
  /-- Read offset beyond STRIP_OFF, by strip. -/
  offs : Cells Nat := []
  /-- Strips lost to the pass (R213), with the DPA of the failing granule. -/
  lost : Cells Nat := []
  /-- Chunks in prefetch staging, oldest first. -/
  staged : List Chunk := []
deriving DecidableEq, Repr

/-- One stream descriptor at run time. -/
structure Stream where
  pass : Option Pass := none
  held : Option Pass := none
  /-- Passes started since launch. -/
  starts : Nat := 0
  /-- Chunks taken, and freed, by each member tile (logical number). -/
  taken : Cells Nat := []
  freed : Cells Nat := []
  /-- Buffers, keyed member * 8 + buffer. -/
  bufs : Cells Buf := []
deriving DecidableEq, Repr

/-- The weight stream engine. -/
structure Wse where
  streams : Cells Stream
  order : Nat
  ue : Nat
  bad : Nat
  errValid : Bool
  errType : Nat
  errDesc : Nat
  errDpa : Nat
deriving DecidableEq, Repr

/-! ### Sync objects (chapter 7) -/

/-- The receiving side of one remote operation stream: the next sequence number, and the
FPUT in progress: the twin whose bytes are taken, and the bytes written so far. -/
structure RemoteIn where
  next : Nat := 0
  supplier : Option Nat := none
  /-- The object that it names. -/
  object : Nat := 0
  got : Nat := 0
  /-- The member of the pair from which a restart has moved the FPUTs (R234, R238). -/
  lost : Option Nat := none
deriving DecidableEq, Repr

/-- An FPUT sent in twin mode, as RESTART repeats it (R234, R553). -/
structure PutOut where
  opseq : Nat
  src : Nat
  dst : Nat
  length : Nat
  object : Nat
  pc : Nat
deriving DecidableEq, Repr

/-- The sync unit. -/
structure Sync where
  objs : Cells W64
  /-- Keyed by source (the lower member of a twin pair) * 256 + tile. -/
  remote : Cells RemoteIn
  /-- Next outgoing operation number, keyed destination * 256 + tile. -/
  outSeq : Cells Nat
  /-- The last FPUT sent in twin mode, by destination * 256 + tile. -/
  puts : Cells (Option PutOut)
  /-- OPSEQ + 1 of the last FPUT that a check of R230 discarded, by source * 256 + tile. -/
  refused : Cells Nat
  /-- Sources already recorded while this module is FENCED (R239). -/
  fencedSeen : List Nat
deriving DecidableEq, Repr

/-! ### The host interface (chapter 14) -/

/-- A reply, or a packet of the module's own, as it leaves. -/
structure Reply where
  port : Nat
  src : Nat
  opcode : Nat
  session : Nat
  seq : Nat
  status : Nat
  claim : Nat
  payload : List Byte
deriving DecidableEq, Repr

/-- R431: an answer below ZCP as it leaves: to an ARP request, a Neighbour Solicitation or an Echo
Request, from the address asked for. -/
inductive IpKind where
  | arp | neighbour | echo
deriving DecidableEq, Repr

/-- Such an answer with its port, the source answered, the address and the data of an echo. -/
structure IpAnswer where
  kind : IpKind
  port : Nat
  src : Nat
  target : Nat
  data : List Byte
deriving DecidableEq, Repr

/-- A command received and not started, with the sources of its copies (R445, R448). -/
structure HeldCmd where
  hdr : Header
  cmd : HostCmd
  copies : List ReplyTo
deriving DecidableEq, Repr

/-- A command started and not complete (a background command). -/
structure OpenCmd where
  hdr : Header
  cmd : HostCmd
  /-- Sources of its copies (R448). -/
  copies : List ReplyTo
  /-- A serial command: nothing starts before it completes (R446). -/
  serial : Bool
deriving DecidableEq, Repr

/-- A completed command and its cached reply (R445). -/
structure DoneCmd where
  hdr : Header
  cmd : HostCmd
  status : Nat
  payload : List Byte
deriving DecidableEq, Repr

/-- A SESSION_OPEN evaluation of the last 10 s; the 8 most recent are kept (R442, R449). -/
structure OpenEval where
  seq : Nat
  crc : Nat
  status : Nat
deriving DecidableEq, Repr

/-- A bulk transfer in progress (R460 to R464). -/
structure Bulk where
  /-- The session and sequence number of its command. -/
  cmd : CmdRef
  write : Bool
  space : Nat
  /-- Physical tile for spaces 1 and 2. -/
  tile : Nat
  addr : Nat
  len : Nat
  /-- Write: blocks received. Read: blocks acknowledged. -/
  got : List Nat := []
  /-- Read: blocks sent. -/
  sent : Nat := 0
  /-- Read: blocks may be sent below this. -/
  window : Nat := 0
  /-- Poisoned or discarded places met: how many, and the first. -/
  bad : Nat := 0
  firstBad : Nat := 0
  /-- Read: the last place counted, so that a granule in two blocks counts once (R175). -/
  lastBad : Option Nat := none
  /-- A strip went OFFLINE under it (R186). -/
  offline : Bool := false
  sinceAck : Nat := 0
deriving DecidableEq, Repr

/-- One Ethernet port. -/
structure Port where
  link : Bool := false
  anDone : Bool := false
  trained : Bool := false
  fecLock : Bool := false
deriving DecidableEq, Repr

/-- The host interface. -/
structure HostIf where
  ports : List Port
  lostA : Bool
  lostB : Bool
  open_ : Bool
  session : Nat
  next : Nat
  held : List HeldCmd
  started : List OpenCmd
  done : List DoneCmd
  nonce : List Byte
  evals : List OpenEval
  /-- The session's source seen most recently on networks A and B (R432). -/
  seenA : Option ReplyTo
  seenB : Option ReplyTo
  bulks : List Bulk
  /-- Run time of the session's last packet, by port (R462). -/
  portSeen : Cells Nat
  /-- The port that sent the last read block. -/
  robin : Nat
  /-- Commands held during a switch-over (R459, R567). -/
  switching : Bool
  /-- What the module has sent: replies and bulk packets, oldest first. -/
  out : List Reply
  /-- What it has answered below ZCP (R431), oldest first. -/
  answers : List IpAnswer
deriving DecidableEq, Repr

/-! ### The time base (chapter 15) -/

/-- R475. -/
inductive DomCode where
  | disabled | listening | acquiring | locked | lost
deriving DecidableEq, Repr

/-- A domain: its master and its servo (R474, R475). -/
structure Domain where
  code : DomCode := .disabled
  /-- Announce data by clock identity: the comparison key of the best master clock
  algorithm, and the messages received since the record was made. -/
  masters : List (Nat × List Nat × Nat) := []
  /-- clockIdentity of the chosen master. -/
  master : Option Nat := none
  /-- A two-step Sync that waits for its Follow_Up: sequence, ingress time. -/
  waiting : Option (Nat × Int) := none
  /-- Master to slave: the last Sync's ingress time less its origin time, ns. -/
  down : Option Int := none
  /-- The port of the master's latest Sync. -/
  port : Nat := 0
  /-- The last Delay_Req sent: sequence number and egress time. -/
  req : Option (Nat × Int) := none
  reqSeq : Nat := 0
  /-- The running time of the last Delay_Req (R472). -/
  reqAt : Option Nat := none
  path : Int := 0
  /-- Time in force less the domain's time. -/
  offset : Int := 0
  /-- The last 16 offset estimates, newest first. -/
  est : List Int := []
  /-- Estimates in a row more than 10 microseconds from the servo's prediction. -/
  far : Nat := 0
  /-- LOCKED continuously for HOLDOFF_S. -/
  held : Bool := false
deriving DecidableEq, Repr

/-- An alarm (R481). -/
structure Alarm where
  enable : Bool := false
  wake : Bool := false
  periodic : Bool := false
  sec : Nat := 0
  ns : Nat := 0
  period : Nat := 0
  /-- A step of the time has passed its instant: it fires late (R478). -/
  passed : Bool := false
deriving DecidableEq, Repr

/-- The time base. -/
structure TimeB where
  /-- The time in force: seconds, nanoseconds and 2^-32 nanoseconds (R468). -/
  sec : Nat
  ns : Nat
  frac : Nat
  valid : Bool
  /-- Ticks of the 50 MHz oscillator since manufacture: run time is 20 ns a tick. -/
  ticks : Nat
  /-- The correction added at each tick, in units of 2^-32 ns. -/
  corr : Int
  /-- TIME_NOW_NS. -/
  latch : Nat
  /-- 0 holdover, 1 primary, 2 secondary. -/
  source : Nat
  switches : Nat
  domains : List Domain
  cmdRej : Bool
  alarms : List Alarm
  fired : List Nat
  late : List Nat
deriving DecidableEq, Repr

/-! ### The reset controller (chapter 17) -/

/-- The reset controller (R518 to R534). -/
structure Rst where
  /-- RST_CAUSE, a bit for each source of R521. -/
  cause : BitVec 20
  /-- RST_ACTIVE: sources asserted. -/
  active : BitVec 20
  /-- Sources that a command has raised and whose assertion has yet to run. -/
  raised : BitVec 20
  /-- The highest level whose assertion sequence has run in the reset in progress; 0 when
  none is in progress. -/
  level : Nat
  /-- The hold point at which recovery stands: 4, 3 or 2; 0 when none is in progress. -/
  point : Nat
  /-- RST_STATUS.HOLD. -/
  hold : Nat
  /-- RST_STATUS.LAST. -/
  last : Nat
  assertStamp : Nat
  doneStamp : Nat
  /-- Full time at step 1, for RST_DONE. -/
  assertTime : Nat
  /-- The controller runs from the RC oscillator (R520). -/
  rcClock : Bool
  /-- ALERT_N is asserted (R530). -/
  alert : Bool
  /-- RST_OUT_N is asserted (R620, R622). -/
  rstOut : Bool
  /-- PWRGD_OUT is driven high (R620). -/
  pwrGood : Bool
  /-- Stage 2 has ended since the last module-wide reset (GEN_STATUS.READY). -/
  ready : Bool
  /-- Laser and ring drivers whose L0 reset has been raised to a module-wide level: their own recovery
  runs after stage 2 (R522). -/
  absorbed : List Nat
deriving DecidableEq, Repr

/-! ### Power (chapter 16) -/

/-- A transition between power states that has begun (R507 to R511). -/
structure PwrTrans where
  origin : Nat
  target : Nat
  /-- Entry steps still to run, in order. -/
  steps : List Nat
  /-- The PWR_SET_STATE that asked; none for a request from the pending slot. -/
  cmd : Option CmdRef
deriving DecidableEq, Repr

/-- Power, P-levels and sleep states. -/
structure Pwr where
  /-- 0 RUN, 1 IDLE, 2 DOZE, 3 DORMANT, 4 STANDBY. -/
  current : Nat
  trans : Option PwrTrans
  pend : Option Nat
  lastResult : Nat
  effective : Nat
  ceiling : Nat
  /-- Requests of strings 0 to 15, and of strings 16 and 17. -/
  zones : List Nat
  cap : Nat
  curr : Nat
  limiter : Nat
  memHot : Bool
  /-- Devices that reported over-temperature at their last poll, by strip. -/
  hotDevs : List Nat
  vinRange : Bool
  inletHot : Bool
  busLow : Bool
  /-- VBUS is below 11.5 V, and below 10.5 V. -/
  raiseHeld : Bool
  stretch : Bool
  /-- The tile clocks are stopped by a thermal trip. -/
  tripped : Bool
  refuserValid : Bool
  refuser : Nat
  wakePending : List Nat
  wakeSeen : List Nat
  padHeld : Bool
  /-- Power is applied, and power good has been given (R495). -/
  applied : Bool
  pinDw : Nat
deriving DecidableEq, Repr

/-! ### The optical fabric (chapters 8 and 9) -/

/-- STATE of FAB_LANE (R282). -/
inductive LaneCode where
  | dark | idle | inSet | fault | darkWindow | hold
deriving DecidableEq, Repr

/-- STATE of FAB_RXCH (R282). -/
inductive RxCode where
  | off | listen | inSet | fault | darkWindow | hold
deriving DecidableEq, Repr

/-- One lane (R243, R248). -/
structure Lane where
  code : LaneCode := .dark
  channel : Nat := 0
  /-- Last fault reason of R266. -/
  reason : Nat := 0
  dest : Nat := 0
  /-- The plan slot whose phase in force uses the lane. -/
  slot : Option Nat := none
  /-- PHASE_TAG of its frames. -/
  tag : Nat := 0
  /-- Released in the phase switch in progress (R302 step 3). -/
  rel : Bool := false
  /-- Blanked and retuned, not yet confirmed by the referee (R302 steps 4 and 5). -/
  retune : Bool := false
  /-- LSNs of its replay buffer, oldest first (R261). -/
  buf : List Nat := []
  /-- The time at which it was released, ns (R302). -/
  relAt : Nat := 0
  /-- FAULT or DARK_WINDOW, kept through a phase that does not use the lane (R268). -/
  away : Option LaneCode := none
  /-- The turn of the FAULT reports of its frames (R266). -/
  faultTurn : Nat := 0
  /-- The frame on the line: 1,152 bytes (R248). -/
  frame : List Byte := []
deriving DecidableEq, Repr

/-- One receive channel (R243, R247). -/
structure RxCh where
  code : RxCode := .off
  channel : Nat := 0
  reason : Nat := 0
  source : Nat := 0
  slot : Option Nat := none
  tag : Nat := 0
  rel : Bool := false
  /-- Marker lock (R250). -/
  lock : Bool := false
  /-- The end mark of R301 has arrived. -/
  ended : Bool := false
  /-- The frames that arrive carry HOLD (R266). -/
  held : Bool := false
  /-- Out of service for WRONG_SOURCE: returns as R257 states. -/
  stuck : Bool := false
  /-- FAULT or DARK_WINDOW, kept through a phase that does not use the channel (R268). -/
  away : Option RxCode := none
  /-- Times of its uncorrectable frames of the last millisecond, ns (R266). -/
  uncorr : List Nat := []
  /-- The time at which it was released, ns (R302). -/
  relAt : Nat := 0
deriving DecidableEq, Repr

/-- A unit of a DATA payload (R255). `ext` is bytes 26 to 31 of its header. -/
structure FabUnit where
  kind : Nat
  stream : Nat
  opseq : Nat
  addr : Nat := 0
  offset : Nat := 0
  total : Nat := 0
  object : Nat := 0
  ext : Nat := 0
  data : List Byte := []
deriving DecidableEq, Repr

/-- Whose unit it is, for the rules that wait for an acknowledgement. -/
inductive UnitOwner where
  | tile (l seq : Nat)
  | coll (desc num : Nat)
  | mirror
  | message
deriving DecidableEq, Repr

/-- A unit on its way out. -/
structure OutUnit where
  u : FabUnit
  own : UnitOwner
deriving DecidableEq, Repr

/-- A DATA frame sent and not yet acknowledged: its LSN, the lane that sent it last, its
units. -/
structure DataFrame where
  lsn : Nat
  lane : Nat
  units : List OutUnit
  /-- The chiplet of the faulty lane from which it is to be resent (R258). -/
  lost : Option Nat := none
deriving DecidableEq, Repr

/-- A lane set and the opposite one (R259 to R265). -/
structure LaneSet where
  dest : Nat
  opened : Bool := false
  closed : Bool := false
  /-- It has died (R269). -/
  dead : Bool := false
  nextLsn : Nat := 0
  /-- The last ACK_LSN received. -/
  ackLsn : Nat := 0
  queue : List OutUnit := []
  frames : List DataFrame := []
  /-- LSNs to be resent, in the order of resending. -/
  resend : List Nat := []
  /-- The lane that took the last new frame (R262). -/
  turn : Nat := 256
  /-- Receiving: the lowest LSN not yet received, and frames held beyond it. -/
  rxNext : Nat := 0
  rxHeld : List (Nat × List Byte) := []
  nak : Option Nat := none
deriving DecidableEq, Repr

/-- A phase record (R286): channels by lane and receive channel, 256 each; far pods by
plane (TX_POD, RX_POD). -/
structure Phase where
  trig : Nat
  object : Nat
  step : Nat
  value : Nat
  osum : Nat
  lanes : List (Option Nat)
  rxs : List (Option Nat)
  spine : List (Option (Nat × Nat))
deriving DecidableEq, Repr

/-- A colour plan (R285). -/
structure Plan where
  loop : Bool
  mask : Nat
  period : Nat
  id : Nat
  phases : List Phase
deriving DecidableEq, Repr

/-- R284. -/
inductive SlotCode where
  | empty | loaded | armed
deriving DecidableEq, Repr

/-- What a phase switch leads to: another phase, or out of the plan for a reason. -/
inductive SwitchTo where
  | phase (q : Nat)
  | leave (reason : Nat)
deriving DecidableEq, Repr

/-- A resident plan slot. -/
structure PlanSlot where
  code : SlotCode := .empty
  plan : Option Plan := none
  phase : Nat := 0
  loops : Nat := 0
  t0 : Nat := 0
  bias : Nat := 0
  /-- A trigger has fired and not every lane has been released (R302). -/
  switching : Option SwitchTo := none
  /-- The switch leads from the empty phase into phase 0 (R292). -/
  starting : Bool := false
  /-- A disarm waits for the switch in progress (R309). -/
  disarmDue : Bool := false
  /-- The SYNC trigger's comparison has held (R222, R296). -/
  fired : Bool := false
  sets : List LaneSet := []
  /-- Sets of the phase being entered. -/
  newSets : List LaneSet := []
deriving DecidableEq, Repr

/-- A unit delivered in LSN order, with the header fields that R230 checks. -/
structure InUnit where
  src : Nat
  dest : Nat
  claim : Nat
  u : FabUnit
deriving DecidableEq, Repr

/-- STATE of FAB_NEIGH (R276, R282). -/
inductive NeighCode where
  | unknown | present | unplanned | absent | quarantined
deriving DecidableEq, Repr

/-- A slot of the neighbour table. -/
structure Neigh where
  code : NeighCode := .unknown
  heard : Bool := false
  confirmed : Bool := false
  planned : Bool := false
  id : Nat := 0
deriving DecidableEq, Repr

/-- What discovery has received on a slot from one source (R274 to R276). -/
structure HeardRec where
  plane : Nat
  channel : Nat
  src : Nat
  dest : Nat
  tag : Nat
  /-- Frames counted in rounds 0 to 3, and 4 to 7. -/
  early : Nat := 0
  late : Nat := 0
  /-- HEARD_MASK and DUP_ID of its frames in rounds 4 to 7. -/
  mask : Nat := 0
  dups : List Nat := []
deriving DecidableEq, Repr

/-- A discovery (R272 to R276). `code` is DISC of FAB_MOD_STATUS. -/
structure Disc where
  code : Nat := 0
  round : Nat := 0
  start : Nat := 0
  mask : Nat := 0
  pods : Nat := 0
  tags : List Nat := []
  remote : List Nat := []
  heard : List HeardRec := []
  cmd : CmdRef := ⟨0, 0⟩
deriving DecidableEq, Repr

/-- A dark window accepted (R305): its plane, start and end. -/
structure DarkWin where
  plane : Nat
  start : Nat
  finish : Nat
  isOpen : Bool := false
deriving DecidableEq, Repr

/-- The optical fabric. -/
structure Fab where
  lanes : List Lane
  rxs : List RxCh
  slots : List PlanSlot
  neigh : Cells Neigh
  disc : Disc
  quar : Bool
  quarReason : Nat
  cfgRej : Bool
  windows : List DarkWin
  /-- Planes that wait for a dark window after a change of far pods (R308). -/
  spineWait : List Nat
  /-- Planes that begin to wait as their elements are released in the switch in progress (R308). -/
  spineNext : List Nat
  /-- Units delivered and not yet applied, oldest first. -/
  inbox : List InUnit
  maxGap : Nat
  late : Nat
  switches : Nat
  /-- The counts of FAB_DISC_SUMMARY: PRESENT, ABSENT, UNPLANNED, QUARANTINED. -/
  summary : List Nat
deriving DecidableEq, Repr

/-! ### The collective engine (chapter 10) -/

/-- A reduction slot (R326): the segment of the own shard, its partial sums, and by rank how
many elements are still to be added. -/
structure RedSlot where
  seg : Nat
  acc : List W32
  left : List (Nat × Nat)
deriving DecidableEq, Repr

/-- A module with which an instance exchanges units: its rank, the elements and spans of the
stream to it already sent, the segments that it has granted, and those granted to it. -/
structure CollPeer where
  module : Nat
  rank : Nat
  sent : Nat := 0
  proposed : Nat := 0
  granted : Nat := 0
  given : Nat := 0
deriving DecidableEq, Repr

/-- A segment being taken from a rank: the module that supplies it (R340), and the elements
taken. -/
structure SegIn where
  rank : Nat
  seg : Nat
  supplier : Nat
  got : Nat := 0
deriving DecidableEq, Repr

/-- A ring partial, or a gathered shard, ready to be sent on (R324, R327): the ring's channel,
whether it is an all-gather step, the step to send it at, its first element, its bytes. -/
structure RingPart where
  channel : Nat
  gather : Bool
  step : Nat
  first : Nat
  bytes : List Byte
deriving DecidableEq, Repr

/-- A span whose exponents are being agreed at the owner (R331). -/
structure SpanExp where
  span : Nat
  /-- Proposals by rank. -/
  props : List (Nat × Nat)
  /-- The burst that carries the span has been announced, or the span needs none. -/
  dealt : Bool := false
deriving DecidableEq, Repr

/-- A span that this module is to send in light (R331): the owner's rank, the span, E*, the
plane group and the burst's start in nanoseconds. -/
structure SpanTx where
  owner : Nat
  /-- None for a burst that carries pilots only. -/
  span : Option Nat
  e : Nat
  group : Nat
  start : Nat
  /-- 0 waits for its burst, 1 launched, 2 needs no light or goes in DATA units. -/
  code : Nat := 0
deriving DecidableEq, Repr

/-- A collective instance in a context (R316, R319). -/
structure Inst where
  ctx : Nat
  desc : Nat
  num : Nat
  src : Nat
  dst : Nat
  /-- The checks of R317 have passed, and the instance runs. -/
  begun : Bool := false
  deg : Bool := false
  peers : List CollPeer := []
  segIn : List SegIn := []
  slots : List RedSlot := []
  /-- Segments of the own shard that are complete. -/
  segsDone : List Nat := []
  ring : List RingPart := []
  spans : List SpanExp := []
  spanTx : List SpanTx := []
  /-- Elements to be sent again: the module, the first element, how many. -/
  again : List (Nat × Nat × Nat) := []
  /-- The status with which it is to end, and the module concerned. -/
  fail : Option (Nat × Nat) := none
deriving DecidableEq, Repr

/-- A burst that this module owns (R333): its instance, plane group, start in nanoseconds,
its spans with their exponents (none: pilots only). -/
structure Burst where
  desc : Nat
  group : Nat
  start : Nat
  spans : List (Nat × Nat)
  begun : Bool := false
deriving DecidableEq, Repr

/-- Light launched for a burst (R333): plane, channel, the start of its first guard symbol in
picoseconds, and its 16,544 symbols as runs of one level: how many, and the level. -/
structure Launch where
  plane : Nat
  channel : Nat
  start : Nat
  runs : List (Nat × Nat)
deriving DecidableEq, Repr

/-- A control unit waiting to be sent: credits, exponents, skew, resend. -/
structure CtlUnit where
  dest : Nat
  desc : Nat
  num : Nat
  sub : Nat
  offset : Nat
  total : Nat
  data : List Byte
deriving DecidableEq, Repr

/-- The collective engine. -/
structure Coll where
  insts : List Inst
  /-- Next instance number by descriptor, since launch. -/
  nums : Cells Nat
  /-- CREDIT units held for the next instance: descriptor, source, segments granted. -/
  early : List (Nat × Nat × Nat)
  ctl : List CtlUnit
  /-- Next OPSEQ of the engine's stream to a module, and expected from a source. -/
  txSeq : Cells Nat
  rxSeq : Cells Nat
  bursts : List Burst
  launched : List Launch
  /-- End of the last burst scheduled, by plane group, in nanoseconds. -/
  groupEnd : Cells Nat
  /-- The group to which the next burst is dealt. -/
  turn : Nat
  /-- Plane groups whose next burst carries pilots only (R333). -/
  training : List Nat
  /-- Bursts since the last SKEW report, by plane group. -/
  sinceSkew : Cells Nat
  /-- Discards in a row by receive channel (R339). -/
  discards : Cells Nat
  dropped : List Nat
  lastValid : Bool
  lastDesc : Nat
  lastStatus : Nat
  lastInst : Nat
  lastPeer : Nat
deriving DecidableEq, Repr

/-! ### Lasers, rings and eye safety (chapter 11) -/

/-- R346. -/
inductive LaserCode where
  | off | acquire | parked | lit | dim | spare | worn | failed
deriving DecidableEq, Repr

/-- One laser of a chiplet. -/
structure Laser where
  code : LaserCode := .off
  /-- Slot served: 8 times the fibre plus the lane slot. -/
  slot : Option Nat := none
  /-- Commanded channel. -/
  channel : Nat := 0
  /-- Shutter open. -/
  isOpen : Bool := false
  /-- BIAS_PCT. -/
  bias : Nat := 0
  /-- A passing verdict since the last change of its tuning drive (R347). -/
  passed : Bool := false
  refValid : Bool := false
  refPass : Bool := false
  refFail : Nat := 0
  refIndex : Nat := 0
  refOffset : Nat := 0
  /-- Run times of failed acquisitions (R360). -/
  tries : List Nat := []
  /-- A planned swap is scheduled, and the spare that it takes (R363). -/
  swapDue : Bool := false
  swapTo : Option Nat := none
  /-- A spare being acquired, or PARKED, for a slot. -/
  forSlot : Option Nat := none
  /-- Run time of the last check as a spare (R350). -/
  lastCheck : Nat := 0
  /-- Its lock string, and its ALC string, has entered SAFE: it returns only once each has been
  re-armed (R375). -/
  lockOut : Bool := false
  alcOut : Bool := false
  /-- The state, WORN or FAILED, of a laser whose check under RESTORE goes on (R367). -/
  prior : Option LaserCode := none
  /-- A launch clamp of R368 is engaged. -/
  capped : Bool := false
deriving DecidableEq, Repr

/-- R375: one of the laser's strings waits for LOOP_REARM. -/
def Laser.safeOut (x : Laser) : Bool := x.lockOut || x.alcOut

/-- R367: the state of a laser without a slot whose acquisition is given up. -/
def Laser.rest (x : Laser) : LaserCode := x.prior.getD .spare

/-- R351. -/
inductive RingCode where
  | off | prebias | scan | locked | held | failed
deriving DecidableEq, Repr

/-- One drop ring. -/
structure Ring where
  code : RingCode := .off
  channel : Nat := 0
  /-- Run times of WRONG_RING events within 1 s (R353). -/
  wrong : List Nat := []
  /-- Run time since when it has held lock (R422). -/
  lockedAt : Nat := 0
deriving DecidableEq, Repr

/-- R379, FAB_EYE. -/
inductive EyeCode where
  | normal | tripped | safe | restoring
deriving DecidableEq, Repr

/-- The eye-safety state of one transmit fibre. -/
structure Eye where
  code : EyeCode := .normal
  cause : Nat := 0
  trips : Nat := 0
  /-- Run time of the last criterion. -/
  last : Nat := 0
  /-- A RESTORE write waits for the hold. -/
  req : Bool := false
  /-- Run time at which it entered RESTORING. -/
  since : Nat := 0
deriving DecidableEq, Repr

/-- One optical chiplet. -/
structure Chiplet where
  lasers : List Laser
  rings : List Ring
  eyes : List Eye
  /-- Calibrations failed in a row, by measurement bus: four fibres and the Reedbed. -/
  calFails : List Nat
  /-- Buses whose lasers stay shuttered (R358). -/
  busOut : List Nat
  cmdRej : Bool
deriving DecidableEq, Repr

/-! ### The Marionette engines (chapter 12) -/

/-- STATE of MAR_STR_STATUS. -/
inductive StrCode where
  | off | closed | hold | safe | manual
deriving DecidableEq, Repr

/-- One string. Signals are in string units. -/
structure Str where
  code : StrCode := .off
  /-- The fault latched (R399): 1 LOST, 2 FROZEN, 3 IMPLAUSIBLE, 4 PARITY. -/
  cause : Nat := 0
  /-- A PARITY fault clears only after a COMMIT. -/
  parity : Bool := false
  innerHeld : Bool := false
  clipHi : Bool := false
  clipLo : Bool := false
  /-- The previous output was held at an upper or lower bound outside the chain (R390). -/
  boundHi : Bool := false
  boundLo : Bool := false
  /-- Output applied, and output computed for the next tick. -/
  u : Int := 0
  next : Option Int := none
  valid : Bool := false
  atEnd : Bool := false
  y : Int := 0
  /-- Integrator accumulator, in units of 2^-24. -/
  acc : Int := 0
  /-- The integrator's last output. -/
  iout : Int := 0
  /-- Stage state by stage: s1 and s2 of a notch, the previous output of a limiter. -/
  st : Cells (Int × Int) := []
  /-- The last samples since `start`, newest first: readings and outputs. -/
  ys : List Int := []
  us : List Int := []
  /-- Samples since `start`. -/
  count : Nat := 0
  /-- End-code readings in a row. -/
  ends : Nat := 0
  badBlocks : Nat := 0
  /-- Output before the last sample, and in HOLD the last good output. -/
  good : Int := 0
  /-- A new sensor value has arrived (event-sampled strings). -/
  event : Bool := false
  /-- Bits of the sensor's code (R384). -/
  width : Nat := 24
  /-- The integrator's input at its last sample. -/
  xin : Int := 0
  /-- The last good heater drive of a ring string in HOLD (R403). -/
  heat : Int := 0
  /-- Light management has loaded the accumulator since the string stopped being CLOSED (R407). -/
  loaded : Bool := false
deriving DecidableEq, Repr

/-- One engine: its tick count, its strings, the committed copies of the shadowed
registers by offset (R395), and the heater drives applied (R402). -/
structure MarEngine where
  ticks : Nat
  strs : Cells Str
  active : Cells W64
  heaters : Cells Int
  cmdRej : Bool
deriving DecidableEq, Repr

/-! ### The calibration store (chapter 13) -/

/-- A field record; a factory record is a constant of Config (R413). -/
structure CalRec where
  kind : Nat
  index : Nat
  gen : Nat
  data : List Int
  /-- CHECK, FORMAT and DATA_LEN are valid. -/
  ok : Bool := true
deriving DecidableEq, Repr

/-- Calibration. -/
structure Cal where
  bank : Nat
  recs : List CalRec
  used : Nat
  /-- Values that a CAL_RUN without STORE has left in force until the next L3 or L4. -/
  vol : List CalRec
  uncal : Bool
  loaded : Bool
  result : Nat
  kind : Nat
  /-- KIND and INDEX of the factory records that the last loading found invalid. -/
  failed : List (Nat × Nat)
deriving DecidableEq, Repr

/-! ### Partnering (chapter 18) -/

/-- R538. -/
inductive PairState where
  | unpaired | standbyPartner | active | fenced
deriving DecidableEq, Repr

/-- An acceptance-table entry (R542). -/
structure AccEntry where
  claim : Nat := 0
  partner : Nat := 0
  prio : Nat := 0
  valid : Bool := false
  twin : Bool := false
deriving DecidableEq, Repr

/-- A mirror pass being sent (R555): its generation, the bytes of the regions already sent,
and whether MIRROR_COMMIT has been sent. -/
structure MirrorPass where
  gen : Nat
  length : Nat
  committed : Bool := false
deriving DecidableEq, Repr

/-- A partner's pass being written into the hold area (R555). -/
structure HoldRx where
  gen : Nat
  length : Nat
  regions : List (Nat × Nat)
  got : Nat := 0
deriving DecidableEq, Repr

/-- A datagram of R549 that the module has sent: the network, the module addressed (none: the
group of R542), the body. -/
structure RedMsg where
  net : Nat
  dest : Option Nat
  body : List Byte
deriving DecidableEq, Repr

/-- Partnering. -/
structure Red where
  state : PairState
  mode : Nat
  /-- PARTNER_LOST. -/
  lost : Bool
  tableReady : Bool
  cmdRej : Bool
  missFab : Nat
  missEth : Nat
  fenceCause : Nat
  partner : Nat
  prioOwn : Nat
  prioPartner : Nat
  addrA : List Byte
  addrB : List Byte
  claim : Nat
  highest : Nat
  /-- The acceptance table, by source. -/
  acc : Cells AccEntry
  /-- When a NOTICE was last sent to a source, in nanoseconds (R545). -/
  noticed : Cells Nat
  /-- A Wisp frame from the partner has arrived on each path in the present period. -/
  heardFab : Bool
  heardEth : Bool
  /-- A frame that meets R539 has arrived in the present period; periods in a row with one. -/
  heardGood : Bool
  goodPeriods : Nat
  /-- The number of the period at whose start WISP_PERIOD ran last, and the same of frames stamped
  in a period after it (R15, R551). -/
  period : Nat
  nextFab : Bool
  nextEth : Bool
  nextGood : Bool
  /-- The partner's frames report a committed generation for this module. -/
  partnerGen : Nat
  /-- The module's own Wisp sender is stopped, so no period counts (R551). -/
  stopped : Bool
  /-- RED_PAIR_MISMATCH has been recorded in the present minute. -/
  mismatchSeen : Bool
  /-- TAKEOVER repeats still to be sent (R552 step 6). -/
  repeats : Nat
  pass : Option MirrorPass
  pendingStart : Bool
  committed : Nat
  holdGen : Nat
  holdBank : Nat
  frozen : Bool
  /-- RED_HOLD_DIR. -/
  holdDir : List (Nat × Nat)
  rx : Option HoldRx
  /-- HOLD_REFUSED in this module's Wisp frames. -/
  holdRefused : Bool
  /-- Messages sent, oldest first. -/
  out : List RedMsg
deriving DecidableEq, Repr

/-- R559 to R561: the state of a Puppeteer. -/
inductive PupState where
  | active | ready | testing | unavailable
deriving DecidableEq, Repr

/-- The two Puppeteers. -/
structure Pups where
  /-- Puppeteer B is active. -/
  bActive : Bool
  a : PupState
  b : PupState
  switchovers : Nat
  /-- Run times of the faults of A within 24 h. -/
  aFaults : List Nat
  /-- A has passed a self-test since it was last READY. -/
  aTested : Bool
  /-- The run time at which A was last made READY (R560). -/
  aReadyAt : Nat
deriving DecidableEq, Repr

/-! ### Firmware, keys and board management (chapters 19 and 22) -/

/-- R568. -/
inductive SlotState where
  | empty | partly | unverified | verified | active | trial | fallback
deriving DecidableEq, Repr

/-- A firmware slot. -/
structure FwSlot where
  state : SlotState := .empty
  /-- The data written, by offset. -/
  blocks : List (Nat × List Byte) := []
  /-- A START has been accepted since the last L3 or L4 reset. -/
  started : Bool := false
  /-- The image with which the module was shipped, a constant of Config. -/
  shipped : Bool := false
deriving DecidableEq, Repr

/-- R583. -/
inductive JournalType where
  | begin_ | commit | abort | confirm | revert | runtime
deriving DecidableEq, Repr

/-- A journal entry. -/
structure JournalEntry where
  type : JournalType
  seq : Nat
  old : Nat
  new : Nat
  limit : Nat
  elapsed : Nat
  /-- GEN of settings areas S0 and S1. -/
  gens : Nat × Nat
deriving DecidableEq, Repr

/-- A settings area (R579): registers by address. -/
structure SettingsArea where
  format : Nat := 0
  gen : Nat := 0
  sealed_ : Bool := false
  regs : Cells W64 := []
deriving DecidableEq, Repr

/-- The thresholds of the tile policy (R100), as shipped: faults of one tile within `faultHours`
of run time that retire it, corrected scratch errors within `ceHours` that do, and the run time
between two tests of a spare. -/
structure TilePolicy where
  faults : Nat := 2
  faultHours : Nat := 24
  ces : Nat := 64
  ceHours : Nat := 24
  spareHours : Nat := 24
deriving DecidableEq, Repr

/-- The supervisor's firmware and keys. -/
structure Fw where
  slots : List FwSlot
  journal : List JournalEntry
  activeSlot : Nat
  /-- Slot of the image that the standby runs. -/
  standbySlot : Nat
  recovery : Bool
  recoveryReq : Bool
  incompat : Bool
  /-- Probation: run time elapsed, s, and limit in force, minutes. -/
  probation : Option (Nat × Nat)
  areas : List SettingsArea
  area : Nat
  svn : Nat
  revoked : List Nat
  ownerKey : List Byte
  /-- A puppeteer runs firmware (R628). -/
  running : Bool
  /-- STATUS byte 6. -/
  smbResult : Nat
  /-- An OWNER_INSTALL whose signature is being checked. -/
  install : Option (List Byte)
  /-- Run time of the end of the last L4 reset, once it has ended. -/
  l4End : Option Nat
  /-- The count BOOT as it was last made durable. -/
  bootSaved : Nat
  /-- The board management address that the straps give (R625). -/
  smbAddr : Nat
  /-- Blocks that the board management port has answered, oldest first. -/
  smbOut : List (List Byte)
  /-- The settings of R100; no command of the table writes them (assumption 79). -/
  tilePolicy : TilePolicy := {}
deriving DecidableEq, Repr

/-! ### The whole state -/

/-- The state of the module. -/
structure State where
  /-- Commands waiting, first in, first out. -/
  pending : List Instr
  /-- How many free values have been drawn: the model's own counter (assumption 5). -/
  fresh : Nat
  /-- Registers that have a map row and no machinery of their own, by address. -/
  regs : Cells W64
  /-- RWO registers written since reset (R8), by address. -/
  rwo : List Nat
  peat : Peat
  tiles : List Tile
  job : Job
  mem : Mem
  wse : Wse
  sync : Sync
  fab : Fab
  coll : Coll
  red : Red
  pups : Pups
  host : HostIf
  time : TimeB
  pwr : Pwr
  light : List Chiplet
  mar : List MarEngine
  cal : Cal
  fw : Fw
  rst : Rst
deriving DecidableEq, Repr

/-- R91: the logical number of a physical tile on a module with no retired tile. -/
def Tile.homeLogical (t : Nat) : Option Nat :=
  if t % 13 < 12 ∧ t < 156 then some (12 * (t / 13) + t % 13) else none

/-- A physical tile right after reset: its self-test has still to run (R92, R105). -/
def Tile.reset (t : Nat) : Tile := { code := .testing, logical := Tile.homeLogical t }

/-- R345: laser 8f + s serves slot s of fibre f, and lasers 32 to 35 are SPARE. -/
def Laser.reset (n : Nat) : Laser :=
  if n < 32 then { slot := some n, channel := n % 8 } else { code := .spare }

/-- A chiplet right after L4. -/
def Chiplet.reset : Chiplet where
  lasers := (List.range 36).map Laser.reset
  rings := List.replicate 32 {}
  eyes := List.replicate 4 {}
  calFails := [0, 0, 0, 0, 0]
  busOut := []
  cmdRej := false

/-- R635: the settings as shipped that differ from the Reset column: FAB_LAUNCH of fibre 3 of
chiplets 4 to 7 (assumption 61). -/
def shippedRegs : Cells W64 :=
  [(0x14131C, 0xF114#64), (0x15131C, 0xF114#64), (0x16131C, 0xF114#64), (0x17131C, 0xF114#64)]

/-- The state right after reset: every field at its Reset column's value, an L4 asserted by
the removal and return of power and its recovery still to run (assumption 2). -/
def State.reset : State where
  pending := []
  fresh := 0
  regs := []
  rwo := []
  peat :=
    { queue := [], ring := [], next := 0, lost := 0, lostTime := 0, lostValid := false,
      lostLast := 0, boot := 0, flash := [], segs := [], chain := List.replicate 48 0,
      copyNext := 0, badSegs := [], seals := [], totals := {}, healthAt := 0, levels := [] }
  tiles := (List.range 156).map Tile.reset
  job :=
    { loaded := false, launched := false, ending := none, jobId := 0, tiles := [],
      groups := [], streams := [], colls := [] }
  mem :=
    { cells := [], words := [], gran := [], strips := List.replicate 16 { code := .training },
      slices := [], errValid := false,
      errType := 0, errWhere := 0, migrate := [] }
  wse := { streams := [], order := 0, ue := 0, bad := 0, errValid := false, errType := 0,
           errDesc := 0, errDpa := 0 }
  sync := { objs := [], remote := [], outSeq := [], puts := [], refused := [], fencedSeen := [] }
  fab :=
    { lanes := List.replicate 256 {}, rxs := List.replicate 256 {}, slots := List.replicate 16 {},
      neigh := [], disc := {}, quar := false, quarReason := 0, cfgRej := false, windows := [],
      spineWait := [], spineNext := [], inbox := [], maxGap := 0, late := 0, switches := 0,
      summary := [0, 0, 0, 0] }
  coll :=
    { insts := [], nums := [], early := [], ctl := [], txSeq := [], rxSeq := [], bursts := [],
      launched := [], groupEnd := [], turn := 0, training := [], sinceSkew := [], discards := [],
      dropped := [], lastValid := false, lastDesc := 0, lastStatus := 0, lastInst := 0,
      lastPeer := 0 }
  red :=
    { state := .unpaired, mode := 0, lost := false, tableReady := false, cmdRej := false,
      missFab := 0, missEth := 0, fenceCause := 0, partner := 0, prioOwn := 0, prioPartner := 0,
      addrA := [], addrB := [], claim := 0, highest := 0, acc := [], noticed := [],
      heardFab := false, heardEth := false, heardGood := false, goodPeriods := 0,
      period := 0, nextFab := false, nextEth := false, nextGood := false, partnerGen := 0,
      stopped := true, mismatchSeen := false, repeats := 0,
      pass := none, pendingStart := false, committed := 0, holdGen := 0, holdBank := 0,
      frozen := false, holdDir := [], rx := none, holdRefused := false, out := [] }
  pups :=
    { bActive := false, a := .active, b := .ready, switchovers := 0, aFaults := [], aTested := false, aReadyAt := 0 }
  host :=
    { ports := List.replicate 8 {}, lostA := true, lostB := true, open_ := false, session := 0,
      next := 1, held := [], started := [], done := [], nonce := [], evals := [],
      seenA := none, seenB := none, bulks := [], portSeen := [], robin := 0, switching := false,
      out := [], answers := [] }
  time :=
    { sec := 0, ns := 0, frac := 0, valid := false, ticks := 0, corr := 0, latch := 0, source := 0,
      switches := 0, domains := [{}, {}], cmdRej := false, alarms := List.replicate 8 {},
      fired := [], late := [] }
  pwr :=
    { current := 0, trans := none, pend := none, lastResult := 0, effective := 7, ceiling := 0,
      zones := List.replicate 16 7, cap := 7, curr := 7, limiter := 0, memHot := false,
      hotDevs := [], vinRange := false, inletHot := false, busLow := false, raiseHeld := false,
      stretch := false, tripped := false, refuserValid := false, refuser := 0, wakePending := [],
      wakeSeen := [], padHeld := false, applied := false, pinDw := 0 }
  light := List.replicate 8 Chiplet.reset
  mar := List.replicate 9 { ticks := 0, strs := [], active := [], heaters := [], cmdRej := false }
  cal :=
    { bank := 0, recs := [], used := 0, vol := [], uncal := false, loaded := false, result := 0,
      kind := 0, failed := [] }
  fw :=
    { slots := [{ state := .active, shipped := true }, {}], journal := [], activeSlot := 0,
      standbySlot := 0, recovery := false, recoveryReq := false, incompat := false,
      probation := none, areas := [{ format := 1, gen := 1, sealed_ := true, regs := shippedRegs }, {}], area := 0,
      svn := 0, revoked := [], ownerKey := [], running := false,
      smbResult := 0, install := none, l4End := none, bootSaved := 0, smbAddr := 0x48, smbOut := [] }
  rst :=
    { cause := 1#20, active := 0#20, raised := 0#20, level := 4, point := 4, hold := 0, last := 4,
      assertStamp := 0, doneStamp := 0, assertTime := 0, rcClock := false, alert := true,
      rstOut := true, pwrGood := false, ready := false, absorbed := [] }

end Sys2Proof.Machine
end

