-- ==== Sys2Proof/Machine/RegMap.lean ====
section
/-!
DEFINITION. The register maps (R8, R110, R158, R189, R217, R225, R240, R282, R283, R312,
R344, R379, R409, R428, R454, R455, R467, R488, R517, R534, R566, R594, R612): one row for
each register or array of registers, with its offset in its block, the masks of its fields
by access type, its Reset value and the mask of its always-on fields (R12). Written by a
script from the tables of spec/.
-/

namespace Sys2Proof.Machine

/-- The registers by name. -/
inductive RegName where
  | TILE_SRNG | TILE_ARITH_FLAGS | TILE_ID | TILE_STATUS | TILE_CTRL | TILE_ERR | TILE_CE_COUNT
  | TILE_SELFTEST | TILE_STALL_LIMIT | TILE_TRAP | TILE_TRAP_PC | TILE_TRAP_ADDR | TILE_PC
  | MEM_STRIP_STATUS | MEM_STRIP_ERR | MEM_STRIP_CTRL | MEM_RETIRE_ADDR | MEM_ERR_LAST
  | MEM_POLICY | MEM_LOST | MEM_AS_STATUS | MEM_AS_REPAIR | WSE_CTRL | WSE_STATUS | WSE_COUNT
  | WSE_ERR | WSE_ERR_LAST | WSE_CTX | SYNC_VALUE | SYNC_ADD | COLL_SYNC_STATUS | COLL_SYNC_COUNT
  | FAB_PLANE_CFG | FAB_LANE | FAB_RXCH | FAB_NEIGH | FAB_COUNT | FAB_ERR_LAST | FAB_MODID
  | FAB_MOD_STATUS | FAB_POLICY | FAB_DISC_SUMMARY | FAB_PLAN_STATUS | FAB_PLAN_ID | FAB_DARK
  | FAB_PHASE_STATS | COLL_POLICY | COLL_STATUS | COLL_CTX | COLL_LAST_END | COLL_COUNT
  | COLL_OSUM_TRIM | COLL_OSUM_SKEW | FAB_LASER | FAB_LASER_REF | FAB_RING | FAB_LIGHT_POLICY
  | FAB_LAUNCH | FAB_LIGHT_CTRL | FAB_LIGHT_STATUS | FAB_EYE | FAB_EYE_CTRL | FAB_LIGHT_COUNT
  | MAR_STATUS | MAR_CMD | MAR_COUNT | MAR_STR_CFG | MAR_STR_IO | MAR_STR_SP | MAR_STR_STATUS
  | MAR_STR_SUP | MAR_STR_MODEL | MAR_STR_SAFE | MAR_STR_OUT | MAR_STR_MEAS | MAR_STR_MANUAL
  | MAR_STG_CTL | MAR_STG_C | MAR_LUT | MAR_XT | MAR_XT_EXP | CAL_STATUS | CAL_STORE | CAL_COUNT
  | GEN_ID | GEN_DEVICE_TAG | GEN_FW_VERSION | GEN_STATUS | GEN_MODID | GEN_ABSENT | GEN_BOOT
  | HOST_PORT_STATUS | HOST_PORT_CFG | HOST_PORT_COUNT | HOST_MAC_BASE | HOST_NET_CFG | HOST_IP6
  | HOST_IP4 | HOST_SESSION | HOST_NEXT | HOST_POLICY | HOST_COUNT | TIME_NOW_S | TIME_NOW_NS
  | TIME_STAMP | TIME_STATUS | TIME_CFG | TIME_POLICY | TIME_OFFSET | TIME_MASTER_ID
  | TIME_ALARM_STATUS | TIME_COUNT | PWR_STATE | PWR_PLEVEL | PWR_POLICY | PWR_STATUS
  | PWR_REFUSE_COUNT | PWR_REFUSER | PWR_WAKE_CFG | PWR_WAKE_LATCH | PWR_PAD | PWR_MEAS
  | PWR_COUNT | RST_CAUSE | RST_ACTIVE | RST_STATUS | RST_MAP | RST_RAISE | RST_CTRL
  | RST_LAST_TIME | RST_COUNT | RED_STATUS | RED_PAIR | RED_CLAIM | RED_CFG | RED_POLICY
  | RED_CTRL | RED_MIRROR_CFG | RED_MIRROR_STATUS | RED_HOLD_STATUS | RED_SUP | RED_COUNT
  | SUP_FW_STATUS | SUP_FW_VERSION | SUP_PROBATION | SUP_POLICY | SUP_SECURITY | SUP_SETTINGS
  | SUP_SAVE | SUP_COUNT | EVT_STATUS | EVT_SEQ | EVT_POLICY | EVT_COUNT | EVT_HEALTH
  | TIME_SET_S | TIME_SET_NS | TIME_CTRL | TIME_ALARM_AT_S | TIME_ALARM_AT_NS | TIME_ALARM_PERIOD
  | RED_MIRROR_THRESH | RED_MIRROR_STEP | RED_AREA_BASE | RED_AREA_SIZE | RED_REGION_BASE
  | RED_REGION_SIZE | RED_HOLD_DIR_BASE | RED_HOLD_DIR_SIZE | RED_ACC_INDEX | RED_ACC_ENTRY
  | TILE_WIN_S | TILE_WIN_A | TILE_WIN_C | TILE_WIN_V
deriving DecidableEq, Repr

/-- The blocks of the register space (R454). -/
inductive RegBlock where
  | tile | mem | wse | sync | coll | fab | mar | cal | gen | host | time | pwr | rst | red | sup | evt
deriving DecidableEq, Repr

/-- R454: base, number of instances, and span of an instance. -/
def blockBase : RegBlock → Nat
  | .tile => 0x1000000
  | .mem => 0xc0000
  | .wse => 0xd0000
  | .sync => 0x80000
  | .coll => 0xe0000
  | .fab => 0x100000
  | .mar => 0x180000
  | .cal => 0x210000
  | .gen => 0x0
  | .host => 0x70000
  | .time => 0x30000
  | .pwr => 0x10000
  | .rst => 0x20000
  | .red => 0x60000
  | .sup => 0x50000
  | .evt => 0x40000

/-- R454: how many instances of a block there are, 0x1_0000 apart. -/
def blockCount : RegBlock → Nat
  | .tile => 156
  | .mem => 1
  | .wse => 1
  | .sync => 1
  | .coll => 1
  | .fab => 8
  | .mar => 9
  | .cal => 1
  | .gen => 1
  | .host => 1
  | .time => 1
  | .pwr => 1
  | .rst => 1
  | .red => 1
  | .sup => 1
  | .evt => 1

/-- A row of a register map. `dims` are the counts and strides of its indexes. -/
structure RegRow where
  name : RegName
  block : RegBlock
  off : Nat
  dims : List (Nat × Nat)
  width : Nat
  rw : Nat
  w1c : Nat
  wo : Nat
  rwo : Nat
  reset : Nat
  aon : Nat
deriving DecidableEq, Repr

/-- TILE_SRNG (R74). -/
def rTileSrng : RegRow :=
  ⟨.TILE_SRNG, .tile, 0x400, [], 32, 0xffff, 0, 0,
    0, 0xace1, 0⟩

/-- TILE_ARITH_FLAGS (R74). -/
def rTileArithFlags : RegRow :=
  ⟨.TILE_ARITH_FLAGS, .tile, 0x404, [], 32, 0, 0x3f, 0,
    0, 0, 0⟩

/-- TILE_ID (R110). LVALID reset Per tile; LOGICAL reset Per tile; PHYS reset Per tile; ROW reset Per tile; COL reset Per tile: live. -/
def rTileId : RegRow :=
  ⟨.TILE_ID, .tile, 0x0, [], 32, 0, 0, 0,
    0, 0, 0⟩

/-- TILE_STATUS (R110). STATE reset Per tile: live. -/
def rTileStatus : RegRow :=
  ⟨.TILE_STATUS, .tile, 0x4, [], 32, 0, 0x800, 0,
    0, 0, 0⟩

/-- TILE_CTRL (R110). -/
def rTileCtrl : RegRow :=
  ⟨.TILE_CTRL, .tile, 0x8, [], 32, 0, 0, 0x7,
    0, 0, 0⟩

/-- TILE_ERR (R110). -/
def rTileErr : RegRow :=
  ⟨.TILE_ERR, .tile, 0x10, [], 32, 0, 0x1ff, 0,
    0, 0, 0⟩

/-- TILE_CE_COUNT (R110). -/
def rTileCeCount : RegRow :=
  ⟨.TILE_CE_COUNT, .tile, 0x14, [], 32, 0, 0, 0,
    0, 0, 0⟩

/-- TILE_SELFTEST (R110). -/
def rTileSelftest : RegRow :=
  ⟨.TILE_SELFTEST, .tile, 0x18, [], 32, 0, 0, 0,
    0, 0, 0⟩

/-- TILE_STALL_LIMIT (R110). -/
def rTileStallLimit : RegRow :=
  ⟨.TILE_STALL_LIMIT, .tile, 0x1c, [], 32, 0xffffffff, 0, 0,
    0, 0x186a0, 0⟩

/-- TILE_TRAP (R158). -/
def rTileTrap : RegRow :=
  ⟨.TILE_TRAP, .tile, 0x20, [], 32, 0, 0, 0,
    0, 0, 0⟩

/-- TILE_TRAP_PC (R158). -/
def rTileTrapPc : RegRow :=
  ⟨.TILE_TRAP_PC, .tile, 0x24, [], 32, 0, 0, 0,
    0, 0, 0⟩

/-- TILE_TRAP_ADDR (R158). -/
def rTileTrapAddr : RegRow :=
  ⟨.TILE_TRAP_ADDR, .tile, 0x28, [], 64, 0, 0, 0,
    0, 0, 0⟩

/-- TILE_PC (R158). -/
def rTilePc : RegRow :=
  ⟨.TILE_PC, .tile, 0x30, [], 32, 0, 0, 0,
    0, 0, 0⟩

/-- MEM_STRIP_STATUS (R189). -/
def rMemStripStatus : RegRow :=
  ⟨.MEM_STRIP_STATUS, .mem, 0x0, [(16, 4)], 32, 0, 0, 0,
    0, 0xc0000000, 0⟩

/-- MEM_STRIP_ERR (R189). -/
def rMemStripErr : RegRow :=
  ⟨.MEM_STRIP_ERR, .mem, 0x40, [(16, 4)], 32, 0, 0, 0,
    0, 0, 0⟩

/-- MEM_STRIP_CTRL (R189). -/
def rMemStripCtrl : RegRow :=
  ⟨.MEM_STRIP_CTRL, .mem, 0x80, [], 32, 0, 0, 0x3f,
    0, 0, 0⟩

/-- MEM_RETIRE_ADDR (R189). -/
def rMemRetireAddr : RegRow :=
  ⟨.MEM_RETIRE_ADDR, .mem, 0x88, [], 64, 0, 0, 0x1ffffffffff,
    0, 0, 0⟩

/-- MEM_ERR_LAST (R189). -/
def rMemErrLast : RegRow :=
  ⟨.MEM_ERR_LAST, .mem, 0x90, [], 64, 0, 0x8000000000000000, 0,
    0, 0, 0⟩

/-- MEM_POLICY (R189). -/
def rMemPolicy : RegRow :=
  ⟨.MEM_POLICY, .mem, 0xa0, [], 32, 0xfffffff0, 0, 0,
    0, 0x183c4240, 0⟩

/-- MEM_LOST (R189). -/
def rMemLost : RegRow :=
  ⟨.MEM_LOST, .mem, 0x800, [(256, 8)], 64, 0, 0, 0,
    0, 0, 0⟩

/-- MEM_AS_STATUS (R189). -/
def rMemAsStatus : RegRow :=
  ⟨.MEM_AS_STATUS, .mem, 0x1000, [(156, 4)], 32, 0, 0, 0,
    0, 0x108000, 0⟩

/-- MEM_AS_REPAIR (R189). -/
def rMemAsRepair : RegRow :=
  ⟨.MEM_AS_REPAIR, .mem, 0x1400, [], 32, 0, 0, 0xfffc1fff,
    0, 0, 0⟩

/-- WSE_CTRL (R217). -/
def rWseCtrl : RegRow :=
  ⟨.WSE_CTRL, .wse, 0x0, [], 32, 0xf, 0, 0,
    0, 0x1, 0⟩

/-- WSE_STATUS (R217). -/
def rWseStatus : RegRow :=
  ⟨.WSE_STATUS, .wse, 0x4, [], 32, 0, 0, 0,
    0, 0, 0⟩

/-- WSE_COUNT (R217). -/
def rWseCount : RegRow :=
  ⟨.WSE_COUNT, .wse, 0x10, [(7, 8)], 64, 0, 0, 0,
    0, 0, 0⟩

/-- WSE_ERR (R217). -/
def rWseErr : RegRow :=
  ⟨.WSE_ERR, .wse, 0x50, [], 32, 0, 0, 0,
    0, 0, 0⟩

/-- WSE_ERR_LAST (R217). -/
def rWseErrLast : RegRow :=
  ⟨.WSE_ERR_LAST, .wse, 0x58, [], 64, 0, 0x8000000000000000, 0,
    0, 0, 0⟩

/-- WSE_CTX (R217). -/
def rWseCtx : RegRow :=
  ⟨.WSE_CTX, .wse, 0x100, [(32, 8)], 64, 0, 0, 0,
    0, 0, 0⟩

/-- SYNC_VALUE (R225). -/
def rSyncValue : RegRow :=
  ⟨.SYNC_VALUE, .sync, 0x0, [(16384, 16)], 64, 0xffffffffffffffff, 0, 0,
    0, 0, 0⟩

/-- SYNC_ADD (R225). -/
def rSyncAdd : RegRow :=
  ⟨.SYNC_ADD, .sync, 0x8, [(16384, 16)], 64, 0, 0, 0xffffffffffffffff,
    0, 0, 0⟩

/-- COLL_SYNC_STATUS (R240). -/
def rCollSyncStatus : RegRow :=
  ⟨.COLL_SYNC_STATUS, .coll, 0xf000, [], 32, 0, 0, 0,
    0, 0, 0⟩

/-- COLL_SYNC_COUNT (R240). -/
def rCollSyncCount : RegRow :=
  ⟨.COLL_SYNC_COUNT, .coll, 0xf010, [(8, 8)], 64, 0, 0, 0,
    0, 0, 0⟩

/-- FAB_PLANE_CFG (R282). ROLE reset Per plane: live. -/
def rFabPlaneCfg : RegRow :=
  ⟨.FAB_PLANE_CFG, .fab, 0x0, [(4, 4)], 32, 0x87ff07ff, 0, 0,
    0, 0, 0⟩

/-- FAB_LANE (R282). -/
def rFabLane : RegRow :=
  ⟨.FAB_LANE, .fab, 0x100, [(4, 32), (8, 4)], 32, 0, 0, 0,
    0, 0, 0⟩

/-- FAB_RXCH (R282). -/
def rFabRxch : RegRow :=
  ⟨.FAB_RXCH, .fab, 0x200, [(4, 32), (8, 4)], 32, 0, 0, 0,
    0, 0, 0⟩

/-- FAB_NEIGH (R282). -/
def rFabNeigh : RegRow :=
  ⟨.FAB_NEIGH, .fab, 0x400, [(4, 128), (32, 4)], 32, 0, 0, 0,
    0, 0, 0⟩

/-- FAB_COUNT (R282). -/
def rFabCount : RegRow :=
  ⟨.FAB_COUNT, .fab, 0x800, [(14, 8)], 64, 0, 0, 0,
    0, 0, 0⟩

/-- FAB_ERR_LAST (R282). -/
def rFabErrLast : RegRow :=
  ⟨.FAB_ERR_LAST, .fab, 0x900, [], 64, 0, 0x8000000000000000, 0,
    0, 0, 0⟩

/-- FAB_MODID (R283). -/
def rFabModid : RegRow :=
  ⟨.FAB_MODID, .fab, 0xe000, [], 32, 0xffff, 0, 0,
    0, 0, 0⟩

/-- FAB_MOD_STATUS (R283). -/
def rFabModStatus : RegRow :=
  ⟨.FAB_MOD_STATUS, .fab, 0xe004, [], 32, 0, 0x8000000, 0,
    0, 0, 0⟩

/-- FAB_POLICY (R283). -/
def rFabPolicy : RegRow :=
  ⟨.FAB_POLICY, .fab, 0xe008, [], 32, 0xfffffff0, 0, 0,
    0, 0x14021440, 0⟩

/-- FAB_DISC_SUMMARY (R283). -/
def rFabDiscSummary : RegRow :=
  ⟨.FAB_DISC_SUMMARY, .fab, 0xe010, [], 64, 0, 0, 0,
    0, 0, 0⟩

/-- FAB_PLAN_STATUS (R312). -/
def rFabPlanStatus : RegRow :=
  ⟨.FAB_PLAN_STATUS, .fab, 0xe100, [(16, 4)], 32, 0, 0, 0,
    0, 0, 0⟩

/-- FAB_PLAN_ID (R312). -/
def rFabPlanId : RegRow :=
  ⟨.FAB_PLAN_ID, .fab, 0xe140, [(16, 8)], 64, 0, 0, 0,
    0, 0, 0⟩

/-- FAB_DARK (R312). -/
def rFabDark : RegRow :=
  ⟨.FAB_DARK, .fab, 0xe1c0, [], 64, 0, 0, 0,
    0, 0, 0⟩

/-- FAB_PHASE_STATS (R312). -/
def rFabPhaseStats : RegRow :=
  ⟨.FAB_PHASE_STATS, .fab, 0xe1c8, [], 64, 0, 0, 0,
    0, 0, 0⟩

/-- COLL_POLICY (R344). -/
def rCollPolicy : RegRow :=
  ⟨.COLL_POLICY, .coll, 0x0, [], 32, 0xffffffff, 0, 0,
    0, 0x440440a, 0⟩

/-- COLL_STATUS (R344). -/
def rCollStatus : RegRow :=
  ⟨.COLL_STATUS, .coll, 0x4, [], 32, 0, 0, 0,
    0, 0, 0⟩

/-- COLL_CTX (R344). -/
def rCollCtx : RegRow :=
  ⟨.COLL_CTX, .coll, 0x100, [(16, 8)], 64, 0, 0, 0,
    0, 0, 0⟩

/-- COLL_LAST_END (R344). -/
def rCollLastEnd : RegRow :=
  ⟨.COLL_LAST_END, .coll, 0x200, [], 64, 0, 0x8000000000000000, 0,
    0, 0, 0⟩

/-- COLL_COUNT (R344). -/
def rCollCount : RegRow :=
  ⟨.COLL_COUNT, .coll, 0x300, [(10, 8)], 64, 0, 0, 0,
    0, 0, 0⟩

/-- COLL_OSUM_TRIM (R344). -/
def rCollOsumTrim : RegRow :=
  ⟨.COLL_OSUM_TRIM, .coll, 0x1000, [(32, 128), (32, 4)], 32, 0x8fff00ff, 0, 0,
    0, 0, 0⟩

/-- COLL_OSUM_SKEW (R344). -/
def rCollOsumSkew : RegRow :=
  ⟨.COLL_OSUM_SKEW, .coll, 0x2000, [(32, 32), (8, 4)], 32, 0, 0, 0,
    0, 0, 0⟩

/-- FAB_LASER (R379). -/
def rFabLaser : RegRow :=
  ⟨.FAB_LASER, .fab, 0x1000, [(36, 4)], 32, 0, 0, 0,
    0, 0, 0⟩

/-- FAB_LASER_REF (R379). -/
def rFabLaserRef : RegRow :=
  ⟨.FAB_LASER_REF, .fab, 0x1100, [(36, 4)], 32, 0, 0, 0,
    0, 0, 0⟩

/-- FAB_RING (R379). -/
def rFabRing : RegRow :=
  ⟨.FAB_RING, .fab, 0x1200, [(4, 32), (8, 4)], 32, 0, 0, 0,
    0, 0, 0⟩

/-- FAB_LIGHT_POLICY (R379). -/
def rFabLightPolicy : RegRow :=
  ⟨.FAB_LIGHT_POLICY, .fab, 0x1300, [], 32, 0xfffffff0, 0, 0,
    0, 0xaa8a70a0, 0⟩

/-- FAB_LAUNCH (R379). -/
def rFabLaunch : RegRow :=
  ⟨.FAB_LAUNCH, .fab, 0x1310, [(4, 4)], 32, 0xffff, 0, 0,
    0, 0xe20a, 0⟩

/-- FAB_LIGHT_CTRL (R379). -/
def rFabLightCtrl : RegRow :=
  ⟨.FAB_LIGHT_CTRL, .fab, 0x1320, [], 32, 0, 0, 0x37f,
    0, 0, 0⟩

/-- FAB_LIGHT_STATUS (R379). -/
def rFabLightStatus : RegRow :=
  ⟨.FAB_LIGHT_STATUS, .fab, 0x1324, [], 32, 0, 0x40000000, 0,
    0, 0, 0⟩

/-- FAB_EYE (R379). -/
def rFabEye : RegRow :=
  ⟨.FAB_EYE, .fab, 0x1400, [(4, 4)], 32, 0, 0, 0,
    0, 0, 0xffffffff⟩

/-- FAB_EYE_CTRL (R379). -/
def rFabEyeCtrl : RegRow :=
  ⟨.FAB_EYE_CTRL, .fab, 0x1420, [], 32, 0, 0, 0xf,
    0, 0, 0⟩

/-- FAB_LIGHT_COUNT (R379). -/
def rFabLightCount : RegRow :=
  ⟨.FAB_LIGHT_COUNT, .fab, 0x1500, [(9, 8)], 64, 0, 0, 0,
    0, 0, 0⟩

/-- MAR_STATUS (R409). LOAD reset Per engine: live. -/
def rMarStatus : RegRow :=
  ⟨.MAR_STATUS, .mar, 0x0, [], 32, 0, 0x80000000, 0,
    0, 0, 0⟩

/-- MAR_CMD (R409). -/
def rMarCmd : RegRow :=
  ⟨.MAR_CMD, .mar, 0x4, [], 32, 0, 0, 0xf0ffffff,
    0, 0, 0⟩

/-- MAR_COUNT (R409). -/
def rMarCount : RegRow :=
  ⟨.MAR_COUNT, .mar, 0x10, [(8, 8)], 64, 0, 0, 0,
    0, 0, 0⟩

/-- MAR_STR_CFG (R409). POLICY reset Per string; SP_SRC reset Per string; DIV reset Per string: live. -/
def rMarStrCfg : RegRow :=
  ⟨.MAR_STR_CFG, .mar, 0x1000, [(256, 64)], 32, 0xf8ffffff, 0, 0,
    0, 0, 0⟩

/-- MAR_STR_IO (R409). SENSOR reset Per string; ACTUATOR reset Per string: live. -/
def rMarStrIo : RegRow :=
  ⟨.MAR_STR_IO, .mar, 0x1004, [(256, 64)], 32, 0xffffffff, 0, 0,
    0, 0, 0⟩

/-- MAR_STR_SP (R409). -/
def rMarStrSp : RegRow :=
  ⟨.MAR_STR_SP, .mar, 0x1008, [(256, 64)], 32, 0xffffff, 0, 0,
    0, 0, 0⟩

/-- MAR_STR_STATUS (R409). -/
def rMarStrStatus : RegRow :=
  ⟨.MAR_STR_STATUS, .mar, 0x100c, [(256, 64)], 32, 0, 0, 0,
    0, 0, 0⟩

/-- MAR_STR_SUP (R409). -/
def rMarStrSup : RegRow :=
  ⟨.MAR_STR_SUP, .mar, 0x1010, [(256, 64)], 32, 0xffffffff, 0, 0,
    0, 0x26004000, 0⟩

/-- MAR_STR_MODEL (R409). -/
def rMarStrModel : RegRow :=
  ⟨.MAR_STR_MODEL, .mar, 0x1014, [(256, 64)], 32, 0xffc0ffff, 0, 0,
    0, 0, 0⟩

/-- MAR_STR_SAFE (R409). -/
def rMarStrSafe : RegRow :=
  ⟨.MAR_STR_SAFE, .mar, 0x1018, [(256, 64)], 32, 0x1fffffff, 0, 0,
    0, 0x10000000, 0⟩

/-- MAR_STR_OUT (R409). -/
def rMarStrOut : RegRow :=
  ⟨.MAR_STR_OUT, .mar, 0x101c, [(256, 64)], 32, 0, 0, 0,
    0, 0, 0⟩

/-- MAR_STR_MEAS (R409). -/
def rMarStrMeas : RegRow :=
  ⟨.MAR_STR_MEAS, .mar, 0x1020, [(256, 64)], 32, 0, 0, 0,
    0, 0, 0⟩

/-- MAR_STR_MANUAL (R409). -/
def rMarStrManual : RegRow :=
  ⟨.MAR_STR_MANUAL, .mar, 0x1024, [(256, 64)], 32, 0xffffff, 0, 0,
    0, 0, 0⟩

/-- MAR_STG_CTL (R409). -/
def rMarStgCtl : RegRow :=
  ⟨.MAR_STG_CTL, .mar, 0x8000, [(256, 128), (8, 16)], 32, 0x3f3f0307, 0, 0,
    0, 0, 0⟩

/-- MAR_STG_C (R409). -/
def rMarStgC : RegRow :=
  ⟨.MAR_STG_C, .mar, 0x8004, [(256, 128), (8, 16), (3, 4)], 32, 0xffffffff, 0, 0,
    0, 0, 0⟩

/-- MAR_LUT (R409). -/
def rMarLut : RegRow :=
  ⟨.MAR_LUT, .mar, 0x5000, [(64, 64), (9, 4)], 32, 0xffffffff, 0, 0,
    0, 0, 0⟩

/-- MAR_XT (R409). C_HI reset Per entry; C_LO reset Per entry: live. -/
def rMarXt : RegRow :=
  ⟨.MAR_XT, .mar, 0x6000, [(4, 128), (8, 16), (4, 4)], 32, 0xffffffff, 0, 0,
    0, 0, 0⟩

/-- MAR_XT_EXP (R409). -/
def rMarXtExp : RegRow :=
  ⟨.MAR_XT_EXP, .mar, 0x6200, [(4, 4)], 32, 0x3f, 0, 0,
    0, 0x1f, 0⟩

/-- CAL_STATUS (R428). -/
def rCalStatus : RegRow :=
  ⟨.CAL_STATUS, .cal, 0x0, [], 32, 0, 0, 0,
    0, 0, 0⟩

/-- CAL_STORE (R428). -/
def rCalStore : RegRow :=
  ⟨.CAL_STORE, .cal, 0x8, [], 64, 0, 0, 0,
    0, 0, 0⟩

/-- CAL_COUNT (R428). -/
def rCalCount : RegRow :=
  ⟨.CAL_COUNT, .cal, 0x10, [(4, 8)], 64, 0, 0, 0,
    0, 0, 0⟩

/-- GEN_ID (R455). -/
def rGenId : RegRow :=
  ⟨.GEN_ID, .gen, 0x0, [], 32, 0, 0, 0,
    0, 0x11524131, 0⟩

/-- GEN_DEVICE_TAG (R455). TAG reset Per module: live. -/
def rGenDeviceTag : RegRow :=
  ⟨.GEN_DEVICE_TAG, .gen, 0x4, [], 32, 0, 0, 0,
    0, 0, 0⟩

/-- GEN_FW_VERSION (R455). -/
def rGenFwVersion : RegRow :=
  ⟨.GEN_FW_VERSION, .gen, 0x8, [], 32, 0, 0, 0,
    0, 0, 0⟩

/-- GEN_STATUS (R455). -/
def rGenStatus : RegRow :=
  ⟨.GEN_STATUS, .gen, 0xc, [], 32, 0, 0, 0,
    0, 0, 0⟩

/-- GEN_MODID (R455). -/
def rGenModid : RegRow :=
  ⟨.GEN_MODID, .gen, 0x10, [], 32, 0, 0, 0,
    0, 0, 0⟩

/-- GEN_ABSENT (R455). -/
def rGenAbsent : RegRow :=
  ⟨.GEN_ABSENT, .gen, 0x20, [(5, 4)], 32, 0, 0, 0,
    0, 0, 0⟩

/-- GEN_BOOT (R455). BOOT reset Restored: live. -/
def rGenBoot : RegRow :=
  ⟨.GEN_BOOT, .gen, 0x40, [], 32, 0, 0, 0,
    0, 0, 0⟩

/-- HOST_PORT_STATUS (R467). NETWORK reset Per port: live. -/
def rHostPortStatus : RegRow :=
  ⟨.HOST_PORT_STATUS, .host, 0x0, [(8, 4)], 32, 0, 0, 0,
    0, 0, 0⟩

/-- HOST_PORT_CFG (R467). -/
def rHostPortCfg : RegRow :=
  ⟨.HOST_PORT_CFG, .host, 0x40, [(8, 4)], 32, 0x3, 0, 0,
    0, 0, 0⟩

/-- HOST_PORT_COUNT (R467). -/
def rHostPortCount : RegRow :=
  ⟨.HOST_PORT_COUNT, .host, 0x100, [(8, 64), (7, 8)], 64, 0, 0, 0,
    0, 0, 0⟩

/-- HOST_MAC_BASE (R467). MAC reset Per module: live. -/
def rHostMacBase : RegRow :=
  ⟨.HOST_MAC_BASE, .host, 0x400, [], 64, 0, 0, 0,
    0, 0, 0⟩

/-- HOST_NET_CFG (R467). -/
def rHostNetCfg : RegRow :=
  ⟨.HOST_NET_CFG, .host, 0x410, [(2, 4)], 32, 0xcfffffff, 0, 0,
    0, 0xbc66, 0⟩

/-- HOST_IP6 (R467). -/
def rHostIp6 : RegRow :=
  ⟨.HOST_IP6, .host, 0x420, [(2, 16), (4, 4)], 32, 0xffffffff, 0, 0,
    0, 0, 0⟩

/-- HOST_IP4 (R467). -/
def rHostIp4 : RegRow :=
  ⟨.HOST_IP4, .host, 0x440, [(2, 4)], 32, 0xffffffff, 0, 0,
    0, 0, 0⟩

/-- HOST_SESSION (R467). -/
def rHostSession : RegRow :=
  ⟨.HOST_SESSION, .host, 0x480, [], 64, 0, 0, 0,
    0, 0, 0⟩

/-- HOST_NEXT (R467). -/
def rHostNext : RegRow :=
  ⟨.HOST_NEXT, .host, 0x488, [], 32, 0, 0, 0,
    0, 0x1, 0⟩

/-- HOST_POLICY (R467). -/
def rHostPolicy : RegRow :=
  ⟨.HOST_POLICY, .host, 0x490, [], 32, 0xffffffff, 0, 0,
    0, 0x1e641410, 0⟩

/-- HOST_COUNT (R467). -/
def rHostCount : RegRow :=
  ⟨.HOST_COUNT, .host, 0x500, [(12, 8)], 64, 0, 0, 0,
    0, 0, 0⟩

/-- TIME_NOW_S (R488). -/
def rTimeNowS : RegRow :=
  ⟨.TIME_NOW_S, .time, 0x0, [], 64, 0, 0, 0,
    0, 0, 0xffffffffffffffff⟩

/-- TIME_NOW_NS (R488). -/
def rTimeNowNs : RegRow :=
  ⟨.TIME_NOW_NS, .time, 0x8, [], 32, 0, 0, 0,
    0, 0, 0⟩

/-- TIME_STAMP (R488). -/
def rTimeStamp : RegRow :=
  ⟨.TIME_STAMP, .time, 0xc, [], 32, 0, 0, 0,
    0, 0, 0⟩

/-- TIME_STATUS (R488). -/
def rTimeStatus : RegRow :=
  ⟨.TIME_STATUS, .time, 0x10, [], 32, 0, 0x40000000, 0,
    0, 0, 0x80000000⟩

/-- TIME_CFG (R488). -/
def rTimeCfg : RegRow :=
  ⟨.TIME_CFG, .time, 0x20, [(2, 4)], 32, 0xc00000ff, 0, 0,
    0, 0, 0⟩

/-- TIME_POLICY (R488). -/
def rTimePolicy : RegRow :=
  ⟨.TIME_POLICY, .time, 0x30, [], 32, 0xffffffff, 0, 0,
    0, 0x3c320a24, 0⟩

/-- TIME_OFFSET (R488). -/
def rTimeOffset : RegRow :=
  ⟨.TIME_OFFSET, .time, 0x40, [(2, 8)], 64, 0, 0, 0,
    0, 0, 0⟩

/-- TIME_MASTER_ID (R488). -/
def rTimeMasterId : RegRow :=
  ⟨.TIME_MASTER_ID, .time, 0x60, [(2, 8)], 64, 0, 0, 0,
    0, 0, 0⟩

/-- TIME_ALARM_STATUS (R488). -/
def rTimeAlarmStatus : RegRow :=
  ⟨.TIME_ALARM_STATUS, .time, 0x90, [], 32, 0, 0xff00ff, 0,
    0, 0, 0xffffffff⟩

/-- TIME_COUNT (R488). -/
def rTimeCount : RegRow :=
  ⟨.TIME_COUNT, .time, 0x200, [(2, 64), (5, 8)], 64, 0, 0, 0,
    0, 0, 0⟩

/-- PWR_STATE (R517). -/
def rPwrState : RegRow :=
  ⟨.PWR_STATE, .pwr, 0x0, [], 32, 0, 0, 0,
    0, 0, 0⟩

/-- PWR_PLEVEL (R517). -/
def rPwrPlevel : RegRow :=
  ⟨.PWR_PLEVEL, .pwr, 0x4, [], 32, 0, 0, 0,
    0, 0x70777000, 0⟩

/-- PWR_POLICY (R517). -/
def rPwrPolicy : RegRow :=
  ⟨.PWR_POLICY, .pwr, 0x8, [], 32, 0xffffffff, 0, 0,
    0, 0xe1640a76, 0⟩

/-- PWR_STATUS (R517). -/
def rPwrStatus : RegRow :=
  ⟨.PWR_STATUS, .pwr, 0xc, [], 32, 0, 0, 0,
    0, 0, 0⟩

/-- PWR_REFUSE_COUNT (R517). -/
def rPwrRefuseCount : RegRow :=
  ⟨.PWR_REFUSE_COUNT, .pwr, 0x10, [], 32, 0, 0, 0,
    0, 0, 0⟩

/-- PWR_REFUSER (R517). -/
def rPwrRefuser : RegRow :=
  ⟨.PWR_REFUSER, .pwr, 0x14, [], 32, 0, 0x80000000, 0,
    0, 0, 0⟩

/-- PWR_WAKE_CFG (R517). -/
def rPwrWakeCfg : RegRow :=
  ⟨.PWR_WAKE_CFG, .pwr, 0x18, [], 32, 0x7, 0, 0,
    0, 0x7, 0xffffffff⟩

/-- PWR_WAKE_LATCH (R517). -/
def rPwrWakeLatch : RegRow :=
  ⟨.PWR_WAKE_LATCH, .pwr, 0x1c, [], 32, 0, 0x700, 0,
    0, 0, 0xffffffff⟩

/-- PWR_PAD (R517). -/
def rPwrPad : RegRow :=
  ⟨.PWR_PAD, .pwr, 0x20, [], 32, 0, 0, 0x1,
    0, 0, 0xffffffff⟩

/-- PWR_MEAS (R517). -/
def rPwrMeas : RegRow :=
  ⟨.PWR_MEAS, .pwr, 0x28, [], 64, 0, 0, 0,
    0, 0, 0⟩

/-- PWR_COUNT (R517). -/
def rPwrCount : RegRow :=
  ⟨.PWR_COUNT, .pwr, 0x100, [(6, 8)], 64, 0, 0, 0,
    0, 0, 0⟩

/-- RST_CAUSE (R534). -/
def rRstCause : RegRow :=
  ⟨.RST_CAUSE, .rst, 0x0, [], 32, 0, 0xfffff, 0,
    0, 0x1, 0⟩

/-- RST_ACTIVE (R534). -/
def rRstActive : RegRow :=
  ⟨.RST_ACTIVE, .rst, 0x4, [], 32, 0, 0, 0,
    0, 0, 0⟩

/-- RST_STATUS (R534). -/
def rRstStatus : RegRow :=
  ⟨.RST_STATUS, .rst, 0x8, [], 32, 0, 0, 0,
    0, 0x2000000, 0⟩

/-- RST_MAP (R534). LEVELS reset Fuses: live. -/
def rRstMap : RegRow :=
  ⟨.RST_MAP, .rst, 0x10, [(3, 4)], 32, 0, 0, 0,
    0, 0, 0⟩

/-- RST_RAISE (R534). -/
def rRstRaise : RegRow :=
  ⟨.RST_RAISE, .rst, 0x20, [(3, 4)], 32, 0, 0, 0,
    0xffffffff, 0, 0⟩

/-- RST_CTRL (R534). -/
def rRstCtrl : RegRow :=
  ⟨.RST_CTRL, .rst, 0x30, [], 32, 0, 0, 0xffff0003,
    0, 0, 0⟩

/-- RST_LAST_TIME (R534). -/
def rRstLastTime : RegRow :=
  ⟨.RST_LAST_TIME, .rst, 0x40, [], 64, 0, 0, 0,
    0, 0, 0⟩

/-- RST_COUNT (R534). -/
def rRstCount : RegRow :=
  ⟨.RST_COUNT, .rst, 0x100, [(5, 8)], 64, 0, 0, 0,
    0, 0, 0⟩

/-- RED_STATUS (R566). -/
def rRedStatus : RegRow :=
  ⟨.RED_STATUS, .red, 0x0, [], 32, 0, 0x1000000, 0,
    0, 0, 0⟩

/-- RED_PAIR (R566). -/
def rRedPair : RegRow :=
  ⟨.RED_PAIR, .red, 0x4, [], 32, 0, 0, 0,
    0, 0, 0⟩

/-- RED_CLAIM (R566). -/
def rRedClaim : RegRow :=
  ⟨.RED_CLAIM, .red, 0x8, [], 64, 0, 0, 0,
    0, 0, 0⟩

/-- RED_CFG (R566). -/
def rRedCfg : RegRow :=
  ⟨.RED_CFG, .red, 0x10, [], 32, 0x8000ffff, 0, 0,
    0, 0x8000bc67, 0⟩

/-- RED_POLICY (R566). -/
def rRedPolicy : RegRow :=
  ⟨.RED_POLICY, .red, 0x14, [], 32, 0xffffff00, 0, 0,
    0, 0xa0a1800, 0⟩

/-- RED_CTRL (R566). -/
def rRedCtrl : RegRow :=
  ⟨.RED_CTRL, .red, 0x18, [], 32, 0, 0, 0x3,
    0, 0, 0⟩

/-- RED_MIRROR_CFG (R566). -/
def rRedMirrorCfg : RegRow :=
  ⟨.RED_MIRROR_CFG, .red, 0x20, [], 32, 0xefffffff, 0, 0,
    0, 0, 0⟩

/-- RED_MIRROR_STATUS (R566). -/
def rRedMirrorStatus : RegRow :=
  ⟨.RED_MIRROR_STATUS, .red, 0x38, [], 64, 0, 0, 0,
    0, 0, 0⟩

/-- RED_HOLD_STATUS (R566). -/
def rRedHoldStatus : RegRow :=
  ⟨.RED_HOLD_STATUS, .red, 0x60, [], 64, 0, 0, 0,
    0, 0, 0⟩

/-- RED_SUP (R566). -/
def rRedSup : RegRow :=
  ⟨.RED_SUP, .red, 0x400, [], 32, 0, 0, 0,
    0, 0x8000000, 0⟩

/-- RED_COUNT (R566). -/
def rRedCount : RegRow :=
  ⟨.RED_COUNT, .red, 0x500, [(10, 8)], 64, 0, 0, 0,
    0, 0, 0⟩

/-- SUP_FW_STATUS (R594). -/
def rSupFwStatus : RegRow :=
  ⟨.SUP_FW_STATUS, .sup, 0x0, [], 32, 0, 0, 0,
    0, 0, 0⟩

/-- SUP_FW_VERSION (R594). -/
def rSupFwVersion : RegRow :=
  ⟨.SUP_FW_VERSION, .sup, 0x10, [(2, 4)], 32, 0, 0, 0,
    0, 0, 0⟩

/-- SUP_PROBATION (R594). -/
def rSupProbation : RegRow :=
  ⟨.SUP_PROBATION, .sup, 0x20, [], 64, 0, 0, 0,
    0, 0, 0⟩

/-- SUP_POLICY (R594). -/
def rSupPolicy : RegRow :=
  ⟨.SUP_POLICY, .sup, 0x28, [], 32, 0xffff0001, 0, 0,
    0, 0x1e0000, 0⟩

/-- SUP_SECURITY (R594). DEBUG_OPEN reset Fuses; REVOKED reset Fuses; SVN reset Fuses: live. -/
def rSupSecurity : RegRow :=
  ⟨.SUP_SECURITY, .sup, 0x30, [], 32, 0, 0, 0,
    0, 0, 0⟩

/-- SUP_SETTINGS (R594). -/
def rSupSettings : RegRow :=
  ⟨.SUP_SETTINGS, .sup, 0x38, [], 64, 0, 0, 0,
    0, 0, 0⟩

/-- SUP_SAVE (R594). -/
def rSupSave : RegRow :=
  ⟨.SUP_SAVE, .sup, 0x40, [], 32, 0, 0, 0xffff0001,
    0, 0, 0⟩

/-- SUP_COUNT (R594). -/
def rSupCount : RegRow :=
  ⟨.SUP_COUNT, .sup, 0x100, [(8, 8)], 64, 0, 0, 0,
    0, 0, 0⟩

/-- EVT_STATUS (R612). -/
def rEvtStatus : RegRow :=
  ⟨.EVT_STATUS, .evt, 0x0, [], 32, 0, 0, 0,
    0, 0x10, 0xffffffff⟩

/-- EVT_SEQ (R612). -/
def rEvtSeq : RegRow :=
  ⟨.EVT_SEQ, .evt, 0x8, [(3, 8)], 64, 0, 0, 0,
    0, 0, 0xffffffffffffffff⟩

/-- EVT_POLICY (R612). -/
def rEvtPolicy : RegRow :=
  ⟨.EVT_POLICY, .evt, 0x30, [], 32, 0xffff0000, 0, 0,
    0, 0xa180000, 0⟩

/-- EVT_COUNT (R612). -/
def rEvtCount : RegRow :=
  ⟨.EVT_COUNT, .evt, 0x100, [(6, 8)], 64, 0, 0, 0,
    0, 0, 0xffffffffffffffff⟩

/-- EVT_HEALTH (R612). FULL reset Per index: live. -/
def rEvtHealth : RegRow :=
  ⟨.EVT_HEALTH, .evt, 0x200, [(13, 4)], 32, 0, 0, 0,
    0, 0, 0⟩

/-- TIME_SET_S (R488). -/
def rTimeSetS : RegRow :=
  ⟨.TIME_SET_S, .time, 0x80, [], 64, 0xffffffffffff, 0, 0,
    0, 0, 0⟩

/-- TIME_SET_NS (R488). -/
def rTimeSetNs : RegRow :=
  ⟨.TIME_SET_NS, .time, 0x88, [], 32, 0x3fffffff, 0, 0,
    0, 0, 0⟩

/-- TIME_CTRL (R488). -/
def rTimeCtrl : RegRow :=
  ⟨.TIME_CTRL, .time, 0x8c, [], 32, 0, 0, 0x1,
    0, 0, 0⟩

/-- TIME_ALARM_AT_S (R488). -/
def rTimeAlarmAtS : RegRow :=
  ⟨.TIME_ALARM_AT_S, .time, 0x100, [(8, 16)], 64, 0, 0, 0,
    0, 0, 0xffffffffffffffff⟩

/-- TIME_ALARM_AT_NS (R488). -/
def rTimeAlarmAtNs : RegRow :=
  ⟨.TIME_ALARM_AT_NS, .time, 0x108, [(8, 16)], 32, 0, 0, 0,
    0, 0, 0xffffffff⟩

/-- TIME_ALARM_PERIOD (R488). -/
def rTimeAlarmPeriod : RegRow :=
  ⟨.TIME_ALARM_PERIOD, .time, 0x10c, [(8, 16)], 32, 0, 0, 0,
    0, 0, 0xffffffff⟩

/-- RED_MIRROR_THRESH (R566). -/
def rRedMirrorThresh : RegRow :=
  ⟨.RED_MIRROR_THRESH, .red, 0x28, [], 64, 0xffffffffffffffff, 0, 0,
    0, 0, 0⟩

/-- RED_MIRROR_STEP (R566). -/
def rRedMirrorStep : RegRow :=
  ⟨.RED_MIRROR_STEP, .red, 0x30, [], 32, 0xffffffff, 0, 0,
    0, 0, 0⟩

/-- RED_AREA_BASE (R566). -/
def rRedAreaBase : RegRow :=
  ⟨.RED_AREA_BASE, .red, 0x40, [(2, 16)], 64, 0x800001ffffffffff, 0, 0,
    0, 0, 0⟩

/-- RED_AREA_SIZE (R566). -/
def rRedAreaSize : RegRow :=
  ⟨.RED_AREA_SIZE, .red, 0x48, [(2, 16)], 64, 0x1ffffffffff, 0, 0,
    0, 0, 0⟩

/-- RED_REGION_BASE (R566). -/
def rRedRegionBase : RegRow :=
  ⟨.RED_REGION_BASE, .red, 0x100, [(16, 16)], 64, 0x800001ffffffffff, 0, 0,
    0, 0, 0⟩

/-- RED_REGION_SIZE (R566). -/
def rRedRegionSize : RegRow :=
  ⟨.RED_REGION_SIZE, .red, 0x108, [(16, 16)], 64, 0x1ffffffffff, 0, 0,
    0, 0, 0⟩

/-- RED_HOLD_DIR_BASE (R566). -/
def rRedHoldDirBase : RegRow :=
  ⟨.RED_HOLD_DIR_BASE, .red, 0x200, [(16, 16)], 64, 0, 0, 0,
    0, 0, 0⟩

/-- RED_HOLD_DIR_SIZE (R566). -/
def rRedHoldDirSize : RegRow :=
  ⟨.RED_HOLD_DIR_SIZE, .red, 0x208, [(16, 16)], 64, 0, 0, 0,
    0, 0, 0⟩

/-- RED_ACC_INDEX (R566). -/
def rRedAccIndex : RegRow :=
  ⟨.RED_ACC_INDEX, .red, 0x300, [], 32, 0xffff, 0, 0,
    0, 0, 0⟩

/-- RED_ACC_ENTRY (R566). -/
def rRedAccEntry : RegRow :=
  ⟨.RED_ACC_ENTRY, .red, 0x308, [], 64, 0xffffffffffffffc0, 0, 0,
    0, 0, 0⟩

/-- TILE_WIN_S (R158). -/
def rTileWinS : RegRow :=
  ⟨.TILE_WIN_S, .tile, 0x1000, [(32, 4)], 32, 0, 0, 0,
    0, 0, 0⟩

/-- TILE_WIN_A (R158). -/
def rTileWinA : RegRow :=
  ⟨.TILE_WIN_A, .tile, 0x1080, [(8, 8)], 64, 0, 0, 0,
    0, 0, 0⟩

/-- TILE_WIN_C (R158). -/
def rTileWinC : RegRow :=
  ⟨.TILE_WIN_C, .tile, 0x10c0, [(8, 4)], 32, 0, 0, 0,
    0, 0, 0⟩

/-- TILE_WIN_V (R158). -/
def rTileWinV : RegRow :=
  ⟨.TILE_WIN_V, .tile, 0x2000, [(16, 256), (64, 4)], 32, 0, 0, 0,
    0, 0, 0⟩

/-- The rows of each block. -/
def blockRows : RegBlock → List RegRow
  | .tile => [rTileSrng, rTileArithFlags, rTileId, rTileStatus, rTileCtrl, rTileErr,
      rTileCeCount, rTileSelftest, rTileStallLimit, rTileTrap, rTileTrapPc, rTileTrapAddr,
      rTilePc, rTileWinS, rTileWinA, rTileWinC, rTileWinV]
  | .mem => [rMemStripStatus, rMemStripErr, rMemStripCtrl, rMemRetireAddr, rMemErrLast,
      rMemPolicy, rMemLost, rMemAsStatus, rMemAsRepair]
  | .wse => [rWseCtrl, rWseStatus, rWseCount, rWseErr, rWseErrLast, rWseCtx]
  | .sync => [rSyncValue, rSyncAdd]
  | .coll => [rCollSyncStatus, rCollSyncCount, rCollPolicy, rCollStatus, rCollCtx, rCollLastEnd,
      rCollCount, rCollOsumTrim, rCollOsumSkew]
  | .fab => [rFabPlaneCfg, rFabLane, rFabRxch, rFabNeigh, rFabCount, rFabErrLast, rFabModid,
      rFabModStatus, rFabPolicy, rFabDiscSummary, rFabPlanStatus, rFabPlanId, rFabDark,
      rFabPhaseStats, rFabLaser, rFabLaserRef, rFabRing, rFabLightPolicy, rFabLaunch,
      rFabLightCtrl, rFabLightStatus, rFabEye, rFabEyeCtrl, rFabLightCount]
  | .mar => [rMarStatus, rMarCmd, rMarCount, rMarStrCfg, rMarStrIo, rMarStrSp, rMarStrStatus,
      rMarStrSup, rMarStrModel, rMarStrSafe, rMarStrOut, rMarStrMeas, rMarStrManual, rMarStgCtl,
      rMarStgC, rMarLut, rMarXt, rMarXtExp]
  | .cal => [rCalStatus, rCalStore, rCalCount]
  | .gen => [rGenId, rGenDeviceTag, rGenFwVersion, rGenStatus, rGenModid, rGenAbsent, rGenBoot]
  | .host => [rHostPortStatus, rHostPortCfg, rHostPortCount, rHostMacBase, rHostNetCfg, rHostIp6,
      rHostIp4, rHostSession, rHostNext, rHostPolicy, rHostCount]
  | .time => [rTimeNowS, rTimeNowNs, rTimeStamp, rTimeStatus, rTimeCfg, rTimePolicy, rTimeOffset,
      rTimeMasterId, rTimeAlarmStatus, rTimeCount, rTimeSetS, rTimeSetNs, rTimeCtrl,
      rTimeAlarmAtS, rTimeAlarmAtNs, rTimeAlarmPeriod]
  | .pwr => [rPwrState, rPwrPlevel, rPwrPolicy, rPwrStatus, rPwrRefuseCount, rPwrRefuser,
      rPwrWakeCfg, rPwrWakeLatch, rPwrPad, rPwrMeas, rPwrCount]
  | .rst => [rRstCause, rRstActive, rRstStatus, rRstMap, rRstRaise, rRstCtrl, rRstLastTime,
      rRstCount]
  | .red => [rRedStatus, rRedPair, rRedClaim, rRedCfg, rRedPolicy, rRedCtrl, rRedMirrorCfg,
      rRedMirrorStatus, rRedHoldStatus, rRedSup, rRedCount, rRedMirrorThresh, rRedMirrorStep,
      rRedAreaBase, rRedAreaSize, rRedRegionBase, rRedRegionSize, rRedHoldDirBase,
      rRedHoldDirSize, rRedAccIndex, rRedAccEntry]
  | .sup => [rSupFwStatus, rSupFwVersion, rSupProbation, rSupPolicy, rSupSecurity, rSupSettings,
      rSupSave, rSupCount]
  | .evt => [rEvtStatus, rEvtSeq, rEvtPolicy, rEvtCount, rEvtHealth]

/-- The place of an index tuple of a register in its block. -/
def rowOffset (r : RegRow) (ix : List Nat) : Nat :=
  r.off + ((r.dims.zip ix).map (fun p => p.1.2 * p.2)).foldl (· + ·) 0

/-- The address of a register: its row, its block's instance and its indexes. -/
def regAddr (r : RegRow) (inst : Nat) (ix : List Nat) : Nat :=
  blockBase r.block + inst * 0x10000 + rowOffset r ix

/-- The indexes that an offset beyond a row's own makes, if it makes any. -/
def splitIndex : List (Nat × Nat) → Nat → Option (List Nat)
  | [], o => if o = 0 then some [] else none
  | (n, st) :: ds, o =>
    if o / st < n then
      match splitIndex ds (o % st) with
      | some ix => some (o / st :: ix)
      | none => none
    else none

/-- The row and the indexes of an offset in a list of rows. -/
def findRow : List RegRow → Nat → Option (RegRow × List Nat)
  | [], _ => none
  | r :: rs, o =>
    if o < r.off then findRow rs o
    else match splitIndex r.dims (o - r.off) with
      | some ix => some (r, ix)
      | none => findRow rs o

/-- R454: the block and the instance of an address, and the offset in it. -/
def findBlock (a : Nat) : Option (RegBlock × Nat × Nat) :=
  let n := a / 0x10000
  let o := a % 0x10000
  if n = 0 then some (.gen, 0, o)
  else if n = 1 then some (.pwr, 0, o)
  else if n = 2 then some (.rst, 0, o)
  else if n = 3 then some (.time, 0, o)
  else if n = 4 then some (.evt, 0, o)
  else if n = 5 then some (.sup, 0, o)
  else if n = 6 then some (.red, 0, o)
  else if n = 7 then some (.host, 0, o)
  else if n < 12 then some (.sync, 0, a - 0x80000)
  else if n = 12 then some (.mem, 0, o)
  else if n = 13 then some (.wse, 0, o)
  else if n = 14 then some (.coll, 0, o)
  else if n = 15 then none
  else if n < 24 then some (.fab, n - 16, o)
  else if n < 33 then some (.mar, n - 24, o)
  else if n = 33 then some (.cal, 0, o)
  else if n < 256 then none
  else if n < 412 then some (.tile, n - 256, o)
  else none

/-- Registers that exist only in one instance of their block: the module registers of the
fabric lie in chiplet 0's block (R283, R312), the crosstalk registers only in chiplet
engines (R409). -/
def rowExists (r : RegRow) (inst : Nat) : Bool :=
  match r.name with
  | .FAB_MODID | .FAB_MOD_STATUS | .FAB_POLICY | .FAB_DISC_SUMMARY | .FAB_PLAN_STATUS
  | .FAB_PLAN_ID | .FAB_DARK | .FAB_PHASE_STATS => decide (inst = 0)
  | .MAR_XT | .MAR_XT_EXP => decide (inst < 8)
  | _ => true

/-- The register at an address: its row, the instance of its block and its indexes. -/
def findReg (a : Nat) : Option (RegRow × Nat × List Nat) :=
  match findBlock a with
  | none => none
  | some (b, inst, o) =>
    match findRow (blockRows b) o with
    | none => none
    | some (r, ix) => if rowExists r inst then some (r, inst, ix) else none

/-- R381: MAR_STR_CFG at reset: POLICY, SP_SRC and DIV of a string. -/
def marCfgReset (e i : Nat) : Nat :=
  let cfg := fun (safe : Bool) (div : Nat) => (if safe then 2 ^ 29 else 0) + 2 * 2 ^ 27 + div
  if e < 8 then
    if i < 36 then cfg false 1 else if i < 72 then cfg true 10 else if i < 104 then cfg false 1
    else if i < 136 then cfg false 0 else 0
  else if i < 16 then cfg true 100 else if i = 16 then cfg true 10 else if i = 17 then cfg true 1
  else 0

/-- R381, R383: MAR_STR_IO at reset: the codes of a string's sensor and actuator. -/
def marIoReset (e i : Nat) : Nat :=
  let io := fun (s a : Nat) => s * 65536 + a
  if e < 8 then
    if i < 36 then io (0x1000 + i) (0x1000 + i) else if i < 72 then io (0x2000 + (i - 36)) (0x2000 + (i - 36))
    else if i < 104 then io (0x3000 + (i - 72)) (0x3000 + (i - 72))
    else if i < 136 then io (0x4000 + (i - 104)) (0x4000 + (i - 104)) else 0
  else if i < 16 then io (0x5000 + i) 0x5000 else if i = 16 then io 0x6000 0x5000
  else if i = 17 then io 0x7000 0x5000 else 0

/-- The value that a register takes at reset: the Reset column, or the value that a
per-index entry of it stands for (R242: planes 28 to 31 start in the spine role;
R404: the crosstalk matrices start as the identity). -/
def regReset (r : RegRow) (inst : Nat) (ix : List Nat) : Nat :=
  match r.name with
  | .FAB_PLANE_CFG => if 4 ≤ inst ∧ ix = [3] then 0x80000000 else 0
  | .MAR_STR_CFG => marCfgReset inst (ix.headD 0)
  | .MAR_STR_IO => marIoReset inst (ix.headD 0)
  | .MAR_XT =>
    if ix.getD 1 0 / 2 = ix.getD 2 0 then
      (if ix.getD 1 0 % 2 = 0 then 0x7FFF else 0x7FFF0000) else 0
  | _ => r.reset

/-- The stored value of a register: its Reset value where nothing is listed. -/
def regGet (s : State) (r : RegRow) (inst : Nat) (ix : List Nat) : Nat :=
  (Cells.get (BitVec.ofNat 64 (regReset r inst ix)) s.regs (regAddr r inst ix)).toNat

/-- A field of the stored value. -/
def regField (s : State) (r : RegRow) (inst : Nat) (ix : List Nat) (hi lo : Nat) : Nat :=
  bits (regGet s r inst ix) hi lo

/-- The state with a register's stored value written. -/
def regPut (s : State) (r : RegRow) (inst : Nat) (ix : List Nat) (v : Nat) : State :=
  let d := BitVec.ofNat 64 (regReset r inst ix)
  { s with regs := Cells.set d s.regs (regAddr r inst ix) (BitVec.ofNat 64 v) }

/-- The state with bits `hi` to `lo` of a register's stored value written. -/
def regPutField (s : State) (r : RegRow) (inst : Nat) (ix : List Nat) (hi lo v : Nat) : State :=
  let x := regGet s r inst ix
  regPut s r inst ix (x - bits x hi lo * 2 ^ lo + v % 2 ^ (hi + 1 - lo) * 2 ^ lo)

/-- A counter register raised, saturating at the register's width. -/
def bumpBy (s : State) (r : RegRow) (inst : Nat) (ix : List Nat) (n : Nat) : State :=
  regPut s r inst ix (satAdd r.width (regGet s r inst ix) n)

/-- A counter register raised by 1. -/
def bump (s : State) (r : RegRow) (inst : Nat) (ix : List Nat) : State := bumpBy s r inst ix 1

end Sys2Proof.Machine
end

