-- ==== Sys2Proof/Machine/Ops.lean ====
section
/-!
DEFINITION. The named operations that every subsystem uses: the clock, the event
recorder's intake (R599, R600), free values, tiles and sync objects (R220 to R222).
-/

namespace Sys2Proof.Machine

/-- The outcome of a command that runs: every meaning of this model goes on. -/
abbrev Result := Host.Outcome State Fault Refusal

/-! ### Time -/

/-- The time in force in nanoseconds (R468). -/
def nowNs (s : State) : Nat := s.time.sec * 1000000000 + s.time.ns

/-- The hardware stamp of the time in force (R469). -/
def stampNow (s : State) : Nat := nowNs s % 2 ^ 32

/-- Run time in nanoseconds: 20 for each tick of the oscillator. -/
def runNs (s : State) : Nat := s.time.ticks * 20

/-- 24 hours in nanoseconds. -/
def dayNs : Nat := 86400000000000

/-- The run times of the last hours; a number of 0 acts as 1 (R100). -/
def within (s : State) (hours : Nat) (ts : List Nat) : List Nat :=
  ts.filter (fun t => runNs s < t + (if hours = 0 then 1 else hours) * 3600000000000)

/-- A free value, and the state that has drawn it (assumption 5). -/
def drawFree (s : State) : Nat × State := (Config.free s.fresh, { s with fresh := s.fresh + 1 })

/-! ### Lists -/

/-- A list with its last element changed. -/
def mapLast {α : Type} (f : α → α) : List α → List α
  | [] => []
  | [a] => [f a]
  | a :: b :: r => a :: mapLast f (b :: r)

/-- The state changed by a list of things in turn. -/
def forEach {α : Type} (xs : List α) (f : α → State → State) (s : State) : State :=
  xs.foldl (fun st x => f x st) s

/-- Pads with zero bytes, or cuts, to `n` bytes. -/
def padTo (n : Nat) (bs : List Byte) : List Byte := (bs ++ List.replicate n 0).take n

/-! ### The event recorder's intake -/

/-- The last accepted record, whether still queued or already written (R599). -/
def lastRec (p : Peat) : Option LogRec :=
  match p.queue.getLast? with
  | some r => some r
  | none => (p.ring.getLast?).map (·.2)

/-- The recorder with its last accepted record changed. -/
def mapLastRec (f : LogRec → LogRec) (p : Peat) : Peat :=
  match p.queue with
  | [] => { p with ring := mapLast (fun x => (x.1, f x.2)) p.ring }
  | _ :: _ => { p with queue := mapLast f p.queue }

/-- A field of a policy register that acts as 1 when it is written 0. -/
def atLeast1 (n : Nat) : Nat := if n = 0 then 1 else n

/-- R599: the coalescing window in nanoseconds. -/
def coalesceNs (s : State) : Nat := atLeast1 (regField s rEvtPolicy 0 [] 31 24) * 1000000

/-- R599: whether an event repeats a record inside the record's window. -/
def coalesces (s : State) (code source : Nat) (r : LogRec) : Bool :=
  !r.closed && decide (r.code = code ∧ r.source = source ∧ r.time ≤ nowNs s ∧
    nowNs s < r.time + coalesceNs s)

/-- R599: a repeat taken into a record. -/
def addRepeat (stamp : Nat) (r : LogRec) : LogRec :=
  { r with reps := min (r.reps + 1) 65535, sat := r.sat || decide (r.reps + 1 ≥ 65535), last := stamp }

/-- A new record of an event, with the time taken as it is submitted (R596). -/
def newRec (s : State) (code source : Nat) (payload : List Byte) : LogRec :=
  { code := code, source := source % 65536, time := nowNs s, valid := s.time.valid,
    last := stampNow s, boot := s.peat.boot, payload := padTo 28 payload }

/-- R599, R600: an event submitted to the recorder: coalesced into the last accepted record,
or queued, or lost and counted. -/
def emit (code source : Nat) (payload : List Byte) (s : State) : State :=
  match (lastRec s.peat).filter (coalesces s code (source % 65536)) with
  | some _ =>
    bump { s with peat := mapLastRec (addRepeat (stampNow s)) s.peat } rEvtCount 0 [1]
  | none =>
    if s.peat.queue.length < 16 then
      let p := mapLastRec (fun r => { r with closed := true }) s.peat
      { s with peat := { p with queue := p.queue ++ [newRec s code source payload] } }
    else
      let p := s.peat
      let p' := { p with
        lost := p.lost + 1
        lostTime := if p.lost = 0 then nowNs s else p.lostTime
        lostValid := if p.lost = 0 then s.time.valid else p.lostValid
        lostLast := stampNow s }
      bump { s with peat := p' } rEvtCount 0 [2]

/-! ### Tiles -/

/-- A tile that does not exist. -/
def noTile : Tile := { code := .retired, logical := none }

/-- Physical tile `t`. -/
def tileAt (s : State) (t : Nat) : Tile := s.tiles.getD t noTile

/-- The state with physical tile `t` changed. -/
def setTile (t : Nat) (x : Tile) (s : State) : State := { s with tiles := s.tiles.set t x }

/-- The state with physical tile `t` changed by a function. -/
def updTile (t : Nat) (f : Tile → Tile) (s : State) : State := setTile t (f (tileAt s t)) s

/-- The physical tile behind a logical number, if one is (R91, R96). -/
def physOf (s : State) (l : Nat) : Option Nat :=
  (List.range s.tiles.length).find? (fun t => (tileAt s t).logical = some l)

/-- Logical tiles present on the module. -/
def present (s : State) : List Nat := (List.range 144).filter (fun l => (physOf s l).isSome)

/-- A job has been launched and has not ended. -/
def jobRunning (s : State) : Bool := s.job.loaded && s.job.launched

/-- R150, R152, R508: JOB_LOAD and JOB_LAUNCH return BUSY: a job runs, or entry to a deeper power state is
stopping the tiles. -/
def jobBusy (s : State) : Bool := jobRunning s || s.pwr.trans.isSome

/-- The job's tile entry of a physical tile, if its logical number has one. -/
def jobEntryOf (s : State) (t : Nat) : Option JobTile :=
  match (tileAt s t).logical with
  | none => none
  | some l => s.job.tiles.find? (fun j => j.ltile = l)

/-- Whether physical tile `t` belongs to the loaded job. -/
def inJob (s : State) (t : Nat) : Bool := s.job.loaded && (jobEntryOf s t).isSome

/-- The physical tiles of the loaded job. -/
def jobTiles (s : State) : List Nat :=
  (List.range s.tiles.length).filter (inJob s)

/-! ### Collectives -/

/-- R313: the members of a descriptor, in the order of their ranks. -/
def collMembers (d : CollDesc) : List Nat :=
  let part := fun (pod mask : Nat) => ((List.range 32).filter (bitOf mask)).map (fun i => pod * 32 + i)
  let b := if d.podB = 0xFFFF then [] else part d.podB d.maskB
  if d.podB < d.podA then b ++ part d.podA d.maskA else part d.podA d.maskA ++ b

/-! ### Sync objects -/

/-- The value of a sync object (R221). -/
def syncGet (s : State) (i : Nat) : W64 := Cells.get 0#64 s.sync.objs i

/-- The phase record in force of a plan slot. -/
def phaseOf (p : PlanSlot) : Option Phase := p.plan.bind (fun pl => pl.phases[p.phase]?)

/-- R296: whether a value meets the SYNC trigger of a slot's phase in force. -/
def syncMet (p : PlanSlot) (i v : Nat) : Bool :=
  match phaseOf p with
  | some f => decide (p.code = .armed ∧ f.trig = 1 ∧ f.object = i ∧
      (p.bias + f.value + p.loops * f.step) % 2 ^ 64 ≤ v)
  | none => false

/-- R222, R296: the waits on an object whose comparison holds are marked as over, and so are
the SYNC triggers of phases in force. -/
def wakeWaits (i : Nat) (v : W64) (s : State) : State :=
  { s with
    tiles := s.tiles.map (fun x =>
      match x.wait with
      | .sync o thr => if o = i ∧ thr ≤ v.toNat then { x with wait := .syncDone } else x
      | _ => x)
    fab := { s.fab with slots := s.fab.slots.map (fun p =>
      if p.switching = none ∧ syncMet p i v.toNat then { p with fired := true } else p) } }

/-- The object set, with the waits that this ends; no operation is counted. -/
def syncPut (i : Nat) (v : W64) (s : State) : State :=
  wakeWaits i v { s with sync := { s.sync with objs := Cells.set 0#64 s.sync.objs i v } }

/-- R220: Add n, by a source in this module. -/
def syncAdd (i : Nat) (n : W64) (s : State) : State :=
  bump (syncPut i (syncGet s i + n) s) rCollSyncCount 0 [0]

/-- R220: Set v, by a source in this module. -/
def syncSet (i : Nat) (v : W64) (s : State) : State :=
  bump (syncPut i v s) rCollSyncCount 0 [0]

/-! ### Reset sources -/

/-- R521: the level of each source in the fuse map of stepping A1. -/
def fuseLevel (i : Nat) : Nat :=
  if i < 3 then 4 else if i < 13 then 3 else if i < 17 then 2 else if i = 17 then 1 else 0

/-- R522: the level used for a source: its fuse level, or the level it has been raised to. -/
def sourceLevel (s : State) (i : Nat) : Nat :=
  let v := bits (regGet s rRstRaise 0 [i / 8]) (4 * (i % 8) + 3) (4 * (i % 8))
  let up := if v < 2 then 0 else min v 3
  if fuseLevel i ≤ 2 then max (fuseLevel i) up else fuseLevel i

/-- A source raised by a command or an event: its assertion sequence runs at RESET_ASSERT
(assumption 8). -/
def raiseSource (i : Nat) (s : State) : State :=
  { s with rst := { s.rst with raised := s.rst.raised ||| (1#20 <<< i) } }

/-- R533, R534: an L0 or L1 reset: its cause bit, its count and RST_LOCAL. -/
def localReset (i unit level : Nat) (s : State) : State :=
  let s := { s with rst := { s.rst with cause := s.rst.cause ||| (1#20 <<< i) } }
  emit 0x0304 unit (leBytes 1 i ++ leBytes 2 unit) (bump s rRstCount 0 [level])

end Sys2Proof.Machine
end

