-- ==== Sys2Proof/Machine/Frame.lean ====
section
/-!
DEFINITION. The lane frame and its units (R248, R249, R253, R255).
-/

namespace Sys2Proof.Machine

/-- A frame header (R253). -/
structure FrameHdr where
  type : Nat
  version : Nat := 1
  nakValid : Bool := false
  resent : Bool := false
  hold : Bool := false
  dest : Nat
  src : Nat
  plane : Nat
  slot : Nat
  channel : Nat
  tag : Nat := 0
  lsn : Nat := 0
  ack : Nat := 0
  nak : Nat := 0
  fault : Nat := 0
  len : Nat := 0
  claim : Nat := 0
  /-- Every reserved bit is 0. -/
  clean : Bool := true
deriving DecidableEq, Repr

/-- Bytes 0 to 27 of a header. -/
def hdrBytes (h : FrameHdr) : List Byte :=
  leBytes 1 (h.type + 16 * h.version) ++
  leBytes 1 (b2n h.nakValid + 2 * b2n h.resent + 4 * b2n h.hold) ++
  leBytes 2 h.dest ++ leBytes 2 h.src ++ leBytes 1 (h.plane + 32 * h.slot) ++ leBytes 1 h.channel ++
  leBytes 2 h.tag ++ leBytes 2 h.lsn ++ leBytes 2 h.ack ++ leBytes 2 h.nak ++ leBytes 2 h.fault ++
  leBytes 2 h.len ++ leBytes 4 h.claim ++ leBytes 4 0

/-- The header in the first 32 bytes of a frame's protected bytes. -/
def readHdr (bs : List Byte) : FrameHdr where
  type := leAt bs 0 1 % 16
  version := leAt bs 0 1 / 16
  nakValid := bitOf (leAt bs 1 1) 0
  resent := bitOf (leAt bs 1 1) 1
  hold := bitOf (leAt bs 1 1) 2
  dest := leAt bs 2 2
  src := leAt bs 4 2
  plane := leAt bs 6 1 % 32
  slot := leAt bs 6 1 / 32
  channel := leAt bs 7 1 % 32
  tag := leAt bs 8 2
  lsn := leAt bs 10 2
  ack := leAt bs 12 2
  nak := leAt bs 14 2
  fault := leAt bs 16 2
  len := leAt bs 18 2
  claim := leAt bs 20 4
  clean := leAt bs 1 1 < 8 && leAt bs 7 1 < 32 && leAt bs 8 2 < 1024 && !bitOf (leAt bs 16 2) 14 &&
    leAt bs 18 2 ≤ 1024 && leAt bs 24 4 = 0

/-- R249: the alignment marker. -/
def marker : List Byte :=
  [0xD3, 0x2C, 0x71, 0x8E, 0xD3, 0x2C, 0x71, 0x8E, 0x2C, 0xD3, 0x8E, 0x71, 0x2C, 0xD3, 0x8E, 0x71]

/-- The 1,056 protected bytes of a frame: header, CRC, payload. -/
def frameBody (h : FrameHdr) (payload : List Byte) : List Byte :=
  let pl := padTo 1024 payload
  hdrBytes h ++ leBytes 4 (crc32c (hdrBytes h ++ pl)) ++ pl

/-- R248: the 1,152 bytes of a frame on the line. -/
def frameLine (h : FrameHdr) (payload : List Byte) : List Byte :=
  let b := frameBody h payload
  marker ++ scramble (b ++ fecParity b)

/-- Whether the CRC of a frame's protected bytes holds. -/
def crcOk (b : List Byte) : Bool := crc32c (b.take 28 ++ b.drop 32) = leAt b 28 4

/-- R255: the bytes of a unit. -/
def unitBytes (u : FabUnit) : List Byte :=
  leBytes 1 u.kind ++ leBytes 1 u.stream ++ leBytes 2 u.data.length ++ leBytes 4 u.opseq ++
  leBytes 8 u.addr ++ leBytes 4 u.offset ++ leBytes 4 u.total ++ leBytes 2 u.object ++
  leBytes 6 u.ext ++ u.data

/-- R255, R320: whether a unit's KIND and reserved fields are valid. -/
def unitOk (u : FabUnit) : Bool :=
  (1 ≤ u.kind && u.kind ≤ 6) && u.ext = 0 &&
  (u.kind ≠ 3 || (u.addr % 2 ^ 16 < 1024 && u.addr / 2 ^ 32 % 16 < 6 &&
    u.addr / 2 ^ 36 % 16 = 0 && u.addr / 2 ^ 46 = 0))

/-- R255: the units of a payload in order, up to a unit of KIND 0, the end, or a unit that is
not valid; the answer says whether one was not. The fuel is the number of unit headers that
a payload can hold. -/
def readUnits : Nat → List Byte → List FabUnit × Bool
  | 0, _ => ([], false)
  | n + 1, bs =>
    if bs.length < 32 ∨ leAt bs 0 1 = 0 then ([], false)
    else
      let k := leAt bs 2 2
      let u : FabUnit :=
        { kind := leAt bs 0 1, stream := leAt bs 1 1, opseq := leAt bs 4 4, addr := leAt bs 8 8
          offset := leAt bs 16 4, total := leAt bs 20 4, object := leAt bs 24 2, ext := leAt bs 26 6
          data := (bs.drop 32).take k }
      if unitOk u && k % 16 = 0 && k ≤ 992 && 32 + k ≤ bs.length then
        let r := readUnits n (bs.drop (32 + k))
        (u :: r.1, r.2)
      else ([], true)

/-- The units of a DATA frame's payload. -/
def payloadUnits (h : FrameHdr) (payload : List Byte) : List FabUnit × Bool :=
  readUnits 32 (payload.take h.len)

/-- R249, R250: a frame's 1,136 line bytes after the marker, decoded. -/
def takeLine (bs : List Byte) : Option (List Byte × Nat) := fecDecode (scramble (padTo 1136 bs))

end Sys2Proof.Machine
end

