-- ==== Sys2Proof/Machine/CalOps.lean ====
section
/-!
DEFINITION. The calibration store (R410 to R417): which record an element uses, and how a
field record is added.
-/

namespace Sys2Proof.Machine

/-- The bytes of data of a record of a kind (assumption 40): 16-bit drives and mantissas, the
rest as R410 gives the widths. -/
def calLen (kind : Nat) : Nat :=
  match kind with
  | 1 => 68
  | 2 => 6
  | 3 => 70
  | 4 => 129
  | 5 => 34
  | 6 => 3
  | 7 => 2
  | 8 => 4
  | _ => 41

/-- R412: the bytes that a record takes in a bank: records start at multiples of 8. -/
def calSize (kind : Nat) : Nat := (20 + calLen kind + 7) / 8 * 8

/-- R412: a bank of the field section. -/
def calBank : Nat := 262144

/-- R410: the kinds that the factory writes. -/
def calFactory (kind : Nat) : Bool := kind ≠ 6 && kind ≠ 7

/-- R414: the kinds whose field records are used. -/
def calField (kind : Nat) : Bool := kind = 1 || kind = 3 || kind = 4 || kind = 6 || kind = 7

/-- R414: the field record in force of an element: the highest GEN among the valid ones. -/
def calFieldRec (c : Cal) (kind index : Nat) : Option CalRec :=
  if calField kind then
    (c.recs.filter (fun r => decide (r.kind = kind ∧ r.index = index) && r.ok)).foldl (fun b r =>
      match b with
      | none => some r
      | some o => if o.gen < r.gen then some r else some o) none
  else none

/-- R414: the values that an element uses, or those that a run without STORE has left; none
where it is uncalibrated. -/
def calData (s : State) (kind index : Nat) : Option (List Int) :=
  match s.cal.vol.find? (fun r => decide (r.kind = kind ∧ r.index = index)) with
  | some r => some r.data
  | none =>
    match calFieldRec s.cal kind index with
    | some r => some r.data
    | none =>
      if calFactory kind && !s.cal.failed.contains (kind, index) then some (Config.factoryCal kind index)
      else none

/-- The state without the values that a run has left for an element. -/
def dropVol (kind index : Nat) (s : State) : State :=
  { s with cal := { s.cal with vol := s.cal.vol.filter (fun r => !decide (r.kind = kind ∧ r.index = index)) } }

/-- One value of an element's record; 0 where there is none. -/
def calValue (s : State) (kind index i : Nat) : Int := ((calData s kind index).getD []).getD i 0

/-- The highest GEN written. -/
def calGen (c : Cal) : Nat := (c.recs.map (·.gen)).foldl max 0

/-- R417: the records in force, as compaction copies them. -/
def calInForce (c : Cal) : List CalRec :=
  c.recs.filter (fun r => r.ok && decide (calFieldRec c r.kind r.index = some r))

/-- R417: a field record is added at the end of the active bank, after a compaction where it
would not fit; the answer is its GEN, or none where no room is left. -/
def calAdd (kind index : Nat) (data : List Int) (s : State) : State × Option Nat :=
  let c := s.cal
  let r : CalRec := { kind := kind, index := index, gen := calGen c + 1, data := data }
  if c.used + calSize kind ≤ calBank then
    ({ s with cal := { c with recs := c.recs ++ [r], used := c.used + calSize kind } }, some r.gen)
  else
    let keep := calInForce c
    let used := (keep.map (fun x => calSize x.kind)).sum
    if used + calSize kind ≤ calBank then
      let s := { s with cal := { c with
        bank := 1 - c.bank, recs := keep ++ [r], used := used + calSize kind } }
      let s := bump s rCalCount 0 [3]
      (emit 0x1006 0 (leBytes 4 (calBank - (used + calSize kind))) s, some r.gen)
    else (s, none)

/-- R411, R418: the values that a run has measured come into force: as a field record with
STORE, else until the next L3 or L4. The answer is the GEN, 0 where none was written, or none
where the store is full. -/
def calResult (store : Bool) (kind index : Nat) (data : List Int) (s : State) : State × Option Nat :=
  if store then
    let r := calAdd kind index data s
    match r.2 with
    | some g => (dropVol kind index r.1, some g)
    | none => (r.1, none)
  else
    let s := dropVol kind index s
    let r : CalRec := { kind := kind, index := index, gen := 0, data := data }
    ({ s with cal := { s.cal with vol := s.cal.vol ++ [r] } }, some 0)

/-- R419, R427: a run ends: its result, its record, and the payload of its reply. -/
def calEnd (kind index result gen : Nat) (s : State) : State × List Byte :=
  let s := { s with cal := { s.cal with result := result, kind := kind } }
  let s := if result = 0 then
      emit 0x1004 0 (leBytes 1 kind ++ leBytes 2 index ++ leBytes 4 gen) (bump s rCalCount 0 [0])
    else emit 0x1005 0 (leBytes 1 kind ++ leBytes 2 index ++ leBytes 1 result) (bump s rCalCount 0 [1])
  (s, leBytes 1 result ++ leBytes 4 gen)

end Sys2Proof.Machine
end

