-- ==== Sys2Proof/Machine/LightOps.lean ====
section
/-!
DEFINITION. Lasers, rings and the eye-safety state as other subsystems use them (R345 to
R349, R351, R359, R363, R382).
-/

namespace Sys2Proof.Machine

/-- A chiplet that does not exist. -/
def noChip : Chiplet := ⟨[], [], [], [], [], false⟩

/-- Chiplet `c`. -/
def chipAt (s : State) (c : Nat) : Chiplet := s.light.getD c noChip

/-- The state with chiplet `c` changed. -/
def updChip (c : Nat) (f : Chiplet → Chiplet) (s : State) : State :=
  { s with light := s.light.set c (f (chipAt s c)) }

/-- Laser `n` of chiplet `c`. -/
def laserAt (s : State) (c n : Nat) : Laser := (chipAt s c).lasers.getD n { code := .failed }

/-- The state with a laser changed. -/
def updLaser (c n : Nat) (f : Laser → Laser) (s : State) : State :=
  updChip c (fun x => { x with lasers := x.lasers.set n (f (laserAt s c n)) }) s

/-- Ring `r` of chiplet `c`: 8 times its fibre plus its receive channel. -/
def ringAt (s : State) (c r : Nat) : Ring := (chipAt s c).rings.getD r { code := .failed }

/-- The state with a ring changed. -/
def updRing (c r : Nat) (f : Ring → Ring) (s : State) : State :=
  updChip c (fun x => { x with rings := x.rings.set r (f (ringAt s c r)) }) s

/-- Fibre `f` of chiplet `c`. -/
def eyeAt (s : State) (c f : Nat) : Eye := (chipAt s c).eyes.getD f {}

/-- The state with a fibre's eye-safety state changed. -/
def updEye (c f : Nat) (g : Eye → Eye) (s : State) : State :=
  updChip c (fun x => { x with eyes := x.eyes.set f (g (eyeAt s c f)) }) s

/-- R241: the chiplet of a lane or a receive channel, 8 times its plane plus its slot. -/
def chipOf (i : Nat) : Nat := i / 8 % 8

/-- R241: its number on the chiplet: 8 times its fibre plus its slot. -/
def elemOf (i : Nat) : Nat := i / 64 * 8 + i % 8

/-- The lane or receive channel of a number on a chiplet. -/
def laneOf (c e : Nat) : Nat := 8 * (8 * (e / 8) + c) + e % 8

/-- The laser that serves a slot of a chiplet. -/
def servingLaser (s : State) (c e : Nat) : Option Nat :=
  (List.range 36).find? (fun n => (laserAt s c n).slot = some e)

/-- The laser that serves a lane. -/
def laneLaser (s : State) (i : Nat) : Option Nat := servingLaser s (chipOf i) (elemOf i)

/-- A laser's light leaves the module. -/
def isLit (x : Laser) : Bool := x.isOpen && (x.code = .lit || x.code = .dim)

/-- A lane is lit. -/
def laneLit (s : State) (i : Nat) : Bool :=
  match laneLaser s i with
  | some n => isLit (laserAt s (chipOf i) n)
  | none => false

/-- The measurement bus of a laser (R355): its fibre's, or the Reedbed's. -/
def busOf (x : Laser) : Nat :=
  match x.slot.or x.forSlot with
  | some e => e / 8
  | none => 4

/-- R382: the lock string's integrator, its output and its drive at a calibrated value. A
drive of 16 bits is the output's bits 23:8. -/
def loadString (e i : Nat) (v : Int) (s : State) : State :=
  { s with mar := s.mar.modify e (fun m =>
      { m with strs := Cells.upd {} m.strs i (fun x =>
          { x with acc := v * 256 * 2 ^ 24, iout := v * 256, loaded := decide (x.code = .hold ∨ x.code = .safe) }) }) }

/-- R359: the lock string's drive moves by a step. -/
def moveDrive (c n : Nat) (d : Int) (s : State) : State :=
  { s with mar := s.mar.modify c (fun m =>
      { m with strs := Cells.upd {} m.strs n (fun x =>
          { x with acc := x.acc + d * 256 * 2 ^ 24, iout := x.iout + d * 256 }) }) }

/-- R410: the part of a calibrated drive that a temperature coefficient adds (assumption 58). -/
def tempDrive (s : State) (c : Nat) (coeff : Int) : Int := coeff * Config.dieTemp c (nowNs s)

/-- R348, R354, R382: a laser goes dark to acquire channel `k`, its drive at the calibrated setting. -/
def acquireLaser (c n k : Nat) (s : State) : State :=
  loadString c n (calValue s 1 (36 * c + n) k + tempDrive s c (calValue s 1 (36 * c + n) 33))
    (updLaser c n (fun x =>
      { x with code := .acquire, isOpen := false, channel := k, passed := false }) s)

/-- A lit laser goes dark on its channel, its drive unchanged (R359). -/
def darkenLaser (c n : Nat) (s : State) : State :=
  updLaser c n (fun x =>
    if isLit x || x.code = .parked then { x with code := .acquire, isOpen := false } else x) s

/-- A laser loses its bias. -/
def unbias (code : LaserCode) (x : Laser) : Laser :=
  { x with code := code, isOpen := false, passed := false, bias := 0 }

/-- Whether a lane's plane lies in an open dark window, which ends before its last instant (R15). -/
def darkOpen (s : State) (p : Nat) : Bool :=
  s.fab.windows.any (fun w => w.isOpen && decide (w.plane = p ∧ nowNs s < w.finish))

/-- R254: lasers are held at dim idle through a warm reset, in DOZE, and in a dark window. -/
def dimHeld (s : State) (i : Nat) : Bool :=
  s.rst.level ≠ 0 || decide (s.pwr.current = 2) || darkOpen s (i / 8)

/-- R347, R372, R373: the shutter opens, at launch power or at the dim level; not without a
passing verdict, and not on a bus that has failed its calibration. -/
def openLaser (c n : Nat) (s : State) : State :=
  let x := laserAt s c n
  match x.slot with
  | none => s
  | some e =>
    if x.passed && !(chipAt s c).busOut.contains (e / 8) &&
        (x.code = .acquire || x.code = .parked) && !x.safeOut then
      let dim := (eyeAt s c (e / 8)).code ≠ .normal || dimHeld s (laneOf c e)
      updLaser c n (fun x => { x with code := if dim then .dim else .lit, isOpen := true }) s
    else s

/-- R410: the dim bias of a laser as BIAS_PCT. -/
def dimPct (s : State) (c n : Nat) : Nat :=
  let lim := calValue s 2 (36 * c + n) 0
  if lim ≤ 0 then 0 else (100 * calValue s 2 (36 * c + n) 1 / lim).toNat

/-- R368, R372, R373: a lit laser at the dim level, its bias clamped to the dim bias. -/
def dimLaser (c n : Nat) (s : State) : State :=
  let b := dimPct s c n
  updLaser c n (fun x =>
    if x.code = .lit ∨ x.code = .dim then { x with code := .dim, bias := min x.bias b } else x) s

/-- A lane's laser at the dim level. -/
def dimLane (i : Nat) (s : State) : State :=
  match laneLaser s i with
  | some n => dimLaser (chipOf i) n s
  | none => s

/-- R372 step 5: the launch of a laser rises towards its set point. -/
def rising (s : State) (c n : Nat) : Bool :=
  let x := laserAt s c n
  match x.slot with
  | some e => decide ((eyeAt s c (e / 8)).code = .restoring) && !dimHeld s (laneOf c e) && !x.safeOut
  | none => false

/-- A lane's laser back at launch power, where eye safety permits (R306, R372). -/
def brightenLane (i : Nat) (s : State) : State :=
  match laneLaser s i with
  | some n =>
    let x := laserAt s (chipOf i) n
    if x.code = .dim ∧ (eyeAt s (chipOf i) (elemOf i / 8)).code = .normal ∧ ¬ dimHeld s i ∧ ¬ x.safeOut then
      updLaser (chipOf i) n (fun x => { x with code := .lit }) s
    else s
  | none => s

/-- SPARES of FAB_LIGHT_STATUS. -/
def spareLasers (s : State) (c : Nat) : List Nat :=
  (List.range 36).filter (fun n => (laserAt s c n).code = .spare)

/-- R345: the laser serves the slot in place of the one that did. -/
def giveSlot (c old new e : Nat) (s : State) : State :=
  updLaser c new (fun x => { x with slot := some e, forSlot := none })
    (updLaser c old (fun x => { x with slot := none, swapDue := false, swapTo := none }) s)

/-- A laser swap counted since manufacture (R609). -/
def countSwap (s : State) : State :=
  let tot := s.peat.totals
  { s with peat := { s.peat with totals := { tot with lasersSwapped := tot.lasersSwapped + 1 } } }

/-- A planned swap of a laser may be made now: its spare is PARKED on the channel, the fibre
is NORMAL and its bus calibrated (R364, R377). -/
def swapReady (s : State) (c n k : Nat) : Bool :=
  let x := laserAt s c n
  match x.slot, x.swapTo with
  | some e, some m =>
    let y := laserAt s c m
    x.swapDue && decide (y.code = .parked ∧ y.channel = k) && y.passed &&
      decide ((eyeAt s c (e / 8)).code = .normal) && !(chipAt s c).busOut.contains (e / 8)
  | _, _ => false

/-- A ring takes a channel: it leaves PREBIAS or LOCKED for SCAN, and its heater string's
integrator is loaded (R351, R382). -/
def scanRing (c r k : Nat) (s : State) : State :=
  if (ringAt s c r).code = .failed then s
  else
    loadString c (72 + r) (calValue s 3 (32 * c + r) k + calValue s 3 (32 * c + r) 34 +
        tempDrive s c (calValue s 3 (32 * c + r) 32))
      (updRing c r (fun x => { x with code := .scan, channel := k }) s)

/-- A ring locks to its channel. -/
def lockRing (c r : Nat) (s : State) : State :=
  updRing c r (fun x => if x.code = .scan then { x with code := .locked, lockedAt := runNs s } else x) s

/-- R351: a ring returns to PREBIAS, its heater string's integrator loaded with the PREBIAS drive. -/
def prebiasRing (c r : Nat) (s : State) : State :=
  if (ringAt s c r).code = .failed then s
  else
    loadString c (72 + r) (calValue s 3 (32 * c + r) 33)
      (updRing c r (fun x => { x with code := .prebias }) s)

end Sys2Proof.Machine
end

