-- ==== Sys2Proof/Machine/FabBase.lean ====
section
/-!
DEFINITION. The optical fabric's routing and its lane sets as every subsystem uses them
(R241 to R247, R259, R285, R286, R295, R299, R300).
-/

namespace Sys2Proof.Machine

/-! ### Routing -/

/-- R28: this module's identifier. -/
def ownId (s : State) : Nat := regField s rFabModid 0 [] 15 0

/-- R242: whether a plane has the spine role. -/
def isSpine (s : State) (p : Nat) : Bool := regField s rFabPlaneCfg (p % 8) [p / 8] 31 31 = 1

/-- R246: TX_POD and RX_POD of FAB_PLANE_CFG. -/
def cfgPods (s : State) (p : Nat) : Nat × Nat :=
  (regField s rFabPlaneCfg (p % 8) [p / 8] 10 0, regField s rFabPlaneCfg (p % 8) [p / 8] 26 16)

/-- R286: the far pods of a plane in a phase. -/
def phasePods (s : State) (f : Phase) (p : Nat) : Nat × Nat :=
  (f.spine.getD p none).getD (cfgPods s p)

/-- R245, R246: where light on channel `k` of plane `p` goes. -/
def sendsTo (s : State) (pods : Nat × Nat) (p k : Nat) : Nat :=
  let pod := if isSpine s p then pods.1 else ownId s / 32
  pod * 32 + (ownId s % 32 + k) % 32

/-- R247: the one source that channel `k` of plane `p` can hear. -/
def hears (s : State) (pods : Nat × Nat) (p k : Nat) : Nat :=
  let pod := if isSpine s p then pods.2 else ownId s / 32
  pod * 32 + (ownId s % 32 + 32 - k % 32) % 32

/-! ### Lanes, receive channels, slots -/

/-- Lane `i`, 8 times its plane plus its slot. -/
def laneAt (s : State) (i : Nat) : Lane := s.fab.lanes.getD i {}

/-- The state with a lane changed. -/
def updLane (i : Nat) (f : Lane → Lane) (s : State) : State :=
  { s with fab := { s.fab with lanes := s.fab.lanes.set i (f (laneAt s i)) } }

/-- Receive channel `i`, 8 times its plane plus its number. -/
def rxAt (s : State) (i : Nat) : RxCh := s.fab.rxs.getD i {}

/-- The state with a receive channel changed. -/
def updRx (i : Nat) (f : RxCh → RxCh) (s : State) : State :=
  { s with fab := { s.fab with rxs := s.fab.rxs.set i (f (rxAt s i)) } }

/-- Plan slot `n`. -/
def slotAt (s : State) (n : Nat) : PlanSlot := s.fab.slots.getD n {}

/-- The state with a plan slot changed. -/
def updSlot (n : Nat) (f : PlanSlot → PlanSlot) (s : State) : State :=
  { s with fab := { s.fab with slots := s.fab.slots.set n (f (slotAt s n)) } }

/-- The lanes, or receive channels, of the masked planes. -/
def planeElems (mask : Nat) : List Nat := (List.range 256).filter (fun i => bitOf mask (i / 8))

/-- The slots that are ARMED. -/
def armedSlots (s : State) : List Nat :=
  (List.range 16).filter (fun n => (slotAt s n).code = .armed)

/-- PLANE_MASK of a slot's plan. -/
def slotMask (p : PlanSlot) : Nat := (p.plan.map (·.mask)).getD 0

/-- The planes that armed plans use. -/
def armedMask (s : State) : Nat :=
  (armedSlots s).foldl (fun m n => m ||| slotMask (slotAt s n)) 0

/-- Planes whose receive fibres work in Optical Sum mode in some phase in force (R328). -/
def osumMask (s : State) : Nat :=
  (armedSlots s).foldl (fun m n => m ||| ((phaseOf (slotAt s n)).map (·.osum)).getD 0) 0

/-! ### Lane sets -/

/-- A lane set in a list of sets. -/
def findSet (sets : List LaneSet) (d : Nat) : Option LaneSet := sets.find? (fun x => x.dest = d)

/-- A list of sets with one changed. -/
def mapSet (d : Nat) (f : LaneSet → LaneSet) (sets : List LaneSet) : List LaneSet :=
  sets.map (fun x => if x.dest = d then f x else x)

/-- The set to a destination in a slot, of the phase in force or of the phase being entered. -/
def setAt (s : State) (n d : Nat) (new : Bool) : Option LaneSet :=
  findSet (if new then (slotAt s n).newSets else (slotAt s n).sets) d

/-- The state with such a set changed. -/
def updSet (n d : Nat) (new : Bool) (f : LaneSet → LaneSet) (s : State) : State :=
  updSlot n (fun p =>
    if new then { p with newSets := mapSet d f p.newSets } else { p with sets := mapSet d f p.sets }) s

/-- The lanes that carry a set, in service or not. -/
def setLanes (s : State) (n d : Nat) (new : Bool) : List Nat :=
  (List.range 256).filter (fun i =>
    let l := laneAt s i
    decide (l.slot = some n ∧ l.dest = d ∧ l.rel = new) && !bitOf (osumMask s) (i / 8))

/-- The lanes of a set in service (R261). -/
def liveLanes (s : State) (n d : Nat) (new : Bool) : List Nat :=
  (setLanes s n d new).filter (fun i => (laneAt s i).code = .inSet)

/-- The receive channels of a slot that hear a source. -/
def setRxs (s : State) (n d : Nat) (new : Bool) : List Nat :=
  (List.range 256).filter (fun i =>
    let r := rxAt s i
    decide (r.slot = some n ∧ r.source = d ∧ r.rel = new ∧ r.code ≠ .off ∧ r.away = none) &&
      !bitOf (osumMask s) (i / 8))

/-- The lanes of a phase that are enabled, with their channels. -/
def phaseLanes (f : Phase) : List (Nat × Nat) :=
  (List.range 256).filterMap (fun i => (f.lanes.getD i none).map (fun k => (i, k)))

/-- The receive channels of a phase that are enabled, with their channels. -/
def phaseRxs (f : Phase) : List (Nat × Nat) :=
  (List.range 256).filterMap (fun i => (f.rxs.getD i none).map (fun k => (i, k)))

/-- The destinations of a phase's digital lanes, of a mask of planes. -/
def phaseDests (s : State) (f : Phase) (mask : Nat) : List Nat :=
  (((phaseLanes f).filter (fun p => bitOf mask (p.1 / 8))).map
    (fun p => sendsTo s (phasePods s f (p.1 / 8)) (p.1 / 8) p.2)).dedup

/-- The expected sources of a phase's receive channels, of a mask of planes. -/
def phaseSources (s : State) (f : Phase) (mask : Nat) : List Nat :=
  (((phaseRxs f).filter (fun p => bitOf mask (p.1 / 8))).map
    (fun p => hears s (phasePods s f (p.1 / 8)) (p.1 / 8) p.2)).dedup

/-- The planes of a phase that carry frames. -/
def digitalMask (f : Phase) : Nat := (2 ^ 32 - 1) ^^^ f.osum

/-- R299: whether some phase of an ARMED plan reaches a destination. -/
def planned (s : State) (d : Nat) : Bool :=
  (armedSlots s).any (fun n =>
    match (slotAt s n).plan with
    | some pl => pl.phases.any (fun f => (phaseDests s f (pl.mask &&& digitalMask f)).contains d)
    | none => false)

/-- A slot whose phase in force reaches a destination, and which takes units (R299, R302). -/
def takesUnits (s : State) (n d : Nat) : Bool :=
  decide ((slotAt s n).code = .armed ∧ (slotAt s n).switching = none) &&
    ((setAt s n d false).map (fun x => !x.closed)).getD false

/-- R300: the lowest-numbered slot whose phase in force reaches a destination. -/
def reachSlot (s : State) (d : Nat) : Option Nat :=
  (List.range 16).find? (fun n => takesUnits s n d)

/-- A unit placed at the end of a set's queue. -/
def placeUnit (n d : Nat) (u : OutUnit) (s : State) : State :=
  updSet n d false (fun x => { x with queue := x.queue ++ [u] }) s

/-- A unit placed ahead of the others (R550). -/
def placeFirst (n d : Nat) (u : OutUnit) (s : State) : State :=
  updSet n d false (fun x => { x with queue := u :: x.queue }) s

/-- A unit placed in every lane set, of the phases in force, to a destination. -/
def sendUnit (d : Nat) (u : OutUnit) (s : State) : State :=
  forEach ((List.range 16).filter (fun n => takesUnits s n d)) (fun n => placeFirst n d u) s

/-- The units of a set that have not been acknowledged. -/
def setUnits (x : LaneSet) : List OutUnit := x.queue ++ x.frames.flatMap (·.units)

/-- The units, of every set of the module, that have not been acknowledged, with their
destination. -/
def openUnits (s : State) : List (Nat × OutUnit) :=
  s.fab.slots.flatMap (fun p => (p.sets ++ p.newSets).flatMap (fun x =>
    (setUnits x).map (fun u => (x.dest, u))))

/-- The state with every set's units filtered. -/
def filterUnits (keep : Nat → OutUnit → Bool) (s : State) : State :=
  let f := fun (x : LaneSet) =>
    { x with
      queue := x.queue.filter (keep x.dest)
      frames := x.frames.map (fun y => { y with units := y.units.filter (keep x.dest) }) }
  { s with fab := { s.fab with slots := s.fab.slots.map (fun p =>
      { p with sets := p.sets.map f, newSets := p.newSets.map f }) } }

/-- FAB_ERR_LAST (R282), in the block of the plane's chiplet. -/
def fabErr (reason plane channel src dest : Nat) (s : State) : State :=
  regPut s rFabErrLast (plane % 8) []
    (2 ^ 63 + reason * 2 ^ 59 + plane * 2 ^ 48 + channel * 2 ^ 43 + src * 2 ^ 16 + dest)

/-- R308: an element of a plane takes no part in lane sets: the plane waits for a dark window, or
does so once the element is released in the switch in progress. -/
def spineHeld (s : State) (p : Nat) (rel : Bool) : Bool :=
  s.fab.spineWait.contains p || (rel && s.fab.spineNext.contains p)

/-- A lane of a plane that waits. -/
def laneWaits (s : State) (i : Nat) : Bool := spineHeld s (i / 8) (laneAt s i).rel

/-- A receive channel of a plane that waits. -/
def rxWaits (s : State) (i : Nat) : Bool := spineHeld s (i / 8) (rxAt s i).rel

/-- R247: the expected source of a receive channel; none where it is OFF. -/
def expected (s : State) (i : Nat) : Nat :=
  let r := rxAt s i
  if r.slot.isSome then r.source
  else if r.code = .off then 0 else hears s (cfgPods s (i / 8)) (i / 8) r.channel

/-- R245, R246: the destination of a lane's frames, in a plan or outside. -/
def laneDest (s : State) (i : Nat) : Nat :=
  let l := laneAt s i
  if l.slot.isSome then l.dest else sendsTo s (cfgPods s (i / 8)) (i / 8) l.channel

/-- A field of FAB_POLICY: one written 0 acts as 1 (R283). -/
def fabPolicy (s : State) (hi lo : Nat) : Nat := max 1 (regField s rFabPolicy 0 [] hi lo)

/-- R333: a burst lasts 16,544 symbols at 14 GBd, rounded up to a nanosecond. -/
def burstNs : Nat := 1182

/-- R328: a burst is running on a plane group: one of this module's own that has begun, or one to
which it contributes. -/
def burstRuns (s : State) (g : Nat) : Bool :=
  s.coll.bursts.any (fun b => b.begun && decide (b.group = g)) ||
  s.coll.launched.any (fun x => decide (x.plane / 4 = g ∧ nowNs s * 1000 < x.start + burstNs * 1000))

/-- One count of FAB_COUNT, in the block of the plane's chiplet. -/
def fabCount (plane i : Nat) (s : State) : State := bump s rFabCount (plane % 8) [i]

end Sys2Proof.Machine
end

