-- ==== Sys2Proof/Machine/Operands.lean ====
section
/-!
DEFINITION. The words of tile programs (R111), which of them are valid (R112), the
registers that each reads and writes (R116, R120), and what the queues of a tile may start
(R115, R116, R118).
-/

namespace Sys2Proof.Machine

/-- The fields of an instruction word (R111). -/
structure Insn where
  op : Nat
  d : Nat
  a : Nat
  b : Nat
  x : Nat
  imm : Nat
deriving DecidableEq, Repr

/-- R111. -/
def insnOf (w : W64) : Insn :=
  { op := bits w.toNat 63 56, d := bits w.toNat 55 51, a := bits w.toNat 50 46
    b := bits w.toNat 45 41, x := bits w.toNat 40 32, imm := bits w.toNat 31 0 }

/-- What a register field names: nothing, or an index of a file. `vOrS` is a vector, or a
scalar when X[0] BCAST is set. -/
inductive RegFile where
  | none | s | a | v | acc | c | vOrS
deriving DecidableEq, Repr

/-- A row of the opcode table of R120: the opcode, its queue (none: the scalar core), what
D, A and B name, the bits of X and of IMM that may be set. -/
structure OpRow where
  op : Nat
  queue : Option TileUnit
  d : RegFile
  a : RegFile
  b : RegFile
  x : Nat
  imm : Nat
deriving DecidableEq, Repr

/-- Every value of IMM. -/
def immAll : Nat := 0xFFFFFFFF

/-- R120: the rows of the scalar core's own instructions. -/
def scalarRows : List OpRow :=
  [⟨0x01, none, .none, .none, .none, 0, 0⟩, ⟨0x02, none, .none, .none, .none, 0, 0⟩,
   ⟨0x03, none, .none, .none, .none, 0, immAll⟩, ⟨0x04, none, .none, .none, .none, 0xF, 0⟩,
   ⟨0x05, none, .s, .c, .none, 0, 0⟩, ⟨0x06, none, .c, .s, .none, 0, 0⟩,
   ⟨0x07, none, .none, .s, .none, 0, 0⟩, ⟨0x2E, none, .s, .none, .none, 0, immAll⟩,
   ⟨0x30, none, .a, .a, .s, 0, 0⟩, ⟨0x31, none, .a, .a, .none, 0, immAll⟩,
   ⟨0x32, none, .a, .none, .none, 0, immAll⟩, ⟨0x33, none, .a, .none, .none, 0, 0xFFFF⟩,
   ⟨0x34, none, .s, .a, .none, 1, 0⟩, ⟨0x35, none, .a, .a, .none, 0, 0⟩,
   ⟨0x38, none, .s, .a, .none, 0x10, immAll⟩, ⟨0x39, none, .none, .a, .s, 0x10, immAll⟩,
   ⟨0x3A, none, .a, .a, .none, 0x10, immAll⟩, ⟨0x3B, none, .none, .a, .a, 0x10, immAll⟩,
   ⟨0x46, none, .none, .none, .none, 0, immAll⟩, ⟨0x47, none, .s, .none, .none, 0, immAll⟩,
   ⟨0x48, none, .none, .s, .none, 0, 0⟩, ⟨0xB0, none, .none, .none, .none, 0, 0x3FF⟩,
   ⟨0xB1, none, .a, .none, .none, 0, 0x3FF⟩, ⟨0xB2, none, .none, .none, .none, 0, 0x3FF⟩,
   ⟨0xC0, none, .none, .s, .s, 0, 0x3FFF⟩, ⟨0xC1, none, .none, .s, .s, 0, 0x3FFF⟩,
   ⟨0xC2, none, .s, .s, .none, 1, 0x3FFF⟩, ⟨0xC3, none, .none, .s, .s, 0, 0x3FFF⟩]

/-- R120: the rows of the queued instructions that are not lane-wise operations. -/
def queueRows : List OpRow :=
  [⟨0x74, some .vector, .v, .v, .none, 0, 0⟩, ⟨0x75, some .vector, .v, .v, .none, 0, 0⟩,
   ⟨0x76, some .vector, .v, .s, .none, 0, 0⟩, ⟨0x77, some .vector, .s, .v, .none, 0, 0⟩,
   ⟨0x78, some .vector, .s, .v, .none, 0, 0⟩, ⟨0x7A, some .vector, .v, .a, .none, 0x10, immAll⟩,
   ⟨0x7B, some .vector, .none, .a, .v, 0x10, immAll⟩,
   ⟨0x7C, some .vector, .none, .a, .v, 0x1F, immAll⟩,
   ⟨0x7D, some .vector, .v, .a, .none, 0x13, immAll⟩,
   ⟨0x90, some .matrix, .none, .s, .s, 0, 0⟩, ⟨0x91, some .matrix, .acc, .a, .a, 0x3F, 0xFFFF⟩,
   ⟨0x93, some .matrix, .acc, .none, .none, 0, 0⟩, ⟨0x94, some .matrix, .a, .acc, .s, 0xF, 0⟩,
   ⟨0x95, some .matrix, .v, .acc, .s, 0, 0⟩, ⟨0x96, some .matrix, .acc, .v, .s, 0, 0⟩,
   ⟨0xA0, some .mover, .s, .s, .s, 0, 0⟩, ⟨0xA1, some .mover, .s, .a, .a, 3, 0x3FFF⟩,
   ⟨0xD0, some .fabric, .none, .a, .a, 0, 0x3FF⟩,
   ⟨0xD1, some .fabric, .s, .a, .a, 0, 0x3FFFFFFF⟩,
   ⟨0xD2, some .fabric, .none, .none, .s, 0, 0x3FFFFFFF⟩]

/-- R120: the row of an opcode, if it is defined. -/
def opRow (op : Nat) : Option OpRow :=
  if 0x10 ≤ op ∧ op ≤ 0x1D then some ⟨op, none, .s, .s, .s, 0, 0⟩
  else if 0x20 ≤ op ∧ op ≤ 0x2D then some ⟨op, none, .s, .s, .none, 0, immAll⟩
  else if 0x40 ≤ op ∧ op ≤ 0x45 then some ⟨op, none, .none, .s, .s, 0, immAll⟩
  else if 0x60 ≤ op ∧ op ≤ 0x6E then some ⟨op, some .vector, .v, .v, .vOrS, 1, 0⟩
  else if 0x70 ≤ op ∧ op ≤ 0x73 then some ⟨op, some .vector, .v, .v, .none, 0, 0⟩
  else match scalarRows.find? (fun r => r.op = op) with
    | some r => some r
    | none => queueRows.find? (fun r => r.op = op)

/-- X[0] of the lane-wise vector operations: operand B is a scalar. -/
def Insn.bcast (i : Insn) : Bool := bitOf i.x 0
/-- X[4] POST of the memory instructions (R122). -/
def Insn.post (i : Insn) : Bool := bitOf i.x 4

/-- R112: a register field holds an index of its file, or 0 where it is not used. -/
def fieldOk (f : RegFile) (bcast : Bool) (v : Nat) : Bool :=
  match f with
  | .none => v = 0
  | .s => true
  | .a => v < 8
  | .c => v < 8
  | .v => v < 16
  | .acc => v < 4
  | .vOrS => bcast || v < 16

/-- R112: the values of X and IMM that an opcode's own rule gives it; SETC names only c0
and c5 (R119); a sparse B16 column operand is not accepted (R79, R138). -/
def rangeOk (i : Insn) : Bool :=
  if i.op = 0x06 then i.d = 0 || i.d = 5
  else if i.op = 0x7C ∨ i.op = 0x7D ∨ i.op = 0x94 then i.x % 4 ≠ 0
  else if i.op = 0x91 then
    i.x % 4 ≠ 0 && i.x / 4 % 4 ≠ 0 && decide (1 ≤ i.imm ∧ i.imm ≤ 4096) &&
      !(bitOf i.x 4 && i.x / 4 % 4 = 3)
  else true

/-- R112: whether a word is a valid instruction. -/
def insnOk (i : Insn) : Bool :=
  match opRow i.op with
  | none => false
  | some r =>
    let bc := decide (r.b = .vOrS) && i.bcast
    fieldOk r.d bc i.d && fieldOk r.a bc i.a && fieldOk r.b bc i.b &&
      i.x &&& r.x = i.x && i.imm &&& r.imm = i.imm && rangeOk i

/-- The queue of an opcode. -/
def queueOf (op : Nat) : Option TileUnit :=
  match opRow op with
  | some r => r.queue
  | none => none

/-! ### Registers read and written (R116) -/

/-- The name of a register for the tracking of R116: s0 is never tracked. -/
def regId (f : RegFile) (bcast : Bool) (i : Nat) : List Nat :=
  match f with
  | .none => []
  | .s => if i = 0 then [] else [i]
  | .a => [64 + i]
  | .v => [128 + i]
  | .acc => [192 + i]
  | .c => []
  | .vOrS => if bcast then (if i = 0 then [] else [i]) else [128 + i]

/-- Opcodes whose D register is read and not written. -/
def dReadOnly (op : Nat) : Bool := op = 0x94 || op = 0xA0 || op = 0xA1 || op = 0xD1

/-- Opcodes whose D register is read and written. -/
def dReadWrite (op : Nat) : Bool := op = 0x32 || op = 0x33 || op = 0x65 || op = 0x91 || op = 0x96

/-- Memory instructions, whose A register POST writes (R122). -/
def postOps (op : Nat) : Bool := (0x38 ≤ op && op ≤ 0x3B) || (0x7A ≤ op && op ≤ 0x7D)

/-- R116: the registers that an instruction reads. -/
def regReads (i : Insn) : List Nat :=
  match opRow i.op with
  | none => []
  | some r =>
    regId r.a i.bcast i.a ++ regId r.b i.bcast i.b ++
      (if dReadOnly i.op || dReadWrite i.op then regId r.d false i.d else [])

/-- R116: the registers that an instruction writes. -/
def regWrites (i : Insn) : List Nat :=
  match opRow i.op with
  | none => []
  | some r =>
    (if dReadOnly i.op then [] else regId r.d false i.d) ++
      (if postOps i.op && i.post then regId r.a false i.a else [])

/-- R116: whether instruction `i` must wait for an earlier instruction `e` that has not
completed. -/
def waitsFor (i e : Insn) : Bool :=
  (regWrites e).any (fun r => (regReads i).contains r || (regWrites i).contains r) ||
    (regReads e).any (fun r => (regWrites i).contains r)

/-- R118: a stochastic conversion: VPACK or ACCPACK with X[2] set. -/
def stochastic (i : Insn) : Bool := (i.op = 0x7C || i.op = 0x94) && bitOf i.x 2

/-! ### The queues (R115) -/

/-- The entries of a tile's queue. -/
def queueGet (x : Tile) : TileUnit → List QEntry
  | .matrix => x.mq
  | .vector => x.vq
  | .mover => x.oq
  | .fabric => x.fq

/-- The tile with a queue replaced. -/
def queuePut (x : Tile) (u : TileUnit) (q : List QEntry) : Tile :=
  match u with
  | .matrix => { x with mq := q }
  | .vector => { x with vq := q }
  | .mover => { x with oq := q }
  | .fabric => { x with fq := q }

/-- R115: the depth of a queue. -/
def queueDepth : TileUnit → Nat
  | .matrix => 8
  | .vector => 16
  | .mover => 32
  | .fabric => 16

/-- Every pending entry of a tile. -/
def allEntries (x : Tile) : List QEntry := x.mq ++ x.vq ++ x.oq ++ x.fq

/-- Every queue is empty. -/
def queuesEmpty (x : Tile) : Bool := (allEntries x).isEmpty

/-- R116, R118: an entry waits for no earlier pending entry. -/
def entryFree (x : Tile) (e : QEntry) : Bool :=
  (allEntries x).all (fun f =>
    decide (e.seq ≤ f.seq) ||
      !(waitsFor (insnOf e.word) (insnOf f.word) ||
        (stochastic (insnOf e.word) && stochastic (insnOf f.word))))

/-- R115: how many entries at the head of the mover queue run: MOVs, up to four, each free
to start; an MVSHAPE alone. -/
def moverRuns (x : Tile) : List QEntry → Nat → Nat
  | [], _ => 0
  | e :: q, room =>
    if room = 0 ∨ !entryFree x e then 0
    else if (insnOf e.word).op = 0xA1 then 1 + moverRuns x q (room - 1)
    else if room = 4 then 1 else 0

/-- How many entries of a queue have started: a unit starts its head entry as soon as
nothing earlier conflicts with it, and the mover runs up to four MOVs (R115, R116;
assumption 12). A fabric entry has started once it has been handed on. -/
def startedCount (x : Tile) (u : TileUnit) : Nat :=
  match u with
  | .mover => moverRuns x x.oq 4
  | .fabric =>
    match x.fq with
    | e :: _ => if e.handed then 1 else 0
    | [] => 0
  | .matrix =>
    match x.mq with
    | e :: _ => if entryFree x e then 1 else 0
    | [] => 0
  | .vector =>
    match x.vq with
    | e :: _ => if entryFree x e then 1 else 0
    | [] => 0

/-- R140 step 1: entries not yet started are discarded. -/
def dropUnstarted (x : Tile) : Tile :=
  { x with
    mq := x.mq.take (startedCount x .matrix)
    vq := x.vq.take (startedCount x .vector)
    oq := x.oq.take (startedCount x .mover)
    fq := x.fq.take (startedCount x .fabric) }

/-! ### Register files -/

/-- Scalar register: s0 reads 0. -/
def sGet (x : Tile) (i : Nat) : W32 := if i = 0 then 0#32 else Cells.get 0#32 x.s i
/-- Scalar register: writes to s0 are discarded. -/
def sSet (x : Tile) (i : Nat) (v : W32) : Tile :=
  if i = 0 then x else { x with s := Cells.set 0#32 x.s i v }
/-- Address register. -/
def aGet (x : Tile) (i : Nat) : W48 := Cells.get 0#48 x.a i
/-- Address register. -/
def aSet (x : Tile) (i : Nat) (v : W48) : Tile := { x with a := Cells.set 0#48 x.a i v }
/-- 64 lanes of 0. -/
def vZero : List W32 := List.replicate 64 0#32
/-- Vector register, 64 lanes. -/
def vGet (x : Tile) (i : Nat) : List W32 := Cells.get vZero x.v i
/-- Vector register. -/
def vSet (x : Tile) (i : Nat) (v : List W32) : Tile := { x with v := Cells.set vZero x.v i v }
/-- 128 x 64 elements of +0, row by row. -/
def accZero : List W32 := List.replicate 8192 0#32
/-- Accumulator, row by row. -/
def accGet (x : Tile) (i : Nat) : List W32 := Cells.get accZero x.acc i
/-- Accumulator. -/
def accSet (x : Tile) (i : Nat) (v : List W32) : Tile :=
  { x with acc := Cells.set accZero x.acc i v }

/-- A 32-bit number sign-extended to 48 bits (R120). -/
def sext48 (v : W32) : W48 := BitVec.signExtend 48 v

/-- R120: the effective address of a memory instruction. -/
def effAddr (x : Tile) (i : Insn) : W48 :=
  if i.post then aGet x i.a else aGet x i.a + sext48 (BitVec.ofNat 32 i.imm)

/-- R122: POST sets a[A] to a[A] + IMM. -/
def postUpdate (i : Insn) (x : Tile) : Tile :=
  if i.post then aSet x i.a (aGet x i.a + sext48 (BitVec.ofNat 32 i.imm)) else x

/-- R125: operand B of a lane-wise instruction. -/
def operandB (x : Tile) (i : Insn) : List W32 :=
  if i.bcast then List.replicate 64 (sGet x i.b) else vGet x i.b

end Sys2Proof.Machine
end

