-- ==== Sys2Proof/Machine/TileLife.lean ====
section
/-!
DEFINITION. The life of a tile (R92 to R107): resets of its island, retirement and sparing,
the end of a job, faults and the tile policy.
-/

namespace Sys2Proof.Machine

/-- A tile's column and row (R90). -/
def tileCol (t : Nat) : Nat := t % 13
/-- R90. -/
def tileRow (t : Nat) : Nat := t / 13

/-- |a - b| of two numbers. -/
def absDiff (a b : Nat) : Nat := if a ≤ b then b - a else a - b

/-- R94: the distance between two physical tiles. -/
def tileDist (t u : Nat) : Nat :=
  absDiff (tileCol t) (tileCol u) + absDiff (tileRow t) (tileRow u)

/-- A tile's island loses its program state and its queues (R75, R99). The registers of R110
and TILE_TRAP stay; that TILE_TRAP_PC, TILE_TRAP_ADDR and TILE_PC stay with TILE_TRAP is the
model's choice (assumption 17). The generator is left alone: R59 says what sets it. -/
def islandReset (x : Tile) : Tile :=
  { x with
    pc := 0, s := [], a := [], v := [], acc := [], trapEn := 0#6, arg := 0#32, codeLen := 0
    rowStride := 0#32, colStride := 0#32, mvRows := 0#32, mvSrc := 0#32, mvDst := 0#32
    flags := 0#6, mq := [], vq := [], oq := [], fq := [], issued := 0
    wait := .none, trap := none, lastC := [] }

/-- L1 of a tile's island (R59, R75, R99): the generator loads 0xACE1 as well. -/
def islandL1 (x : Tile) : Tile := { islandReset x with srng := 0xACE1#16 }

/-- The marks of a range of memory cleared, for 16-byte words. -/
def clearWords (a n : Nat) (s : State) : State :=
  { s with mem := { s.mem with
      words := s.mem.words.filter (fun c => c.1 < a / 16 ∨ (a + n + 15) / 16 ≤ c.1) } }

/-- The scratch of a tile loses its contents (assumption 3). -/
def wipeScratch (t : Nat) (s : State) : State :=
  clearWords (scratchBase t) scratchSize
    { s with mem := { s.mem with cells := memClear s.mem.cells (scratchBase t) scratchSize } }

/-- L1 of a tile. -/
def applyL1 (t : Nat) (s : State) : State := wipeScratch t (updTile t islandL1 s)

/-- The slice of a tile loses its contents (R181, assumption 3). -/
def wipeSlice (t : Nat) (s : State) : State :=
  clearWords (sliceBase t) sliceSize
    { s with mem := { s.mem with cells := memClear s.mem.cells (sliceBase t) sliceSize } }

/-- R92, R181: a tile that is SPARE or RETIRED loses its slice, unless its slice waits to be
copied. -/
def dropSlice (t : Nat) (s : State) : State :=
  if s.mem.migrate.any (fun p => p.1 = t) then s else wipeSlice t s

/-- R99 step 5: the slice of a tile waits to be copied to the tile that will hold its number;
where that number still waits for an earlier tile's slice, that one is copied. -/
def awaitSlice (t l : Nat) (s : State) : State :=
  if s.mem.migrate.any (fun p => p.2 = l) then s
  else { s with mem := { s.mem with migrate := s.mem.migrate ++ [(t, l)] } }

/-- R643: a loaded, unlaunched job is no longer loaded when a tile of it leaves READY, or is
lost from a self-test. -/
def unloadFor (t : Nat) (s : State) : State :=
  if s.job.loaded ∧ ¬ s.job.launched ∧ inJob s t then
    { s with job := { s.job with loaded := false } }
  else s

/-! ### Retirement and sparing -/

/-- The SPARE tiles, ascending. -/
def spares (s : State) : List Nat :=
  (List.range s.tiles.length).filter (fun t => (tileAt s t).code = .spare)

/-- R94: the spare nearest to a tile, ties to the lower number. -/
def nearestSpare (s : State) (t : Nat) : Option Nat :=
  (spares s).foldl (fun b u =>
    match b with
    | none => some u
    | some v => if tileDist t u < tileDist t v then some u else b) none

/-- R94, R96: a tile enters RETIRED, and its logical number goes to the nearest spare or
becomes absent. Its slice waits for the tile that holds the number at the next JOB_LOAD, be it
one restored later (R98, R99 step 5). -/
def retireTile (t : Nat) (s : State) : State :=
  let s := unloadFor t s
  let l := (tileAt s t).logical
  let s := updTile t (fun x =>
    { islandReset x with
      code := .retired, logical := none, former := x.logical.or x.former, policyDue := none, retireDue := false }) s
  let tot := s.peat.totals
  let s := { s with peat := { s.peat with
    totals := { tot with tilesRetired := tot.tilesRetired + 1 } } }
  match l with
  | none => emit 0x1103 t [0xFF, 0xFF] (dropSlice t s)
  | some l =>
    let s := dropSlice t (awaitSlice t l s)
    match nearestSpare s t with
    | some u =>
      let s := updTile u (fun x => { x with code := .ready, logical := some l }) s
      emit 0x1103 t [BitVec.ofNat 8 l, BitVec.ofNat 8 u] s
    | none =>
      let s := emit 0x1103 t [BitVec.ofNat 8 l, 0xFF] s
      emit 0x1105 t [BitVec.ofNat 8 l] s

/-! ### The end of a job -/

/-- R119: a control register as GETC reads it. c1 is a free value (R26, assumption 5). -/
def ctlGet (t : Nat) (c : Nat) (s : State) : W32 :=
  let x := tileAt s t
  match c with
  | 0 => BitVec.setWidth 32 x.trapEn
  | 1 => Config.cycles t s.fresh
  | 2 => BitVec.ofNat 32 (x.logical.getD 0)
  | 3 => BitVec.ofNat 32 (present s).length
  | 4 => BitVec.ofNat 32 (stampNow s)
  | 5 => BitVec.setWidth 32 x.flags
  | 6 => BitVec.ofNat 32 (regField s rFabModid 0 [] 15 0)
  | _ => x.arg

/-- A tile enters HALTED: TILE_PC, and the control registers as its window will show them
(R158). -/
def haltTile (t : Nat) (s : State) : State :=
  updTile t (fun x =>
    { x with code := .halted, haltPc := x.pc, wait := .none, lastC := (List.range 8).map (fun c => ctlGet t c s) })
    { s with fresh := s.fresh + 1 }

/-- R140 step 1, R154: a running tile stops: nothing more is issued, entries not yet
started are discarded, a wait ends. With nothing left to complete it is HALTED. A tile with
an exception not yet recorded goes on to record it. -/
def stopTile (t : Nat) (s : State) : State :=
  let x := tileAt s t
  if x.code = .running ∧ x.trap = none then
    let y := dropUnstarted { x with wait := .stop }
    if queuesEmpty y then haltTile t (setTile t y s) else setTile t y s
  else s

/-- R155: the cause of a job's end is the one seen first; a tile fault seen in the same cycle of
the always-on clock as an exception comes before it. -/
def endsFirst (e : JobEnd) (s : State) : Bool :=
  match s.job.ending with
  | none => true
  | some f => decide (e.status = 3 ∧ f.status = 2 ∧ s.job.endTick = s.time.ticks)

/-- The cause of a job's end (R155). -/
def noteEnd (e : JobEnd) (s : State) : State :=
  if jobRunning s ∧ endsFirst e s then
    { s with job := { s.job with ending := some e, endTick := s.time.ticks } }
  else s

/-- R318, R344: a collective instance ends with a status other than OK. A status other than
ABORTED is recorded. -/
def collEnd (status peer : Nat) (i : Inst) (s : State) : State :=
  let c := s.coll
  let s := { s with coll := { c with
    insts := c.insts.filter (fun j => j.ctx ≠ i.ctx)
    ctl := c.ctl.filter (fun u => !(decide (u.desc = i.desc ∧ u.num = i.num)))
    bursts := c.bursts.filter (fun b => b.desc ≠ i.desc || b.begun)
    lastValid := true, lastDesc := i.desc, lastStatus := status, lastInst := i.num
    lastPeer := peer } }
  if status = 7 then s
  else emit 0x0C01 i.desc (leBytes 2 i.desc ++ leBytes 2 i.num ++ leBytes 1 status ++ leBytes 2 peer) s

/-- Every tile of the job stops, and the streams and the collectives with it (R154, R215,
R341): reads stop, staging is discarded, contexts are freed. -/
def stopNow (s : State) : State :=
  let s := forEach (List.range s.tiles.length) stopTile s
  forEach s.coll.insts (collEnd 7 0) { s with wse := { s.wse with streams := [] } }

/-- A phase switch is in progress in some plan slot. -/
def switchBusy (s : State) : Bool := s.fab.slots.any (fun p => p.switching.isSome)

/-- R39: a job stops at once, or when the phase switch in progress has completed. -/
def stopJob (s : State) : State :=
  if !jobRunning s then s
  else if switchBusy s then { s with job := { s.job with stopDue := true } }
  else stopNow s

/-- R39: a phase switch has completed: a job that waited for it stops. -/
def settleStop (s : State) : State :=
  if s.job.stopDue && !switchBusy s then stopNow { s with job := { s.job with stopDue := false } } else s

/-- A job ends as JOB_ABORT would end it, for a cause. -/
def endJob (e : JobEnd) (s : State) : State := stopJob (noteEnd e s)

/-! ### Faults and the tile policy -/

/-- R107, R110: the TILE_ERR bit of a fault source. -/
def faultBit : FaultSrc → Nat
  | .scrUe => 1
  | .rfPar => 2
  | .accPar => 3
  | .matCheck => 4
  | .clkFault => 5
  | .routerFault => 6

/-- TILE_ERR bits set. -/
def setErr (bit : Nat) (x : Tile) : Tile := { x with err := x.err ||| (1#9 <<< bit) }

/-- R104, R106: a self-test starts; it destroys the scratch, the accumulators and the
registers. -/
def startTest (t : Nat) (k : TestKind) (s : State) : State :=
  let s := applyL1 t (unloadFor t s)
  updTile t (fun x => { x with code := .testing, test := k, testStopped := false, policyDue := none }) s

/-- R100: the policy applied to a FAULTED tile: retire it, or self-test it. RST_ACTIVE bit
17 falls when no tile is left FAULTED. -/
def applyPolicy (t : Nat) (s : State) : State :=
  let x := tileAt s t
  if x.code = .faulted then
    match x.policyDue with
    | none => s
    | some true => retireTile t s
    | some false => startTest t .policy s
  else s

/-- RST_ACTIVE bit 17 is set while any tile is held FAULTED (R521). -/
def tileFaultActive (s : State) : State :=
  let a := if s.tiles.any (fun x => decide (x.code = .faulted)) then s.rst.active ||| (1#20 <<< 17)
    else s.rst.active &&& ~~~(1#20 <<< 17)
  { s with rst := { s.rst with active := a } }

/-- R99, R103, R107: a fault source is raised in a tile. -/
def faultTile (t : Nat) (src : FaultSrc) (s : State) : State :=
  let s := updTile t (setErr (faultBit src)) s
  let x := tileAt s t
  if x.code = .faulted ∨ x.code = .retired then s
  else
    let s := updTile t (fun x => { x with routerFailed := x.routerFailed || src = .routerFault }) s
    let rec_ := leBytes 1 t ++ leBytes 4 x.err.toNat
    if x.code = .testing then
      -- R106: the self-test fails and the tile is retired
      let s := emit 0x1101 t rec_ s
      let s := updTile t (fun x => setErr 8 { x with stDone := true, stPass := false }) s
      let s := emit 0x1104 t (leBytes 4 (2 ^ 31 + (tileAt s t).stUnits.toNat)) s
      retireTile t s
    else
      let ts := within s s.fw.tilePolicy.faultHours x.faultTimes ++ [runNs s]
      let again := decide (atLeast1 s.fw.tilePolicy.faults ≤ ts.length)
      let inRun := jobRunning s && inJob s t && (x.code = .running || x.code = .halted)
      let cause : JobEnd := ⟨3, t, x.logical.getD 0, 2 ^ faultBit src⟩
      let s := unloadFor t s
      let s := applyL1 t s
      let s := updTile t (fun x =>
        { x with code := .faulted, faultTimes := ts
                 policyDue := some (again || src = .routerFault) }) s
      let s := emit 0x1101 t rec_ s
      let s := if inRun then endJob cause s else s
      if 2 ≤ sourceLevel s 17 then raiseSource 17 s
      else
        let s := localReset 17 t 1 s
        -- the policy waits for the job's end, and for a module-wide reset's
        if inRun ∨ s.rst.level ≠ 0 then tileFaultActive s else tileFaultActive (applyPolicy t s)

/-- R100, R184: a tile is to be retired once the running job completes, or at once. -/
def retireWhenFree (t : Nat) (s : State) : State :=
  let x := tileAt s t
  if x.code = .retired then s
  else if jobRunning s then setTile t { x with retireDue := true } s
  else retireTile t s

end Sys2Proof.Machine
end

