-- ==== Sys2Proof/Machine/RedOps.lean ====
section
/-!
DEFINITION. Claims, acceptance tables and fencing (R541 to R549), as the fabric, the host
interface and the partnering rows use them.
-/

namespace Sys2Proof.Machine

/-- The acceptance-table entry of a source (R542). -/
def accOf (s : State) (src : Nat) : AccEntry := Cells.get {} s.red.acc src

/-- The state with an acceptance-table entry changed. -/
def updAcc (src : Nat) (f : AccEntry → AccEntry) (s : State) : State :=
  { s with red := { s.red with acc := Cells.upd {} s.red.acc src f } }

/-- The state with the partnering state changed. -/
def updRed (f : Red → Red) (s : State) : State := { s with red := f s.red }

/-- The module belongs to a pair: paired, or FENCED. -/
def inPair (s : State) : Bool := s.red.state ≠ .unpaired

/-- R232: the source of an operation: a twin pair counts as its lower member. -/
def sourceKey (s : State) (src : Nat) : Nat :=
  let e := accOf s src
  if e.valid && e.twin then min src e.partner else src

/-- A network has a port up (R433). -/
def netUp (s : State) (m : Nat) : Bool :=
  (List.range 4).any (fun i => (s.host.ports.getD (4 * m + i) {}).link)

/-- R548: the message body. -/
def msgBody (type claim gen length : Nat) (s : State) : List Byte :=
  let r := s.red
  let own := ownId s
  let lowOwn := own ≤ r.partner
  let flags := b2n (r.state = .fenced) + 2 * b2n r.lost + 4 * b2n (r.mode = 2) + 8 * b2n r.holdRefused
  leBytes 1 type ++ leBytes 1 flags ++ leBytes 2 own ++
  leBytes 2 (min own r.partner) ++ leBytes 2 (max own r.partner) ++
  leBytes 1 (if lowOwn then r.prioOwn else r.prioPartner) ++
  leBytes 1 (if lowOwn then r.prioPartner else r.prioOwn) ++ leBytes 2 0 ++
  leBytes 4 claim ++ leBytes 8 (nowNs s) ++ leBytes 4 gen ++ leBytes 4 0 ++ leBytes 8 length ++
  leBytes 8 0

/-- A message unit (R549): KIND 4 or 5, STREAM 0xFF, OPSEQ 0. -/
def msgUnit (kind : Nat) (body : List Byte) : OutUnit :=
  ⟨{ kind := kind, stream := 0xFF, opseq := 0, data := body }, .message⟩

/-- A datagram sent on every network that has a port up (R542, R550). -/
def sendDatagram (dest : Option Nat) (body : List Byte) (s : State) : State :=
  forEach ((List.range 2).filter (netUp s)) (fun m st =>
    updRed (fun r => { r with out := r.out ++ [⟨m, dest, body⟩] }) st) s

/-- R542: a claim message on every lane set of every armed plan, and as a datagram. -/
def sendClaim (type : Nat) (s : State) : State :=
  let body := msgBody type s.red.claim 0 0 s
  let s := { s with fab := { s.fab with slots := s.fab.slots.map (fun p =>
    { p with sets := p.sets.map (fun x =>
        if x.closed then x else { x with queue := msgUnit 5 body :: x.queue }) }) } }
  sendDatagram none body s

/-- R545: a NOTICE to a source whose operation carried a stale claim, at most one in 100
microseconds. -/
def sendNotice (src : Nat) (s : State) : State :=
  let last := Cells.get 0 s.red.noticed src
  if s.red.state = .fenced ∨ (last ≠ 0 ∧ nowNs s < last + 100000) then s
  else
    let s := sendUnit src (msgUnit 5 (msgBody 4 (accOf s src).claim 0 0 s)) s
    bump (updRed (fun r => { r with noticed := Cells.set 0 r.noticed src (nowNs s) }) s) rRedCount 0 [5]

/-- The units that a FENCED module still sends (R546 step 1). -/
def fencedKeep (_ : Nat) (u : OutUnit) : Bool := u.u.kind = 4

/-- R546: the module enters FENCED, once, for a cause: 1 NOTICE, 2 WISP, 3 CLAIM, 4 HOST. -/
def enterFenced (cause claim : Nat) (s : State) : State :=
  if s.red.state = .unpaired ∨ s.red.state = .fenced then s
  else
    let own := s.red.claim
    let s := updRed (fun r =>
      { r with state := .fenced, fenceCause := cause, pass := none, pendingStart := false
               repeats := 0 }) { s with sync := { s.sync with fencedSeen := [] } }
    let s := filterUnits fencedKeep s
    let s := { s with tiles := s.tiles.map (fun x => { x with fq := [] }) }
    let s := forEach s.coll.insts (collEnd 6 0) s
    let s := endJob ⟨1, 0, 0, 0⟩ s
    emit 0x0707 0 (leBytes 4 own ++ leBytes 4 claim) s

/-- A claim message, a Wisp frame or a header speaks of this module's own pair. -/
def ownPair (s : State) (a b : Nat) : Bool :=
  inPair s && decide ((a = ownId s ∧ b = s.red.partner) ∨ (b = ownId s ∧ a = s.red.partner))

/-- R545, R566: a claim of the module's own pair is seen: HIGHEST takes it, and a claim higher
than its own fences the module. -/
def seePairClaim (cause a b claim : Nat) (s : State) : State :=
  if ownPair s a b then
    let s := updRed (fun r => { r with highest := max r.highest claim }) s
    if s.red.claim < claim then enterFenced cause claim s else s
  else s

/-- RED_CLAIM_APPLIED: carries the pair and both claims. -/
def claimApplied (a b old new : Nat) (s : State) : State :=
  emit 0x0706 a (leBytes 2 a ++ leBytes 2 b ++ leBytes 4 old ++ leBytes 4 new) (bump s rRedCount 0 [4])

/-- R543, TAKEOVER: both members' entries take the claim, when it is higher than both. -/
def applyTakeover (src partner claim : Nat) (s : State) : State :=
  let old := (accOf s src).claim
  if old < claim ∧ (accOf s partner).claim < claim then
    let s := updAcc src (fun e => { e with claim := claim }) s
    let s := updAcc partner (fun e => { e with claim := claim }) s
    claimApplied src partner old claim s
  else s

/-- R543, ANNOUNCE. -/
def applyAnnounce (src partner prio claim : Nat) (twin : Bool) (s : State) : State :=
  let old := (accOf s src).claim
  if old < claim then
    claimApplied src partner old claim
      (updAcc src (fun _ => { claim := claim, partner := partner, prio := prio, valid := true, twin := twin }) s)
  else s

/-- R544, R547: a frame's header carries a claim higher than its sender's entry. -/
def applyHeaderClaim (src claim : Nat) (s : State) : State :=
  let e := accOf s src
  if e.claim < claim ∧ e.valid ∧ claim % 256 = e.prio ∧ s.red.tableReady then
    seePairClaim 3 src e.partner claim (applyTakeover src e.partner claim s)
  else s

/-- R230: the claim that a source's traffic must carry. -/
def claimOk (s : State) (src claim : Nat) : Bool := (accOf s src).claim = claim

end Sys2Proof.Machine
end

