-- ==== Sys2Proof/Machine/Flags.lean ====
section
/-!
DEFINITION. The arithmetic flags of a tile and FP32 arithmetic (R66 to R71, R125): every
operation computes exactly over the integers and rounds once, and answers the result
beside the flags it sets.
-/

namespace Sys2Proof.Machine

/-- TILE_ARITH_FLAGS (R74): bit 5 POISON_IN, 4 NAN_OUT, 3 OVF, 2 SAT, 1 FTZ, 0 LOSS. -/
abbrev Flags := BitVec 6

/-- No flag. -/
def fNone : Flags := 0#6
/-- A non-zero finite element was encoded as zero. -/
def fLoss : Flags := 1#6
/-- A subnormal input or result was flushed to zero. -/
def fFtz : Flags := 2#6
/-- A conversion saturated. -/
def fSat : Flags := 4#6
/-- An FP32 result overflowed to infinity. -/
def fOvf : Flags := 8#6
/-- An instruction wrote a NaN or a poisoned block. -/
def fNan : Flags := 16#6
/-- A poisoned block was consumed. -/
def fPoison : Flags := 32#6

/-- The flags of a list of results, each with its own flags. -/
def flagsOf {α : Type} (rs : List (α × Flags)) : Flags :=
  rs.foldl (fun f r => f ||| r.2) fNone

/-- An exact binary value: `m * 2 ^ e`. -/
structure Dyadic where
  m : Int
  e : Int
deriving DecidableEq, Repr

/-- `m * 2 ^ k` for a shift that is not negative. -/
def shiftInt (m : Int) (k : Int) : Int := m * 2 ^ k.toNat

/-- The exact sum of two binary values. -/
def dyAdd (x y : Dyadic) : Dyadic :=
  let e := min x.e y.e
  ⟨shiftInt x.m (x.e - e) + shiftInt y.m (y.e - e), e⟩

/-- The exact product of two binary values. -/
def dyMul (x y : Dyadic) : Dyadic := ⟨x.m * y.m, x.e + y.e⟩

/-- Round to nearest, ties to even, of `a / 2 ^ k`. -/
def rneShift (a k : Nat) : Nat :=
  let q := a / 2 ^ k
  let r := a % 2 ^ k
  if k = 0 then a
  else if 2 * r > 2 ^ k then q + 1
  else if 2 * r = 2 ^ k then q + q % 2
  else q

/-- Round to nearest, ties to even, of `a * 2 ^ e`. -/
def rneScale (a : Nat) (e : Int) : Nat :=
  if 0 ≤ e then a * 2 ^ e.toNat else rneShift a (-e).toNat

/-- The canonical quiet NaN (R68). -/
def qnan : W32 := 0x7FC00000#32
/-- FP32 infinity of a sign. -/
def fInf (neg : Bool) : W32 := if neg then 0xFF800000#32 else 0x7F800000#32
/-- FP32 zero of a sign. -/
def fZero (neg : Bool) : W32 := if neg then 0x80000000#32 else 0#32

/-- What an FP32 word holds. -/
inductive FpClass where
  | nan
  | inf (neg : Bool)
  | zero (neg : Bool)
  | sub (neg : Bool)
  | num (neg : Bool) (v : Dyadic)
deriving DecidableEq, Repr

/-- The value an FP32 word holds. -/
def fpClass (w : W32) : FpClass :=
  let neg := w.toNat / 2 ^ 31 = 1
  let ex := bits w.toNat 30 23
  let fr := bits w.toNat 22 0
  if ex = 255 then (if fr = 0 then .inf neg else .nan)
  else if ex = 0 then (if fr = 0 then .zero neg else .sub neg)
  else .num neg ⟨(if neg then -1 else 1) * ((2 ^ 23 + fr : Nat) : Int), (ex : Int) - 150⟩

/-- R68: an FP32 operand with a subnormal taken as zero of the same sign, and FTZ. -/
def fpIn (w : W32) : FpClass × Flags :=
  match fpClass w with
  | .sub neg => (.zero neg, fFtz)
  | c => (c, fNone)

/-- R68, R69: an exact value that is not zero rounded to FP32: round to nearest even to 24
bits, a tiny result flushed to zero with FTZ, an overflow to infinity with OVF. -/
def fpRound (v : Dyadic) : W32 × Flags :=
  let neg := decide (v.m < 0)
  let a := v.m.natAbs
  if a = 0 then (0#32, fNone)
  else
    let len := Nat.log2 a + 1
    let q0 := if len ≤ 24 then a * 2 ^ (24 - len) else rneShift a (len - 24)
    let ex0 : Int := v.e + (len : Int) - 24
    let q := if q0 = 2 ^ 24 then 2 ^ 23 else q0
    let ex : Int := (if q0 = 2 ^ 24 then ex0 + 1 else ex0) + 23
    if ex < -126 then (fZero neg, fFtz)
    else if 127 < ex then (fInf neg, fOvf)
    else (BitVec.ofNat 32 (b2n neg * 2 ^ 31 + (ex + 127).toNat * 2 ^ 23 + (q - 2 ^ 23)), fNone)

/-- The canonical NaN as a result, with NAN_OUT. -/
def fpNan : W32 × Flags := (qnan, fNan)

/-- The sum of two operands whose classes are known (R68). -/
def fpAddClass (x y : FpClass) : W32 × Flags :=
  match x, y with
  | .nan, _ => fpNan
  | _, .nan => fpNan
  | .inf a, .inf b => if a = b then (fInf a, fNone) else fpNan
  | .inf a, _ => (fInf a, fNone)
  | _, .inf b => (fInf b, fNone)
  | .num _ u, .num _ v => fpRound (dyAdd u v)
  | .num _ u, _ => fpRound u
  | _, .num _ v => fpRound v
  | .zero a, .zero b => (fZero (a && b), fNone)
  | .zero a, .sub b => (fZero (a && b), fNone)
  | .sub a, .zero b => (fZero (a && b), fNone)
  | .sub a, .sub b => (fZero (a && b), fNone)

/-- FP32 addition (R68). -/
def fpAdd (x y : W32) : W32 × Flags :=
  let a := fpIn x
  let b := fpIn y
  let r := fpAddClass a.1 b.1
  (r.1, a.2 ||| b.2 ||| r.2)

/-- The word with its sign turned; a NaN stays one. -/
def fpNeg (x : W32) : W32 := x ^^^ 0x80000000#32

/-- FP32 subtraction (R68). -/
def fpSub (x y : W32) : W32 × Flags := fpAdd x (fpNeg y)

/-- The sign of a class; a NaN has none that matters. -/
def fpSign : FpClass → Bool
  | .nan => false
  | .inf n => n
  | .zero n => n
  | .sub n => n
  | .num n _ => n

/-- The exact product of two operands, as a class: a product of finite values is kept
exact. -/
def fpMulClass (x y : FpClass) : FpClass :=
  let neg := fpSign x != fpSign y
  match x, y with
  | .nan, _ => .nan
  | _, .nan => .nan
  | .inf _, .inf _ => .inf neg
  | .inf _, .num _ _ => .inf neg
  | .num _ _, .inf _ => .inf neg
  | .inf _, _ => .nan
  | _, .inf _ => .nan
  | .num _ u, .num _ v => .num neg (dyMul u v)
  | _, _ => .zero neg

/-- A class written as FP32 with its rounding. -/
def fpOut : FpClass → W32 × Flags
  | .nan => fpNan
  | .inf n => (fInf n, fNone)
  | .zero n => (fZero n, fNone)
  | .sub n => (fZero n, fNone)
  | .num _ v => fpRound v

/-- FP32 multiplication (R68). -/
def fpMul (x y : W32) : W32 × Flags :=
  let a := fpIn x
  let b := fpIn y
  let r := fpOut (fpMulClass a.1 b.1)
  (r.1, a.2 ||| b.2 ||| r.2)

/-- FP32 fused multiply-add `x * y + z` with one rounding (R68). -/
def fpFma (x y z : W32) : W32 × Flags :=
  let a := fpIn x
  let b := fpIn y
  let c := fpIn z
  let r := fpAddClass (fpMulClass a.1 b.1) c.1
  (r.1, a.2 ||| b.2 ||| c.2 ||| r.2)

/-- Whether one finite or infinite operand is below another; zeros by their sign (R125). -/
def fpLess (x y : FpClass) : Bool :=
  match x, y with
  | .zero a, .zero b => a && !b
  | .num _ u, .num _ v =>
    let e := min u.e v.e
    decide (shiftInt u.m (u.e - e) < shiftInt v.m (v.e - e))
  | .inf a, .inf b => a && !b
  | .inf a, _ => a
  | _, .inf b => !b
  | .num a _, _ => a
  | _, .num b _ => !b
  | _, _ => false

/-- FP32 maximum (R125); subnormal operands are taken as zeros with FTZ (assumption 31). -/
def fpMax (x y : W32) : W32 × Flags :=
  let a := fpIn x
  let b := fpIn y
  let f := a.2 ||| b.2
  if a.1 = .nan ∨ b.1 = .nan then (qnan, f ||| fNan)
  else ((fpOut (if fpLess a.1 b.1 then b.1 else a.1)).1, f)

/-- FP32 minimum (R125). -/
def fpMin (x y : W32) : W32 × Flags :=
  let a := fpIn x
  let b := fpIn y
  let f := a.2 ||| b.2
  if a.1 = .nan ∨ b.1 = .nan then (qnan, f ||| fNan)
  else ((fpOut (if fpLess b.1 a.1 then b.1 else a.1)).1, f)

/-- Conversion from INT32 (R68). -/
def fpOfInt (x : W32) : W32 × Flags := fpRound ⟨x.toInt, 0⟩

/-- Conversion to INT32 (R71): nearest even, saturating with SAT, NaN gives 0. -/
def fpToInt (x : W32) : W32 × Flags :=
  match fpClass x with
  | .nan => (0#32, fNone)
  | .inf neg => (if neg then 0x80000000#32 else 0x7FFFFFFF#32, fSat)
  | .zero _ => (0#32, fNone)
  | .sub _ => (0#32, fNone)
  | .num neg v =>
    let a := rneScale v.m.natAbs v.e
    if neg then
      if a ≤ 2 ^ 31 then (BitVec.ofInt 32 (-(a : Int)), fNone) else (0x80000000#32, fSat)
    else if a < 2 ^ 31 then (BitVec.ofNat 32 a, fNone) else (0x7FFFFFFF#32, fSat)

/-- R125: the sums of adjacent pairs of a list. -/
def fpPairs : List (W32 × Flags) → List (W32 × Flags)
  | x :: y :: r =>
    let s := fpAdd x.1 y.1
    (s.1, x.2 ||| y.2 ||| s.2) :: fpPairs r
  | r => r

/-- R125: VSUMF, six levels of adjacent pairs. -/
def fpTree (xs : List W32) : W32 × Flags :=
  let l := xs.map (fun x => (x, fNone))
  (fpPairs (fpPairs (fpPairs (fpPairs (fpPairs (fpPairs l)))))).headD (0#32, fNone)

/-- R125: VMAXR, the largest lane. -/
def fpMaxAll (xs : List W32) : W32 × Flags :=
  match xs with
  | [] => (0#32, fNone)
  | x :: r =>
    let i := fpMax x x
    r.foldl (fun a y => let m := fpMax a.1 y; (m.1, a.2 ||| m.2)) i

/-- The FP32 word of sign `neg` whose significand of 24 bits is `q` and whose leading bit
weighs `2 ^ ex`, or nothing where it is outside the normal range. -/
def fpPack (neg : Bool) (q : Nat) (ex : Int) : Option W32 :=
  let q' := if q = 2 ^ 24 then 2 ^ 23 else if q < 2 ^ 23 then 2 * q else q
  let ex' := if q = 2 ^ 24 then ex + 1 else if q < 2 ^ 23 then ex - 1 else ex
  if ex' < -126 ∨ 127 < ex' ∨ q' < 2 ^ 23 then none
  else some (BitVec.ofNat 32
    (b2n neg * 2 ^ 31 + (ex' + 127).toNat * 2 ^ 23 + (q' - 2 ^ 23)))

/-- R70: the reciprocal's significand: the 24 bits below the exact quotient or the ones
above, each within 1 ulp; `pick` chooses. -/
def approxRcp (pick : Nat) (neg : Bool) (v : Dyadic) : Option W32 :=
  let a := v.m.natAbs
  let len := Nat.log2 a + 1
  -- 1 / (a * 2^e) = (2^(len + 23) / a) * 2^(-e - len - 23)
  let q := 2 ^ (len + 23) / a
  let up := if q * a = 2 ^ (len + 23) then 0 else pick % 2
  fpPack neg (q + up) (-v.e - (len : Int))

/-- R70: the reciprocal square root of a positive value. -/
def approxRsqrt (pick : Nat) (v : Dyadic) : Option W32 :=
  let a := v.m.natAbs
  -- make the exponent even, then floor (sqrt (2^120 / a))
  let a' := if v.e % 2 = 0 then a else 2 * a
  let e' := if v.e % 2 = 0 then v.e else v.e - 1
  let r := Nat.sqrt (2 ^ 120 / a')
  let len := Nat.log2 r + 1
  fpPack false (r / 2 ^ (len - 24) + pick % 2) (-(e' / 2) - 60 + (len : Int) - 1)

/-- `2 ^ (2 ^ -(i + 1))` to 100 fraction bits, by square roots from 2. -/
def exp2Roots : Nat → Nat → List Nat
  | 0, _ => []
  | n + 1, r => Nat.sqrt (r * 2 ^ 100) :: exp2Roots n (Nat.sqrt (r * 2 ^ 100))

/-- The product of the roots that the fraction's bits name, most significant first. -/
def exp2Frac : List Nat → Nat → Nat → Nat
  | [], _, acc => acc
  | r :: rs, f, acc =>
    let f' := 2 * f
    if 2 ^ 64 ≤ f' then exp2Frac rs (f' - 2 ^ 64) (acc * r / 2 ^ 100)
    else exp2Frac rs f' acc

/-- R70: the base-2 exponential: one of the significands within 2 ulp (the next above 2^24 is further). -/
def approxExp2 (pick : Nat) (v : Dyadic) : Option W32 :=
  -- the input as a fixed-point number of 64 fraction bits
  let x : Int := if 0 ≤ v.e + 64 then shiftInt v.m (v.e + 64) else v.m / 2 ^ (-(v.e + 64)).toNat
  if 200 * 2 ^ 64 < x ∨ x < -200 * 2 ^ 64 then none
  else
    let n := x / 2 ^ 64
    let f := (x - n * 2 ^ 64).toNat
    let y := exp2Frac (exp2Roots 64 (2 * 2 ^ 100)) f (2 ^ 100)
    fpPack false (min (y / 2 ^ 77 + pick % 4 - 1) (2 ^ 24)) n

/-- The fraction bits of the base-2 logarithm of `y / 2 ^ 120`, for y from 1 up to 2, by
repeated squaring. -/
def log2Bits : Nat → Nat → Nat → Nat
  | 0, _, acc => acc
  | n + 1, y, acc =>
    let z := y * y / 2 ^ 120
    if 2 ^ 121 ≤ z then log2Bits n (z / 2) (2 * acc + 1) else log2Bits n z (2 * acc)

/-- R70: the base-2 logarithm of a positive value: one of the four results within 2 ulp;
exactly 0 at 1. -/
def approxLog2 (pick : Nat) (v : Dyadic) : Option W32 :=
  let a := v.m.natAbs
  let len := Nat.log2 a + 1
  let n : Int := v.e + (len : Int) - 1
  let fr := log2Bits 100 (a * 2 ^ 121 / 2 ^ len) 0
  let x : Int := n * 2 ^ 100 + fr
  if x = 0 then some 0#32
  else
    let b := x.natAbs
    let l := Nat.log2 b + 1
    fpPack (decide (x < 0)) (min (b / 2 ^ (l - 24) + pick % 4 - 1) (2 ^ 24)) ((l : Int) - 101)

/-- R70: an approximate function of the vector unit: 0 reciprocal, 1 reciprocal square
root, 2 base-2 exponential, 3 base-2 logarithm. Within the bound on every finite normal
input of the domain; a free value elsewhere. -/
def fpApprox (fn : Nat) (x : W32) : W32 × Flags :=
  let pick := Config.approxPick fn x
  let r : Option W32 := match fpClass x with
    | .num neg v =>
      if fn = 0 then approxRcp pick neg v
      else if fn = 1 then (if neg then none else approxRsqrt pick v)
      else if fn = 2 then approxExp2 pick v
      else if neg then none else approxLog2 pick v
    | _ => none
  let y := r.getD (Config.approxOpen fn x)
  (y, if fpClass y = .nan then fNan else fNone)

end Sys2Proof.Machine
end

