-- ==== Sys2Proof/Machine/Blocks.lean ====
section
/-!
DEFINITION. The block formats B4, B8 and B16 (R41 to R63), their sparse forms (R128,
R129), the stochastic generator (R55 to R59) and the matrix engine's block products
(R66, R67).
-/

namespace Sys2Proof.Machine

/-- R126: FMT 1 is B4, 2 is B8, 3 is B16; the magnitude width w. -/
def fmtW (fmt : Nat) : Nat := if fmt = 1 then 3 else if fmt = 2 then 7 else 15

/-- R41: the bytes of a dense block. -/
def fmtBytes (fmt : Nat) : Nat := if fmt = 1 then 18 else if fmt = 2 then 34 else 66

/-- R128, R200: the bytes of a sparse block (a raw B16 sparse block is 38). -/
def fmtSparseBytes (fmt : Nat) : Nat := if fmt = 1 then 14 else if fmt = 2 then 22 else 38

/-- R56: one draw of the generator; the new state is the value drawn. -/
def srngNext (s : BitVec 16) : BitVec 16 :=
  if s.getLsbD 0 then (s >>> 1) ^^^ 0xB400#16 else s >>> 1

/-- R59: a generator state of 0 is never loaded. -/
def srngLoad (v : BitVec 16) : BitVec 16 := if v = 0#16 then 0xACE1#16 else v

/-- A block: its exponent byte, the nudges of its four sub-blocks and 32 codes, each a
sign and a magnitude (R42, R43). -/
structure Block where
  e : Nat
  nudges : List Nat
  codes : List (Bool × Nat)
deriving DecidableEq, Repr

/-- R42: the four nudges of the nudge byte. -/
def nudgesOf (b : Nat) : List Nat := [b % 4, b / 4 % 4, b / 16 % 4, b / 64 % 4]

/-- R42: the nudge byte. -/
def nudgeByte (ns : List Nat) : Nat :=
  ns.getD 0 0 + 4 * ns.getD 1 0 + 16 * ns.getD 2 0 + 64 * ns.getD 3 0

/-- R43: sign and magnitude of an element code. -/
def codeOf (w v : Nat) : Bool × Nat := (v / 2 ^ w % 2 = 1, v % 2 ^ w)

/-- R43: the element code of a sign and a magnitude. -/
def codeVal (w : Nat) (c : Bool × Nat) : Nat := b2n c.1 * 2 ^ w + c.2

/-- R42: element codes of a format packed in bytes. -/
def unpackCodes (fmt : Nat) (bs : List Byte) : List (Bool × Nat) :=
  if fmt = 1 then bs.flatMap (fun b => [codeOf 3 (b.toNat % 16), codeOf 3 (b.toNat / 16)])
  else if fmt = 2 then bs.map (fun b => codeOf 7 b.toNat)
  else (List.range (bs.length / 2)).map (fun i => codeOf 15 (leAt bs (2 * i) 2))

/-- The pairs of a list's neighbours. -/
def pairUp {α : Type} : List α → List (α × α)
  | a :: b :: r => (a, b) :: pairUp r
  | _ => []

/-- R42: element codes of a format as bytes. -/
def packCodes (fmt : Nat) (cs : List (Bool × Nat)) : List Byte :=
  if fmt = 1 then
    (pairUp cs).map (fun p => BitVec.ofNat 8 (codeVal 3 p.1 + 16 * codeVal 3 p.2))
  else if fmt = 2 then cs.map (fun c => BitVec.ofNat 8 (codeVal 7 c))
  else cs.flatMap (fun c => leBytes 2 (codeVal 15 c))

/-- R42: a dense block of stored bytes. -/
def blockOf (fmt : Nat) (bs : List Byte) : Block :=
  ⟨(bs.headD 0).toNat, nudgesOf (bs.getD 1 0).toNat, unpackCodes fmt (bs.drop 2)⟩

/-- R42: the stored bytes of a dense block. -/
def blockBytes (fmt : Nat) (b : Block) : List Byte :=
  BitVec.ofNat 8 b.e :: BitVec.ofNat 8 (nudgeByte b.nudges) :: packCodes fmt b.codes

/-- R46: an all-zero block as every encoder writes it. -/
def zeroBlock (fmt : Nat) : List Byte := List.replicate (fmtBytes fmt) 0

/-- R47, R49: a poisoned block as the encoder writes it. -/
def poisonBlock (fmt : Nat) : List Byte := 0xFF :: List.replicate (fmtBytes fmt - 1) 0

/-- R128: the positions in its group of the kept elements 2g and 2g + 1. -/
def sparsePos (idx g : Nat) : Nat × Nat := (idx / 2 ^ (4 * g) % 4, idx / 2 ^ (4 * g + 2) % 4)

/-- R129: every group of an index word names two strictly rising positions. -/
def sparseOk (idx : Nat) : Bool :=
  (List.range 8).all (fun g => decide ((sparsePos idx g).1 < (sparsePos idx g).2))

/-- R128: the group of four that two kept elements and their positions make. -/
def sparseGroup (p : Nat × Nat) (a b : Bool × Nat) : List (Bool × Nat) :=
  (List.range 4).map (fun i => if i = p.1 then a else if i = p.2 then b else (false, 0))

/-- R128: the 32 codes of the 16 kept codes under an index word. -/
def sparseCodes (idx : Nat) (kept : List (Bool × Nat)) : List (Bool × Nat) :=
  (List.range 8).flatMap (fun g => sparseGroup (sparsePos idx g)
    (kept.getD (2 * g) (false, 0)) (kept.getD (2 * g + 1) (false, 0)))

/-- R128: the index word of a stored sparse block. -/
def sparseIdx (fmt : Nat) (bs : List Byte) : Nat := leAt bs (fmtSparseBytes fmt - 4) 4

/-- R128: a sparse block's dense equivalent. -/
def sparseBlockOf (fmt : Nat) (bs : List Byte) : Block :=
  ⟨(bs.headD 0).toNat, nudgesOf (bs.getD 1 0).toNat,
    sparseCodes (sparseIdx fmt bs) (unpackCodes fmt ((bs.drop 2).take (fmtSparseBytes fmt - 6)))⟩

/-- R129: whether a stored sparse block's index word stops the instruction that consumes
it: not where the block is all zero or poisoned. -/
def sparseBad (fmt : Nat) (bs : List Byte) : Bool :=
  let e := (bs.headD 0).toNat
  !(e = 0 || e = 255) && !sparseOk (sparseIdx fmt bs)

/-- R45, R48: the exact value of a code at the exponent and nudge that hold it. -/
def codeValue (w e n : Nat) (c : Bool × Nat) : Dyadic :=
  ⟨if c.1 then -(c.2 : Int) else (c.2 : Int), (e : Int) - 127 - (n : Int) - ((w : Int) - 1)⟩

/-- R45 to R48, R126: a block decoded to 32 FP32 values, with the flags that this sets:
POISON_IN for a poisoned block, FTZ where a magnitude below 2^-126 is flushed. -/
def decodeBlock (fmt : Nat) (b : Block) : List W32 × Flags :=
  if b.e = 255 then (List.replicate 32 qnan, fPoison ||| fNan)
  else if b.e = 0 then (List.replicate 32 0#32, fNone)
  else
    let rs := (List.range 32).map (fun i =>
      let c := b.codes.getD i (false, 0)
      if c.2 = 0 then (0#32, fNone)
      else fpRound (codeValue (fmtW fmt) b.e (b.nudges.getD (i / 8) 0) c))
    (rs.map (·.1), flagsOf rs)

/-- How a conversion rounds: to nearest even, or with the generator's next draw (R54,
R55). -/
def roundMag (stoch : Bool) (r : BitVec 16) (m : Nat) (k : Int) : Nat :=
  if stoch then
    let q16 := if 0 ≤ k + 16 then m * 2 ^ (k + 16).toNat else m / 2 ^ (-(k + 16)).toNat
    if 65536 ≤ q16 % 65536 + r.toNat then q16 / 65536 + 1 else q16 / 65536
  else rneScale m k

/-- floor (log2) of `m * 2 ^ e` for m not 0. -/
def dyLog2 (m : Nat) (e : Int) : Int := (Nat.log2 m : Int) + e

/-- Whether one magnitude is at most another. -/
def magLe (a b : Nat × Int) : Bool :=
  let e := min a.2 b.2
  decide (a.1 * 2 ^ (a.2 - e).toNat ≤ b.1 * 2 ^ (b.2 - e).toNat)

/-- The largest of a list of magnitudes. -/
def magMax (xs : List (Nat × Int)) : Nat × Int :=
  xs.foldl (fun a b => if magLe a b then b else a) (0, 0)

/-- R49: the scale of an element: q is the magnitude times two to this. -/
def scaleExp (w : Nat) (e : Int) (n : Nat) : Int := (w : Int) - 1 - (e - 127) + n

/-- R50: the exponent of a block whose largest magnitude is `a`, and whether step 3 capped
it. -/
def blockExp (w : Nat) (a : Nat × Int) : Nat × Bool :=
  let e0 := dyLog2 a.1 a.2 + 127
  let e1 := if 2 ^ w - 1 < rneScale a.1 (a.2 + scaleExp w e0 0) then e0 + 1 else e0
  if 254 < e1 then (254, true) else if e1 < 1 then (1, false) else (e1.toNat, false)

/-- R51: the largest nudge that holds a sub-block's largest magnitude. -/
def nudgeFor (w e : Nat) (a : Nat × Int) : Nat :=
  if a.1 = 0 then 0
  else
    let fits := fun n => decide (rneScale a.1 (a.2 + scaleExp w e n) ≤ 2 ^ w - 1)
    if fits 3 then 3 else if fits 2 then 2 else if fits 1 then 1 else 0

/-- One input of an encoder: an infinity, or a finite value with its sign. -/
structure EncIn where
  neg : Bool
  inf : Bool
  mag : Nat × Int
deriving DecidableEq, Repr

/-- R52, R53: one element's code, with SAT and LOSS. -/
def encElem (w e : Nat) (n : Nat) (stoch : Bool) (r : BitVec 16) (x : EncIn) :
    (Bool × Nat) × Flags :=
  if x.inf then ((x.neg, 2 ^ w - 1), fSat)
  else if x.mag.1 = 0 then ((false, 0), fNone)
  else
    let m := roundMag stoch r x.mag.1 (x.mag.2 + scaleExp w e n)
    if 2 ^ w - 1 < m then ((x.neg, 2 ^ w - 1), fSat)
    else if m = 0 then ((false, 0), fLoss)
    else ((x.neg, m), fNone)

/-- The generator's next `n` draws, in order. -/
def srngDraws : Nat → BitVec 16 → List (BitVec 16)
  | 0, _ => []
  | n + 1, s => srngNext s :: srngDraws n (srngNext s)

/-- The generator's state after `n` draws. -/
def srngAfter : Nat → BitVec 16 → BitVec 16
  | 0, s => s
  | n + 1, s => srngAfter n (srngNext s)

/-- R49 to R55: 32 finite or infinite inputs encoded as one block, after the rows of R49
that look at the inputs' own format. -/
def encodeExact (fmt : Nat) (nudge stoch : Bool) (draws : List (BitVec 16)) (xs : List EncIn) :
    List Byte × Flags :=
  let w := fmtW fmt
  if xs.all (fun x => !x.inf && x.mag.1 = 0) then (zeroBlock fmt, fNone)
  else
    let inf := xs.any (·.inf)
    let ec : Nat × Bool := if inf then (254, false) else blockExp w (magMax (xs.map (·.mag)))
    let ns := (List.range 4).map (fun j =>
      if inf || !nudge then 0
      else nudgeFor w ec.1 (magMax (((xs.drop (8 * j)).take 8).map (·.mag))))
    let rs := (List.range 32).map (fun i =>
      encElem w ec.1 (ns.getD (i / 8) 0) stoch (draws.getD i 0#16)
        (xs.getD i ⟨false, false, (0, 0)⟩))
    let f := flagsOf rs ||| (if inf || ec.2 then fSat else fNone)
    if rs.all (fun r => r.1.2 = 0) then (zeroBlock fmt, f)
    else (blockBytes fmt ⟨ec.1, ns, rs.map (·.1)⟩, f)

/-- One FP32 input of an encoder (R49): `none` for a NaN; a subnormal is taken as 0 with
FTZ. -/
def encInput (x : W32) : Option EncIn × Flags :=
  match fpClass x with
  | .nan => (none, fNone)
  | .inf n => (some ⟨n, true, (0, 0)⟩, fNone)
  | .zero n => (some ⟨n, false, (0, 0)⟩, fNone)
  | .sub n => (some ⟨n, false, (0, 0)⟩, fFtz)
  | .num n v => (some ⟨n, false, (v.m.natAbs, v.e)⟩, fNone)

/-- R49 to R53: 32 FP32 values encoded as one block. A NaN poisons the block before any
other row is tested. -/
def encodeBlock (fmt : Nat) (nudge stoch : Bool) (draws : List (BitVec 16)) (xs : List W32) :
    List Byte × Flags :=
  let ins := xs.map encInput
  if ins.any (fun i => i.1.isNone) then (poisonBlock fmt, fNan)
  else
    let r := encodeExact fmt nudge stoch draws
      (ins.map (fun i => i.1.getD ⟨false, false, (0, 0)⟩))
    (r.1, flagsOf ins ||| r.2)

/-- R62: a widening conversion of a stored block, exact. -/
def widenBlock (src dst : Nat) (bs : List Byte) : List Byte :=
  let b := blockOf src bs
  let k := fmtW dst - fmtW src
  if b.e = 0 then zeroBlock dst
  else if b.e = 255 then poisonBlock dst
  else blockBytes dst { b with codes := b.codes.map (fun c => (c.1 && c.2 ≠ 0, c.2 * 2 ^ k)) }

/-- R63: a narrowing conversion of a stored block, with the exact decoded values as its
inputs. -/
def narrowBlock (src dst : Nat) (nudge stoch : Bool) (draws : List (BitVec 16))
    (bs : List Byte) : List Byte × Flags :=
  let b := blockOf src bs
  if b.e = 255 then (poisonBlock dst, fNan ||| fPoison)
  else if b.e = 0 then (zeroBlock dst, fNone)
  else encodeExact dst nudge stoch draws ((List.range 32).map (fun i =>
    let c := b.codes.getD i (false, 0)
    ⟨c.1, false, (c.2, (codeValue (fmtW src) b.e (b.nudges.getD (i / 8) 0) c).e)⟩))

/-- The exact value of an FP32 accumulator element, where it is finite. -/
def accClass (x : W32) : FpClass × Flags := fpIn x

/-- R66: the exact dot product of two blocks that are neither zero nor poisoned. -/
def blockDot (fa fb : Nat) (a b : Block) : Dyadic :=
  let s := (List.range 32).foldl (fun acc i =>
    let x := a.codes.getD i (false, 0)
    let y := b.codes.getD i (false, 0)
    let na := a.nudges.getD (i / 8) 0
    let nb := b.nudges.getD (i / 8) 0
    let p : Int := ((x.2 * y.2 * 2 ^ (6 - na - nb) : Nat) : Int)
    if x.1 != y.1 then acc - p else acc + p) (0 : Int)
  ⟨s, (a.e : Int) + (b.e : Int) - 260 - ((fmtW fa : Int) - 1) - ((fmtW fb : Int) - 1)⟩

/-- R66, R67: one block pair added into an accumulator element: poison before the zero
skip, then one rounding. -/
def accStep (fa fb : Nat) (acc : W32) (a b : Block) : W32 × Flags :=
  if a.e = 255 ∨ b.e = 255 then (qnan, fPoison ||| fNan)
  else if a.e = 0 ∨ b.e = 0 then (acc, fNone)
  else
    let c := fpIn acc
    let p := blockDot fa fb a b
    let r := fpAddClass c.1 (if p.m = 0 then .zero false else .num (decide (p.m < 0)) p)
    (r.1, c.2 ||| r.2)

end Sys2Proof.Machine
end

