-- ==== Sys2Proof/Machine/Memory.lean ====
section
/-!
DEFINITION. The memories as their readers and writers meet them (chapter 5 and R81, R82,
R88, R107, R114, R645): where an address lies, what a read of a marked word or granule
does, page retirement, strip states and slice repair.
-/

namespace Sys2Proof.Machine

/-! ### LPDDR5X: strips, rows and granules -/

/-- The strip of a DPA (R159). -/
def stripOf (dpa : Nat) : Nat := dpa / stripSize

/-- Strip `n`. -/
def stripAt (s : State) (n : Nat) : Strip := s.mem.strips.getD n { code := .offline }

/-- The state with strip `n` changed. -/
def updStrip (n : Nat) (f : Strip → Strip) (s : State) : State :=
  { s with mem := { s.mem with strips := s.mem.strips.set n (f (stripAt s n)) } }

/-- R160: where a DPA lies in its device. -/
structure DramPlace where
  strip : Nat
  rowSet : Nat
  channel : Nat
  /-- Burst slot: the place of the granule in its DRAM row. -/
  slot : Nat
  bankSeq : Nat
  bankGroup : Nat
  bank : Nat
  /-- Row within the bank. -/
  row : Nat
  rank : Nat
deriving DecidableEq, Repr

/-- R160: the mapping of a DPA onto the device. -/
def dramOf (dpa : Nat) : DramPlace :=
  let g := dpa % stripSize / 64
  let r := g / 124
  let b := r % 16
  { strip := stripOf dpa, rowSet := r, channel := (g % 4) ^^^ (r % 4), slot := g / 4 % 31
    bankSeq := b, bankGroup := b % 4, bank := b / 4, row := r / 16 % 294912, rank := r / 16 / 294912 }

/-- R160: the row of a DPA in its strip: 4 times the row set plus the channel. -/
def rowOf (dpa : Nat) : Nat := 4 * (dramOf dpa).rowSet + (dramOf dpa).channel

/-- R160: the DPA at which a row's row set starts. -/
def rowSetDpa (n row : Nat) : Nat := n * stripSize + row / 4 * 7936

/-- R160: the granule numbers of the 31 granules of a row. -/
def rowGrans (n row : Nat) : List Nat :=
  let r := row / 4
  let first := (rowSetDpa n row) / 64 + ((row % 4) ^^^ (r % 4))
  (List.range 31).map (fun i => first + 4 * i)

/-- R166: the check word of a granule as it is written: the code in bits 10:0, POISON in bit 11,
zeros above. -/
def checkWord (s : State) (g : Nat) : BitVec 16 :=
  let p := dramOf (g * 64)
  let poison := decide (Cells.get .clean s.mem.gran g = .bad)
  (0#4 ++ BitVec.ofBool poison) ++
    Config.granCode (memRead s.mem.cells (ddrBase + g * 64) 64) poison [p.strip, p.rank, p.bankSeq, p.row, p.slot]

/-- R166: slot 31 of a DRAM row: the check words of its granules in the order of their slots, and
two zero bytes. -/
def checkBurst (s : State) (n row : Nat) : List Byte :=
  (rowGrans n row).flatMap (fun g => leBytes 2 (checkWord s g).toNat) ++ [0, 0]

/-- R177, R179: the 9 check bits of a 16-byte word of a scratch or a slice, by its key over 16: a
word marked uncorrectable has bits 8 and 7 inverted. -/
def wordCheck (s : State) (w : Nat) : BitVec 9 :=
  let c := Config.sramCode (memRead s.mem.cells (w * 16) 16)
  if Cells.get .clean s.mem.words w = .bad then c ^^^ 0x180#9 else c

/-- A row that is LOST, or any row of an OFFLINE strip: nothing there can be read or
written (R170, R172). -/
def granBlocked (s : State) (g : Nat) : Bool :=
  let st := stripAt s (stripOf (g * 64))
  decide (st.code = .offline) || st.lost.contains (rowOf (g * 64))

/-- MEM_LOST: the row-set starts of the LOST rows (R170). -/
def lostWindow (s : State) : List Nat :=
  ((List.range 16).flatMap (fun n => (stripAt s n).lost.map (rowSetDpa n))).take 256

/-- MEM_ERR_LAST. -/
def noteErr (type where_ : Nat) (s : State) : State :=
  { s with mem := { s.mem with errValid := true, errType := type, errWhere := where_ } }

/-- A granule's mark. -/
def setGran (g : Nat) (m : Mark) (s : State) : State :=
  { s with mem := { s.mem with gran := Cells.set .clean s.mem.gran g m } }

/-- R172, R641: a strip becomes DEGRADED, for a cause. -/
def degradeStrip (n cause : Nat) (s : State) : State :=
  if (stripAt s n).code = .online then
    emit 0x0A06 n (leBytes 1 cause) (updStrip n (fun x => { x with code := .degraded, cause := cause }) s)
  else s

/-- R186, R465: the bulk transfers that touch a strip which goes OFFLINE. -/
def spoilBulks (n : Nat) (s : State) : State :=
  { s with host := { s.host with bulks := s.host.bulks.map (fun b =>
      if b.space = 0 ∧ stripOf b.addr ≤ n ∧ n ≤ stripOf (b.addr + b.len - 1) then { b with offline := true } else b) } }

/-- R172, R641: a strip becomes OFFLINE, for a cause, and stays so (R173). -/
def offlineStrip (n cause : Nat) (s : State) : State :=
  if (stripAt s n).code = .offline then s
  else
    emit 0x0A07 n (leBytes 1 cause)
      (spoilBulks n (updStrip n (fun x => { x with code := .offline, cause := cause }) s))

/-- R167: a single-bit error of a granule is corrected and counted. -/
def granCe (g : Nat) (s : State) : State :=
  let n := stripOf (g * 64)
  let s := updStrip n (fun x => { x with ceCount := satAdd 16 x.ceCount 1 }) (setGran g .clean s)
  emit 0x0A01 n [] (noteErr 0 (g * 64) s)

/-- R167, R172: a double-bit or wrong-address error of a granule: it is poisoned and counted, and
its row is among the uncorrectable rows of the last hour. -/
def granUe (g : Nat) (s : State) : State :=
  let dpa := g * 64
  let n := stripOf dpa
  let s := updStrip n (fun x =>
    { x with
      ueCount := satAdd 16 x.ueCount 1
      ueRows := (x.ueRows.filter (fun r => r.1 ≠ rowOf dpa && decide (runNs s < r.2 + 3600000000000)))
        ++ [(rowOf dpa, runNs s)] }) (setGran g .bad s)
  emit 0x0A02 n (leBytes 8 dpa) (noteErr 1 dpa s)

/-- R169 step 1: one granule of a row that is being retired is read: what can be corrected is,
and POISON is kept on the rest. -/
def retireGran (g : Nat) (s : State) : State :=
  match Cells.get .clean s.mem.gran g with
  | .single _ => granCe g s
  | .double => granUe g s
  | _ => s

/-- R172: more than 64 distinct rows of a strip were uncorrectable within an hour of run time. -/
def manyUeRows (n : Nat) (s : State) : Bool :=
  decide (64 < ((stripAt s n).ueRows.filter (fun r => runNs s < r.2 + 3600000000000)).length)

/-- R172, R641: the causes for OFFLINE that retirement can bring, the lower code first. -/
def settleStrip (n : Nat) (s : State) : State :=
  let s := if 16 < (stripAt s n).lost.length then offlineStrip n 3 s else s
  if manyUeRows n s then offlineStrip n 4 s else s

/-- R169, R170: a row is retired to a free patch entry, or becomes LOST. The device of an OFFLINE
strip is not read. -/
def retireRow (n row : Nat) (s : State) : State :=
  let st := stripAt s n
  if st.patch.contains row || st.lost.contains row then settleStrip n s
  else
    let s := if st.code = .offline then s else forEach (rowGrans n row) retireGran s
    let tot := s.peat.totals
    let s := { s with peat := { s.peat with totals := { tot with rowsRetired := tot.rowsRetired + 1 } } }
    if st.patch.length < 16 then
      let s := updStrip n (fun x =>
        { x with patch := x.patch ++ [row], retired := x.retired ++ [row]
                 ceRows := x.ceRows.filter (fun r => r.1 ≠ row) }) s
      let s := emit 0x0A03 n (leBytes 8 ((rowGrans n row).headD 0 * 64)) s
      settleStrip n (if 12 ≤ (stripAt s n).patch.length then degradeStrip n 3 s else s)
    else
      let s := updStrip n (fun x =>
        { x with lost := x.lost ++ [row], retired := x.retired ++ [row] }) s
      let s := emit 0x0A04 n (leBytes 8 (rowSetDpa n row)) s
      settleStrip n (degradeStrip n 2 s)

/-- The run times of the last 24 h. -/
def recent (s : State) (ts : List Nat) : List Nat := ts.filter (fun t => runNs s < t + dayNs)

/-- R167, R168: a corrected error counts towards its row's retirement; 256 rows a strip are
tracked, and a new row displaces the one whose count has gone longest without growing. -/
def countRowCe (n row : Nat) (s : State) : State :=
  let st := stripAt s n
  let old := ((st.ceRows.find? (fun r => r.1 = row)).map (·.2)).getD []
  let ts := recent s old ++ [runNs s]
  let rest := st.ceRows.filter (fun r => r.1 ≠ row)
  let rest := if 256 ≤ rest.length then rest.drop 1 else rest
  let s := updStrip n (fun x => { x with ceRows := rest ++ [(row, ts)] }) s
  if atLeast1 (regField s rMemPolicy 0 [] 15 12) ≤ ts.length then retireRow n row s else s

/-- R167: one granule is read; the answer is whether it is uncorrectable. -/
def readGran (g : Nat) (s : State) : State × Bool :=
  let dpa := g * 64
  let n := stripOf dpa
  let row := rowOf dpa
  if granBlocked s g then (s, true)
  else match Cells.get .clean s.mem.gran g with
    | .clean => (s, false)
    | .bad => (noteErr 2 dpa s, true)
    | .single _ => (countRowCe n row (granCe g s), false)
    | .double => (retireRow n row (granUe g s), true)

/-- The granules that a range of bytes touches. -/
def granRange (a n : Nat) : List Nat :=
  if n = 0 then [] else (List.range ((a + n - 1) / 64 + 1 - a / 64)).map (fun i => a / 64 + i)

/-- A range of DPAs is read: the state, and the uncorrectable granules in order. -/
def readGrans (gs : List Nat) (s : State) : State × List Nat :=
  gs.foldl (fun p g =>
    let r := readGran g p.1
    (r.1, if r.2 then p.2 ++ [g] else p.2)) (s, [])

/-- LPDDR5X read of `n` bytes at a DPA: the state, the bytes, the uncorrectable granules. -/
def ddrRead (dpa n : Nat) (s : State) : State × List Byte × List Nat :=
  let r := readGrans (granRange dpa n) s
  (r.1, memRead r.1.mem.cells (ddrBase + dpa) n, r.2)

/-- A strip of the range is TRAINING: the access is held (R172). -/
def ddrHeld (dpa n : Nat) (s : State) : Bool :=
  (stripAt s (stripOf dpa)).code = .training || (stripAt s (stripOf (dpa + n - 1))).code = .training

/-- R168: marks of granules that a write covers wholly are cleared. -/
def clearGrans (dpa n : Nat) (s : State) : State :=
  { s with mem := { s.mem with
      gran := s.mem.gran.filter (fun c => !(decide (dpa ≤ c.1 * 64 ∧ c.1 * 64 + 64 ≤ dpa + n))) } }

/-- LPDDR5X write: bytes to LOST rows and OFFLINE strips are discarded (R170, R172); the
answer holds the DPA of the first byte discarded. -/
def ddrWrite (dpa : Nat) (bs : List Byte) (s : State) : State × Option Nat :=
  let gs := granRange dpa bs.length
  match gs.filter (granBlocked s) with
  | [] =>
    let s := clearGrans dpa bs.length s
    ({ s with mem := { s.mem with cells := memWrite s.mem.cells (ddrBase + dpa) bs } }, none)
  | b :: _ =>
    let s := forEach (gs.filter (fun g => !granBlocked s g)) (fun g st =>
      let lo := max dpa (g * 64)
      let hi := min (dpa + bs.length) (g * 64 + 64)
      let part := (bs.drop (lo - dpa)).take (hi - lo)
      let st := clearGrans lo part.length st
      { st with mem := { st.mem with cells := memWrite st.mem.cells (ddrBase + lo) part } }) s
    (s, some (max dpa (b * 64)))

/-! ### Words of the SRAMs -/

/-- The words (by key over 16) that a range of keys touches. -/
def wordRange (a n : Nat) : List Nat :=
  if n = 0 then [] else (List.range ((a + n - 1) / 16 + 1 - a / 16)).map (fun i => a / 16 + i)

/-- A word's mark. -/
def setWord (w : Nat) (m : Mark) (s : State) : State :=
  { s with mem := { s.mem with words := Cells.set .clean s.mem.words w m } }

/-- R107, R100: a single-bit scratch error is corrected; 64 in 24 h, as shipped, retire the
tile. -/
def scratchCe (t : Nat) (s : State) : State :=
  let ts := within s s.fw.tilePolicy.ceHours (tileAt s t).ceTimes ++ [runNs s]
  let due := decide (atLeast1 s.fw.tilePolicy.ces ≤ ts.length)
  let s := updTile t (fun x =>
    setErr 0 { x with ceCount := satAdd 16 x.ceCount 1, ceTimes := if due then [] else ts }) s
  let s := emit 0x1102 t [] s
  if due then retireWhenFree t s else s

/-- A scratch range is read: single-bit errors are corrected; the answer is the scratch
offset of the first uncorrectable word. -/
def scratchCheck (t off n : Nat) (s : State) : State × Option Nat :=
  (wordRange (scratchBase t + off) n).foldl (fun p w =>
    match Cells.get .clean p.1.mem.words w with
    | .clean => p
    | .single _ => (scratchCe t (setWord w .clean p.1), p.2)
    | _ => (p.1, p.2.or (some (w * 16 - scratchBase t)))) (s, none)

/-- The repair state of a slice. -/
def sliceAt (s : State) (t : Nat) : SliceRep := Cells.get {} s.mem.slices t

/-- The state with a slice's repair state changed. -/
def updSlice (t : Nat) (f : SliceRep → SliceRep) (s : State) : State :=
  { s with mem := { s.mem with slices := Cells.upd {} s.mem.slices t f } }

/-- R176: the bank of a slice offset, tier times 16 plus bank. -/
def sliceBank (o : Nat) : Nat := bits o 13 13 * 16 + bits o 12 9
/-- R176: the row of a slice offset. -/
def sliceRow (o : Nat) : Nat := bits o 24 14
/-- R176: the slice offset at which a row of a bank starts. -/
def sliceRowOff (bank row : Nat) : Nat := row * 16384 + bank / 16 * 8192 + bank % 16 * 512
/-- R176: the bit-column of a bit of a word: 32 words of 137 bits a row. -/
def sliceCol (o bit : Nat) : Nat := o % 512 / 16 * 137 + bit

/-- R184: a bank needs a repair of a kind that it has no spare left for: recorded each time. -/
def noSpare (t : Nat) (s : State) : State :=
  emit 0x0A13 t [] (updSlice t (fun x => { x with sparesOut := true }) s)

/-- R184: and the tile is retired. -/
def sparesOut (t : Nat) (s : State) : State := retireWhenFree t (noSpare t s)

/-- A slice repair counted since manufacture. -/
def countRepair (s : State) : State :=
  let tot := s.peat.totals
  { s with peat := { s.peat with totals := { tot with sliceRepairs := tot.sliceRepairs + 1 } } }

/-- WHERE of MEM_ERR_LAST for a slice. -/
def sliceWhere (t off : Nat) : Nat := t * 2 ^ 40 + off

/-- R178: a single-bit slice error is corrected and counted. -/
def wordCe (t off : Nat) (s : State) : State :=
  let s := updSlice t (fun x => { x with ce := satAdd 8 x.ce 1 }) (setWord ((sliceBase t + off) / 16) .clean s)
  emit 0x0A10 t (leBytes 4 off) (noteErr 3 (sliceWhere t off) s)

/-- R178: an uncorrectable slice word is marked and recorded. -/
def wordUe (t off : Nat) (s : State) : State :=
  emit 0x0A11 t (leBytes 4 off) (noteErr 4 (sliceWhere t off) (setWord ((sliceBase t + off) / 16) .bad s))

/-- R182: a word of a row that is being copied to a spare is read. -/
def copyWord (t w : Nat) (s : State) : State :=
  match Cells.get .clean s.mem.words w with
  | .single _ => wordCe t (w * 16 - sliceBase t) s
  | .double => wordUe t (w * 16 - sliceBase t) s
  | _ => s

/-- R182: a row is replaced by a spare, with uncorrectable words copied as marked. -/
def repairRow (t bank row : Nat) (s : State) : State :=
  let used := Cells.get 0 (sliceAt s t).rows bank
  if 16 ≤ used then sparesOut t s
  else
    let s := forEach (wordRange (sliceBase t + sliceRowOff bank row) 512) (copyWord t) s
    let s := updSlice t (fun x =>
      { x with rows := Cells.set 0 x.rows bank (used + 1)
               repaired := x.repaired ++ [bank * 2048 + row]
               ceLog := x.ceLog.filter (fun e => e.1 ≠ bank * 2048 + row) }) s
    emit 0x0A12 t ([0] ++ leBytes 1 bank ++ leBytes 2 row) (countRepair s)

/-- R183, R184: a column repair is asked for; AS_COLUMN_REPAIR makes it. -/
def wantColumn (t bank col : Nat) (s : State) : State :=
  let x := sliceAt s t
  if x.colDue.contains (bank * 4384 + col) then s
  else if 8 ≤ Cells.get 0 x.cols bank + (x.colDue.filter (fun c => c / 4384 = bank)).length then
    sparesOut t s
  else updSlice t (fun x => { x with colDue := x.colDue ++ [bank * 4384 + col] }) s

/-- R183: a bank is rewritten, so single-bit errors in it are corrected. -/
def rewriteBank (t bank : Nat) (s : State) : State :=
  { s with mem := { s.mem with
      words := s.mem.words.filter (fun c =>
        let o := c.1 * 16 - sliceBase t
        !(decide (sliceBase t ≤ c.1 * 16 ∧ o < sliceSize ∧ sliceBank o = bank) &&
          (match c.2 with | .single _ => true | _ => false))) } }

/-- R183: a spare column stands in, and the bank is rewritten. -/
def repairColumn (t bank col : Nat) (s : State) : State :=
  let s := rewriteBank t bank s
  let s := updSlice t (fun x =>
    { x with cols := Cells.set 0 x.cols bank (Cells.get 0 x.cols bank + 1)
             repairedCols := x.repairedCols ++ [bank * 4384 + col]
             colDue := x.colDue.filter (fun c => c ≠ bank * 4384 + col)
             ceLog := x.ceLog.filter (fun e => e.2.1 ≠ bank * 4384 + col) }) s
  emit 0x0A12 t ([1] ++ leBytes 1 bank ++ leBytes 2 col) (countRepair s)

/-- R178, R182, R183: a single-bit slice error is corrected and counted. -/
def sliceCe (t off bit : Nat) (s : State) : State :=
  let bank := sliceBank off
  let row := bank * 2048 + sliceRow off
  let col := bank * 4384 + sliceCol off bit
  let log := (sliceAt s t).ceLog.filter (fun e => runNs s < e.2.2 + dayNs) ++ [(row, col, runNs s)]
  let s := updSlice t (fun x => { x with ceLog := log }) (wordCe t off s)
  let s := if atLeast1 (regField s rMemPolicy 0 [] 7 4) ≤
      ((log.filter (fun e => e.2.1 = col)).map (·.1)).dedup.length then
    wantColumn t bank (col % 4384) s else s
  if atLeast1 (regField s rMemPolicy 0 [] 11 8) ≤ (log.filter (fun e => e.1 = row)).length then
    repairRow t bank (sliceRow off) s else s

/-- R178, R182: an uncorrectable slice word is read: reported, and its row replaced. A word that
was marked before says nothing new of a row that a spare stands in for (assumption 35). -/
def sliceUe (t off : Nat) (s : State) : State :=
  let old := decide (Cells.get .clean s.mem.words ((sliceBase t + off) / 16) = .bad)
  let s := wordUe t off s
  if old && (sliceAt s t).repaired.contains (sliceBank off * 2048 + sliceRow off) then s
  else repairRow t (sliceBank off) (sliceRow off) s

/-- A slice range is read: the answer holds the slice offsets of the uncorrectable words. -/
def sliceCheck (t off n : Nat) (s : State) : State × List Nat :=
  (wordRange (sliceBase t + off) n).foldl (fun p w =>
    let o := w * 16 - sliceBase t
    match Cells.get .clean p.1.mem.words w with
    | .clean => p
    | .single b => (sliceCe t o b (setWord w .clean p.1), p.2)
    | _ => (sliceUe t o p.1, p.2 ++ [o])) (s, [])

/-- R179, R645: bytes written to an SRAM: words covered wholly are clean again, and a
partial write leaves an uncorrectable word marked; `ce` counts a single-bit error that a
partial write reads and corrects. -/
def sramWrite (key : Nat) (bs : List Byte) (ce : Nat → Nat → State → State) (s : State) : State :=
  let s := (wordRange key bs.length).foldl (fun st w =>
    if decide (key ≤ w * 16 ∧ w * 16 + 16 ≤ key + bs.length) then setWord w .clean st
    else match Cells.get .clean st.mem.words w with
      | .single b => ce (w * 16) b (setWord w .clean st)
      | .double => setWord w .bad st
      | _ => st) s
  { s with mem := { s.mem with cells := memWrite s.mem.cells key bs } }

/-- Bytes written to a scratch. -/
def scratchWrite (t off : Nat) (bs : List Byte) (s : State) : State :=
  sramWrite (scratchBase t + off) bs (fun _ _ st => scratchCe t st) s

/-- Bytes written to a slice. -/
def sliceWrite (t off : Nat) (bs : List Byte) (s : State) : State :=
  sramWrite (sliceBase t + off) bs (fun k b st => sliceCe t (k - sliceBase t) b st) s

/-! ### Tile-local addresses -/

/-- Where a tile-local range lies (R81). -/
inductive Place where
  | scratch (t off : Nat)
  | slice (t off : Nat)
  | ddr (dpa : Nat)
  | unmapped
deriving DecidableEq, Repr

/-- R81, R82: the place of `n` bytes at a tile-local address of tile `t`; the whole range
lies in one region, or the address is unmapped. -/
def placeOf (s : State) (t a n : Nat) : Place :=
  let m := max n 1
  if a + m ≤ scratchSize then .scratch t a
  else if sliceOff ≤ a ∧ a + m ≤ sliceOff + sliceSize then .slice t (a - sliceOff)
  else if ddrBase ≤ a ∧ a + m ≤ ddrBase + ddrSize then .ddr (a - ddrBase)
  else if windowBase ≤ a ∧ a < windowBase + 144 * windowStride then
    match physOf s ((a - windowBase) / windowStride) with
    | none => .unmapped
    | some u =>
      let o := (a - windowBase) % windowStride
      if o + m ≤ scratchSize then .scratch u o
      else if sliceOff ≤ o ∧ o + m ≤ sliceOff + sliceSize then .slice u (o - sliceOff)
      else .unmapped
  else .unmapped

/-- What an access comes to: it is made, it raises an exception (cause and TILE_TRAP_ADDR),
it is a fault of the tile itself, or it is held. -/
inductive Access where
  | ok (bs : List Byte)
  | exc (cause addr : Nat)
  | fault (src : FaultSrc)
  | held
deriving DecidableEq, Repr

/-- R88: a tile whose router answers reads and writes of its memories. -/
def serving (x : Tile) : Bool := x.code = .ready || x.code = .running || x.code = .halted

/-- R82, R88: a read at a tile-local address that raises ADDRESS: it is not mapped, or the tile
that it names does not serve. -/
def readRefused (s : State) (t a n : Nat) : Bool :=
  match placeOf s t a n with
  | .unmapped => true
  | .scratch u _ => decide (u ≠ t) && !serving (tileAt s u)
  | .slice u _ => decide (u ≠ t) && !serving (tileAt s u)
  | .ddr _ => false

/-- A read of `n` bytes at a tile-local address by tile `t` (R82, R88, R107, R138, R167,
R178). -/
def tileLoad (t a n : Nat) (s : State) : State × Access :=
  match placeOf s t a n with
  | .unmapped => (s, .exc 4 a)
  | .scratch u o =>
    if u ≠ t ∧ ¬ serving (tileAt s u) then (s, .exc 4 a)
    else
      let r := scratchCheck u o n s
      match r.2 with
      | none => (r.1, .ok (memRead s.mem.cells (scratchBase u + o) n))
      | some w =>
        if u = t then (r.1, .fault .scrUe)
        else (faultTile u .scrUe r.1, .exc 12 (a + (w - o)))
  | .slice u o =>
    if u ≠ t ∧ ¬ serving (tileAt s u) then (s, .exc 4 a)
    else
      let r := sliceCheck u o n s
      match r.2 with
      | [] => (r.1, .ok (memRead s.mem.cells (sliceBase u + o) n))
      | w :: _ => (r.1, .exc 12 (a + (w - o)))
  | .ddr d =>
    if ddrHeld d n s then (s, .held)
    else
      let r := ddrRead d n s
      match r.2.2 with
      | [] => (r.1, .ok r.2.1)
      | g :: _ => (r.1, .exc 12 (a + (g * 64 - d)))

/-- R114: whether a scratch range touches the code region of a tile of the running job. -/
def hitsCode (s : State) (u o : Nat) : Bool :=
  jobRunning s && inJob s u && decide (o < (tileAt s u).codeLen)

/-- Whether a write of `n` bytes at a tile-local address may be made: what it raises, or
that it is held. -/
def storeCheck (t a n : Nat) (s : State) : Option Access :=
  match placeOf s t a n with
  | .unmapped => some (.exc 4 a)
  | .scratch u o => if hitsCode s u o then some (.exc 4 a) else none
  | .slice _ _ => none
  | .ddr d => if ddrHeld d n s then some .held else none

/-- A write at a tile-local address, once it may be made; one to a tile that does not serve
is discarded (R88). -/
def storeBytes (t a : Nat) (bs : List Byte) (s : State) : State :=
  match placeOf s t a bs.length with
  | .unmapped => s
  | .scratch u o => if u = t ∨ serving (tileAt s u) then scratchWrite u o bs s else s
  | .slice u o => if u = t ∨ serving (tileAt s u) then sliceWrite u o bs s else s
  | .ddr d => (ddrWrite d bs s).1

/-- A write at a tile-local address by tile `t` (R82, R88, R114). -/
def tileStore (t a : Nat) (bs : List Byte) (s : State) : State × Access :=
  match storeCheck t a bs.length s with
  | some e => (s, e)
  | none => (storeBytes t a bs s, .ok [])

/-- R131, R192, R464: bytes whose contents are not defined (assumption 7). -/
def spoilKeys (ks : List Nat) (s : State) : State :=
  if ks.isEmpty then s
  else
    { s with
      fresh := s.fresh + 1
      mem := { s.mem with cells := ks.foldl (fun m k =>
        memWrite m k [Config.overlapByte s.fresh k]) s.mem.cells } }

/-- The keys that two ranges share. -/
def sharedKeys (a n b m : Nat) : List Nat :=
  (List.range n).filterMap (fun j => if b ≤ a + j ∧ a + j < b + m then some (a + j) else none)

/-- Physical errors strike: the next read of their words will meet them. -/
def strike (ups : List Upset) (s : State) : State :=
  forEach ups (fun u st =>
    let m := if u.double then Mark.double else Mark.single u.bit
    let worse := fun (o : Mark) => match o with
      | .clean => m
      | .single _ => if u.double then Mark.double else .single u.bit
      | o => o
    match u.at_ with
    | .ddr d => setGran (d / 64) (worse (Cells.get .clean st.mem.gran (d / 64))) st
    | .slice t o =>
      let w := (sliceBase t + o) / 16
      setWord w (worse (Cells.get .clean st.mem.words w)) st
    | .scratch t o =>
      let w := (scratchBase t + o) / 16
      setWord w (worse (Cells.get .clean st.mem.words w)) st) s

end Sys2Proof.Machine
end

