-- ==== Sys2Proof/Machine/Issue.lean ====
section
/-!
DEFINITION. The scalar core (R113, R115, R116, R124, R138 to R142): fetching the word at
the program counter, waiting for the queues, moving the program counter, raising an
exception, and handing an instruction to a queue. A row of the opcode table that is a tile
instruction occurs only when a tile's next word is that instruction and may issue; the
command leaves the module unchanged otherwise (assumption 4).
-/

namespace Sys2Proof.Machine

/-- The scalar core may issue its next instruction. -/
def issuing (x : Tile) : Bool := x.code = .running && x.wait = .none && x.trap.isNone

/-- The word of the tile's scratch at an offset. -/
def codeWord (s : State) (t pc : Nat) : W64 :=
  BitVec.ofNat 64 (leVal (memRead s.mem.cells (scratchBase t + pc) 8))

/-- R113: the word at the program counter, where the tile may issue it. A double-bit error
in it is a fault of the tile (R107). -/
def fetchWord (t : Nat) (s : State) : State × Option W64 :=
  let x := tileAt s t
  if issuing x ∧ ¬ s.pwr.tripped ∧ x.pc % 8 = 0 ∧ x.pc + 8 ≤ x.codeLen then
    match scratchCheck t x.pc 8 s with
    | (s', none) => (s', some (codeWord s' t x.pc))
    | (s', some _) => (faultTile t .scrUe s', none)
  else (s, none)

/-- R116: no pending entry holds a register that the instruction needs. -/
def registersFree (x : Tile) (i : Insn) : Bool :=
  (allEntries x).all (fun e => !waitsFor i (insnOf e.word))

/-- The next word of a tile, where it is a valid instruction that waits for no register. -/
def nextInsn (t : Nat) (s : State) : State × Option Insn :=
  match fetchWord t s with
  | (s', none) => (s', none)
  | (s', some w) =>
    if insnOk (insnOf w) then (s', some (insnOf w)) else (s', none)

/-- One instruction of the scalar core: `f` runs where the tile's next instruction has the
opcode and its registers are free (R116). -/
def runInsn (op t : Nat) (f : Insn → State → State) (s : State) : State :=
  match nextInsn t s with
  | (s', some i) => if i.op = op ∧ registersFree (tileAt s t) i then f i s' else s
  | (s', none) => if (tileAt s' t).code = .running then s else s'

/-- R138 to R140: an exception is raised in a tile: it stops issuing, entries not yet
started are discarded, and the job is to end with TRAP. A tile that already holds an
exception keeps the first. -/
def raiseExc (t cause unit pc addr flags : Nat) (s : State) : State :=
  let x := tileAt s t
  if x.trap.isSome then s
  else if x.code = .running ∨ x.code = .halted then
    noteEnd ⟨2, t, x.logical.getD 0, cause⟩
      (setTile t (dropUnstarted { x with
        code := .running, wait := .stop, trap := some ⟨cause, unit, pc % 2 ^ 19, addr % 2 ^ 48, flags⟩ }) s)
  else s

/-- An exception of the scalar core at its program counter. -/
def raiseHere (t cause addr : Nat) (s : State) : State :=
  raiseExc t cause 0 (tileAt s t).pc addr 0 s

/-- R113: the program counter moves; where it leaves the code region or is not a multiple
of 8, FETCH is raised there. TILE_TRAP_PC is then the target modulo 2^19: R124 says it of JR
alone, and for the other ways out it is the model's choice (assumption 80, DESIGN CHOICE). -/
def goTo (t : Nat) (target : Int) (s : State) : State :=
  let x := tileAt s t
  let a := (target % (2 ^ 48 : Int)).toNat
  if 0 ≤ target ∧ a % 8 = 0 ∧ target < (x.codeLen : Int) then
    setTile t { x with pc := a } s
  else
    raiseExc t 2 0 a a 0 (setTile t { x with pc := a % 2 ^ 19 } s)

/-- The program counter moves past an instruction. -/
def stepOver (t : Nat) (s : State) : State := goTo t ((tileAt s t).pc + 8 : Nat) s

/-- R124: a branch or jump counts instructions from its own address. -/
def jumpBy (t : Nat) (imm : Nat) (s : State) : State :=
  goTo t ((tileAt s t).pc + 8 * (BitVec.ofNat 32 imm).toInt) s

/-- R121: a scalar operation on two registers. -/
def aluReg (op : Nat) (f : W32 → W32 → W32) (t : Nat) (s : State) : State :=
  runInsn op t (fun i s =>
    stepOver t (updTile t (fun x => sSet x i.d (f (sGet x i.a) (sGet x i.b))) s)) s

/-- R121: a scalar operation on a register and IMM. -/
def aluImm (op : Nat) (f : W32 → W32 → W32) (t : Nat) (s : State) : State :=
  runInsn op t (fun i s =>
    stepOver t (updTile t (fun x => sSet x i.d (f (sGet x i.a) (BitVec.ofNat 32 i.imm))) s)) s

/-- R124: a branch. -/
def branchOn (op : Nat) (c : W32 → W32 → Bool) (t : Nat) (s : State) : State :=
  runInsn op t (fun i s =>
    let x := tileAt s t
    if c (sGet x i.a) (sGet x i.b) then jumpBy t i.imm s else stepOver t s) s

/-- An instruction that only changes its tile, and goes on. -/
def simpleInsn (op : Nat) (f : Insn → Tile → Tile) (t : Nat) (s : State) : State :=
  runInsn op t (fun i s => stepOver t (updTile t (f i) s)) s

/-- R122, R123: a scalar load of `n` bytes, aligned to `n`. -/
def scalarLoad (op n : Nat) (put : Insn → List Byte → Tile → Tile) (t : Nat) (s : State) : State :=
  runInsn op t (fun i s0 =>
    let x := tileAt s0 t
    let a := (effAddr x i).toNat
    if a % n ≠ 0 then raiseHere t 3 a s0
    else match tileLoad t a n s0 with
      | (s1, .ok bs) => stepOver t (updTile t (fun y => put i bs (postUpdate i y)) s1)
      | (s1, .exc c ad) => raiseHere t c ad s1
      | (s1, .fault src) => faultTile t src s1
      | (_, .held) => s) s

/-- R122, R123: a scalar store of `n` bytes, aligned to `n`. -/
def scalarStore (op n : Nat) (val : Insn → Tile → Nat) (t : Nat) (s : State) : State :=
  runInsn op t (fun i s0 =>
    let x := tileAt s0 t
    let a := (effAddr x i).toNat
    if a % n ≠ 0 then raiseHere t 3 a s0
    else match tileStore t a (leBytes n (val i x)) s0 with
      | (s1, .ok _) => stepOver t (updTile t (postUpdate i) s1)
      | (s1, .exc c ad) => raiseHere t c ad s1
      | (s1, .fault src) => faultTile t src s1
      | (_, .held) => s) s

/-- R115: an instruction is handed to its queue, where there is room. The queue's entry
waits for its registers (R116), so the core does not. -/
def issueTo (op : Nat) (u : TileUnit) (t : Nat) (s : State) : State :=
  match fetchWord t s with
  | (s', none) => if (tileAt s' t).code = .running then s else s'
  | (s', some w) =>
    let i := insnOf w
    let x := tileAt s' t
    if insnOk i ∧ i.op = op ∧ (queueGet x u).length < queueDepth u then
      let e : QEntry := { word := w, pc := x.pc, seq := x.issued }
      stepOver t (setTile t { queuePut x u (queueGet x u ++ [e]) with issued := x.issued + 1 } s')
    else s

end Sys2Proof.Machine
end

