-- ==== Sys2Proof/Machine/Units.lean ====
section
/-!
DEFINITION. What the entries of the matrix, vector and mover queues do (R115, R120, R121,
R125 to R131). An entry runs whole, when QUEUE_ENTRY_COMPLETION completes it.
-/

namespace Sys2Proof.Machine

/-- What the run of a queue entry comes to. -/
inductive Ran where
  /-- It has its effects; the flags that it sets (R141). -/
  | done (s : State) (fl : Flags)
  /-- It raises an exception (cause, TILE_TRAP_ADDR). -/
  | exc (s : State) (cause addr : Nat)
  /-- A read met a double-bit error in the tile's own scratch (R138). -/
  | fault (s : State) (src : FaultSrc)
  /-- It waits: a strip is TRAINING, or the fabric holds it. -/
  | held

/-! ### Vector lanes -/

/-- Lane-wise with no flags. -/
def plain (f : W32 → W32 → W32) (a b : W32) : W32 × Flags := (f a b, fNone)

/-- The lane-wise operations on two operands (R120, R121, R125). -/
def laneOp (op : Nat) : Option (W32 → W32 → W32 × Flags) :=
  match op with
  | 0x60 => some fpAdd
  | 0x61 => some fpSub
  | 0x62 => some fpMul
  | 0x63 => some fpMax
  | 0x64 => some fpMin
  | 0x66 => some (plain (· + ·))
  | 0x67 => some (plain (· - ·))
  | 0x68 => some (plain (· * ·))
  | 0x69 => some (plain (· &&& ·))
  | 0x6A => some (plain (· ||| ·))
  | 0x6B => some (plain (· ^^^ ·))
  | 0x6C => some (plain (fun a b => a <<< (b.toNat % 32)))
  | 0x6D => some (plain (fun a b => a >>> (b.toNat % 32)))
  | 0x6E => some (plain (fun a b => a.sshiftRight (b.toNat % 32)))
  | _ => none

/-- The lane-wise operations on one operand (R68, R70, R71). -/
def laneFn (op : Nat) : Option (W32 → W32 × Flags) :=
  match op with
  | 0x70 => some (fpApprox 0)
  | 0x71 => some (fpApprox 1)
  | 0x72 => some (fpApprox 2)
  | 0x73 => some (fpApprox 3)
  | 0x74 => some fpToInt
  | 0x75 => some fpOfInt
  | _ => none

/-- The lanes' results and the flags that they set. -/
def lanesOut (rs : List (W32 × Flags)) : List W32 × Flags := (rs.map (·.1), flagsOf rs)

/-- The registers-only vector instructions: the tile after one, and its flags; none for the
memory instructions. -/
def vectorRegs (i : Insn) (x : Tile) : Option (Tile × Flags) :=
  let a := vGet x i.a
  match laneOp i.op, laneFn i.op with
  | some f, _ =>
    let r := lanesOut (List.zipWith f a (operandB x i))
    some (vSet x i.d r.1, r.2)
  | _, some f =>
    let r := lanesOut (a.map f)
    some (vSet x i.d r.1, r.2)
  | none, none =>
    if i.op = 0x65 then
      let r := lanesOut (List.zipWith (fun f z => f z)
        (List.zipWith (fun p q => fpFma p q) a (operandB x i)) (vGet x i.d))
      some (vSet x i.d r.1, r.2)
    else if i.op = 0x76 then some (vSet x i.d (List.replicate 64 (sGet x i.a)), fNone)
    else if i.op = 0x77 then
      let r := fpTree a
      some (sSet x i.d r.1, r.2)
    else if i.op = 0x78 then
      let r := fpMaxAll a
      some (sSet x i.d r.1, r.2)
    else none

/-- The 32-bit words of bytes. -/
def wordsOf : Nat → List Byte → List W32
  | 0, _ => []
  | n + 1, bs => BitVec.ofNat 32 (leAt bs 0 4) :: wordsOf n (bs.drop 4)

/-- A vector load of `n` bytes at EA. -/
def vectorLoad (t n al : Nat) (i : Insn) (f : List Byte → Tile → Tile × Flags) (s : State) : Ran :=
  let a := (effAddr (tileAt s t) i).toNat
  if a % al ≠ 0 then .exc s 3 a
  else match tileLoad t a n s with
    | (s', .ok bs) =>
      let r := f bs (postUpdate i (tileAt s' t))
      .done (setTile t r.1 s') r.2
    | (s', .exc c ad) => .exc s' c ad
    | (s', .fault src) => .fault s' src
    | (_, .held) => .held

/-- A vector store at EA; `f` gives the bytes, the flags and the tile's generator after. -/
def vectorStore (t n al : Nat) (i : Insn) (f : Tile → List Byte × Flags × BitVec 16) (s : State) : Ran :=
  let x := tileAt s t
  let a := (effAddr x i).toNat
  if a % al ≠ 0 then .exc s 3 a
  else match storeCheck t a n s with
    | some (.exc c ad) => .exc s c ad
    | some _ => .held
    | none =>
      let r := f x
      .done (updTile t (fun y => { postUpdate i y with srng := r.2.2 }) (storeBytes t a r.1 s)) r.2.1

/-- R126: the 64 lanes of a vector as two blocks, with the flags and the generator after. -/
def packLanes (i : Insn) (v : List W32) (g : BitVec 16) : List Byte × Flags × BitVec 16 :=
  let fmt := i.x % 4
  let st := bitOf i.x 2
  let draws := if st then srngDraws 64 g else []
  let b0 := encodeBlock fmt (bitOf i.x 3) st (draws.take 32) (v.take 32)
  let b1 := encodeBlock fmt (bitOf i.x 3) st (draws.drop 32) (v.drop 32)
  (b0.1 ++ b1.1, b0.2 ||| b1.2, if st then srngAfter 64 g else g)

/-- The entries of the vector queue (opcodes 0x60 to 0x7D). -/
def runVector (t : Nat) (i : Insn) (s : State) : Ran :=
  match vectorRegs i (tileAt s t) with
  | some r => .done (setTile t r.1 s) r.2
  | none =>
    let k := fmtBytes (i.x % 4)
    if i.op = 0x7A then
      vectorLoad t 256 16 i (fun bs x => (vSet x i.d (wordsOf 64 bs), fNone)) s
    else if i.op = 0x7B then
      vectorStore t 256 16 i (fun x => ((vGet x i.b).flatMap (fun w => leBytes 4 w.toNat), fNone, x.srng)) s
    else if i.op = 0x7C then
      vectorStore t (2 * k) 2 i (fun x => packLanes i (vGet x i.b) x.srng) s
    else
      vectorLoad t (2 * k) 2 i (fun bs x =>
        let d0 := decodeBlock (i.x % 4) (blockOf (i.x % 4) (bs.take k))
        let d1 := decodeBlock (i.x % 4) (blockOf (i.x % 4) (bs.drop k))
        (vSet x i.d (d0.1 ++ d1.1), d0.2 ||| d1.2)) s

/-! ### The matrix queue -/

/-- The addresses of the blocks of an MMA operand: `n` rows or columns of `kb` blocks. A sum
that passes 2^48 is not wrapped and so names no mapped address, here and for the rows of ACCPACK
and MOV: the spec is silent (assumption 80, DESIGN CHOICE). -/
def operandAddrs (base stride n kb size : Nat) : List (List Nat) :=
  (List.range n).map (fun r => (List.range kb).map (fun j => base + r * stride + j * size))

/-- R127: the first block of an operand that lies outside the tile's scratch, or, where it
may, its slice. -/
def misplaced (s : State) (t size : Nat) (slice : Bool) (addrs : List (List Nat)) : Option Nat :=
  addrs.flatten.find? (fun a =>
    match placeOf s t a size with
    | .scratch u _ => decide (u ≠ t)
    | .slice u _ => decide (u ≠ t) || !slice
    | _ => true)

/-- A fault of the tile itself comes before what else an access comes to (R99, R107). -/
def worstOf (a b : Option Access) : Option Access :=
  match a, b with
  | some (.fault f), _ => some (.fault f)
  | _, some (.fault f) => some (.fault f)
  | some e, _ => some e
  | none, e => e

/-- What the reads of an operand come to: the bytes of each block, and the first exception,
or a fault. -/
structure OperandRead where
  st : State
  blocks : List (List Byte) := []
  bad : Option Access := none

/-- The blocks of an operand read in order. -/
def readBlocks (t size : Nat) (addrs : List Nat) (s : State) : OperandRead :=
  addrs.foldl (fun r a =>
    match tileLoad t a size r.st with
    | (s', .ok bs) => { r with st := s', blocks := r.blocks ++ [bs] }
    | (s', e) => { st := s', blocks := r.blocks ++ [[]], bad := worstOf r.bad (some e) }) { st := s }

/-- A list cut into `n` pieces of `k`. -/
def piecesOf {α : Type} (k : Nat) : Nat → List α → List (List α)
  | 0, _ => []
  | n + 1, xs => xs.take k :: piecesOf k n (xs.drop k)

/-- R66, R67, R127: one accumulator element through the steps of an MMA. -/
def mmaElem (fa fb : Nat) (acc : W32) (row col : List Block) : W32 × Flags :=
  (List.zip row col).foldl (fun p ab =>
    let r := accStep fa fb p.1 ab.1 ab.2
    (r.1, p.2 ||| r.2)) (acc, fNone)

/-- R127: the accumulator after an MMA, row by row. -/
def mmaAcc (fa fb : Nat) (acc : List W32) (rows cols : List (List Block)) : List (W32 × Flags) :=
  rows.zipIdx.flatMap (fun r => cols.zipIdx.map (fun c =>
    mmaElem fa fb (acc.getD (64 * r.2 + c.2) 0#32) r.1 c.1))

/-- MMA (R79, R123, R127 to R130, R138). -/
def runMma (t : Nat) (i : Insn) (s : State) : Ran :=
  let x := tileAt s t
  let fa := i.x % 4
  let fb := i.x / 4 % 4
  let sparse := bitOf i.x 4
  let kb := i.imm
  let sa := fmtBytes fa
  let sb := if sparse then fmtSparseBytes fb else fmtBytes fb
  let a := (aGet x i.a).toNat
  let b := (aGet x i.b).toNat
  let ra := operandAddrs a x.rowStride.toNat 128 kb sa
  let ca := operandAddrs b x.colStride.toNat 64 kb sb
  if a % 2 ≠ 0 then .exc s 3 a
  else if b % 2 ≠ 0 then .exc s 3 b
  else match (misplaced s t sa true ra).or (misplaced s t sb false ca) with
    | some bad => .exc s 4 bad
    | none =>
      if x.rowStride.toNat % 2 ≠ 0 ∨ x.colStride.toNat % 2 ≠ 0 then .exc s 5 0
      else
        let rr := readBlocks t sa ra.flatten s
        let cr := readBlocks t sb ca.flatten rr.st
        match worstOf rr.bad cr.bad with
        | some (.fault src) => .fault cr.st src
        | some .held => .held
        | e =>
          if sparse && cr.blocks.any (fun b => !b.isEmpty && sparseBad fb b) then .exc cr.st 6 0
          else match e with
            | some (.exc c ad) => .exc cr.st c ad
            | _ =>
              let rows := piecesOf kb 128 (rr.blocks.map (blockOf fa))
              let cols := piecesOf kb 64
                (cr.blocks.map (fun b => if sparse then sparseBlockOf fb b else blockOf fb b))
              let y := tileAt cr.st t
              let r := lanesOut
                (mmaAcc fa fb (if bitOf i.x 5 then accZero else accGet y i.d) rows cols)
              .done (setTile t (accSet y i.d r.1) cr.st) r.2

/-- Row `r` of an accumulator. -/
def accRow (x : Tile) (k r : Nat) : List W32 := ((accGet x k).drop (64 * r)).take 64

/-- ACCPACK: the rows converted in order, each as two blocks, drawing in that order. -/
def packRows (i : Insn) (x : Tile) : Nat → Nat → BitVec 16 → List (List Byte) × Flags × BitVec 16
  | 0, _, g => ([], fNone, g)
  | n + 1, r, g =>
    let b := packLanes i (accRow x i.a r) g
    let rest := packRows i x n (r + 1) b.2.2
    (b.1 :: rest.1, b.2.1 ||| rest.2.1, rest.2.2)

/-- ACCPACK (R114, R123, R130). -/
def runAccpack (t : Nat) (i : Insn) (s : State) : Ran :=
  let x := tileAt s t
  let k := 2 * fmtBytes (i.x % 4)
  let addrs := (List.range 128).map (fun r => (aGet x i.d).toNat + r * (sGet x i.b).toNat)
  match addrs.find? (fun a => a % 2 ≠ 0) with
  | some a => .exc s 3 a
  | none =>
    match addrs.find? (fun a =>
      match placeOf s t a k with
      | .scratch u o => decide (u ≠ t) || hitsCode s u o
      | .slice u _ => decide (u ≠ t)
      | _ => true) with
    | some a => .exc s 4 a
    | none =>
      let r := packRows i x 128 0 x.srng
      let s := (List.zip addrs r.1).foldl (fun st p => storeBytes t p.1 p.2 st) s
      .done (updTile t (fun y => { y with srng := r.2.2 }) s) r.2.1

/-- The entries of the matrix queue. -/
def runMatrix (t : Nat) (i : Insn) (s : State) : Ran :=
  let x := tileAt s t
  let row := (sGet x i.b).toNat
  if i.op = 0x90 then
    .done (setTile t { x with rowStride := sGet x i.a, colStride := sGet x i.b } s) fNone
  else if i.op = 0x91 then runMma t i s
  else if i.op = 0x93 then .done (setTile t (accSet x i.d accZero) s) fNone
  else if i.op = 0x94 then runAccpack t i s
  else if 127 < row then .exc s 5 0
  else if i.op = 0x95 then .done (setTile t (vSet x i.d (accRow x i.a row)) s) fNone
  else
    let acc := accGet x i.d
    .done (setTile t (accSet x i.d (acc.take (64 * row) ++ vGet x i.a ++ acc.drop (64 * row + 64))) s) fNone

/-! ### The mover queue -/

/-- The memory key of a tile-local address, where it is mapped. -/
def keyOf (s : State) (t a n : Nat) : Option Nat :=
  match placeOf s t a n with
  | .scratch u o => some (scratchBase u + o)
  | .slice u o => some (sliceBase u + o)
  | .ddr d => some (ddrBase + d)
  | .unmapped => none

/-- R131: the keys of a destination row that lie in some source row: what they hold after
the copy is not defined (assumption 7). -/
def overlapKeys (src : List (Option Nat)) (dst : Option Nat) (n : Nat) : List Nat :=
  match dst with
  | none => []
  | some d =>
    let near := src.filterMap (fun o => o.filter (fun k => decide (k < d + n ∧ d < k + n)))
    (List.range n).filterMap (fun j =>
      if near.any (fun k => decide (k ≤ d + j ∧ d + j < k + n)) then some (d + j) else none)

/-- Rows of a MOV, each read and then written; the bytes are those that the source held
before the copy. -/
def movRows (t n fs ts : Nat) (s0 : State) : Nat → Nat → Nat → State → State × Access
  | 0, _, _, s => (s, .ok [])
  | r + 1, a, b, s =>
    match tileLoad t a n s with
    | (s1, .ok _) =>
      match tileStore t b (((keyOf s0 t a n).map (fun k => memRead s0.mem.cells k n)).getD []) s1 with
      | (s2, .ok _) => movRows t n fs ts s0 r (a + fs) (b + ts) s2
      | e => e
    | e => e

/-- R82, R88, R114, R138: the addresses of a MOV, row by row: the first that raises ADDRESS. -/
def movAddress (s : State) (t n a b fs ts rows : Nat) : Option Nat :=
  (List.range rows).findSome? (fun r =>
    if readRefused s t (a + r * fs) n then some (a + r * fs)
    else match storeCheck t (b + r * ts) n s with
      | some (.exc _ ad) => some ad
      | _ => none)

/-- MOV (R131). The priority of R138 puts every ADDRESS of the copy before OPERAND and before what
a read meets; where the row count is out of range, the rows whose addresses count are the first
alone (assumption 80). -/
def runMov (t : Nat) (i : Insn) (s : State) : Ran :=
  let x := tileAt s t
  let n := (sGet x i.d).toNat
  let two := bitOf i.x 0
  let rows := if two then x.mvRows.toNat else 1
  let fs := if two then x.mvSrc.toNat else 0
  let ts := if two then x.mvDst.toNat else 0
  let a := (aGet x i.a).toNat
  let b := (aGet x i.b).toNat
  if a % 16 ≠ 0 then .exc s 3 a
  else if b % 16 ≠ 0 then .exc s 3 b
  else if let some ad := movAddress s t n a b fs ts (if rows < 1 ∨ 65535 < rows then 1 else rows) then .exc s 4 ad
  else if n % 16 ≠ 0 ∨ n < 16 ∨ fs % 16 ≠ 0 ∨ ts % 16 ≠ 0 ∨ rows < 1 ∨ 65535 < rows then .exc s 5 0
  else match movRows t n fs ts s rows a b s with
    | (s', .ok _) =>
      let src := (List.range rows).map (fun r => keyOf s t (a + r * fs) n)
      let ov := (List.range rows).flatMap (fun r => overlapKeys src (keyOf s t (b + r * ts) n) n)
      let s' := spoilKeys ov s'
      .done (if bitOf i.x 1 then syncAdd i.imm 1#64 s' else s') fNone
    | (s', .exc c ad) => .exc s' c ad
    | (s', .fault src) => .fault s' src
    | (_, .held) => .held

/-- The entries of the mover queue. -/
def runMover (t : Nat) (i : Insn) (s : State) : Ran :=
  if i.op = 0xA0 then
    .done (updTile t (fun x =>
      { x with mvRows := sGet x i.a, mvSrc := sGet x i.b, mvDst := sGet x i.d }) s) fNone
  else runMov t i s

/-! ### The end of an entry -/

/-- A tile's queue without entry `k`. -/
def dropEntry (t : Nat) (u : TileUnit) (k : Nat) (s : State) : State :=
  updTile t (fun x => queuePut x u ((queueGet x u).eraseIdx k)) s

/-- R141: flags are set; an enabled one raises ARITH. -/
def raiseFlags (t unit pc : Nat) (fl : Flags) (s : State) : State :=
  let s := updTile t (fun x => { x with flags := x.flags ||| fl }) s
  if fl &&& (tileAt s t).trapEn = 0#6 then s else raiseExc t 7 unit pc 0 fl.toNat s

/-- R115, R139: an entry's outcome is applied and the entry leaves its queue. -/
def settleEntry (t : Nat) (u : TileUnit) (unit k : Nat) (e : QEntry) (s : State) (r : Ran) : State :=
  match r with
  | .done s' fl => dropEntry t u k (raiseFlags t unit e.pc fl s')
  | .exc s' c ad => dropEntry t u k (raiseExc t c unit e.pc ad 0 s')
  | .fault s' src => faultTile t src s'
  | .held => s

end Sys2Proof.Machine
end

