-- ==== Sys2Proof/Machine/CollBase.lean ====
section
/-!
DEFINITION. The collective engine: members, streams and segments of an instance, its reads
and writes of memory, reduction slots and credit (R313, R314, R316, R322, R324, R326).
-/

namespace Sys2Proof.Machine

/-! ### Members and streams -/

/-- R340, R557: the other twin of a module, as the acceptance table records it. -/
def twinOf (s : State) (m : Nat) : Option Nat :=
  if m = ownId s then (if inPair s && s.red.mode = 2 then some s.red.partner else none)
  else
    let e := accOf s m
    if e.valid && e.twin then some e.partner else none

/-- The rank of a module: its own, or that of the twin that the mask names. -/
def rankOf (s : State) (d : CollDesc) (m : Nat) : Option Nat :=
  (collMembers d).findIdx? (fun x => decide (x = m) || decide (twinOf s m = some x))

/-- The number of members, at least 1. -/
def memberCount (d : CollDesc) : Nat := max 1 (collMembers d).length

/-- R313: the elements of a shard. -/
def shardLen (d : CollDesc) : Nat := d.count / memberCount d

/-- R322: the elements of a segment. -/
def segSize : Nat := 16384

/-- How many segments a stream has. -/
def segCount (len : Nat) : Nat := (len + segSize - 1) / segSize

/-- The elements of segment `k` of a stream. -/
def segPart (len k : Nat) : Nat := min segSize (len - k * segSize)

/-- R323: the elements of a stream that its receiver reduces, by the descriptor. -/
def reduceLen (d : CollDesc) : Nat := if d.op = 1 ∨ d.op = 2 then shardLen d else 0

/-- R324: the channels of the rings: those of the enabled slots of the plan's first digital
plane. -/
def ringChannels (s : State) (d : CollDesc) : List Nat :=
  match (slotAt s d.slot).plan with
  | some pl =>
    match pl.phases with
    | f :: _ =>
      match (List.range 32).find? (bitOf (pl.mask &&& digitalMask f)) with
      | some p => (List.range 8).filterMap (fun i => f.lanes.getD (8 * p + i) none)
      | none => []
    | [] => []
  | none => []

/-- R324: the share of a shard that a ring carries, in whole blocks: its first element within
the shard, and its length. -/
def ringShare (s : State) (d : CollDesc) (k : Nat) : Nat × Nat :=
  let ks := ringChannels s d
  let n := max 1 ks.length
  let j := ks.findIdx (· = k)
  let b := shardLen d / 32
  if ks.contains k then (32 * (j * b / n), 32 * ((j + 1) * b / n) - 32 * (j * b / n)) else (0, 0)

/-- The elements that rank `o` sends to rank `r` (R322 to R324). -/
def streamLen (s : State) (d : CollDesc) (o r : Nat) : Nat :=
  let l := shardLen d
  if d.ring then (if d.op = 1 then 62 else 31) * (ringShare s d ((r + 32 - o) % 32)).2
  else match d.op with
    | 1 => 2 * l
    | 5 => if o = d.root then d.count else 0
    | _ => l

/-- A place in the stream from rank `o` to rank `r`, not of a ring: the element of the vector
that it concerns (OFFSET of R320). -/
def streamOffset (d : CollDesc) (o r pos : Nat) : Nat :=
  let l := shardLen d
  match d.op with
  | 1 => if pos < l then r * l + pos else o * l + (pos - l)
  | 2 => r * l + pos
  | 3 => o * l + pos
  | 4 => r * l + pos
  | _ => pos

/-- The place in the stream from rank `o` to rank `r` of an element; none where the stream has
no such element. -/
def streamPos (d : CollDesc) (o r off : Nat) : Option Nat :=
  let l := shardLen d
  let inShard := fun (x : Nat) => decide (x * l ≤ off ∧ off < x * l + l)
  match d.op with
  | 1 => if inShard r then some (off - r * l) else if inShard o then some (l + (off - o * l)) else none
  | 2 => if inShard r then some (off - r * l) else none
  | 3 => if inShard o then some (off - o * l) else none
  | 4 => if inShard r then some (off - r * l) else none
  | _ => if o = d.root ∧ off < d.count then some off else none

/-! ### Elements in memory -/

/-- The bytes of 32 elements (R313). -/
def blockSize (fmt : Nat) : Nat := if fmt = 0 then 128 else fmtBytes fmt

/-- The byte at which an element's block starts. -/
def elemOff (fmt e : Nat) : Nat := e / 32 * blockSize fmt

/-- R320, R322: the elements that one unit carries at most. -/
def unitElems (fmt : Nat) : Nat := 992 / blockSize fmt * 32

/-- A NaN block. -/
def nanBlock (fmt : Nat) : List Byte :=
  if fmt = 0 then (List.replicate 32 (leBytes 4 qnan.toNat)).flatten else poisonBlock fmt

/-- R314, R317: a buffer lies wholly in the LPDDR5X window or in one slice window. -/
def bufferOk (s : State) (a n : Nat) : Bool :=
  match placeOf s 256 a n with
  | .ddr _ => true
  | .slice _ _ => decide (windowBase ≤ a)
  | _ => false

/-- A strip of the range is TRAINING: the access is held (R172). -/
def placeHeld (s : State) (a n : Nat) : Bool :=
  match placeOf s 256 a n with
  | .ddr d => ddrHeld d n s
  | _ => false

/-- The engine reads a range: the bytes, and the uncorrectable ranges within it. -/
def engineRead (a n : Nat) (s : State) : State × List Byte × List (Int × Nat) :=
  match placeOf s 256 a n with
  | .ddr d =>
    let r := ddrRead d n s
    (r.1, r.2.1, r.2.2.map (fun g => ((g * 64 : Int) - d, 64)))
  | .slice u o =>
    if !serving (tileAt s u) then (s, List.replicate n 0, [(0, n)]) else
    let r := sliceCheck u o n s
    (r.1, memRead r.1.mem.cells (sliceBase u + o) n, r.2.map (fun w => ((w : Int) - o, 16)))
  | _ => (s, List.replicate n 0, [(0, n)])

/-- The engine writes a range. -/
def engineWrite (a : Nat) (bs : List Byte) (s : State) : State := storeBytes 256 a bs s

/-- Elements `e` to `e + n` of a buffer as blocks; one that an uncorrectable range touches is
NaN (R326). -/
def readElems (fmt a e n : Nat) (s : State) : State × List (List Byte) :=
  let k := blockSize fmt
  let r := engineRead (a + elemOff fmt e) (n / 32 * k) s
  (r.1, (piecesOf k (n / 32) r.2.1).zipIdx.map (fun b =>
    if r.2.2.any (fun p => decide (p.1 < ((b.2 + 1) * k : Nat) ∧ ((b.2 * k : Nat) : Int) < p.1 + p.2))
    then nanBlock fmt else b.1))

/-- R68: an FP32 element as the engine takes it: subnormals are flushed. -/
def flushWord (w : W32) : W32 :=
  match fpClass w with
  | .sub n => fZero n
  | .nan => qnan
  | _ => w

/-- R326 step 1: a block decoded to FP32. -/
def decodeElems (fmt : Nat) (bs : List Byte) : List W32 :=
  if fmt = 0 then (wordsOf 32 bs).map flushWord else (decodeBlock fmt (blockOf fmt bs)).1

/-- R326 step 3: 32 elements as they are written, with nudges and no stochastic rounding. -/
def encodeElems (fmt : Nat) (xs : List W32) : List Byte :=
  if fmt = 0 then xs.flatMap (fun w => leBytes 4 w.toNat) else (encodeBlock fmt true false [] xs).1

/-- The blocks of a list of elements. -/
def elemBlocks (xs : List W32) : List (List W32) := piecesOf 32 (xs.length / 32) xs

/-! ### Instances -/

/-- The descriptor of an instance. -/
def descOf (s : State) (i : Inst) : CollDesc := s.job.colls.getD i.desc
  { op := 0, ring := false, osum := false, integ := 1, degFail := false, fmt := 0, slot := 16, podA := 0,
    podB := 0, maskA := 0, maskB := 0, count := 0, root := 0, sync := 0, addend := 0, degObj := 0 }

/-- This module's rank in an instance. -/
def ownRank (s : State) (i : Inst) : Nat := (rankOf s (descOf s i) (ownId s)).getD 0

/-- The instance in a context. -/
def instAt (s : State) (ctx : Nat) : Option Inst := s.coll.insts.find? (fun i => i.ctx = ctx)

/-- The state with the collective engine changed. -/
def updColl (f : Coll → Coll) (s : State) : State := { s with coll := f s.coll }

/-- The state with an instance changed. -/
def updInst (ctx : Nat) (f : Inst → Inst) (s : State) : State :=
  updColl (fun c => { c with insts := c.insts.map (fun i => if i.ctx = ctx then f i else i) }) s

/-- An instance runs: its checks have passed, and it is not to end. -/
def instRuns (i : Inst) : Bool := i.begun && i.fail.isNone

/-- A count of COLL_COUNT. -/
def collCount (i : Nat) (s : State) : State := bump s rCollCount 0 [i]

/-- A peer of an instance changed. -/
def mapPeer (m : Nat) (f : CollPeer → CollPeer) (i : Inst) : Inst :=
  { i with peers := i.peers.map (fun p => if p.module = m then f p else p) }

/-- The elements of a segment taken from a rank. -/
def segGot (i : Inst) (rank k : Nat) : Nat :=
  match i.segIn.find? (fun x => decide (x.rank = rank ∧ x.seg = k)) with
  | some x => x.got
  | none => 0

/-- R340: the module that supplies a segment. -/
def segSupplier (i : Inst) (rank k : Nat) : Option Nat :=
  (i.segIn.find? (fun x => decide (x.rank = rank ∧ x.seg = k))).map (·.supplier)

/-- Elements of a segment taken. -/
def addGot (rank k src n : Nat) (i : Inst) : Inst :=
  match segSupplier i rank k with
  | some _ => { i with segIn := i.segIn.map (fun x =>
      if x.rank = rank ∧ x.seg = k then { x with got := x.got + n } else x) }
  | none => { i with segIn := i.segIn ++ [⟨rank, k, src, n⟩] }

/-- How many segments from a rank have been added or written (R322). -/
def segsTaken (s : State) (i : Inst) (rank : Nat) : Nat :=
  let len := streamLen s (descOf s i) rank (ownRank s i)
  ((List.range (segCount len)).filter (fun k => decide (segGot i rank k = segPart len k))).length

/-- All that a rank sends has arrived. -/
def rankDone (s : State) (i : Inst) (rank : Nat) : Bool :=
  segsTaken s i rank = segCount (streamLen s (descOf s i) rank (ownRank s i))

/-- The own shard is complete (R323). -/
def shardDone (s : State) (i : Inst) : Bool :=
  (descOf s i).ring || decide (i.segsDone.length = segCount (reduceLen (descOf s i)))

/-! ### Reduction slots and credit (R322, R326) -/

/-- The other ranks of an instance. -/
def otherRanks (s : State) (i : Inst) : List Nat :=
  (List.range (memberCount (descOf s i))).filter (fun r => r ≠ ownRank s i)

/-- The elements of a segment of the own shard, from the source buffer. -/
def ownElems (i : Inst) (k : Nat) (s : State) : State × List W32 :=
  let d := descOf s i
  let o := ownRank s i
  let r := readElems d.fmt i.src (o * shardLen d + k * segSize) (segPart (shardLen d) k) s
  (r.1, r.2.flatMap (decodeElems d.fmt))

/-- R326 step 1: a slot for a segment of the own shard. -/
def openSlot (ctx k : Nat) (s : State) : State :=
  match instAt s ctx with
  | none => s
  | some i =>
    let n := segPart (shardLen (descOf s i)) k
    let r := ownElems i k s
    updInst ctx (fun i => { i with slots := i.slots ++ [⟨k, r.2, (otherRanks s i).map (fun x => (x, n))⟩] }) r.1

/-- R326 step 3: a slot whose contributions have all been added is written and freed. -/
def closeSlot (ctx k : Nat) (s : State) : State :=
  match instAt s ctx with
  | none => s
  | some i =>
    match i.slots.find? (fun x => x.seg = k) with
    | some x =>
      if x.left.all (fun p => p.2 = 0) then
        let d := descOf s i
        let e := k * segSize + if d.op = 1 then ownRank s i * shardLen d else 0
        let bs := (elemBlocks x.acc).flatMap (encodeElems d.fmt)
        updInst ctx (fun i =>
          { i with slots := i.slots.filter (fun y => y.seg ≠ k), segsDone := i.segsDone ++ [k] })
          (engineWrite (i.dst + elemOff d.fmt e) bs s)
      else s
    | none => s

/-- Elements added to a slot from place `off` of the segment, for a rank (R326 step 2). -/
def addSlot (rank off : Nat) (xs : List W32) (x : RedSlot) : RedSlot :=
  { x with
    acc := x.acc.take off ++ List.zipWith (fun a b => (fpAdd a b).1) ((x.acc.drop off).take xs.length) xs ++
      x.acc.drop (off + xs.length)
    left := x.left.map (fun p => if p.1 = rank then (p.1, p.2 - xs.length) else p) }

/-- A slot of an instance changed. -/
def mapSlot (k : Nat) (f : RedSlot → RedSlot) (i : Inst) : Inst :=
  { i with slots := i.slots.map (fun x => if x.seg = k then f x else x) }

/-- R326: the segments from a rank that a ring adds to, the first of its stream. -/
def ringSums (s : State) (i : Inst) (rank : Nat) : Nat :=
  let d := descOf s i
  if d.ring ∧ (d.op = 1 ∨ d.op = 2) then
    segCount (31 * (ringShare s d ((ownRank s i + 32 - rank) % 32)).2)
  else 0

/-- R326: the reduction slots that an instance holds: those of its own shard, or, of a ring, one for
each segment granted and not yet added and passed on. -/
def instSlots (s : State) (i : Inst) : Nat :=
  if (descOf s i).ring then
    (i.peers.map (fun p => min p.given (ringSums s i p.rank) - min (segsTaken s i p.rank) (ringSums s i p.rank))).sum
  else i.slots.length

/-- The reduction slots in use. -/
def slotsUsed (s : State) : Nat := (s.coll.insts.map (instSlots s)).sum

/-- COLL_POLICY: INIT_CREDIT, MAX_SLOTS, SKEW_LIMIT_PS, OSUM_LEAD_US. -/
def collPolicy (s : State) (hi lo : Nat) : Nat := atLeast1 (regField s rCollPolicy 0 [] hi lo)

/-- A control unit to a module (R320). -/
def sendCtl (dest : Nat) (i : Inst) (sub off total : Nat) (data : List Byte) (s : State) : State :=
  updColl (fun c => { c with ctl := c.ctl ++ [⟨dest, i.desc, i.num, sub, off, total, data⟩] }) s

/-- The segments of a rank that this module is ready to grant: INIT_CREDIT, and one more for
each that has been taken. -/
def wantGrant (s : State) (i : Inst) (rank : Nat) : Nat :=
  min (segCount (streamLen s (descOf s i) rank (ownRank s i))) (collPolicy s 31 24 + segsTaken s i rank)

/-- Slots taken for the segments that are about to be granted. -/
def takeSlots (ctx : Nat) (s : State) : State :=
  match instAt s ctx with
  | none => s
  | some i =>
    let d := descOf s i
    if d.ring ∨ ¬ instRuns i then s
    else
      let held := i.slots.length + i.segsDone.length
      let want := ((i.peers.map (fun p => wantGrant s i p.rank)).foldl max 0)
      let room := min (collPolicy s 23 16 - i.slots.length) (256 - slotsUsed s)
      let n := min room (min want (segCount (reduceLen d)) - held)
      forEach ((List.range n).map (· + held)) (openSlot ctx) s

/-- R322, R326: credit granted, each segment that is to be added to only with its slot. -/
def grantCredit (ctx : Nat) (s : State) : State :=
  match instAt s ctx with
  | none => s
  | some i =>
    if !instRuns i then s
    else
      let d := descOf s i
      let held := i.slots.length + i.segsDone.length
      let short := !d.ring && decide (held < segCount (reduceLen d))
      forEach i.peers (fun p st =>
        let g := wantGrant st i p.rank
        let g := if short then min g held else g
        let room := (instAt st ctx).elim 0 (fun j => min (collPolicy st 23 16 - instSlots st j) (256 - slotsUsed st))
        let g := if d.ring ∧ p.given + room < ringSums st i p.rank then min g (p.given + room) else g
        if p.given < g then
          sendCtl p.module i 1 0 g [] (updInst ctx (mapPeer p.module (fun p => { p with given := g })) st)
        else st) s

/-- Slots and credit of every instance, in the order of their starts. -/
def pumpColl (s : State) : State :=
  forEach (s.coll.insts.map (·.ctx)) (fun c st => grantCredit c (takeSlots c st)) s

end Sys2Proof.Machine
end

