-- ==== Sys2Proof/Machine/CollTx.lean ====
section
/-!
DEFINITION. What the collective engine sends, as a lane set takes it (R320, R322 to R325,
R331).
-/

namespace Sys2Proof.Machine

/-- R320: a COLL unit. -/
def collUnitOf (i : Inst) (sub step off total opseq : Nat) (data : List Byte) : OutUnit :=
  ⟨{ kind := 3, stream := 0xFF, opseq := opseq
     addr := i.desc + i.num * 2 ^ 16 + sub * 2 ^ 32 + step * 2 ^ 40
     offset := off, total := total
     data := data ++ List.replicate ((16 - data.length % 16) % 16) 0 }, .coll i.desc i.num⟩

/-- What an instance has next for a module: SUB, ring step, OFFSET, TOTAL, data. -/
structure CollPiece where
  sub : Nat
  step : Nat := 0
  off : Nat
  total : Nat
  data : List Byte

/-- A unit's number in the engine's stream to a module (R321). -/
def takeSeq (d : Nat) (s : State) : State × Nat :=
  let n := Cells.get 0 s.coll.txSeq d
  (updColl (fun c => { c with txSeq := Cells.set 0 c.txSeq d ((n + 1) % 2 ^ 32) }) s, n)

/-- A piece made into a unit to a module. -/
def sendPiece (i : Inst) (d : Nat) (p : CollPiece) (s : State) : OutUnit × State :=
  let r := takeSeq d s
  (collUnitOf i p.sub p.step p.off p.total r.2 p.data, collCount 0 r.1)

/-- The spans of a rank's shard (R331), and the elements of one. -/
def spanCount (d : CollDesc) : Nat := (shardLen d + 127) / 128

/-- R331. -/
def spanPart (d : CollDesc) (k : Nat) : Nat := min 128 (shardLen d - k * 128)

/-- R331 step 2: the exponent that a contributor chooses for its elements of a span. -/
def spanExp (xs : List W32) : Nat :=
  let ins := xs.map (fun w => (encInput w).1)
  if ins.any (·.isNone) then 255
  else
    let vs := ins.map (fun i => i.getD ⟨false, false, (0, 0)⟩)
    if vs.any (·.inf) then 254
    else if vs.all (fun v => v.mag.1 = 0) then 0
    else (blockExp 5 (magMax (vs.map (·.mag)))).1

/-- Elements of this module's contribution to a rank's shard. -/
def contribution (i : Inst) (rank e n : Nat) (s : State) : State × List W32 :=
  let d := descOf s i
  let r := readElems d.fmt i.src (rank * shardLen d + e) n s
  (r.1, r.2.flatMap (decodeElems d.fmt))

/-- R324: the element of the own step 0 of a ring after `n` elements: the shard it starts with,
or, for ALL_GATHER, the own shard. -/
def ringFirst (s : State) (i : Inst) (k n : Nat) : Nat :=
  let d := descOf s i
  let o := ownRank s i
  let x := if d.op = 3 then o else (o + 32 - k % 32) % 32
  x * shardLen d + (ringShare s d k).1 + n

/-- The next DATA piece of a ring: a partial that is ready, else the next part of step 0. -/
def ringPiece (i : Inst) (p : CollPeer) (s : State) : Option (CollPiece × State) :=
  let d := descOf s i
  let k := (p.rank + 32 - ownRank s i) % 32
  let room := min (p.granted * segSize - p.sent) (segSize - p.sent % segSize)
  if room = 0 ∨ !(ringChannels s d).contains k then none
  else
    match i.ring.find? (fun x => x.channel = k) with
    | some x =>
      let n := min room (x.bytes.length / blockSize d.fmt * 32)
      let cut := n / 32 * blockSize d.fmt
      let rest : List RingPart := if x.bytes.length ≤ cut then [] else
        [{ x with first := x.first + n, bytes := x.bytes.drop cut }]
      some (⟨0, x.step, x.first, n, x.bytes.take cut⟩, updInst i.ctx (fun i =>
        mapPeer p.module (fun p => { p with sent := p.sent + n })
          { i with ring := rest ++ i.ring.erase x }) s)
    | none =>
      let n := min (min room (unitElems d.fmt)) ((ringShare s d k).2 - p.proposed)
      let e := ringFirst s i k p.proposed
      let a := if d.op = 3 then e - ownRank s i * shardLen d else e
      if n = 0 ∨ placeHeld s (i.src + elemOff d.fmt a) (elemOff d.fmt n) then none
      else
        let r := readElems d.fmt i.src a n s
        some (⟨0, 0, e, n, r.2.flatten⟩, updInst i.ctx
          (mapPeer p.module (fun p => { p with sent := p.sent + n, proposed := p.proposed + n })) r.1)

/-- Elements of a stream, read where they lie (R314, R323). -/
def streamElems (i : Inst) (rank pos n : Nat) (s : State) : State × List (List Byte) :=
  let d := descOf s i
  let o := ownRank s i
  let l := shardLen d
  if d.op = 1 ∧ l ≤ pos then readElems d.fmt i.dst (o * l + (pos - l)) n s
  else if d.op = 3 ∨ d.op = 5 then readElems d.fmt i.src pos n s
  else readElems d.fmt i.src (rank * l + pos) n s

/-- Whether a stream's buffers can be read now. -/
def streamHeld (s : State) (i : Inst) : Bool :=
  let n := elemOff (descOf s i).fmt (descOf s i).count
  placeHeld s i.src n || placeHeld s i.dst n

/-- The next DATA piece of a stream from place `pos`, of `len` elements at most (R322, R323). -/
def dataPiece (i : Inst) (p : CollPeer) (pos len : Nat) (s : State) : Option (CollPiece × Nat × State) :=
  let d := descOf s i
  let o := ownRank s i
  let total := streamLen s d o p.rank
  let part := if d.op = 1 ∧ pos < shardLen d then shardLen d else total
  let lim := min part (min (p.granted * segSize) ((pos / segSize + 1) * segSize))
  let n := min (min len (unitElems d.fmt)) (lim - pos)
  if n = 0 ∨ streamHeld s i ∨ (d.op = 1 ∧ shardLen d ≤ pos ∧ ¬ shardDone s i) then none
  else
    let r := streamElems i p.rank pos n s
    some (⟨0, 0, streamOffset d o p.rank pos, n, r.2.flatten⟩, n, r.1)

/-- R331 step 3: the next exponents proposed to an owner. -/
def proposePiece (i : Inst) (p : CollPeer) (s : State) : Option (CollPiece × State) :=
  let d := descOf s i
  let lim := min (spanCount d) (p.granted * 128)
  let n := min 128 (lim - p.proposed)
  if n = 0 ∨ streamHeld s i then none
  else
    let r := (List.range n).foldl (fun (acc : State × List Nat) j =>
      let k := p.proposed + j
      let c := contribution i p.rank (k * 128) (spanPart d k) acc.1
      (c.1, acc.2 ++ [spanExp c.2])) (s, [])
    some (⟨2, 0, p.proposed, n, r.2.map (BitVec.ofNat 8)⟩, updInst i.ctx
      (mapPeer p.module (fun p => { p with proposed := p.proposed + n })) r.1)

/-- What one instance has next for a module. -/
def instPiece (i : Inst) (d : Nat) (s : State) : Option (CollPiece × State) :=
  match i.peers.find? (fun p => p.module = d) with
  | none => none
  | some p =>
    let c := descOf s i
    if c.ring then ringPiece i p s
    else
      match i.again.find? (fun a => a.1 = d) with
      | some a =>
        (dataPiece i p a.2.1 a.2.2 s).map (fun r =>
          let n := r.2.1
          let rest := if n < a.2.2 then [(d, a.2.1 + n, a.2.2 - n)] else []
          (r.1, bumpBy (updInst i.ctx (fun i => { i with again := rest ++ i.again.erase a }) r.2.2)
            rCollCount 0 [7] n))
      | none =>
        match (if c.osum then proposePiece i p s else none) with
        | some r => some r
        | none =>
          (dataPiece i p p.sent c.count s).map (fun r =>
            (r.1, updInst i.ctx (mapPeer d (fun p => { p with sent := p.sent + r.2.1 })) r.2.2))

/-- R300 as the engine keeps it: no unit of its stream to a module waits in another slot. -/
def engineFree (s : State) (n d : Nat) : Bool :=
  s.fab.slots.zipIdx.all (fun p => decide (p.2 = n) || (p.1.sets ++ p.1.newSets).all (fun x =>
    decide (x.dest ≠ d) || (setUnits x).all (fun u =>
      match u.own with
      | .coll _ _ => false
      | _ => true)))

/-- The first of a list of instances that has something for a module. -/
def firstPiece (d : Nat) (s : State) : List Inst → Option (OutUnit × State)
  | [] => none
  | i :: r =>
    match instPiece i d s with
    | some p => some (sendPiece i d p.1 p.2)
    | none => firstPiece d s r

/-- R320, R331: the data of an EXP_AGREED unit. -/
def agreedData (group start : Nat) (es : List Nat) : List Byte :=
  leBytes 1 group ++ leBytes 7 0 ++ leBytes 6 (start / 1000000000) ++ leBytes 4 (start % 1000000000) ++
    leBytes 14 0 ++ es.map (BitVec.ofNat 8)

/-- The plane group and the start that an EXP_AGREED unit names. -/
def agreedBurst (data : List Byte) : Nat × Nat := (leAt data 0 1, leAt data 8 6 * 1000000000 + leAt data 14 4)

/-- EXP_AGREED to every contributor. -/
def sendAgreed (i : Inst) (group start first : Nat) (es : List Nat) (s : State) : State :=
  forEach i.peers (fun p => sendCtl p.module i 3 first es.length (agreedData group start es)) s

/-- R333: the lead of EXP_AGREED before its burst, in nanoseconds. -/
def osumLead (s : State) : Nat := collPolicy s 11 8 * 1000

/-- R333: the start of the next burst of a plane group, after the last and after the lead. -/
def burstStart (s : State) (g : Nat) : Nat := max (nowNs s + osumLead s) (Cells.get 0 s.coll.groupEnd g)

/-- R333: the burst that an EXP_AGREED unit would announce too late for its lead. -/
def lateBurst (s : State) (u : CtlUnit) : Option Burst :=
  let g := agreedBurst u.data
  if u.sub = 3 ∧ g.2 < nowNs s + osumLead s then
    s.coll.bursts.find? (fun b => decide (b.desc = u.desc ∧ b.group = g.1 ∧ b.start = g.2) && !b.begun)
  else none

/-- R333: a burst whose start could not be sent in time is put off, and announced again to every
contributor (assumption 56). -/
def postponeBurst (i : Inst) (b : Burst) (s : State) : State :=
  let start := burstStart s b.group
  let s := updColl (fun c =>
    { c with bursts := c.bursts.map (fun y => if y = b then { y with start := start } else y)
             groupEnd := Cells.set 0 c.groupEnd b.group (start + burstNs)
             ctl := c.ctl.filter (fun u => !decide (u.sub = 3 ∧ u.desc = i.desc ∧ u.num = i.num ∧
               agreedBurst u.data = (b.group, b.start))) }) s
  sendAgreed i b.group start ((b.spans.head?.map (·.1)).getD 0) (b.spans.map (·.2)) s

/-- A control unit made into a unit to its module. -/
def sendCtlUnit (i : Inst) (u : CtlUnit) (s : State) : OutUnit × State :=
  sendPiece i u.dest ⟨u.sub, 0, u.offset, u.total, u.data⟩ (updColl (fun c => { c with ctl := c.ctl.erase u }) s)

/-- The engine's next unit to a module in a slot: control units first, then the instances in
the order of their starts. -/
def nextCollUnit (n d : Nat) (s : State) : Option (OutUnit × State) :=
  if !engineFree s n d then none
  else
    let mine := s.coll.insts.filter (fun i => instRuns i && decide ((descOf s i).slot = n))
    match s.coll.ctl.find? (fun u => decide (u.dest = d) && mine.any (fun i => decide (i.desc = u.desc ∧ i.num = u.num))) with
    | some u =>
      match mine.find? (fun i => decide (i.desc = u.desc ∧ i.num = u.num)) with
      | some i =>
        match lateBurst s u with
        | none => some (sendCtlUnit i u s)
        | some b =>
          let s := postponeBurst i b s
          (s.coll.ctl.reverse.find? (fun u => decide (u.dest = d ∧ u.sub = 3 ∧ u.desc = i.desc ∧ u.num = i.num))).map
            (fun u => sendCtlUnit i u s)
      | none => none
    | none => firstPiece d s mine

/-! ### When all is sent (R319, R325) -/

/-- R331: every span for a rank has been agreed, and has been launched or needs no light. -/
def spansSent (s : State) (i : Inst) (rank : Nat) : Bool :=
  (List.range (spanCount (descOf s i))).all (fun k =>
    i.spanTx.any (fun x => decide (x.owner = rank ∧ x.span = some k ∧ x.code ≠ 0)))

/-- All that is due to a peer has left: its whole stream, or, with `now`, what can be sent
before the own shard is complete. -/
def peerSent (s : State) (i : Inst) (p : CollPeer) (now : Bool) : Bool :=
  let d := descOf s i
  let total := streamLen s d (ownRank s i) p.rank
  let due := if now && d.op = 1 && !d.ring && !shardDone s i then shardLen d else total
  decide (due ≤ p.sent) && !(i.again.any (fun a => a.1 = p.module)) &&
    (!d.osum || spansSent s i p.rank) &&
    !(s.coll.ctl.any (fun u => decide (u.dest = p.module ∧ u.desc = i.desc ∧ u.num = i.num)))

/-- No unit of an instance to a module waits for its acknowledgement. -/
def unitsAcked (s : State) (i : Inst) (m : Nat) : Bool :=
  (openUnits s).all (fun u => decide (u.1 ≠ m ∨ u.2.own ≠ .coll i.desc i.num))

/-- All that is expected from a peer has arrived; with `now`, what comes before the shards are
complete. -/
def peerArrived (s : State) (i : Inst) (p : CollPeer) (now : Bool) : Bool :=
  let d := descOf s i
  if now && d.op = 1 && !d.ring && !shardDone s i then
    (List.range (segCount (shardLen d))).all (fun k =>
      decide (segPart (shardLen d) k ≤ segGot i p.rank k))
  else rankDone s i p.rank

/-- R319: an instance is complete. -/
def instDone (s : State) (i : Inst) : Bool :=
  instRuns i && shardDone s i &&
    i.peers.all (fun p => peerSent s i p false && peerArrived s i p false && unitsAcked s i p.module)

/-- R325: the phase in force of a slot is done for the instances that steer it. -/
def phaseDone (s : State) (n : Nat) : Bool :=
  match phaseOf (slotAt s n) with
  | none => false
  | some f =>
    let mask := slotMask (slotAt s n)
    let outs := phaseDests s f mask
    let ins := phaseSources s f mask
    let mine := s.coll.insts.filter (fun i => i.begun && decide ((descOf s i).slot = n))
    !mine.isEmpty && mine.all (fun i => i.peers.all (fun p =>
      (!outs.contains p.module || (peerSent s i p true && unitsAcked s i p.module)) &&
      (!ins.contains p.module || peerArrived s i p true)))

end Sys2Proof.Machine
end

