-- ==== Sys2Proof/Machine/CollRx.lean ====
section
/-!
DEFINITION. What the collective engine does with what arrives: reduction on arrival, ring
steps, credit, exponents, bursts, skew and resends (R320 to R337, R340).
-/

namespace Sys2Proof.Machine

/-! ### Optical Sum: dealing spans to bursts (R331, R333, R341) -/

/-- The plane groups in Optical Sum mode in the phase in force of a slot, and not dropped. -/
def sumGroups (s : State) (n : Nat) : List Nat :=
  match phaseOf (slotAt s n) with
  | some f => (List.range 8).filter (fun g =>
      bitOf f.osum (4 * g) && (slotAt s n).switching.isNone && !s.coll.dropped.contains g)
  | none => []

/-- The group that takes the next burst: in ascending order from the last. -/
def nextGroup (s : State) (gs : List Nat) : Option Nat :=
  match gs.find? (fun g => s.coll.turn ≤ g) with
  | some g => some g
  | none => gs.head?

/-- A burst scheduled on a plane group, after the last and after the lead. -/
def scheduleBurst (i : Inst) (g : Nat) (spans : List (Nat × Nat)) (s : State) : State :=
  let start := burstStart s g
  let s := updColl (fun c =>
    { c with bursts := c.bursts ++ [{ desc := i.desc, group := g, start := start, spans := spans }]
             groupEnd := Cells.set 0 c.groupEnd g (start + burstNs) }) s
  sendAgreed i g start ((spans.head?.map (·.1)).getD 0) (spans.map (·.2)) s

/-- R333: spans dealt to a group; pilots alone go first where the group is to be trained. -/
def dealBurst (ctx g : Nat) (spans : List (Nat × Nat)) (s : State) : State :=
  match instAt s ctx with
  | none => s
  | some i =>
    let s := if s.coll.training.contains g then
      scheduleBurst i g [] (updColl (fun c => { c with training := c.training.filter (· ≠ g) }) s) else s
    let s := updColl (fun c => { c with turn := g + 1 }) (scheduleBurst i g spans s)
    updInst ctx (fun i => { i with spans := i.spans.map (fun x =>
      if spans.any (fun y => y.1 = x.span) then { x with dealt := true } else x) }) s

/-- The largest proposal for a span. -/
def agreedExp (x : SpanExp) : Nat := (x.props.map (·.2)).foldl max 0

/-- Every contributor has proposed an exponent for a span. -/
def allProposed (s : State) (i : Inst) (x : SpanExp) : Bool :=
  (otherRanks s i).all (fun r => x.props.any (fun p => p.1 = r))

/-- Spans in a row, from a list in ascending order. -/
def runOf : Nat → List (Nat × Nat) → List (Nat × Nat)
  | 0, _ => []
  | _ + 1, [] => []
  | _ + 1, [x] => [x]
  | n + 1, x :: y :: r => if y.1 = x.1 + 1 then x :: runOf n (y :: r) else [x]

/-- The agreed spans of an instance that wait for a burst, in ascending order. -/
def waitingSpans (s : State) (i : Inst) : List (Nat × Nat) :=
  List.insertionSort (fun a b => a.1 ≤ b.1)
    ((i.spans.filter (fun x => !x.dealt && allProposed s i x)).map (fun x => (x.span, agreedExp x)))

/-- Bursts dealt while spans wait; the fuel is their number. -/
def dealLoop (ctx : Nat) : Nat → State → State
  | 0, s => s
  | n + 1, s =>
    match instAt s ctx with
    | none => s
    | some i =>
      match nextGroup s (sumGroups s (descOf s i).slot) with
      | none => s
      | some g =>
        match runOf (128 / max 1 (descOf s i).integ) (waitingSpans s i) with
        | [] => s
        | r => dealLoop ctx n (dealBurst ctx g r s)

/-- R341: of the Optical Sum instances of a slot, the earliest started deals its spans. -/
def dealSpans (s : State) : State :=
  let os := s.coll.insts.filter (fun i => instRuns i && (descOf s i).osum)
  let firsts := os.filter (fun i =>
    (os.find? (fun j => decide ((descOf s j).slot = (descOf s i).slot))).map (·.ctx) = some i.ctx)
  forEach firsts (fun i st => dealLoop i.ctx (waitingSpans st i).length st) s

/-- Elements of a span whose result needs no light count as taken from every rank (R331). -/
def takeSpan (i : Inst) (span : Nat) (nan : Bool) (s : State) : State :=
  let d := descOf s i
  let k := span * 128 / segSize
  let off := span * 128 % segSize
  let n := spanPart d span
  let put := fun (x : RedSlot) =>
    let x := if nan then { x with acc := x.acc.take off ++ List.replicate n qnan ++ x.acc.drop (off + n) } else x
    { x with left := x.left.map (fun p => (p.1, p.2 - n)) }
  closeSlot i.ctx k (updInst i.ctx (fun i =>
    i.peers.foldl (fun i p => addGot p.rank k p.module n i) (mapSlot k put i)) s)

/-- R331 step 5: a span that all have agreed and that needs no light. -/
def settleSpan (ctx : Nat) (x : SpanExp) (s : State) : State :=
  match instAt s ctx with
  | none => s
  | some i =>
    let e := agreedExp x
    if allProposed s i x ∧ ¬ x.dealt ∧ (e = 0 ∨ e = 255) then
      let s := sendAgreed i 255 0 x.span [e] s
      let s := updInst ctx (fun i => { i with spans := i.spans.map (fun y =>
        if y.span = x.span then { y with dealt := true } else y) }) s
      takeSpan i x.span (e = 255) s
    else s

/-! ### Units received -/

/-- R330, R337: a SKEW entry moves the alignment string of the lane on its plane and channel. -/
def applySkew (p k skew : Nat) (s : State) : State :=
  match (List.range 8).find? (fun j => decide ((laneAt s (8 * p + j)).channel = k)) with
  | none => s
  | some j =>
    let i := 8 * p + j
    let v : Int := (BitVec.ofNat 8 skew).toInt
    { s with mar := s.mar.modify (chipOf i) (fun m =>
        { m with strs := Cells.upd {} m.strs (104 + elemOf i) (fun x =>
            { x with y := v * 65536, width := 8, valid := true, event := true
                     atEnd := decide (v = 127 ∨ v = -128) }) }) }

/-- R334, R340: a RESEND entry: the light of a burst on a plane is replaced by DATA units. -/
def resendBurst (ctx m : Nat) (start plane : Nat) (s : State) : State :=
  match instAt s ctx with
  | none => s
  | some i =>
    match i.peers.find? (fun p => p.module = m) with
    | none => s
    | some p =>
      let d := descOf s i
      let mine := fun (x : SpanTx) => decide (x.owner = p.rank ∧ x.group = plane / 4 ∧
        x.start % 2 ^ 56 = start ∧ x.code ≠ 2 ∧ x.span ≠ none)
      let spans := (i.spanTx.filter mine).filterMap (·.span)
      updInst ctx (fun i =>
        { i with again := i.again ++ spans.map (fun k => (m, k * 128, spanPart d k))
                 spanTx := i.spanTx.map (fun x => if mine x then { x with code := 2 } else x) }) s

/-- What becomes of a unit for an instance: the state that has applied it, or its discard: true for
BAD_UNIT, false for DUP_DROP (R321, R340). -/
abbrev Taken := Except Bool State

/-- R322, R340: whether a part of a segment may be taken from a module, and its other twin has
not begun it. -/
def mayTake (i : Inst) (p : CollPeer) (k : Nat) : Bool :=
  (segSupplier i p.rank k).isNone || segSupplier i p.rank k = some p.module

/-- R326: elements of a DIRECT stream are added to their slot or written. -/
def takeDirect (i : Inst) (p : CollPeer) (off n : Nat) (data : List Byte) (s : State) : Taken :=
  let d := descOf s i
  let o := ownRank s i
  match streamPos d p.rank o off with
  | none => .error true
  | some pos =>
    let k := pos / segSize
    let total := streamLen s d p.rank o
    if n = 0 ∨ n % 32 ≠ 0 ∨ pos % 32 ≠ 0 ∨ total < pos + n ∨ p.given ≤ k ∨ k ≠ (pos + n - 1) / segSize ∨
        data.length < elemOff d.fmt n ∨ (pos < reduceLen d ∧ reduceLen d < pos + n) then .error true
    else if !mayTake i p k then .error false
    else if segPart total k < segGot i p.rank k + n then .error true
    else .ok (
      let blocks := piecesOf (blockSize d.fmt) (n / 32) data
      let s := updInst i.ctx (addGot p.rank k p.module n) s
      if pos < reduceLen d then
        let xs := blocks.flatMap (decodeElems d.fmt)
        closeSlot i.ctx k (updInst i.ctx (mapSlot k (addSlot p.rank (pos % segSize) xs)) s)
      else
        let e := if d.op = 4 then p.rank * shardLen d + pos else off
        engineWrite (i.dst + elemOff d.fmt e) blocks.flatten s)

/-- R324, R327: elements of a ring step: added to the own contribution and sent on, or written
and sent on. -/
def takeRing (i : Inst) (p : CollPeer) (step off n : Nat) (data : List Byte) (s : State) : Taken :=
  let d := descOf s i
  let o := ownRank s i
  let l := shardLen d
  let k := (o + 32 - p.rank) % 32
  let x := off / max 1 l
  let got := (((i.segIn.filter (fun y => y.rank = p.rank)).map (·.got))).sum
  let reduce := decide (d.op ≠ 3 ∧ x = (o + 32 * 64 - (step + 2) * k) % 32)
  let gather := decide (d.op ≠ 2 ∧ x = (o + 32 * 64 - (step + 1) * k) % 32)
  if n = 0 ∨ n % 32 ≠ 0 ∨ off % 32 ≠ 0 ∨ 30 < step ∨ l = 0 ∨ (x + 1) * l < off + n ∨ data.length < elemOff d.fmt n ∨
      streamLen s d p.rank o < got + n ∨ p.given ≤ got / segSize ∨ !(ringChannels s d).contains k ∨
      !(reduce || gather) then .error true
  else .ok (
    let s := updInst i.ctx (addGot p.rank (got / segSize) p.module n) s
    let blocks := piecesOf (blockSize d.fmt) (n / 32) data
    let pass := fun (g : Bool) (t : Nat) (bs : List Byte) (st : State) =>
      updInst i.ctx (fun i => { i with ring := i.ring ++ [⟨k, g, t, off, bs⟩] }) st
    if reduce then
      let r := readElems d.fmt i.src off n s
      let sum := (List.zip blocks r.2).flatMap (fun b =>
        encodeElems d.fmt (List.zipWith (fun u v => (fpAdd u v).1) (decodeElems d.fmt b.1) (decodeElems d.fmt b.2)))
      if step < 30 then pass false (step + 1) sum r.1
      else
        let e := if d.op = 1 then off else off - o * l
        let s := engineWrite (i.dst + elemOff d.fmt e) sum r.1
        if d.op = 1 then pass true 0 sum s else s
    else
      let s := engineWrite (i.dst + elemOff d.fmt off) blocks.flatten s
      if step < 30 then pass true (step + 1) blocks.flatten s else s)

/-- EXP_PROPOSE: a contributor's exponents (R331). -/
def takeProposals (i : Inst) (p : CollPeer) (first n : Nat) (data : List Byte) (s : State) : Taken :=
  let add := fun (xs : List SpanExp) (j : Nat) =>
    let k := first + j
    let e := (data.getD j 0).toNat
    if xs.any (fun x => x.span = k) then
      xs.map (fun x => if x.span = k ∧ !(x.props.any (fun y => y.1 = p.rank))
        then { x with props := x.props ++ [(p.rank, e)] } else x)
    else xs ++ [{ span := k, props := [(p.rank, e)] }]
  if !(descOf s i).osum ∨ n = 0 ∨ data.length < n ∨ spanCount (descOf s i) < first + n ∨
      p.given * 128 < first + n then .error true
  else
    let s := updInst i.ctx (fun i => { i with spans := (List.range n).foldl add i.spans }) s
    match instAt s i.ctx with
    | some j => .ok (dealSpans (forEach (j.spans.filter (fun x => decide (first ≤ x.span ∧ x.span < first + n)))
        (settleSpan i.ctx) s))
    | none => .ok s

/-- R328, R331: this module is in a phase of a slot in which a plane group carries light. -/
def groupInLight (s : State) (n g : Nat) : Bool :=
  match phaseOf (slotAt s n) with
  | some f => bitOf f.osum (4 * g) && (slotAt s n).switching.isNone
  | none => false

/-- EXP_AGREED: the spans that are to be launched, or that need no light (R331). A later start
replaces an earlier one (R333). Spans of a burst that was cancelled, which start 0 says, or whose
phase has ended here go in DATA units (R341, assumption 56). -/
def takeAgreed (i : Inst) (p : CollPeer) (first n : Nat) (data : List Byte) (s : State) : Taken :=
  let d := descOf s i
  let g := (agreedBurst data).1
  let start := (agreedBurst data).2
  let dark := decide (g ≠ 255) && (decide (start = 0) || !groupInLight s d.slot g)
  let xs : List SpanTx := if n = 0 then [⟨p.rank, none, 0, g, start, 0⟩]
    else (List.range n).map (fun j =>
      ⟨p.rank, some (first + j), (data.getD (32 + j) 0).toNat, g, start, if g = 255 ∨ dark then 2 else 0⟩)
  let again := if dark then (List.range n).map (fun j => (p.module, (first + j) * 128, spanPart d (first + j))) else []
  if !d.osum ∨ data.length < 32 + n ∨ spanCount d < first + n then .error true
  else if n = 0 ∧ dark then .ok s
  else .ok (updInst i.ctx (fun i =>
    { i with
      spanTx := i.spanTx.filter (fun x => !(decide (x.owner = p.rank ∧ x.code = 0) && xs.any (fun y => y.span = x.span))) ++ xs
      again := i.again ++ again }) s)

/-- RESEND: bursts by start and plane; with no entry, the segment that starts at OFFSET
(R340). -/
def takeResend (i : Inst) (p : CollPeer) (off n : Nat) (data : List Byte) (s : State) : Taken :=
  let d := descOf s i
  let o := ownRank s i
  if n = 0 then
    match streamPos d o p.rank off with
    | none => .error true
    | some pos =>
      let len := min (segPart (streamLen s d o p.rank) (pos / segSize)) (p.sent - pos)
      .ok <| updInst i.ctx (fun i =>
        { i with again := (i.again.filter (fun a => !(decide (a.1 = p.module ∧ a.2.1 / segSize = pos / segSize)))) ++
                   (if len = 0 then [] else [(p.module, pos, len)]) }) s
  else
    .ok (forEach (List.range n) (fun j =>
      resendBurst i.ctx p.module (leAt data (8 * j) 7) (leAt data (8 * j + 7) 1)) s)

/-- R321: a unit for an instance that runs. -/
def takeUnit (i : Inst) (p : CollPeer) (u : FabUnit) (s : State) : Taken :=
  let sub := bits u.addr 35 32
  match sub with
  | 0 => if (descOf s i).ring then takeRing i p (bits u.addr 45 40) u.offset u.total u.data s
         else takeDirect i p u.offset u.total u.data s
  | 1 => .ok (updInst i.ctx (mapPeer p.module (fun p => { p with granted := max p.granted u.total })) s)
  | 2 => takeProposals i p u.offset u.total u.data s
  | 3 => takeAgreed i p u.offset u.total u.data s
  | 4 => .ok (forEach (List.range u.total) (fun j =>
      applySkew (leAt u.data (4 * j) 1 % 32) (leAt u.data (4 * j + 1) 1) (leAt u.data (4 * j + 2) 1)) s)
  | 5 => takeResend i p u.offset u.total u.data s
  | _ => .error true

/-- The number of a descriptor's next instance: one in a context that has not begun, or the one
after the last. -/
def nextInst (s : State) (dn : Nat) : Nat :=
  match s.coll.insts.find? (fun i => decide (i.desc = dn) && !i.begun) with
  | some i => i.num
  | none => Cells.get 0 s.coll.nums dn

/-- R321: a COLL unit, its checks passed, is applied and counted in REMOTE_APPLIED, or discarded and
counted in BAD_UNIT or DUP_DROP. -/
def collApply (src : Nat) (u : FabUnit) (s : State) : State :=
  let dn := u.addr % 1024
  let num := bits u.addr 31 16
  let s := collCount 1 s
  let r : Taken := match s.coll.insts.find? (fun i => decide (i.desc = dn ∧ i.num = num) && instRuns i) with
    | some i =>
      match i.peers.find? (fun p => p.module = src) with
      | some p => (takeUnit i p u s).map pumpColl
      | none => .error true
    | none =>
      if bits u.addr 35 32 = 1 ∧ num = nextInst s dn then
        .ok (updColl (fun c => { c with early := c.early ++ [(dn, src, u.total)] }) s)
      else .error true
  match r with
  | .ok s1 => bump s1 rCollSyncCount 0 [1]
  | .error true => collCount 9 s
  | .error false => bump s rCollSyncCount 0 [4]

/-- The memory that a unit's instance uses can be reached now (R172). -/
def collReady (s : State) (u : FabUnit) : Bool :=
  match s.coll.insts.find? (fun i => decide (i.desc = u.addr % 1024 ∧ i.num = bits u.addr 31 16) && i.begun) with
  | some i => !streamHeld s i
  | none => true

end Sys2Proof.Machine
end

