-- ==== Sys2Proof/Machine/FabOps.lean ====
section
/-!
DEFINITION. Lane faults, acknowledgements, and the phase switch (R261 to R271, R291 to R309).
-/

namespace Sys2Proof.Machine

/-! ### Frames of a set -/

/-- R259: distances between LSNs count modulo 2^16. -/
def lsnDist (a b : Nat) : Nat := (b + 65536 - a % 65536) % 65536

/-- R267 step 3: LSNs queued for resending, in LSN order, none twice. -/
def mergeResend (x : LaneSet) (ls : List Nat) : LaneSet :=
  { x with resend := (x.frames.map (·.lsn)).filter (fun l => x.resend.contains l || ls.contains l) }

/-- The set of a lane: its slot, its destination, and whether it is of the phase being entered. -/
def laneKey (l : Lane) : Option (Nat × Nat × Bool) := l.slot.map (fun n => (n, l.dest, l.rel))

/-- The unacknowledged frames of a lane are queued for resending on the other lanes. -/
def resendLane (i : Nat) (s : State) : State :=
  let l := laneAt s i
  match laneKey l with
  | none => s
  | some k => updLane i (fun y => { y with buf := [] }) (updSet k.1 k.2.1 k.2.2 (fun x => mergeResend x l.buf) s)

/-- An acknowledgement of a set (R253, R261): frames below ACK_LSN leave the replay buffers. -/
def ackSet (n d : Nat) (new : Bool) (ack : Nat) (s : State) : State :=
  match setAt s n d new with
  | none => s
  | some x =>
    let k := lsnDist x.ackLsn ack
    if k ≤ lsnDist x.ackLsn x.nextLsn then
      let gone := fun l => decide (lsnDist x.ackLsn l < k)
      let s := updSet n d new (fun x =>
        { x with ackLsn := ack
                 frames := x.frames.filter (fun f => !gone f.lsn)
                 resend := x.resend.filter (fun l => !gone l) }) s
      { s with fab := { s.fab with lanes := s.fab.lanes.map (fun l =>
          if laneKey l = some (n, d, new) then { l with buf := l.buf.filter (fun v => !gone v) } else l) } }
    else s

/-! ### Faults -/

/-- R258: the frames of a faulty lane that are not acknowledged, as its chiplet counts their
resending. -/
def markLost (i : Nat) (s : State) : State :=
  let l := laneAt s i
  match laneKey l with
  | none => s
  | some k => updSet k.1 k.2.1 k.2.2 (fun x => { x with frames := x.frames.map (fun f =>
      if l.buf.contains f.lsn then { f with lost := some (chipOf i) } else f) }) s

/-- The laser of a lane goes dark. -/
def darkenLane (i : Nat) (s : State) : State :=
  match laneLaser s i with
  | some n => darkenLaser (chipOf i) n s
  | none => s

/-- SOURCE of the fabric's records: 32p + k. -/
def laneSource (i channel : Nat) : Nat := 32 * (i / 8) + channel

/-- R266, R267: a lane becomes faulty: it leaves its set, its unacknowledged frames go to the
other lanes, and it goes dark, except for reasons EYE and LOOP, which leave the laser DIM. One
removal, for the first reason (R279). On a plane that waits for a dark window no fault is raised
(R308): the lane is dark until its laser has passed again. -/
def faultLane (i reason : Nat) (s : State) : State :=
  let l := laneAt s i
  let p := i / 8
  let stays := decide (reason = 10 ∨ reason = 12)
  if l.code = .fault ∨ (l.code = .darkWindow ∧ darkOpen s p) ∨ (l.code = .dark ∧ ¬ l.retune) then s
  else if laneWaits s i then
    if stays then s else updLane i (fun l => { l with code := .dark, retune := true }) (darkenLane i s)
  else
    let s := resendLane i (markLost i s)
    let s := updLane i (fun l => { l with code := .fault, reason := reason, retune := false }) s
    let s := if stays then s else darkenLane i s
    let s := fabCount p 12 (fabErr reason p l.channel 0 0 s)
    emit 0x0D01 (laneSource i l.channel)
      (leBytes 1 p ++ leBytes 1 (i % 8) ++ leBytes 1 l.channel ++ leBytes 1 reason ++
        leBytes 2 l.buf.length) s

/-- R266: a receive channel becomes faulty: none on a plane whose faults are not raised, in an open
dark window (R270) or before one (R308). -/
def faultRx (i reason src dest : Nat) (s : State) : State :=
  let r := rxAt s i
  if r.code = .off ∨ r.code = .fault ∨ darkOpen s (i / 8) ∨ rxWaits s i then s
  else
    let s := updRx i (fun r => { r with code := .fault, reason := reason }) s
    fabCount (i / 8) 12 (fabErr reason (i / 8) r.channel src dest s)

/-- R266: a fault of the kinds LOS, LOCK and FEC is raised on a channel in service, or one whose
dark window has ended (R279, R306), not while its frames carry HOLD, nor in Optical Sum mode
(R328). -/
def faultable (s : State) (i : Nat) : Bool :=
  let r := rxAt s i
  decide (r.code = .inSet ∨ (r.code = .darkWindow ∧ ¬ darkOpen s (i / 8))) && !r.held &&
    !bitOf (osumMask s) (i / 8) && !rxWaits s i

/-- R269, R318: every instance that exchanges units with a module, over the lane sets of a slot where
one is named, is to end with PEER_LOST. -/
def losePeer (n : Option Nat) (d : Nat) (s : State) : State :=
  let uses := fun (i : Inst) => n.all (fun n => decide ((s.job.colls[i.desc]?).map (·.slot) = some n))
  { s with coll := { s.coll with insts := s.coll.insts.map (fun i =>
      if i.fail = none ∧ uses i ∧ i.peers.any (fun p => decide (p.module = d)) then { i with fail := some (1, d) } else i) } }

/-- Every instance is to end with a status. -/
def failAll (status : Nat) (s : State) : State :=
  { s with coll := { s.coll with insts := s.coll.insts.map (fun i =>
      if i.fail = none then { i with fail := some (status, 0) } else i) } }

/-! ### Release -/

/-- PHASE_TAG of a phase of a slot (R253). -/
def phaseTag (n q : Nat) : Nat := n + 16 * q

/-- The phase to which a switch leads. -/
def nextPhase (p : PlanSlot) : Option (Nat × Phase) :=
  match p.switching with
  | some (.phase q) => (p.plan.bind (fun pl => pl.phases[q]?)).map (fun f => (q, f))
  | _ => none

/-- R308: whether the switch changes the far pods of a spine-role plane while no window is
open on it. -/
def podsChange (s : State) (p : PlanSlot) (plane : Nat) (f : Phase) : Bool :=
  let old := match phaseOf p with
    | some g => if p.starting then cfgPods s plane else phasePods s g plane
    | none => cfgPods s plane
  isSpine s plane && decide (old ≠ phasePods s f plane) && !darkOpen s plane

/-- R359 step 5: the lane of a laser is in a phase, or idle, so that the laser is lit. -/
def laneWants (s : State) (i : Nat) : Bool :=
  let l := laneAt s i
  l.code ≠ .dark || l.retune

/-- R364: the two shutters are exchanged: the old laser becomes WORN, the spare serves the
slot, lit where the lane wants it. The record carries both lasers, the slot and the trigger (0
release, 1 idle gap). -/
def plannedSwap (c n trigger : Nat) (s : State) : State :=
  let x := laserAt s c n
  match x.slot, x.swapTo with
  | some e, some m =>
    let s := giveSlot c n m e s
    let s := updLaser c n (unbias .worn) s
    let s := if trigger = 0 ∨ laneWants s (laneOf c e) then openLaser c m s else s
    let s := bump (countSwap s) rFabLightCount c [4]
    emit 0x0E05 (36 * c + n) (leBytes 1 n ++ leBytes 1 m ++ leBytes 1 e ++ leBytes 1 trigger) s
  | _, _ => s

/-- R302 steps 3 and 4: a lane takes channel `k` of the phase it enters: unchanged, by a
planned swap that is due, or blanked and retuned. A lane that is out of service stays so. -/
def relightLane (i k : Nat) (s : State) : State :=
  let c := chipOf i
  match laneLaser s i with
  | none => s
  | some n =>
    let x := laserAt s c n
    if swapReady s c n k then plannedSwap c n 0 s
    else if x.channel = k ∧ isLit x then s
    else if x.code = .off ∨ x.code = .worn ∨ x.code = .failed then s
    else if x.channel = k ∧ x.code = .parked then openLaser c n s
    else acquireLaser c n k s

/-- R302 step 3: a lane is released into a phase, or, with none, out of the plan. -/
def releaseLane (n : Nat) (next : Option (Nat × Phase)) (i : Nat) (s : State) : State :=
  let l := laneAt s i
  let was := l.away.getD l.code
  let kept : Option LaneCode := if was = .fault ∨ was = .darkWindow then some was else none
  let s := resendLane i s
  match next with
  | none =>
    -- R293: it stays lit on its last channel, sending IDLE frames with PHASE_TAG 0
    updLane i (fun l =>
      { l with slot := none, dest := 0, tag := 0, rel := false, buf := []
               code := if l.code = .inSet then .idle else l.code }) s
  | some (q, f) =>
    match f.lanes.getD i none with
    | none =>
      let s := match laneLaser s i with
        | some m => updLaser (chipOf i) m (fun x =>
            if isLit x then { x with code := .parked, isOpen := false } else x) s
        | none => s
      updLane i (fun l =>
        { l with slot := some n, dest := 0, tag := phaseTag n q, rel := true, buf := []
                 code := .dark, away := kept, retune := false }) s
    | some k =>
      let s := relightLane i k s
      let lit := laneLit s i
      let wait := spineHeld s (i / 8) true
      updLane i (fun l =>
        { l with
          slot := some n, dest := sendsTo s (phasePods s f (i / 8)) (i / 8) k, tag := phaseTag n q
          rel := true, buf := [], channel := k, relAt := nowNs s, away := none
          retune := !lit && decide (was ≠ .fault) && !darkOpen s (i / 8)
          code := if was = .fault then was else if was = .darkWindow ∨ darkOpen s (i / 8) then .darkWindow
            else if !lit then .dark else if wait then .idle else .inSet }) s

/-- R302 step 3: a receive channel is released into a phase, or out of the plan. -/
def releaseRx (n : Nat) (next : Option (Nat × Phase)) (i : Nat) (s : State) : State :=
  let c := chipOf i
  let e := elemOf i
  let was := rxAt s i
  let code := was.away.getD was.code
  let kept : Option RxCode := if code = .fault ∨ code = .darkWindow then some code else none
  match next with
  | none =>
    updRx i (fun r =>
      { r with slot := none, source := 0, tag := 0, rel := false, ended := false, stuck := false
               held := false
               code := if r.code = .inSet then .listen else r.code }) s
  | some (q, f) =>
    match f.rxs.getD i none with
    | none =>
      updRx i (fun r =>
        { r with slot := some n, source := 0, tag := phaseTag n q, rel := true, ended := false, held := false
                 lock := false, away := kept
                 code := if (ringAt s c e).code = .failed then was.code else .off }) (prebiasRing c e s)
    | some k =>
      let same := decide (was.channel = k ∧ was.code ≠ .off)
      let s := if same then s else scanRing c e k s
      let wait := spineHeld s (i / 8) true
      updRx i (fun r =>
        { r with
          slot := some n, source := hears s (phasePods s f (i / 8)) (i / 8) k, tag := phaseTag n q
          rel := true, ended := false, stuck := false, held := false, channel := k, relAt := nowNs s
          lock := same && r.lock, away := none
          code := if code = .fault then code
            else if code = .darkWindow ∨ darkOpen s (i / 8) then .darkWindow
            else if same && was.lock && !wait then .inSet else .listen }) s

/-- R295: the lanes and receive channels of a slot that are still to be released. -/
def unreleased (s : State) (n : Nat) : List Nat × List Nat :=
  let m := slotMask (slotAt s n)
  ((planeElems m).filter (fun i => decide ((laneAt s i).slot = some n ∧ ¬ (laneAt s i).rel)),
   (planeElems m).filter (fun i => decide ((rxAt s i).slot = some n ∧ ¬ (rxAt s i).rel)))

/-- R310: PLAN_DISARMED carries the slot and the reason. -/
def recordDisarm (n reason : Nat) (s : State) : State :=
  emit 0x0D12 n (leBytes 1 n ++ leBytes 1 reason) s

/-- R235: FPUTs handed on and not acknowledged lose their units with the sets of a slot: they do
not complete. -/
def cutPuts (n : Nat) (s : State) : State :=
  let open_ := ((slotAt s n).sets ++ (slotAt s n).newSets).flatMap (fun x => (setUnits x).map (fun u => (x.dest, u.own)))
  { s with tiles := s.tiles.map (fun x =>
      match x.fq with
      | e :: q =>
        if e.handed ∧ open_.any (fun u => decide (u.1 = e.word.toNat % 65536) && (match u.2 with
            | .tile l _ => decide (x.logical = some l)
            | _ => false)) then { x with fq := { e with cut := true } :: q } else x
      | [] => x) }

/-- R363: the channel that a lane's slot will carry after a planned swap at the next phase switch:
that of the phase to come, where it uses the lane, else the lane's present channel. -/
def swapTarget (s : State) (i : Nat) : Nat :=
  let l := laneAt s i
  let next := l.slot.bind (fun n =>
    let p := slotAt s n
    let after := fun (pl : Plan) (q : Nat) =>
      if q + 1 < pl.phases.length then some (q + 1) else if pl.loop then some 0 else none
    let q := fun (pl : Plan) => match p.switching with
      | some (.phase q) => if l.rel then after pl q else some q
      | some (.leave _) => none
      | none => after pl p.phase
    if p.code ≠ .armed then none
    else p.plan.bind (fun pl => (q pl).bind (fun q => (pl.phases[q]?).bind (fun f => f.lanes.getD i none))))
  next.getD l.channel

/-- R363: the spare of a scheduled swap is acquired again when its target changes. -/
def retargetSwap (i : Nat) (s : State) : State :=
  match laneLaser s i with
  | none => s
  | some n =>
    match (laserAt s (chipOf i) n).swapTo with
    | none => s
    | some m =>
      let k := swapTarget s i
      let y := laserAt s (chipOf i) m
      if y.channel ≠ k ∧ (y.code = .acquire ∨ y.code = .parked) then acquireLaser (chipOf i) m k s else s

/-- The scheduled swaps of a slot's lanes look again at their targets. -/
def retargetAll (n : Nat) (s : State) : State := forEach (planeElems (slotMask (slotAt s n))) retargetSwap s

/-- R294: a plan is disarmed without draining: its sets go, and its lanes and receive channels
leave it at once. -/
def dropPlan (n reason : Nat) (s : State) : State :=
  if (slotAt s n).code = .armed then
    let m := planeElems (slotMask (slotAt s n))
    let s := forEach m (releaseLane n none) (cutPuts n s)
    let s := forEach m (releaseRx n none) s
    let s := updSlot n (fun p =>
      { p with code := .loaded, phase := 0, loops := 0, switching := none, disarmDue := false
               fired := false, sets := [], newSets := [] }) s
    settleStop (recordDisarm n reason (retargetAll n s))
  else s

/-- R297: a phase is in force once everything is released; its SYNC trigger is compared at
once. -/
def settleSync (n : Nat) (s : State) : State :=
  let p := slotAt s n
  match phaseOf p with
  | some f => if f.trig = 1 ∧ syncMet p f.object (syncGet s f.object).toNat then
      updSlot n (fun p => { p with fired := true }) s else s
  | none => s

/-- The sets of a phase as they stand before they open. -/
def freshSets (s : State) (f : Phase) (mask : Nat) : List LaneSet :=
  (phaseDests s f (mask &&& digitalMask f)).map (fun d => { dest := d })

/-- R302: the switch ends once every lane set of the phase has closed and every lane and receive
channel has been released; a job that waits for it stops (R39). -/
def finishSwitch (n : Nat) (s : State) : State :=
  let p := slotAt s n
  let u := unreleased s n
  if u.1 = [] ∧ u.2 = [] ∧ p.sets.all (·.closed) then
    let s := { s with fab := { s.fab with switches := satAdd 32 s.fab.switches 1 } }
    match p.switching with
    | some (.phase q) =>
      let last := p.phase
      let s := { s with fab := { s.fab with
        lanes := s.fab.lanes.map (fun l => if l.slot = some n then { l with rel := false } else l)
        rxs := s.fab.rxs.map (fun r => if r.slot = some n then { r with rel := false } else r)
        spineWait := (s.fab.spineWait ++ s.fab.spineNext.filter (bitOf (slotMask p))).dedup
        spineNext := s.fab.spineNext.filter (fun k => !bitOf (slotMask p) k) } }
      let s := updSlot n (fun p =>
        { p with
          phase := q, switching := none, fired := false, sets := p.newSets, newSets := []
          loops := if q = 0 ∧ ((p.plan.map (·.phases.length)).getD 0) = last + 1 ∧ !p.starting
            then p.loops + 1 else p.loops
          starting := false }) s
      settleStop (settleSync n (retargetAll n s))
    | some (.leave reason) =>
      let s := updSlot n (fun p =>
        { p with code := .loaded, phase := 0, loops := 0, switching := none, disarmDue := false
                 fired := false, sets := [], newSets := [] }) s
      settleStop (recordDisarm n reason (retargetAll n s))
    | none => s
  else s

/-- R308: the planes whose far pods the switch changes take no part, once released, until a
window. -/
def noteSpineWait (n : Nat) (s : State) : State :=
  let p := slotAt s n
  match nextPhase p with
  | none => s
  | some (_, f) =>
    forEach ((List.range 32).filter (fun pl => bitOf (slotMask p) pl && podsChange s p pl f)) (fun pl st =>
      let pods := phasePods st f pl
      emit 0x0D15 pl (leBytes 1 pl ++ leBytes 2 pods.1 ++ leBytes 2 pods.2)
        { st with fab := { st.fab with spineNext := st.fab.spineNext.filter (· ≠ pl) ++ [pl] } }) s

/-- Releases lanes and receive channels into the next phase of a slot. -/
def releaseAll (n : Nat) (lanes rxs : List Nat) (s : State) : State :=
  let next := nextPhase (slotAt s n)
  finishSwitch n (forEach rxs (releaseRx n next) (forEach lanes (releaseLane n next) s))

/-- R302: what carries no lane set, or takes no part in one, is released at once; in Optical
Sum mode, once no burst is running (R328); in an open dark window, once its set has closed, without
waiting for end marks (R306 step 3). -/
def releaseFree (n : Nat) (s : State) : State :=
  let u := unreleased s n
  let busy := fun (i : Nat) => bitOf (osumMask s) (i / 8) && burstRuns s (i / 32)
  let free := fun (d : Nat) (i : Nat) =>
    !busy i && (match setAt s n d false with
      | none => true
      | some x => bitOf (osumMask s) (i / 8) || s.fab.spineWait.contains (i / 8) || (x.closed && darkOpen s (i / 8)))
  releaseAll n (u.1.filter (fun i => free (laneAt s i).dest i)) (u.2.filter (fun i => free (rxAt s i).source i)) s

/-- R302 step 1: the trigger of a slot has fired. -/
def startSwitch (n : Nat) (goal : SwitchTo) (s : State) : State :=
  let s := updSlot n (fun p => { p with switching := some goal }) s
  let p := slotAt s n
  let s := noteSpineWait n s
  let s := match nextPhase p with
    | some (_, f) => updSlot n (fun p => { p with newSets := freshSets s f (slotMask p) }) s
    | none => s
  releaseFree n s

/-- R301: an incoming set has ended on every receive channel that hears its source: an end mark has
arrived, or the light or the lock has been lost. A channel that hears another module has lost the
light of its source (assumption 49); one in an open dark window is not waited for (R306). -/
def incomingEnded (s : State) (n d : Nat) : Bool :=
  (setRxs s n d false).all (fun i =>
    let r := rxAt s i
    r.ended || !r.lock || r.stuck || darkOpen s (i / 8))

end Sys2Proof.Machine
end

