-- ==== Sys2Proof/Machine/TimeOps.lean ====
section
/-!
DEFINITION. What the time base does of itself (R468, R475 to R479): its correction, its steps, the
choice of its source, and a domain that is lost.
-/

namespace Sys2Proof.Machine

/-- The state with the time base changed. -/
def updTime (f : TimeB → TimeB) (s : State) : State := { s with time := f s.time }

/-- Domain `m`: 0 the primary on network A, 1 the secondary on network B. -/
def domainAt (s : State) (m : Nat) : Domain := s.time.domains.getD m {}

/-- The state with a domain changed. -/
def updDomain (m : Nat) (f : Domain → Domain) (s : State) : State :=
  updTime (fun t => { t with domains := t.domains.set m (f (domainAt s m)) }) s

/-- One count of TIME_COUNT. -/
def timeCount (m i : Nat) (s : State) : State := bump s rTimeCount 0 [m, i]

/-- The two's-complement bytes of a signed number. -/
def intBytes (n : Nat) (v : Int) : List Byte := leBytes n (v % (2 ^ (8 * n) : Int)).toNat

/-- R476, TIME_POLICY: a domain is LOCKED. -/
def locked (s : State) (m : Nat) : Bool := (domainAt s m).code = .locked

/-! ### The count -/

/-- R480: SLEW_PPM within its range. -/
def slewPpm (s : State) : Nat := min (max (regField s rTimePolicy 0 [] 23 15) 10) 500

/-- R477, R480: the largest correction at a tick, in units of 2^-32 ns: the slew limit and the
oscillator's own 20 ppm. -/
def corrBound (s : State) : Nat := (slewPpm s + 20) * 20 * 2 ^ 32 / 1000000

/-- R468: the correction that the selected domain's servo sets, a free value within the bound. -/
def newCorr (s : State) : State :=
  let r := drawFree s
  let b := corrBound s
  updTime (fun t => { t with corr := (r.1 % (2 * b + 1) : Nat) - (b : Int) }) r.2

/-- The time in force set to a total of units of 2^-32 nanoseconds. -/
def timeUnits (u : Nat) (s : State) : State :=
  updTime (fun t =>
    { t with frac := u % 2 ^ 32, ns := u / 2 ^ 32 % 1000000000, sec := u / 2 ^ 32 / 1000000000 % 2 ^ 48 }) s

/-- An alarm's instant in nanoseconds. -/
def alarmNs (a : Alarm) : Nat := a.sec * 1000000000 + a.ns

/-- R478, R488: the time in force is stepped; the offsets to both domains move with it, and the alarms
whose instants it has passed are late. The Wisp period of a step counts no miss (R551). -/
def stepTime (d : Int) (s : State) : State :=
  let was := nowNs s
  let s := timeUnits (((nowNs s : Int) + d).toNat * 2 ^ 32) { s with red := { s.red with stopped := true } }
  updTime (fun t => { t with
    domains := t.domains.map (fun x => { x with offset := x.offset + d, est := x.est.map (· + d) })
    alarms := t.alarms.map (fun a =>
      { a with passed := a.passed || (a.enable && decide (was < alarmNs a ∧ alarmNs a ≤ nowNs s)) }) }) s

/-- R478: the time in force is stepped to a domain's time. -/
def stepTo (m : Nat) (s : State) : State :=
  let d := -(domainAt s m).offset
  emit 0x0405 0 (intBytes 8 d) (stepTime d s)

/-- R477, R478: after a domain is selected, or measured while it is selected: a step where VALID
is clear or the offset is 1 s or more, and a correction. -/
def follow (m : Nat) (s : State) : State :=
  let far := decide (1000000000 ≤ (domainAt s m).offset.natAbs)
  let s := if !s.time.valid || far then stepTo m s else s
  newCorr (updTime (fun t => { t with valid := true }) s)

/-- R476: the source that the table selects. -/
def wantSource (s : State) : Nat :=
  if locked s 0 ∧ (s.time.source = 1 ∨ (domainAt s 0).held) then 1
  else if locked s 1 then 2 else 0

/-- R476, R477, R479: the source is selected again. -/
def selectSource (s : State) : State :=
  let n := wantSource s
  if n = s.time.source then s
  else
    let s := updTime (fun t => { t with source := n, switches := satAdd 16 t.switches 1 }) s
    if n = 0 then emit 0x0404 0 [] s
    else
      follow (n - 1) (emit 0x0403 0 (intBytes 4 ((domainAt s 0).offset - (domainAt s 1).offset)) s)

/-! ### Domains -/

/-- The servo starts afresh. -/
def freshServo (code : DomCode) (master : Option Nat) (d : Domain) : Domain :=
  { d with code := code, master := master, waiting := none, down := none, req := none, est := [], far := 0, held := false }

/-- R475: a domain's master is lost: LOCKED becomes LOST, ACQUIRING becomes LISTENING. -/
def loseDomain (m cause : Nat) (s : State) : State :=
  let d := domainAt s m
  match d.code with
  | .locked =>
    selectSource (emit 0x0402 m (leBytes 1 cause)
      (updDomain m (fun d => { d with code := .lost, est := [], far := 0, held := false }) s))
  | .acquiring => updDomain m (fun d => { freshServo .listening none d with masters := [] }) s
  | _ => s

end Sys2Proof.Machine
end

