-- ==== Sys2Proof/Machine/HostCore.lean ====
section
/-!
DEFINITION. Replies, completions and the session (R432, R437, R438, R443 to R448), as every
command's subsystem uses them.
-/

namespace Sys2Proof.Machine

/-- How the command of a packet answers when it has started: a reply at once, or nothing more
now, because the reply has been sent or will come. -/
inductive Answer where
  | reply (status : Nat) (payload : List Byte)
  | wait
deriving DecidableEq, Repr

/-- What a command does when it starts: its header, its payload and measurements. -/
abbrev CmdFn := Header → HostCmd → State → State × Answer

/-- A reply with a status alone. -/
def status (st : Nat) (s : State) : State × Answer := (s, .reply st [])

/-- R587: DEVICE_TAG. -/
def deviceTag : Nat := leAt (sha384 Config.identityKey) 0 4

/-- The state with the host interface changed. -/
def updHost (f : HostIf → HostIf) (s : State) : State := { s with host := f s.host }

/-- A count of HOST_COUNT. -/
def hostCount (i : Nat) (s : State) : State := bump s rHostCount 0 [i]

/-- A port's link is up. -/
def portUp (s : State) (n : Nat) : Bool := (s.host.ports.getD n {}).link

/-- R432: the port for an answer to a packet: its own while its link is up, else another up
port of the same network. -/
def replyPort (s : State) (n : Nat) : Option Nat :=
  if portUp s n then some n
  else (List.range 4).map (fun i => 4 * (n / 4) + i) |>.find? (portUp s)

/-- A packet leaves by a port. -/
def sendPacket (p : Reply) (s : State) : State :=
  bump (updHost (fun h => { h with out := h.out ++ [p] }) s) rHostPortCount 0 [p.port, 1]

/-- R437: a reply to the source of a packet; none is sent while its network has no port up. -/
def sendReply (h : Header) (op : Nat) (dst : ReplyTo) (st : Nat) (payload : List Byte) (s : State) : State :=
  match replyPort s dst.port with
  | some n => sendPacket ⟨n, dst.src, op, h.session, h.seq, st, s.red.claim, payload⟩ s
  | none => s

/-- The source of a packet. -/
def sourceOf (h : Header) : ReplyTo := ⟨h.port, h.src⟩

/-- R448: a started command completes: its reply goes to the source of every copy, and to the
cache of the 256 most recent completions. -/
def finishCmd (r : CmdRef) (st : Nat) (payload : List Byte) (s : State) : State :=
  match s.host.started.find? (fun c => decide (c.hdr.session = r.session ∧ c.hdr.seq = r.seq)) with
  | none => s
  | some c =>
    let s := forEach (sourceOf c.hdr :: c.copies) (fun dst x => sendReply c.hdr c.cmd.opcode dst st payload x) s
    updHost (fun h =>
      { h with
        started := h.started.filter (fun d => !decide (d.hdr.session = r.session ∧ d.hdr.seq = r.seq))
        done := ((⟨c.hdr, c.cmd, st, payload⟩ :: h.done).take 256) }) s

/-- The command of a header. -/
def refOf (h : Header) : CmdRef := ⟨h.session, h.seq⟩

/-- R444: commands of the session that run on have no reply to send. -/
def dropRefs (s : State) : State :=
  { s with
    pwr := { s.pwr with trans := s.pwr.trans.map (fun t => { t with cmd := t.cmd.map (fun _ => ⟨0, 0⟩) }) }
    fab := { s.fab with disc := { s.fab.disc with cmd := ⟨0, 0⟩ } }
    peat := { s.peat with seals := s.peat.seals.map (fun x => (x.1, x.2.1, ⟨0, 0⟩)) } }

/-- R443, R444: the session closes: 0 COMMAND, 1 IDLE, 2 TAKEOVER, 3 RESET. Bulk transfers end
with BULK_ABORTED, or at a reset with no reply. -/
def closeSession (reason : Nat) (s : State) : State :=
  if s.host.open_ then
    let s := if reason = 3 then s else
      forEach s.host.bulks (fun b x => finishCmd b.cmd 0x0305 [] x) s
    let n := s.host.session
    let s := updHost (fun h =>
      { h with open_ := false, session := 0, next := 1, held := [], started := [], done := []
               bulks := [], seenA := none, seenB := none, portSeen := [] }) s
    emit 0x0806 n (leBytes 1 reason) (dropRefs s)
  else s

/-- R440: a new nonce is drawn. -/
def drawNonce (s : State) : State :=
  let r := drawFree s
  updHost (fun h => { h with nonce := leBytes 16 r.1 }) r.2

/-- R442: a session opens, expecting SEQUENCE 1. -/
def openSession (h : Header) (n : Nat) (s : State) : State :=
  let s := updHost (fun x => { x with open_ := true, session := n, next := 1 }) s
  emit 0x0805 n (leBytes 4 n ++ leBytes 16 h.src) s

/-! ### Ports (R433) -/

/-- The state with port `n` changed. -/
def updPort (n : Nat) (f : Port → Port) (s : State) : State :=
  updHost (fun h => { h with ports := h.ports.modify n f }) s

/-- R433, R485: LOST of each network follows its ports, and a change is recorded; the domain of a lost
network, where it is selected, is lost. -/
def settleNet (m : Nat) (s : State) : State :=
  let lost := !netUp s m
  let was := if m = 0 then s.host.lostA else s.host.lostB
  if lost = was then s
  else
    let s := updHost (fun h => if m = 0 then { h with lostA := lost } else { h with lostB := lost }) s
    let s := emit (if lost then 0x0803 else 0x0804) m (leBytes 1 m) s
    if lost ∧ s.time.source = m + 1 then loseDomain m 3 s else s

/-- R433: a port's link drops. -/
def dropPort (n : Nat) (s : State) : State :=
  if portUp s n then
    let s := bump (updPort n (fun _ => {}) s) rHostPortCount 0 [n, 6]
    settleNet (n / 4) (emit 0x0802 n (leBytes 1 n) s)
  else s

/-- R435: the host interface answers: stage 3 of an L3 or L4 reset has been reached (R434). -/
def hostServes (s : State) : Bool := !(decide (3 ≤ s.rst.level) && decide (3 ≤ s.rst.point))

end Sys2Proof.Machine
end

