-- ==== Sys2Proof/Machine/PlanOps.lean ====
section
/-!
DEFINITION. Colour plans: the checks of a plan, loading, arming, disarming and dark windows
(R284 to R294, R305, R329).
-/

namespace Sys2Proof.Machine

/-- Byte `i` of a list of bytes, as a number. -/
def at1 (bs : List Byte) (i : Nat) : Nat := leAt bs i 1

/-- Whether `n` bytes from an offset are all 0. -/
def zeros (bs : List Byte) (off n : Nat) : Bool := leAt bs off n = 0

/-- The first of `n` bytes from an offset that is not 0. -/
def firstNonzero (bs : List Byte) (off n : Nat) : Option Nat :=
  (List.range n).findSome? (fun i => if at1 bs (off + i) = 0 then none else some (off + i))

/-- Where a check fails, the offset of the field. -/
def unlessAt (ok : Bool) (off : Nat) : Option Nat := if ok then none else some off

/-- The first of `n` bytes from an offset that differs from a number's. -/
def firstDiff (bs : List Byte) (off n v : Nat) : Option Nat :=
  (List.range n).findSome? (fun i => if at1 bs (off + i) = v / 256 ^ i % 256 then none else some (off + i))

/-- The first that is some. -/
def firstOf {α : Type} (xs : List (Option α)) : Option α := xs.findSome? id

/-- R144, R285: the CRC of a structure, computed with its field as 0. -/
def crcZeroed (bs : List Byte) (off : Nat) : Nat :=
  crc32c (bs.take off ++ [0, 0, 0, 0] ++ bs.drop (off + 4))

/-- The phase records of a plan. -/
def phaseRecs (bs : List Byte) : List (Nat × List Byte) :=
  (List.range (at1 bs 12)).map (fun q => (64 + 672 * q, (bs.drop (64 + 672 * q)).take 672))

/-- R286: an EN byte: its channel where it is enabled. -/
def enChannel (b : Nat) : Option Nat := if bitOf b 7 then some (b % 32) else none

/-- R286: a phase record. -/
def readPhase (r : List Byte) : Phase where
  trig := at1 r 0
  object := leAt r 2 2 % 16384
  step := leAt r 4 4
  value := leAt r 8 8
  osum := leAt r 16 4
  lanes := (List.range 256).map (fun i => enChannel (at1 r (32 + i)))
  rxs := (List.range 256).map (fun i => enChannel (at1 r (288 + i)))
  spine := (List.range 32).map (fun p =>
    let e := leAt r (544 + 4 * p) 4
    if bitOf e 31 then some (e % 2048, bits e 26 16) else none)

/-- R285: a plan. -/
def readPlan (bs : List Byte) : Plan where
  loop := bitOf (at1 bs 13) 0
  mask := leAt bs 16 4
  period := leAt bs 20 4
  id := leAt bs 24 8
  phases := (phaseRecs bs).map (fun p => readPhase p.2)

/-- R286: the first faulty byte of a SPINE entry: a reserved bit, or anything where VALID is clear. -/
def spineFault (r : List Byte) (p : Nat) : Option Nat :=
  let o := 544 + 4 * p
  let e := leAt r o 4
  if bitOf e 31 then firstOf [unlessAt (bits e 15 11 = 0) (o + 1), unlessAt (bits e 30 27 = 0) (o + 3)]
  else firstNonzero r o 4

/-- R288 check 2 for one phase record: its reserved fields. -/
def reservedOk (r : List Byte) : Option Nat :=
  firstOf ([unlessAt (at1 r 1 = 0) 1, unlessAt (at1 r 3 < 64) 3, firstNonzero r 20 12] ++
    (List.range 512).map (fun i =>
      let b := at1 r (32 + i)
      unlessAt (b = 0 || (bitOf b 7 && decide (bits b 6 5 = 0))) (32 + i)) ++
    (List.range 32).map (spineFault r))

/-- R288 check 5 for one phase record. -/
def maskOk (mask : Nat) (r : List Byte) : Option Nat :=
  firstOf ((List.range 4).map (fun j =>
      unlessAt (decide (at1 r (16 + j) &&& (mask / 256 ^ j % 256) = at1 r (16 + j))) (16 + j)) ++
    (List.range 512).map (fun i => unlessAt (bitOf mask (i % 256 / 8) || at1 r (32 + i) = 0) (32 + i)) ++
    (List.range 32).map (fun p => if bitOf mask p then none else firstNonzero r (544 + 4 * p) 4))

/-- R288 check 6 for one phase record: the second of two equal channels of a fibre. -/
def channelsOk (r : List Byte) : Option Nat :=
  firstOf ((List.range 512).map (fun i =>
    let b := at1 r (32 + i)
    unlessAt (b = 0 || !((List.range (i % 8)).any (fun j => at1 r (32 + i - 1 - j) = b))) (32 + i)))

/-- A check of each phase record, with plan offsets. -/
def eachPhase (bs : List Byte) (f : Nat → List Byte → Option Nat) : Option Nat :=
  firstOf (((phaseRecs bs).zipIdx).map (fun p => (f p.2 p.1.2).map (· + p.1.1)))

/-- R288: the checks of a plan of the length given; the plan offset of the first faulty byte: of a
field that has one right value the first that differs from it, of a number out of order the first
of the field (assumption 50). Check 7 holds of every field of eleven bits. -/
def planFault (bs : List Byte) (length : Nat) : Option Nat :=
  let n := at1 bs 12
  let mask := leAt bs 16 4
  let loop := bitOf (at1 bs 13) 0
  let times := ((phaseRecs bs).filter (fun p => at1 p.2 0 = 2)).map (fun p => leAt p.2 8 8)
  firstOf [
    firstDiff bs 0 4 0x4E4C5043, firstDiff bs 4 2 1, firstDiff bs 6 2 64,
    firstDiff bs 8 4 length, firstDiff bs 8 4 (64 + 672 * n), firstDiff bs 60 4 (crcZeroed bs 60),
    unlessAt (decide (1 ≤ n ∧ n ≤ 64)) 12, unlessAt (at1 bs 13 < 2) 13, firstNonzero bs 14 2,
    unlessAt (mask ≠ 0) 16, firstNonzero bs 32 28, eachPhase bs (fun _ r => reservedOk r),
    eachPhase bs (fun q r =>
      let k := at1 r 0
      unlessAt (decide (k < 4) && (k ≠ 0 || (decide (q + 1 = n) && !loop))) 0),
    eachPhase bs (fun q r =>
      unlessAt (at1 r 0 ≠ 2 || ((phaseRecs bs).take q).all (fun p =>
        at1 p.2 0 ≠ 2 || decide (leAt p.2 8 8 < leAt r 8 8))) 8),
    if loop && times ≠ [] then unlessAt (times.all (fun v => decide (v < leAt bs 20 4))) 20 else firstNonzero bs 20 4,
    eachPhase bs (fun _ r => maskOk mask r), eachPhase bs (fun _ r => channelsOk r)]

/-- R289: a plan takes a slot. -/
def placePlan (n : Nat) (pl : Plan) (s : State) : State :=
  emit 0x0D10 n (leBytes 1 n ++ leBytes 8 pl.id) (updSlot n (fun _ => { code := .loaded, plan := some pl }) s)

/-- R175: the answer for poisoned granules: their count and the DPA of the first. -/
def poisonReply (bad : List Nat) : List Byte := leBytes 4 bad.length ++ leBytes 8 (bad.headD 0 * 64)

/-- R174, R175: staged bytes are read: the bytes, or the status that stops the command. -/
def readStaged (dpa n : Nat) (s : State) : State × (Nat × List Byte ⊕ List Byte) :=
  if (granRange dpa n).any (fun g => (stripAt s (stripOf (g * 64))).code = .offline) then (s, .inl (0x0301, []))
  else
    let r := ddrRead dpa n s
    if r.2.2 = [] then (r.1, .inr r.2.1) else (r.1, .inl (0x0302, poisonReply r.2.2))

/-- PLAN_LOAD (R287 to R289). -/
def planLoad : CmdFn := fun _ c s =>
  let p := c.payload
  let n := at1 p 0
  let len := leAt p 4 4
  let dpa := leAt p 8 8
  if 16 ≤ n ∨ !zeros p 1 3 ∨ dpa % 8 ≠ 0 ∨ ddrSize < dpa + len then status 5 s
  else if (slotAt s n).code = .armed then status 1 s
  else
    let r := readStaged dpa len s
    match r.2 with
    | .inl e => (r.1, .reply e.1 e.2)
    | .inr bs =>
      match planFault bs len with
      | some o => (r.1, .reply 0x0504 (leBytes 4 o))
      | none => (placePlan n (readPlan bs) r.1, .reply 0 [])

/-! ### Arming -/

/-- The slot of the neighbour table on a plane and channel is PRESENT. -/
def neighPresent (s : State) (p k : Nat) : Bool := (Cells.get {} s.fab.neigh (32 * p + k)).code = .present

/-- R277, R291 check 6 for one phase. -/
def neighboursOk (s : State) (f : Phase) : Bool :=
  let covered := fun p => decide (phasePods s f p = cfgPods s p) || !isSpine s p
  (phaseRxs f).all (fun x => !covered (x.1 / 8) || neighPresent s (x.1 / 8) x.2) &&
  (phaseLanes f).all (fun x => !covered (x.1 / 8) || neighPresent s (x.1 / 8) ((32 - x.2) % 32))

/-- Lists without repeats. -/
def distinct (xs : List Nat) : Bool := decide xs.Nodup

/-- The elements of an Optical Sum plane group of a phase. -/
def groupElems (f : Phase) (g : Nat) (xs : List (Nat × Nat)) : List (Nat × Nat) :=
  xs.filter (fun x => bitOf f.osum (x.1 / 8) && decide (x.1 / 32 = g))

/-- R329 check 2: whole plane groups. -/
def wholeGroups (m : Nat) : Bool :=
  (List.range 8).all (fun g => decide (bits m (4 * g + 3) (4 * g) = 0 ∨ bits m (4 * g + 3) (4 * g) = 15))

/-- R337: COLL_OSUM_TRIM(p, k).VALID. -/
def trimValid (s : State) (p k : Nat) : Bool := regField s rCollOsumTrim 0 [p, k] 31 31 = 1

/-- R329 for one phase: the status of the first check that fails. -/
def osumFault (s : State) (f : Phase) : Option Nat :=
  let planes := (List.range 32).filter (bitOf f.osum)
  let digital := (2 ^ 32 - 1) ^^^ f.osum
  let to_ := fun (x : Nat × Nat) => sendsTo s (phasePods s f (x.1 / 8)) (x.1 / 8) x.2
  let from_ := fun (x : Nat × Nat) => hears s (phasePods s f (x.1 / 8)) (x.1 / 8) x.2
  let dests := phaseDests s f digital
  let sources := phaseSources s f digital
  let there := fun d => dests.contains d && sources.contains d
  if planes.any (isSpine s) then some 0x0504
  else if !wholeGroups f.osum then some 0x0504
  else if !planes.all (fun p => distinct ((phaseRxs f).filter (fun x => x.1 / 8 = p) |>.map (fun x => x.2 % 8)))
  then some 0x0504
  else if !(List.range 8).all (fun g =>
      distinct ((groupElems f g (phaseLanes f)).map to_) && distinct ((groupElems f g (phaseRxs f)).map from_))
  then some 0x0504
  else if !((phaseLanes f).all (fun x => !bitOf f.osum (x.1 / 8) || there (to_ x)) &&
      (phaseRxs f).all (fun x => !bitOf f.osum (x.1 / 8) || there (from_ x)))
  then some 0x0503
  else if !(phaseLanes f).all (fun x => !bitOf f.osum (x.1 / 8) || trimValid s (x.1 / 8) x.2) then some 0x0505
  else none

/-- Two lists with the same members. -/
def sameMembers (a b : List Nat) : Bool := a.all b.contains && b.all a.contains

/-- R291 checks 4 to 7, with R329: the status of the first that fails. -/
def armFault (s : State) (pl : Plan) : Option Nat :=
  if s.fab.quar then some 0x0501
  else if armedMask s &&& pl.mask ≠ 0 then some 0x0502
  else if pl.phases.any (fun f => (List.range 32).any (fun p => (f.spine.getD p none).isSome && !isSpine s p))
  then some 0x0504
  else if !pl.phases.all (neighboursOk s) then some 9
  else match pl.phases.findSome? (osumFault s) with
    | some e => some e
    | none =>
      if pl.phases.all (fun f => sameMembers (phaseDests s f (digitalMask f)) (phaseSources s f (digitalMask f)))
      then none else some 0x0503

/-- R292: the plan is armed: phase 0 comes into force as a switch from an empty phase. -/
def armPlan (n : Nat) (pl : Plan) (t0 bias : Nat) (s : State) : State :=
  let s := updSlot n (fun p =>
    { p with code := .armed, phase := 0, loops := 0, t0 := t0, bias := bias, starting := true
             disarmDue := false, fired := false, sets := [], newSets := [] }) s
  let s := { s with fab := { s.fab with
    lanes := s.fab.lanes.zipIdx.map (fun x =>
      if bitOf pl.mask (x.2 / 8) then { x.1 with slot := some n, rel := false } else x.1)
    rxs := s.fab.rxs.zipIdx.map (fun x =>
      if bitOf pl.mask (x.2 / 8) then { x.1 with slot := some n, rel := false } else x.1) } }
  emit 0x0D11 n (leBytes 1 n ++ leBytes 8 pl.id ++ leBytes 8 (t0 / 1000000000) ++ leBytes 4 (t0 % 1000000000))
    (startSwitch n (.phase 0) s)

/-- R293: a collective in progress steers the plan of a slot. -/
def steered (s : State) (n : Nat) : Bool :=
  s.coll.insts.any (fun i => i.begun && ((s.job.colls[i.desc]?).map (·.slot) = some n))

/-- R293, R309: a disarm. -/
def disarmPlan (n : Nat) (s : State) : State × Answer :=
  let p := slotAt s n
  if p.code ≠ .armed then status 0 s
  else if steered s n then status 1 s
  else if p.switching.isSome then status 0 (updSlot n (fun p => { p with disarmDue := true }) s)
  else status 0 (startSwitch n (.leave 0) s)

/-- PLAN_ARM and PLAN_DISARM (R290 to R293). -/
def planArm : CmdFn := fun _ c s =>
  let p := c.payload
  let n := at1 p 0
  if 16 ≤ n ∨ 2 ≤ at1 p 1 ∨ !zeros p 2 6 ∨ !zeros p 14 2 ∨ 1000000000 ≤ leAt p 16 4 ∨ !zeros p 20 4 then status 5 s
  else if at1 p 1 = 1 then disarmPlan n s
  else match (slotAt s n).code, (slotAt s n).plan with
    | .armed, _ => status 1 s
    | .loaded, some pl =>
      match armFault s pl with
      | some e => status e s
      | none => status 0 (armPlan n pl (leAt p 8 8 * 1000000000 + leAt p 16 4) (leAt p 24 8) s)
    | _, _ => status 3 s

/-! ### Dark windows -/

/-- DARK_WINDOW and its cancellation (R305). -/
def darkWindow : CmdFn := fun _ c s =>
  let p := c.payload
  let mask := leAt p 0 4
  let planes := (List.range 32).filter (bitOf mask)
  let start := leAt p 8 8 * 1000000000 + leAt p 16 4
  let dur := leAt p 20 4
  let mine := s.fab.windows.filter (fun w => bitOf mask w.plane)
  if planes.any (fun p => !isSpine s p) ∨ !zeros p 4 4 ∨ !zeros p 14 2 ∨
      start < nowNs s + 100000 ∨ nowNs s + 10000000000 < start ∨
      (dur ≠ 0 ∧ (dur < 1000000 ∨ 100000000 < dur)) then status 5 s
  else if dur = 0 then
    if mine.any (·.isOpen) then status 3 s
    else status 0 { s with fab := { s.fab with windows := s.fab.windows.filter (fun w => !bitOf mask w.plane) } }
  else if mine ≠ [] then status 1 s
  else status 0 { s with fab := { s.fab with
    windows := s.fab.windows ++ planes.map (fun p => { plane := p, start := start, finish := start + dur }) } }

end Sys2Proof.Machine
end

