-- ==== Sys2Proof/Machine/RedRows.lean ====
section
/-!
DEFINITION. Partner pairs: configuration, Wisp frames, claim messages, takeover and mirror
passes (R535 to R558).
-/

namespace Sys2Proof.Machine

/-- A count of RED_COUNT. -/
def redCount (i : Nat) (s : State) : State := bump s rRedCount 0 [i]

/-! ### Configuration -/

/-- EPOCH of a claim (R541). -/
def epochOf (claim : Nat) : Nat := claim / 256

/-- R550: the number of the 200 µs period of the time in force. -/
def periodNo (s : State) : Nat := nowNs s / 200000

/-- R536: the checks of PAIR_CONFIGURE in order. -/
def pairFault (s : State) (p : List Byte) : Option Nat :=
  let op := leAt p 0 1
  let mode := leAt p 1 1
  let partner := leAt p 2 2
  let epoch := leAt p 8 4
  if 2 ≤ op ∨ (op = 1 ∧ leAt p 1 47 ≠ 0) ∨
      (op = 0 ∧ (mode = 0 ∨ 3 ≤ mode ∨ leAt p 6 2 ≠ 0 ∨ leAt p 12 4 ≠ 0 ∨ epoch = 0 ∨ 0xFFFFFE < epoch ∨
        partner = ownId s)) then some 5
  else if s.red.state = .fenced then some 3
  else if s.job.loaded ∨ s.red.pass.isSome then some 1
  else if op = 0 ∧ s.red.state ≠ .unpaired then some 1
  else if op = 0 ∧ leAt p 4 1 = leAt p 5 1 then some 0x0A01
  else if op = 0 ∧ (epoch ≤ epochOf s.red.highest ∨ epoch ≤ epochOf (accOf s (ownId s)).claim ∨
      epoch ≤ epochOf (accOf s partner).claim) then some 0x0A02
  else none

/-- R540: the hold and keep areas are released. -/
def releaseAreas (r : Red) : Red :=
  { r with committed := 0, holdGen := 0, holdBank := 0, frozen := false, holdDir := [], rx := none
           holdRefused := false, pass := none, pendingStart := false }

/-- R540: unpair. -/
def unpair (s : State) : State :=
  if s.red.state = .unpaired then s
  else
    emit 0x0709 0 [] (updRed (fun r =>
      { releaseAreas r with
        state := .unpaired, mode := 0, lost := false, partner := 0, prioOwn := 0, prioPartner := 0
        addrA := [], addrB := [], missFab := 0, missEth := 0, repeats := 0 }) s)

/-- PAIR_CONFIGURE and PAIR_UNPAIR (R535 to R537, R540). -/
def pairConfigure : CmdFn := fun _ c s =>
  let p := c.payload
  match pairFault s p with
  | some e => status e s
  | none =>
    if leAt p 0 1 = 1 then status 0 (unpair s)
    else
      let claim := leAt p 8 4 * 256 + leAt p 4 1
      let s := updRed (fun r =>
        { releaseAreas r with
          state := .standbyPartner, mode := leAt p 1 1, partner := leAt p 2 2, lost := false
          prioOwn := leAt p 4 1, prioPartner := leAt p 5 1, claim := claim, highest := max r.highest claim
          addrA := (p.drop 16).take 16, addrB := (p.drop 32).take 16, missFab := 0, missEth := 0
          goodPeriods := 0, heardFab := false, heardEth := false, heardGood := false, partnerGen := 0
          period := periodNo s, nextFab := false, nextEth := false, nextGood := false
          fenceCause := 0 }) s
      status 0 (emit 0x0701 0 [] (sendClaim 2 s))

/-- PAIR_REJOIN (R558). -/
def pairRejoin : CmdFn := fun _ c s =>
  if s.red.state ≠ .fenced then status 3 s
  else if leAt c.payload 0 4 < s.red.highest then status 0x0A02 s
  else
    status 0 (emit 0x0708 0 [] (updRed (fun r =>
      { releaseAreas r with
        state := .unpaired, mode := 0, lost := false, partner := 0, prioOwn := 0, prioPartner := 0
        addrA := [], addrB := [] }) s))

/-! ### Takeover -/

/-- R552 steps 2, 3 and 6. -/
def publishTakeover (s : State) : State :=
  let r := s.red
  let epoch := max (epochOf r.claim) (epochOf r.highest) + 1
  if 0xFFFFFF < epoch then emit 0x0705 0 (leBytes 4 0) s
  else
    let claim := epoch * 256 + r.prioOwn
    let s := updRed (fun r => { r with claim := claim, highest := claim, repeats := 100 }) s
    let s := updAcc (ownId s) (fun e => { e with claim := claim }) s
    let s := updAcc r.partner (fun e => { e with claim := claim }) s
    emit 0x0705 0 (leBytes 4 claim) (sendClaim 3 s)

/-- The module that a fabric entry names: an FPUT or FSIG (R137). -/
def entryDest (e : QEntry) : Option Nat :=
  let op := e.word.toNat / 2 ^ 56
  if op = 0xD1 ∨ op = 0xD2 then some (e.word.toNat % 65536) else none

/-- Fabric entries to a module are discarded, with their units. -/
def dropEntriesTo (d : Nat) (s : State) : State :=
  let keep := fun (dest : Nat) (u : OutUnit) =>
    !(decide (dest = d) && (match u.own with | .tile _ _ => true | .mirror => true | _ => false))
  filterUnits keep { s with tiles := s.tiles.map (fun x =>
    { x with fq := x.fq.filter (fun e => entryDest e ≠ some d) }) }

/-- R552: the partner is declared failed. -/
def declarePartner (s : State) : State :=
  let s := emit 0x0704 0 [] (updRed (fun r => { r with lost := true }) s)
  let s := if regField s rRedCfg 0 [] 31 31 = 1 then publishTakeover s else s
  if s.red.mode = 1 then
    dropEntriesTo s.red.partner (losePeer none s.red.partner
      (updRed (fun r => { r with frozen := true, rx := none, pass := none, pendingStart := false }) s))
  else s

/-- RED_CTRL.TAKEOVER (R552, R566). -/
def redTakeover (s : State) : State :=
  if s.red.lost ∧ s.red.state = .active ∧ regField s rRedCfg 0 [] 31 31 = 0 then publishTakeover s
  else updRed (fun r => { r with cmdRej := true }) s

/-- TAKEOVER_REPEAT (R552 step 6). -/
def execTakeoverRepeat (s : State) : Result :=
  .next (if s.red.repeats ≠ 0 ∧ s.red.state = .active then
      sendClaim 3 (updRed (fun r => { r with repeats := r.repeats - 1 }) s) else s)

/-! ### Wisp frames -/

/-- R551, R585: the Wisp sender runs: not in an L3 or L4 reset, nor in recovery mode. -/
def wispRuns (s : State) : Bool :=
  inPair s && decide (s.rst.level < 3 ∧ s.pwr.current < 4) && !s.fw.recovery

/-- R551: the period that ends is accounted, where the sender was not stopped. Frames stamped after
its end count in the one that begins (R15). -/
def accountPeriod (s : State) : State :=
  let miss := fun (heard : Bool) (n : Nat) => if heard then 0 else min (n + 1) 15
  let s := if s.red.stopped then s else
    updRed (fun r => { r with missFab := miss r.heardFab r.missFab, missEth := miss r.heardEth r.missEth }) s
  updRed (fun r =>
    { r with
      goodPeriods := if r.heardGood then min (r.goodPeriods + 1) 5 else 0
      heardFab := r.nextFab, heardEth := r.nextEth, heardGood := r.nextGood
      period := periodNo s, nextFab := false, nextEth := false, nextGood := false }) s

/-- R550: the module's Wisp frame, in every lane set to the partner and as a datagram on each
network that has a port up. -/
def sendWisp (s : State) : State :=
  let body := msgBody 1 s.red.claim s.red.holdGen 0 s
  let d := s.red.partner
  let s := if (List.range 16).any (fun n => takesUnits s n d) then redCount 0 (sendUnit d (msgUnit 4 body) s) else s
  let s := if netUp s 0 || netUp s 1 then redCount 1 s else s
  updRed (fun r => { r with stopped := false }) (sendDatagram (some d) body s)

/-- WISP_PERIOD (R550, R551): the start of a period of the time in force. -/
def execWispPeriod (s : State) : Result :=
  .next (
    if wispRuns s then
      let s := accountPeriod s
      let s := if nowNs s % 60000000000 < 200000 then updRed (fun r => { r with mismatchSeen := false }) s else s
      let r := s.red
      let s := if r.state = .active ∧ ¬ r.lost ∧ ¬ r.stopped ∧ 5 ≤ r.missFab ∧ 5 ≤ r.missEth then declarePartner s
        else s
      sendWisp s
    else s)

/-- R549: the body of a datagram's 64 bytes; none where it is not valid. -/
def datagramBody (d : List Byte) : Option (List Byte) :=
  if d.length = 64 ∧ leAt d 0 2 = 0x5057 ∧ leAt d 2 1 = 1 ∧ leAt d 3 1 = 0 ∧ leAt d 52 8 = 0 ∧
      crc32c (d.take 60) = leAt d 60 4 then some ((d.drop 4).take 48)
  else none

/-- The first delivered unit of which `f` holds, taken from the inbox. -/
def takeInbox (f : InUnit → Bool) (s : State) : Option (InUnit × State) :=
  match s.fab.inbox.find? f with
  | none => none
  | some u => some (u, { s with fab := { s.fab with inbox := s.fab.inbox.eraseP f } })

/-- A message that has arrived: on Ethernet as a datagram, or as the first delivered unit of a
KIND and of TYPEs. -/
def takeMessage (kind : Nat) (types : List Nat) (eth : Option (List Byte)) (s : State) : Option (List Byte × State) :=
  match eth with
  | some d =>
    match datagramBody d with
    | some b => if types.contains (leAt b 0 1) then some (b, s) else none
    | none => some ([], redCount 9 s)
  | none =>
    (takeInbox (fun x => decide (x.u.kind = kind) && types.contains (leAt x.u.data 0 1)) s).map (fun p => (p.1.u.data, p.2))

/-- The members that a body names are this module and its partner. -/
def bodyOfPair (s : State) (b : List Byte) : Bool :=
  let own := ownId s
  decide (leAt b 4 2 = min own s.red.partner ∧ leAt b 6 2 = max own s.red.partner)

/-- R539: the mode and the priorities that a body names are this pair's. -/
def bodyAgrees (s : State) (b : List Byte) : Bool :=
  let r := s.red
  let lowOwn := decide (ownId s ≤ r.partner)
  decide (bitOf (leAt b 1 1) 2 = decide (r.mode = 2)) &&
  decide (leAt b 8 1 = if lowOwn then r.prioOwn else r.prioPartner) &&
  decide (leAt b 9 1 = if lowOwn then r.prioPartner else r.prioOwn)

/-- R555: the partner's frame reports this module's generation, or refuses its pass. -/
def mirrorReport (gen : Nat) (refused : Bool) (s : State) : State :=
  match s.red.pass with
  | none => s
  | some p =>
    if p.committed ∧ gen = p.gen then
      let s := updRed (fun r => { r with pass := none, committed := gen }) s
      let s := if regField s rRedMirrorCfg 0 [] 30 30 = 1 then
        syncAdd (regField s rRedMirrorCfg 0 [] 27 14) 1#64 s else s
      emit 0x070A 0 (leBytes 4 gen) s
    else if refused then emit 0x070B 0 [] (updRed (fun r => { r with pass := none }) s)
    else s

/-- R15, R551: a Wisp frame from the partner counts in the period in which it is stamped; `good` is
whether it meets R539. -/
def hearWisp (eth good : Bool) (s : State) : State :=
  updRed (fun r =>
    if r.period < periodNo s then
      { r with nextEth := r.nextEth || eth, nextFab := r.nextFab || !eth, nextGood := r.nextGood || good }
    else
      { r with heardEth := r.heardEth || eth, heardFab := r.heardFab || !eth
               heardGood := r.heardGood || good }) s

/-- A Wisp frame from the partner (R539, R545, R551, R555). -/
def wispFrom (eth : Bool) (b : List Byte) (s : State) : State :=
  if !inPair s || decide (leAt b 2 2 ≠ s.red.partner) then s
  else if !bodyOfPair s b || !bodyAgrees s b then
    let s := if bodyOfPair s b then hearWisp eth false s else s
    if s.red.state = .standbyPartner ∧ ¬ s.red.mismatchSeen then
      emit 0x0703 0 [] (updRed (fun r => { r with mismatchSeen := true }) s)
    else s
  else
    let claim := leAt b 12 4
    let gen := leAt b 24 4
    let s := updRed (fun r => { r with partnerGen := gen })
      (hearWisp eth (epochOf claim = epochOf s.red.claim) s)
    let r := s.red
    let five := r.heardGood && decide (4 ≤ r.goodPeriods ∨ (r.nextGood ∧ 3 ≤ r.goodPeriods))
    let s := if r.state = .standbyPartner ∧ five ∧ (r.mode = 2 ∨ gen ≠ 0) then
      emit 0x0702 0 [] (updRed (fun r => { r with state := .active }) s) else s
    let s := mirrorReport gen (bitOf (leAt b 1 1) 3) s
    seePairClaim 2 (ownId s) s.red.partner claim s

/-- WISP_RX (R551): a Wisp frame arrives: the datagram, or the first delivered WISP unit. -/
def execWispRx (eth : Option (List Byte)) (s : State) : Result :=
  .next (
    match takeMessage 4 [1] eth s with
    | some (b, s) => if b = [] then s else wispFrom eth.isSome b (redCount (if eth.isSome then 3 else 2) s)
    | none => s)

/-! ### Claim messages -/

/-- R543, R545: a claim message is applied. -/
def claimMessage (b : List Byte) (s : State) : State :=
  let src := leAt b 2 2
  let a := leAt b 4 2
  let c := leAt b 6 2
  let partner := if src = a then c else a
  let claim := leAt b 12 4
  match leAt b 0 1 with
  | 2 =>
    seePairClaim 3 src partner claim
      (applyAnnounce src partner (leAt b (if src = a then 8 else 9) 1) claim (bitOf (leAt b 1 1) 2) s)
  | 3 => seePairClaim 3 src partner claim (applyTakeover src partner claim s)
  | _ =>
    let s := redCount 6 s
    seePairClaim 1 (ownId s) s.red.partner claim s

/-- CLAIM_MSG_RX (R543, R545). -/
def execClaimMsgRx (eth : Option (List Byte)) (s : State) : Result :=
  .next (
    match takeMessage 5 [2, 3, 4] eth s with
    | some (b, s) => if b = [] then s else claimMessage b s
    | none => s)

/-- ANNOUNCE_TIMER (R547): a FENCED member announces on Ethernet alone (R546). -/
def execAnnounceTimer (s : State) : Result :=
  .next (
    if wispRuns s then
      if s.red.state = .fenced then sendDatagram none (msgBody 2 s.red.claim 0 0 s) s else sendClaim 2 s
    else s)

/-- TABLE_READY (R547): two announcement intervals after the end of an L3 or L4 reset. -/
def execTableReady (s : State) : Result :=
  .next (if s.rst.level < 3 then updRed (fun r => { r with tableReady := true }) s else s)

/-- A write of RED_ACC_ENTRY (R547): it raises an entry, or is ignored. -/
def accEntryWrite (v : Nat) (s : State) : State :=
  let src := regGet s rRedAccIndex 0 []
  if bits v 63 32 < (accOf s src).claim then updRed (fun r => { r with cmdRej := true }) s
  else updAcc src (fun _ =>
    { claim := bits v 63 32, partner := bits v 31 16, prio := bits v 15 8, valid := bitOf v 7, twin := bitOf v 6 }) s

/-! ### Mirror passes -/

/-- R554: the regions in use: DPA and length. -/
def mirrorRegions (s : State) : List (Nat × Nat) :=
  (List.range 16).filterMap (fun i =>
    let b := regGet s rRedRegionBase 0 [i]
    if bitOf b 63 then some (b % 2 ^ 41, regGet s rRedRegionSize 0 [i] % 2 ^ 41) else none)

/-- The bytes of a pass. -/
def mirrorLength (s : State) : Nat := ((mirrorRegions s).map (·.2)).sum

/-- The DPA of a byte of a pass, and how many bytes of its region follow. -/
def mirrorAt : List (Nat × Nat) → Nat → Option (Nat × Nat)
  | [], _ => none
  | (d, n) :: r, k => if k < n then some (d + k, n - k) else mirrorAt r (k - n)

/-- The RED_REGION entries as MIRROR_BEGIN carries them. -/
def regionEntries (s : State) : List Byte :=
  (List.range 16).flatMap (fun i =>
    leBytes 8 (regGet s rRedRegionBase 0 [i]) ++ leBytes 8 (regGet s rRedRegionSize 0 [i]))

/-- A pass can start: mirror mode, not FENCED, the partner not lost and reached. -/
def canMirror (s : State) : Bool :=
  decide (s.red.mode = 1 ∧ (s.red.state = .active ∨ s.red.state = .standbyPartner)) && !s.red.lost &&
    s.red.pass.isNone && (reachSlot s s.red.partner).isSome

/-- R555 step 1. -/
def startMirror (s : State) : State :=
  let gen := s.red.committed + 1
  let u := msgUnit 5 (msgBody 5 s.red.claim gen (mirrorLength s) s ++ regionEntries s)
  let s := updRed (fun r => { r with pass := some { gen := gen, length := 0 } }) s
  let s := redCount 7 s
  match reachSlot s s.red.partner with
  | some n => placeUnit n s.red.partner { u with own := .mirror } s
  | none => s

/-- RED_CTRL.MIRROR_NOW (R554): a start during a pass is held. -/
def mirrorNow (s : State) : State :=
  if canMirror s then startMirror s
  else if s.red.mode = 1 ∧ s.red.state ≠ .fenced ∧ ¬ s.red.lost then updRed (fun r => { r with pendingStart := true }) s
  else s

/-- A write of RED_CTRL. -/
def redCtrl (v : Nat) (s : State) : State :=
  let s := if bitOf v 1 then redTakeover s else s
  if bitOf v 0 then mirrorNow s else s

/-- R554: the trigger asks for a pass. -/
def mirrorDue (s : State) : Bool :=
  decide (regField s rRedMirrorCfg 0 [] 31 31 = 1 ∧
    regGet s rRedMirrorThresh 0 [] ≤ (syncGet s (regField s rRedMirrorCfg 0 [] 13 0)).toNat)

/-- R554: a start of the trigger has been taken, and THRESH grows. -/
def growThresh (s : State) : State :=
  regPut s rRedMirrorThresh 0 [] ((regGet s rRedMirrorThresh 0 [] + regGet s rRedMirrorStep 0 []) % 2 ^ 64)

/-- MIRROR_PASS_START (R554, R555): a held start, or one of the trigger, which is held during a pass. -/
def execMirrorPassStart (s : State) : Result :=
  .next (
    if canMirror s then
      if s.red.pendingStart then startMirror (updRed (fun r => { r with pendingStart := false }) s)
      else if mirrorDue s then startMirror (growThresh s)
      else s
    else if s.red.pass.isSome ∧ ¬ s.red.pendingStart ∧ mirrorDue s then
      updRed (fun r => { r with pendingStart := true }) (growThresh s)
    else s)

/-- The base and the size of an area's banks (0 HOLD, 1 KEEP), where it is in use. -/
def redArea (s : State) (a : Nat) : Option (Nat × Nat) :=
  let b := regGet s rRedAreaBase 0 [a]
  if bitOf b 63 then some (b % 2 ^ 41, regGet s rRedAreaSize 0 [a] % 2 ^ 41) else none

/-- R555 step 2: the next unit of a pass, and the same bytes to the keep bank. -/
def mirrorUnit (s : State) : Option (OutUnit × State) :=
  match s.red.pass with
  | none => none
  | some p =>
    match mirrorAt (mirrorRegions s) p.length with
    | none => none
    | some (dpa, left) =>
      let n := min 992 left
      let r := ddrRead dpa n s
      let s := updRed (fun x => { x with pass := some { p with length := p.length + n } }) r.1
      let s := bumpBy s rRedCount 0 [8] n
      let s := if regField s rRedMirrorCfg 0 [] 29 29 = 1 then
        match redArea s 1 with
        | some (b, size) => (ddrWrite (b + p.gen % 2 * size + p.length) r.2.1 s).1
        | none => s
        else s
      some (⟨{ kind := 1, stream := 0xFF, opseq := 0, addr := p.length, total := n, data := r.2.1 }, .mirror⟩, s)

/-- MIRROR_COMMIT (R555 step 3). -/
def execMirrorCommit (s : State) : Result :=
  .next (
    match s.red.pass with
    | some p =>
      if !p.committed ∧ p.length = mirrorLength s ∧
          (openUnits s).all (fun x => x.2.own ≠ .mirror) then
        match reachSlot s s.red.partner with
        | some n =>
          placeUnit n s.red.partner (msgUnit 5 (msgBody 6 s.red.claim p.gen 0 s))
            (updRed (fun r => { r with pass := some { p with committed := true } }) s)
        | none => s
      else s
    | none => s)

/-- R555: the bank into which the partner's pass is written. -/
def holdBankNow (r : Red) : Nat := if r.holdGen = 0 then 0 else 1 - r.holdBank

/-- R555: MIRROR_BEGIN arrives. -/
def mirrorBegin (d : List Byte) (s : State) : State :=
  let len := leAt d 32 8
  let fits := match redArea s 0 with
    | some (_, size) => decide (len ≤ size)
    | none => false
  if fits && !s.red.frozen then
    updRed (fun r =>
      { r with
        holdRefused := false
        rx := some { gen := leAt d 24 4, length := len
                     regions := (List.range 16).filterMap (fun i =>
                       let b := leAt d (48 + 16 * i) 8
                       if bitOf b 63 then some (b % 2 ^ 41, leAt d (56 + 16 * i) 8 % 2 ^ 41) else none) } }) s
  else updRed (fun r => { r with holdRefused := true, rx := none }) s

/-- R555: mirror data arrives. -/
def mirrorData (u : FabUnit) (s : State) : State :=
  match s.red.rx, redArea s 0 with
  | some x, some (b, size) =>
    if u.addr + u.data.length ≤ x.length then
      updRed (fun r => { r with rx := some { x with got := x.got + u.data.length } })
        (ddrWrite (b + holdBankNow s.red * size + u.addr) u.data s).1
    else s
  | _, _ => s

/-- A unit of mirror traffic. -/
def isMirror (u : FabUnit) : Bool := (u.kind = 1 && u.stream = 0xFF) || (u.kind = 5 && leAt u.data 0 1 = 5)

/-- MIRROR_UNIT_RX (R555): the partner's MIRROR_BEGIN or data; data must carry its claim (R230). -/
def execMirrorUnitRx (s : State) : Result :=
  .next (
    match takeInbox (fun x => isMirror x.u) s with
    | none => s
    | some (x, s) =>
      if x.src ≠ s.red.partner ∨ s.red.mode ≠ 1 ∨ s.red.state = .unpaired ∨ s.red.state = .fenced then s
      else if x.u.kind = 5 then mirrorBegin x.u.data s
      else if claimOk s x.src x.claim then mirrorData x.u s
      else sendNotice x.src s)

/-- MIRROR_COMMIT_RX (R555): the generation, the bank and the region list are recorded. -/
def execMirrorCommitRx (s : State) : Result :=
  .next (
    match takeInbox (fun x => x.u.kind = 5 && leAt x.u.data 0 1 = 6) s with
    | none => s
    | some (x, s) =>
      match s.red.rx with
      | some r =>
        if x.src = s.red.partner ∧ leAt x.u.data 24 4 = r.gen ∧ r.got = r.length then
          updRed (fun y =>
            { y with holdBank := holdBankNow y, holdGen := r.gen, holdDir := r.regions, rx := none }) s
        else s
      | none => s)

end Sys2Proof.Machine
end

