-- ==== Sys2Proof/Machine/RemOps.lean ====
section
/-!
DEFINITION. Remote operations and the fabric queue (R136, R137, R229 to R235, R299, R300).
-/

namespace Sys2Proof.Machine

/-! ### Checks at the receiver -/

/-- A count of COLL_SYNC_COUNT. -/
def syncCount (i : Nat) (s : State) : State := bump s rCollSyncCount 0 [i]

/-- R230: the checks of a remote operation in order, the object's range among them where
`range` says it fails; the state that has discarded it, where one fails. -/
def remoteCheck (x : InUnit) (outside : Bool) (s : State) : Option State :=
  let src := leBytes 2 x.src
  if x.dest ≠ ownId s then some (emit 0x0904 x.src (src ++ leBytes 2 x.dest) (syncCount 5 s))
  else if !claimOk s x.src x.claim then
    some (sendNotice x.src (emit 0x0902 x.src (src ++ leBytes 4 x.claim ++ leBytes 4 (accOf s x.src).claim)
      (syncCount 3 s)))
  else if outside then some (emit 0x0901 x.src (src ++ leBytes 2 x.u.object) (syncCount 2 s))
  else if s.red.state = .fenced then
    let s := syncCount 6 s
    some (if s.sync.fencedSeen.contains x.src then s
      else emit 0x0905 x.src src { s with sync := { s.sync with fencedSeen := x.src :: s.sync.fencedSeen } })
  else none

/-- R229: an operation number lies behind the one expected: a copy. -/
def seqBehind (next n : Nat) : Bool :=
  decide (n ≠ next) && decide ((next + 2 ^ 32 - n % 2 ^ 32) % 2 ^ 32 < 2 ^ 31)

/-- R27: an object that remote modules reach. -/
def remoteObj (o : Nat) : Bool := decide (15360 ≤ o ∧ o < 16384)

/-- An operation applied for another module. -/
def remoteAdd (o : Nat) (n : W64) (s : State) : State := syncPut o (syncGet s o + n) s

/-- The stream of a source and a tile (R229, R232). -/
def streamKey (s : State) (src l : Nat) : Nat := sourceKey s src * 256 + l

/-- R137: an address that an FPUT may write: the LPDDR5X window, or the slice offsets of one
logical tile window. The spec gives no least length: an FPUT of length 0 is checked as if it wrote
one byte, is one empty unit, or nothing where it is local, and makes its add (assumption 81, DESIGN
CHOICE). -/
def fputOk (a n : Nat) : Bool :=
  let m := max n 1
  if ddrBase ≤ a then a + m ≤ ddrBase + ddrSize
  else if windowBase ≤ a ∧ a < windowBase + 144 * windowStride then
    let o := (a - windowBase) % windowStride
    sliceOff ≤ o && o + m ≤ sliceOff + sliceSize
  else false

/-- R230: the rest of an FPUT that has been discarded, which counts no more. -/
def refusedRest (x : InUnit) (s : State) : Bool :=
  decide (x.u.kind = 1 ∧ x.u.offset ≠ 0 ∧
    Cells.get 0 s.sync.refused (x.src * 256 + x.u.stream) = x.u.opseq + 1)

/-- R230: an FPUT is discarded with all its bytes. -/
def noteRefused (x : InUnit) (s : State) : State :=
  if x.u.kind = 1 then
    { s with sync := { s.sync with
      refused := Cells.set 0 s.sync.refused (x.src * 256 + x.u.stream) (x.u.opseq + 1) } }
  else s

/-- R231, R233: the bytes of an FPUT unit, written; after the last, the add. A number beyond the one
in progress comes from a sender that has given that one up. -/
def takeFput (key : Nat) (x : InUnit) (s : State) : State :=
  let u := x.u
  let r := Cells.get {} s.sync.remote key
  let r := if u.opseq = r.next then r else { next := u.opseq, lost := r.lost }
  if (r.supplier.isSome ∧ r.supplier ≠ some x.src) ∨ u.offset ≠ r.got then syncCount 4 s
  else
    let put := fun (r : RemoteIn) (s : State) =>
      { s with sync := { s.sync with remote := Cells.set {} s.sync.remote key r } }
    let s := if u.data ≠ [] ∧ fputOk u.addr u.data.length then storeBytes 256 u.addr u.data s else s
    let got := r.got + u.data.length
    if u.total ≤ got then
      let s := put { next := (u.opseq + 1) % 2 ^ 32, lost := r.lost } (syncCount 1 s)
      if u.object = 0 then s else remoteAdd u.object 1#64 s
    else put { r with supplier := some x.src, object := u.object, got := got } s

/-- An FSIG is applied (R232). -/
def takeFsig (key : Nat) (x : InUnit) (s : State) : State :=
  let s := { s with sync := { s.sync with
    remote := Cells.upd {} s.sync.remote key (fun r => { next := (x.u.opseq + 1) % 2 ^ 32, lost := r.lost }) } }
  remoteAdd x.u.object (BitVec.ofNat 64 x.u.addr) (syncCount 1 s)

/-! ### Sending -/

/-- Units of an FPUT: 992 bytes each at most, and one where it has no byte. -/
def fputUnits (l opseq addr total object : Nat) : Nat → Nat → List Byte → List FabUnit
  | 0, _, _ => []
  | n + 1, off, bs =>
    { kind := 1, stream := l, opseq := opseq, addr := addr + off, offset := off, total := total
      object := object, data := bs.take 992 } ::
    (if bs.length ≤ 992 then [] else fputUnits l opseq addr total object n (off + 992) (bs.drop 992))

/-- The module sends its operations in twin mode (R235). -/
def twinMode (s : State) : Bool := inPair s && decide (s.red.mode = 2)

/-- R300: no earlier operation of a tile for a module waits on another slot's set. -/
def tileFree (s : State) (l n d : Nat) : Bool :=
  s.fab.slots.zipIdx.all (fun p => decide (p.2 = n) || (p.1.sets ++ p.1.newSets).all (fun x =>
    decide (x.dest ≠ d) || (setUnits x).all (fun u =>
      match u.own with
      | .tile m _ => decide (m ≠ l)
      | _ => true)))

/-- Units of one operation placed in a lane set. -/
def placeUnits (n d l opseq : Nat) (us : List FabUnit) (s : State) : State :=
  forEach us (fun u st => placeUnit n d ⟨u, .tile l opseq⟩ st) s

/-- R229: the next number of a tile's stream to a module. -/
def nextOp (s : State) (d l : Nat) : Nat := Cells.get 0 s.sync.outSeq (d * 256 + l)

/-- The number is used. -/
def useOp (d l : Nat) (s : State) : State :=
  { s with sync := { s.sync with
    outSeq := Cells.set 0 s.sync.outSeq (d * 256 + l) ((nextOp s d l + 1) % 2 ^ 32) } }

/-- R299, R300: where the tile's next operation for a module can be placed now. -/
def openSlotTo (s : State) (l d : Nat) : Option Nat :=
  (reachSlot s d).filter (fun n => tileFree s l n d)

/-- The source of an FPUT, read through the tile. -/
def fputRead (t a n : Nat) (s : State) : State × Access :=
  if n = 0 then (s, .ok []) else tileLoad t a n s

/-- R82, R137, R138: the address of an FPUT that raises ADDRESS: the destination's, then the
source's. -/
def fputAddress (s : State) (t a b n : Nat) (here : Bool) : Option Nat :=
  let dest := if !fputOk b n then some b
    else if here && decide (n ≠ 0) then
      match storeCheck t b n s with
      | some (.exc _ ad) => some ad
      | _ => none
    else none
  dest.or (if n ≠ 0 ∧ readRefused s t a n then some a else none)

/-- FPUT at the head of the fabric queue (R137), by the priority of R138. -/
def runFput (t : Nat) (i : Insn) (s : State) : Ran :=
  let x := tileAt s t
  let l := x.logical.getD 0
  let n := (sGet x i.d).toNat
  let a := (aGet x i.a).toNat
  let b := (aGet x i.b).toNat
  let d := i.imm % 65536
  let obj := bits i.imm 29 16
  if let some ad := fputAddress s t a b n (decide (d = ownId s)) then .exc s 4 ad
  else if n % 16 ≠ 0 ∨ 16777216 < n then .exc s 5 0
  else if obj ≠ 0 ∧ !remoteObj obj then .exc s 9 obj
  else if d = ownId s then
    match fputRead t a n s with
    | (s1, .ok bs) =>
      match (if n = 0 then (s1, .ok []) else tileStore t b bs s1) with
      | (s2, .ok _) => .done (if obj = 0 then s2 else syncAdd obj 1#64 s2) fNone
      | (s2, .exc c ad) => .exc s2 c ad
      | (s2, .fault src) => .fault s2 src
      | (_, .held) => .held
    | (s1, .exc c ad) => .exc s1 c ad
    | (s1, .fault src) => .fault s1 src
    | (_, .held) => .held
  else if !planned s d then .exc s 10 d
  else match openSlotTo s l d with
    | none => .held
    | some k =>
      match fputRead t a n s with
      | (s1, .ok bs) =>
        let q := nextOp s1 d l
        .done (placeUnits k d l q (fputUnits l q b n obj (n / 992 + 1) 0 bs) (useOp d l s1)) fNone
      | (s1, .exc c ad) => .exc s1 c ad
      | (s1, .fault src) => .fault s1 src
      | (_, .held) => .held

/-- FSIG at the head of the fabric queue (R137). -/
def runFsig (t : Nat) (i : Insn) (s : State) : Ran :=
  let x := tileAt s t
  let l := x.logical.getD 0
  let v := (sGet x i.b).toNat
  let d := i.imm % 65536
  let obj := bits i.imm 29 16
  if !remoteObj obj then .exc s 9 obj
  else if d = ownId s then .done (syncAdd obj (BitVec.ofNat 64 v) s) fNone
  else if !planned s d then .exc s 10 d
  else match openSlotTo s l d with
    | none => .held
    | some k =>
      let q := nextOp s d l
      .done (placeUnits k d l q [{ kind := 2, stream := l, opseq := q, addr := v, object := obj }] (useOp d l s)) fNone

/-- The lowest free context of the collective engine (R316). -/
def freeInstCtx (s : State) : Option Nat :=
  (List.range 16).find? (fun c => !(s.coll.insts.any (fun i => i.ctx = c)))

/-- CPOST at the head of the fabric queue (R136, R316): its instance obtains a context. A descriptor
that is not defined raises FABRIC with TILE_TRAP_ADDR 0, where R138 names an object or a module and
CPOST has neither (assumption 81, DESIGN CHOICE). -/
def runCpost (t : Nat) (i : Insn) (s : State) : Ran :=
  let x := tileAt s t
  let dn := i.imm % 1024
  if s.job.colls.length ≤ dn then .exc s 10 0
  else if s.coll.insts.any (fun j => j.desc = dn) then .held
  else match freeInstCtx s with
    | none => .held
    | some c =>
      let num := Cells.get 0 s.coll.nums dn
      .done { s with coll := { s.coll with
        nums := Cells.set 0 s.coll.nums dn ((num + 1) % 65536)
        insts := s.coll.insts ++
          [{ ctx := c, desc := dn, num := num, src := (aGet x i.a).toNat, dst := (aGet x i.b).toNat }] } } fNone

/-- The entries of the fabric queue. -/
def runFabric (t : Nat) (i : Insn) (s : State) : Ran :=
  if i.op = 0xD0 then runCpost t i s
  else if i.op = 0xD1 then runFput t i s
  else runFsig t i s

/-- Whether an entry stays until its destination has acknowledged it (R235). -/
def staysHanded (s : State) (i : Insn) : Bool :=
  twinMode s && decide (i.op = 0xD1 ∧ i.imm % 65536 ≠ ownId s)

/-- R234, R235: an FPUT handed on in twin mode is remembered for a restart. -/
def notePut (x : Tile) (e : QEntry) (s0 s : State) : State :=
  let i := insnOf e.word
  let d := i.imm % 65536
  let l := x.logical.getD 0
  let p : PutOut :=
    { opseq := nextOp s0 d l, src := (aGet x i.a).toNat, dst := (aGet x i.b).toNat
      length := (sGet x i.d).toNat, object := bits i.imm 29 16, pc := e.pc }
  { s with sync := { s.sync with puts := Cells.set none s.sync.puts (d * 256 + l) (some p) } }

/-- The head of a tile's fabric queue: it is checked, and handed on; one that was handed on in
twin mode completes once every unit of it has been acknowledged, and not where its units have gone
without that. -/
def fabricHead (t : Nat) (s : State) : State :=
  let x := tileAt s t
  match x.fq with
  | [] => s
  | e :: _ =>
    let i := insnOf e.word
    let d := i.imm % 65536
    let l := x.logical.getD 0
    if e.handed then
      let q := (nextOp s d l + 2 ^ 32 - 1) % 2 ^ 32
      if e.cut then s
      else if (openUnits s).any (fun u => decide (u.1 = d ∧ u.2.own = .tile l q)) then s
      else dropEntry t .fabric 0 s
    else if !entryFree x e then s
    else match runFabric t i s with
      | .done s' fl =>
        if staysHanded s i then
          updTile t (fun y => { y with fq := { e with handed := true } :: y.fq.drop 1 }) (notePut x e s s')
        else settleEntry t .fabric 4 0 e s' (.done s' fl)
      | r => settleEntry t .fabric 4 0 e s r

/-! ### Twin restart (R234, R553) -/

/-- RESTART arrives at the surviving twin: the FPUT is read again and sent again with its number,
whether its entry still stands or its own copy has been acknowledged already (assumption 37). None
while it cannot be sent. -/
def restartFput (x : InUnit) (s : State) : Option State :=
  let l := x.u.stream
  match physOf s l, Cells.get none s.sync.puts (x.src * 256 + l) with
  | some t, some p =>
    if p.opseq ≠ x.u.opseq then some s
    else match reachSlot s x.src with
      | none => if planned s x.src then none else some s
      | some k =>
        match fputRead t p.src p.length s with
        | (s1, .ok bs) =>
          let s2 := placeUnits k x.src l p.opseq
            (fputUnits l p.opseq p.dst p.length p.object (p.length / 992 + 1) 0 bs) s1
          some (updTile t (fun y => { y with fq := y.fq.map (fun e => { e with cut := false }) }) s2)
        | (s1, .exc c ad) => some (raiseExc t c 4 p.pc ad 0 s1)
        | (s1, .fault src) => some (faultTile t src s1)
        | (_, .held) => none
  | _, _ => some s

/-- A unit for the sync unit. -/
def isRemoteOp (u : FabUnit) : Bool := (u.kind = 1 && u.stream ≠ 0xFF) || u.kind = 2 || u.kind = 6

/-- R229, R232: an operation waits: a later number of one twin while the other's FPUT is being
taken; bytes for a strip that trains (R172); a RESTART that cannot be sent again yet. -/
def opHeld (s : State) (x : InUnit) : Bool :=
  let r := Cells.get {} s.sync.remote (streamKey s x.src x.u.stream)
  if x.u.kind = 6 then (restartFput x s).isNone
  else (match r.supplier with
    | some m => decide (m ≠ x.src ∧ x.u.opseq ≠ r.next) && !seqBehind r.next x.u.opseq
    | none => false) ||
    (decide (x.u.kind = 1) && (match placeOf s 256 x.u.addr x.u.data.length with
      | .ddr d => ddrHeld d x.u.data.length s
      | _ => false))

/-- The first operation delivered that can be taken; none overtakes an earlier one of its stream. -/
def nextOpIn (s : State) : List Nat → List InUnit → Option InUnit
  | _, [] => none
  | waits, x :: xs =>
    let key := (x.src * 256 + x.u.stream) * 2 + b2n (decide (x.u.kind = 6))
    if !isRemoteOp x.u then nextOpIn s waits xs
    else if waits.contains key then nextOpIn s waits xs
    else if opHeld s x then nextOpIn s (key :: waits) xs
    else some x

/-- A unit of kinds 1, 2 or 6 after its checks (R229 to R233). -/
def applyRemote (x : InUnit) (s : State) : State :=
  let outside := if x.u.kind = 6 then false
    else if x.u.kind = 1 then x.u.object ≠ 0 && !remoteObj x.u.object else !remoteObj x.u.object
  if refusedRest x s then s
  else match remoteCheck x outside s with
    | some s => noteRefused x s
    | none =>
      if x.u.kind = 6 then (restartFput x s).getD s
      else
        let key := streamKey s x.src x.u.stream
        let r := Cells.get {} s.sync.remote key
        let s := if r.lost = some x.src then
            { s with sync := { s.sync with remote := Cells.set {} s.sync.remote key { r with lost := none } } }
          else s
        if seqBehind r.next x.u.opseq then syncCount 4 s
        else if x.u.kind = 1 then takeFput key x s
        else takeFsig key x s

end Sys2Proof.Machine
end

