-- ==== Sys2Proof/Machine/CollRows.lean ====
section
/-!
DEFINITION. The life of a collective instance, its bursts and its segments (R316 to R319, R321,
R328 to R340).
-/

namespace Sys2Proof.Machine

/-! ### The checks of a start (R317, R324, R330) -/

/-- R324: the plan and the members of a ring. -/
def ringOk (s : State) (d : CollDesc) : Bool :=
  match (slotAt s d.slot).plan with
  | some pl =>
    match pl.phases with
    | [f] =>
      let planes := (List.range 32).filter (bitOf (pl.mask &&& digitalMask f))
      let bytes := fun (xs : List (Option Nat)) (p : Nat) => (xs.drop (8 * p)).take 8
      let first := bytes f.lanes (planes.headD 0)
      planes.all (fun p => decide (bytes f.lanes p = first ∧ bytes f.rxs p = first)) &&
        first.all (fun k => (k.map (fun k => decide (k % 2 = 1))).getD true) && !planes.isEmpty
    | _ => false
  | none => false

/-- R330: the members and the plane groups of an Optical Sum instance. -/
def sumOk (s : State) (d : CollDesc) : Bool :=
  let others := (collMembers d).filter (fun m => m ≠ ownId s)
  match (slotAt s d.slot).plan with
  | some pl =>
    decide (d.podA = ownId s / 32) && pl.phases.all (fun f => (List.range 8).all (fun g =>
      !bitOf f.osum (4 * g) ||
        (sameMembers ((groupElems f g (phaseRxs f)).map
            (fun x => hears s (phasePods s f (x.1 / 8)) (x.1 / 8) x.2)) others &&
          sameMembers ((groupElems f g (phaseLanes f)).map
            (fun x => sendsTo s (phasePods s f (x.1 / 8)) (x.1 / 8) x.2)) others)))
  | none => false

/-- R317: some phase of the armed plan has a lane to a module and a channel hearing it. -/
def phaseReaches (s : State) (d : CollDesc) (m : Nat) : Bool :=
  decide ((slotAt s d.slot).code = .armed) &&
    match (slotAt s d.slot).plan with
    | some pl => pl.phases.any (fun f =>
        (phaseDests s f pl.mask).contains m && (phaseSources s f pl.mask).contains m)
    | none => false

/-- R314: the elements of the source and of the destination. -/
def bufferElems (s : State) (i : Inst) : Nat × Nat :=
  let d := descOf s i
  let l := shardLen d
  match d.op with
  | 2 => (d.count, l)
  | 3 => (l, d.count)
  | 5 => (if ownRank s i = d.root then d.count else 0, d.count)
  | _ => (d.count, d.count)

/-- R317: the buffers. -/
def buffersOk (s : State) (i : Inst) : Bool :=
  let d := descOf s i
  let n := bufferElems s i
  let a := elemOff d.fmt n.1
  let b := elemOff d.fmt n.2
  (decide (n.1 = 0) || bufferOk s i.src a) && bufferOk s i.dst b &&
    (decide (n.1 = 0) || decide (i.src + a ≤ i.dst ∨ i.dst + b ≤ i.src ∨ (d.op = 1 ∧ i.src = i.dst)))

/-- R317, R318: the first condition that fails, as the status with which the instance ends and the
module concerned, 0 for none. A ring needs a way only to the members that its channels reach (R324,
assumption 55). -/
def startFault (s : State) (i : Inst) : Option (Nat × Nat) :=
  let d := descOf s i
  let ms := collMembers d
  match rankOf s d (ownId s) with
  | none => some (2, 0)
  | some o =>
    let ks := ringChannels s d
    let near := fun (r : Nat) => ks.any (fun k => decide (r = (o + k) % 32 ∨ o = (r + k) % 32))
    let others := ms.filter (fun m => decide (rankOf s d m ≠ some o) && (!d.ring || ((rankOf s d m).map near).getD true))
    if (slotAt s d.slot).code ≠ .armed then some (2, 0)
    else match others.find? (fun m => !phaseReaches s d m) with
      | some m => some (2, m)
      | none =>
        if !buffersOk s i then some (3, 0)
        else if d.ring && !ringOk s d then some (2, 0)
        else if d.osum && !sumOk s d then some (2, 0)
        else if d.ring || d.osum then (ms.find? (fun m => (twinOf s m).isSome)).map (fun m => (8, m))
        else none

/-- The modules with which an instance exchanges units: of a twin pair, both (R340). -/
def peersOf (s : State) (i : Inst) : List CollPeer :=
  let d := descOf s i
  let start := if d.osum then shardLen d else 0
  let all := ((collMembers d).zipIdx.filter (fun x => x.2 ≠ ownRank s i)).flatMap (fun x =>
    (x.1 :: ((twinOf s x.1).map (fun t => [t])).getD []).map (fun m =>
      ({ module := m, rank := x.2, sent := start } : CollPeer)))
  let ks := ringChannels s d
  if d.ring then all.filter (fun p => ks.any (fun k =>
    decide (p.rank = (ownRank s i + k) % 32 ∨ ownRank s i = (p.rank + k) % 32))) else all

/-- R314, R323: what an instance copies locally. -/
def localCopy (i : Inst) (s : State) : State :=
  let d := descOf s i
  let o := ownRank s i
  let l := shardLen d
  let copy := fun (a b n : Nat) =>
    let r := readElems d.fmt i.src a n s
    engineWrite (i.dst + elemOff d.fmt b) r.2.flatten r.1
  match d.op with
  | 3 => copy 0 (o * l) l
  | 4 => copy (o * l) (o * l) l
  | 5 => if o = d.root then copy 0 0 d.count else s
  | _ => s

/-- R318: an instance ends with a status other than OK, and unless it is ABORTED the job ends. -/
def failInst (i : Inst) (status peer : Nat) (s : State) : State :=
  let s := collEnd status peer i s
  dealSpans (pumpColl (if status = 7 then s else endJob ⟨1, 0, 0, 0⟩ s))

/-- R322: the instance begins: its peers, its credit, and the credit that came early. -/
def beginInst (i : Inst) (s : State) : State :=
  let dn := i.desc
  let mine := s.coll.early.filter (fun e => e.1 = dn)
  let grant := fun (m : Nat) => ((mine.filter (fun e => e.2.1 = m)).map (·.2.2)).foldl max 0
  let ps := (peersOf s i).map (fun p => { p with granted := grant p.module })
  let s := updColl (fun c => { c with early := c.early.filter (fun e => e.1 ≠ dn) }) s
  pumpColl (localCopy i (updInst i.ctx (fun i => { i with begun := true, peers := ps }) s))

/-- COLL_INSTANCE_START (R316, R317): the instance in a context is checked and begins. -/
def execCollInstanceStart (c : Nat) (s : State) : Result :=
  .next (
    match instAt s c with
    | none => s
    | some i =>
      if i.begun ∨ i.fail.isSome then s
      else match startFault s i with
        | some e => failInst i e.1 e.2 s
        | none => if streamHeld s i then s else beginInst i s)

/-- COLL_UNIT_RX (R321): the first COLL unit delivered is checked and applied or discarded. -/
def execCollUnitRx (s : State) : Result :=
  .next (
    match takeInbox (fun x => x.u.kind = 3) s with
    | none => s
    | some (x, s1) =>
      if !collReady s x.u then s
      else match remoteCheck x false s1 with
        | some s2 => s2
        | none =>
          let next := Cells.get 0 s1.coll.rxSeq x.src
          if seqBehind next x.u.opseq then syncCount 4 s1
          else
            let s2 := updColl (fun c =>
              { c with rxSeq := Cells.set 0 c.rxSeq x.src ((x.u.opseq + 1) % 2 ^ 32) }) s1
            collApply x.src x.u s2)

/-- R319: the adds of a completed instance, and its context freed. -/
def completeInst (i : Inst) (s : State) : State :=
  let d := descOf s i
  let s := updColl (fun c =>
    { c with insts := c.insts.filter (fun j => j.ctx ≠ i.ctx)
             bursts := c.bursts.filter (fun b => b.desc ≠ i.desc || b.begun) }) s
  let s := if bitOf d.degObj 15 ∧ i.deg then syncAdd (d.degObj % 16384) 1#64 s else s
  let s := if bitOf d.sync 15 then syncAdd (d.sync % 16384) (BitVec.ofNat 64 d.addend) s else s
  dealSpans (pumpColl s)

/-- COLL_INSTANCE_COMPLETE (R319). -/
def execCollInstanceComplete (c : Nat) (s : State) : Result :=
  .next (
    match instAt s c with
    | some i => if instDone s i then completeInst i s else s
    | none => s)

/-- R318: the plan is no longer armed, so that no phase of it reaches the modules for which units
remain. -/
def planLost (s : State) (i : Inst) : Option Nat :=
  if i.begun ∧ (slotAt s (descOf s i).slot).code ≠ .armed then
    (i.peers.find? (fun p => !(peerSent s i p false && peerArrived s i p false))).map (·.module)
  else none

/-- COLL_INSTANCE_END (R318): an instance that is to end with a status other than OK ends. -/
def execCollInstanceEnd (c : Nat) (s : State) : Result :=
  .next (
    match instAt s c with
    | some i =>
      match i.fail, planLost s i with
      | some f, _ => failInst i f.1 f.2 s
      | none, some m => failInst i 2 m s
      | none, none => s
    | none => s)

/-- COLL_TIMEOUT (R318): an instance has made no progress for STALL_100MS. -/
def execCollTimeout (c : Nat) (s : State) : Result :=
  .next (
    match instAt s c with
    | some i =>
      if i.begun ∧ i.fail.isNone ∧ regField s rCollPolicy 0 [] 7 0 ≠ 0 then failInst i 5 0 s else s
    | none => s)

/-! ### Bursts (R332 to R337, R339) -/

/-- R337: COARSE and FINE of a plane and channel as an advance in picoseconds. -/
def launchAdvance (s : State) (p k : Nat) : Nat :=
  let c := regField s rCollOsumTrim 0 [p, k] 27 16
  let f := regField s rCollOsumTrim 0 [p, k] 7 0
  c * 1000 / 14 + f

/-- R332: the level of an element at an agreed exponent. -/
def lightLevel (e : Nat) (w : W32) : Nat :=
  match (encInput w).1 with
  | none => 32
  | some x =>
    let m := if x.inf then 31 else min 31 (rneScale x.mag.1 (x.mag.2 + scaleExp 5 (e : Int) 0))
    if x.neg then 32 - m else 32 + m

/-- The levels that an instance launches to an owner in one burst. -/
def burstLevels (i : Inst) (rank : Nat) (xs : List SpanTx) (s : State) : State × List Nat :=
  xs.foldl (fun acc x =>
    match x.span with
    | some k =>
      let d := descOf s i
      let r := contribution i rank (k * 128) (spanPart d k) acc.1
      (r.1, acc.2 ++ r.2.map (lightLevel x.e) ++ List.replicate (128 - spanPart d k) 32)
    | none => acc) (s, [])

/-- R333: the pilot slots of a burst, for a channel whose own slot is `n`. -/
def pilotRuns (n : Nat) : List (Nat × Nat) :=
  (16 * n, 32) :: (List.replicate 8 [(1, 63), (1, 1)]).flatten ++ [(16 * (7 - n), 32)]

/-- R333: the symbols of a burst: the guard, the pilots, the data with each level held for INTEG
symbols, and level 32 to its end. -/
def symbolRuns (k integ : Nat) (levels : List Nat) : List (Nat × Nat) :=
  (32, 32) :: pilotRuns (k % 8) ++ levels.map (fun l => (integ, l)) ++ [(16384 - integ * levels.length, 32)]

/-- The level of a symbol of a burst. -/
def runLevel : List (Nat × Nat) → Nat → Nat
  | [], _ => 32
  | (n, l) :: r, k => if k < n then l else runLevel r (k - n)

/-- R328, R333: the level that a lane in Optical Sum mode sends at a time in picoseconds: that of the
burst that it launches then, and level 32 where it has none. -/
def laneLevel (s : State) (i t : Nat) : Nat :=
  match s.coll.launched.find? (fun x =>
      decide (x.plane = i / 8 ∧ x.channel = (laneAt s i).channel ∧ x.start ≤ t ∧ t < x.start + burstNs * 1000)) with
  | some x => runLevel x.runs ((t - x.start) * 14 / 1000)
  | none => 32

/-- One burst of a contributor: every lit lane of the group to the owner launches. -/
def launchBurst (ctx g start owner : Nat) (s : State) : State :=
  match instAt s ctx with
  | none => s
  | some i =>
    let mine := fun (x : SpanTx) => decide (x.group = g ∧ x.start = start ∧ x.owner = owner ∧ x.code = 0)
    let r := burstLevels i owner (i.spanTx.filter mine) s
    let m := ((i.peers.find? (fun p => p.rank = owner)).map (·.module)).getD 65536
    let lanes := (List.range 32).map (· + 32 * g) |>.filter (fun l =>
      decide ((laneAt r.1 l).dest = m ∧ (laneAt r.1 l).code = .inSet) && laneLit r.1 l)
    let out := lanes.map (fun l =>
      let k := (laneAt r.1 l).channel
      ({ plane := l / 8, channel := k, start := start * 1000 - launchAdvance r.1 (l / 8) k
         runs := symbolRuns k (descOf r.1 i).integ r.2 } : Launch))
    updInst ctx (fun i => { i with spanTx := i.spanTx.map (fun x => if mine x then { x with code := 1 } else x) })
      (updColl (fun c => { c with launched := c.launched ++ out }) r.1)

/-- OSUM_BURST_START (R328, R333): the bursts of a plane group that are due begin: this
module's own, and what it contributes to others'. -/
def execOsumBurstStart (g : Nat) (s : State) : Result :=
  .next (
    let now := nowNs s
    let s := updColl (fun c =>
      { c with bursts := c.bursts.map (fun b => if b.group = g ∧ b.start ≤ now then { b with begun := true } else b)
               launched := c.launched.filter (fun x => decide (now * 1000 < x.start + burstNs * 1000)) }) s
    let due := fun (x : SpanTx) => decide (x.group = g ∧ x.code = 0 ∧ x.start ≤ now + 300)
    let jobs := (s.coll.insts.filter instRuns).flatMap (fun i =>
      ((i.spanTx.filter due).map (fun x => (i.ctx, x.start, x.owner))).dedup)
    forEach jobs (fun j st => launchBurst j.1 g j.2.1 j.2.2 st) s)

/-- The enabled receive channels of a plane: index, channel, source. -/
def fibreRxs (s : State) (p : Nat) : List (Nat × Nat × Nat) :=
  ((List.range 8).map (· + 8 * p)).filterMap (fun i =>
    let r := rxAt s i
    if r.code = .off ∨ r.slot.isNone then none else some (i, r.channel, r.source))

/-- A pilot slot that was not measured. -/
def noPilot : PilotSeen := ⟨false, 0, 0, 0⟩

/-- R334: why a fibre's burst is discarded: 1 MISSING, 2 EXTRA, 3 PILOT, 4 INTRUDER, with the
pilot slot. -/
def discardWhy (rs : List (Nat × Nat × Nat)) (m : FibreSeen) : Option (Nat × Nat) :=
  let pilot := fun (n : Nat) => m.pilots.getD n noPilot
  let used := rs.map (fun r => r.2.1 % 8)
  if m.guard_ < -15 then some (1, 0)
  else if 15 < m.guard_ then some (2, 0)
  else match used.find? (fun n => !(pilot n).found || decide (25 < (pilot n).amp.natAbs)) with
    | some n => some (3, n)
    | none => ((List.range 8).find? (fun n => !used.contains n && decide (10 ≤ (pilot n).energy))).map (fun n => (4, n))

/-- R334 check 4: the worst skew of a fibre, and whether the burst is degraded. -/
def fibreSkew (s : State) (rs : List (Nat × Nat × Nat)) (m : FibreSeen) : Nat × Bool :=
  let lim := min 4 (collPolicy s 15 12)
  let ps := rs.map (fun r => m.pilots.getD (r.2.1 % 8) noPilot)
  ((ps.map (fun p => p.skew.natAbs)).foldl max 0,
    ps.any (fun p => decide (lim < p.skew.natAbs ∨ 10 < p.amp.natAbs)))

/-- A signed byte. -/
def byteOf (v : Int) : Nat := (BitVec.ofInt 8 v).toNat

/-- R344: the measured pilots of a fibre in COLL_OSUM_SKEW. -/
def noteSkew (rs : List (Nat × Nat × Nat)) (m : FibreSeen) (s : State) : State :=
  forEach rs (fun r st =>
    let p := m.pilots.getD (r.2.1 % 8) noPilot
    if p.found then regPut st rCollOsumSkew 0 [r.1 / 8, r.1 % 8] (2 ^ 31 + byteOf p.amp * 256 + byteOf p.skew)
    else st) s

/-- R339: a discard that names a receive channel, so that those in a row before it that name
another count no more; the third in a row takes it out of service and drops its group. -/
def nameDiscard (i : Nat) (s : State) : State :=
  let n := Cells.get 0 s.coll.discards i + 1
  if n < 3 then updColl (fun c => { c with discards := [(i, n)] }) s
  else
    let k := (rxAt s i).channel
    let s := updColl (fun c =>
      { c with discards := []
               dropped := if c.dropped.contains (i / 32) then c.dropped else c.dropped ++ [i / 32] }) s
    let s := scanRing (chipOf i) (elemOf i) k (updRx i (fun r => { r with code := .fault }) s)
    emit 0x0C05 (i / 8) (leBytes 1 (i / 32) ++ leBytes 1 k) s

/-- R334: a fibre's burst is discarded: its light is replaced over the digital path. -/
def discardFibre (b : Burst) (p : Nat) (rs : List (Nat × Nat × Nat)) (why slot : Nat) (s : State) : State :=
  let s := collCount 6 s
  let s := emit 0x0C02 p (leBytes 1 p ++ leBytes 1 slot ++ leBytes 1 why) s
  let s := match (if 3 ≤ why then rs.find? (fun r => r.2.1 % 8 = slot) else none) with
    | some r => nameDiscard r.1 s
    | none => updColl (fun c => { c with discards := [] }) s
  match s.coll.insts.find? (fun i => i.desc = b.desc && instRuns i) with
  | some i =>
    if b.spans = [] then s
    else forEach rs (fun r st => sendCtl r.2.2 i 5 0 1 (leBytes 7 b.start ++ leBytes 1 p) st) s
  | none => s

/-- R336: a degraded burst. -/
def degradeFibre (b : Burst) (p skew : Nat) (s : State) : State :=
  let s := emit 0x0C03 p (leBytes 1 p ++ leBytes 1 skew) (collCount 5 s)
  if b.spans = [] then s
  else updColl (fun c => { c with insts := c.insts.map (fun i =>
    if i.desc = b.desc ∧ instRuns i then
      { i with deg := true, fail := if (s.job.colls[i.desc]?).any (·.degFail) then some (4, 0) else i.fail }
    else i) }) s

/-- R334 for one fibre: the answer says whether its sums are kept. -/
def checkFibre (b : Burst) (f : Nat) (m : FibreSeen) (s : State) : State × Bool :=
  let p := 4 * b.group + f
  let rs := fibreRxs s p
  if rs = [] then (s, false)
  else
    let s := noteSkew rs m s
    match discardWhy rs m with
    | some w => (discardFibre b p rs w.1 w.2 s, false)
    | none =>
      let s := updColl (fun c => { c with discards := rs.foldl (fun d r => Cells.set 0 d r.1 0) c.discards }) s
      let k := fibreSkew s rs m
      (if k.2 then degradeFibre b p k.1 s else s, true)

/-- R332: an element's light result from the sums of the fibres kept, in quarters. -/
def lightResult (e : Nat) (q : Int) : W32 := (fpRound ⟨q, (e : Int) - 133⟩).1

/-- R326, R334: the sums of one span of a burst enter its slot, for the ranks whose fibres were
kept. -/
def addSpan (i : Inst) (j span e : Nat) (kept : List (List Nat × FibreSeen)) (s : State) : State :=
  let d := descOf s i
  let n := spanPart d span
  let k := span * 128 / segSize
  let off := span * 128 % segSize
  let xs := (List.range n).map (fun t =>
    lightResult e ((kept.map (fun f => f.2.sums.getD (128 * j + t) 0)).sum))
  let ranks := (kept.flatMap (·.1)).filterMap (fun m => (i.peers.find? (fun p => p.module = m)))
  let put := fun (x : RedSlot) =>
    let y := addSlot 65536 off xs x
    { y with left := y.left.map (fun p => if ranks.any (fun q => q.rank = p.1) then (p.1, p.2 - n) else p) }
  closeSlot i.ctx k (updInst i.ctx (fun i =>
    ranks.foldl (fun i p => addGot p.rank k p.module n i) (mapSlot k put i)) s)

/-- R337: SKEW units to each contributor of a plane group. -/
def reportSkew (i : Inst) (g : Nat) (s : State) : State :=
  let rs := (List.range 4).flatMap (fun f => fibreRxs s (4 * g + f))
  forEach i.peers (fun p st =>
    let es := (rs.filter (fun r => r.2.2 = p.module)).filterMap (fun r =>
      let v := regGet st rCollOsumSkew 0 [r.1 / 8, r.1 % 8]
      if bitOf v 31 then some (leBytes 1 (r.1 / 8) ++ leBytes 1 r.2.1 ++ leBytes 1 (v % 256) ++ leBytes 1 (v / 256 % 256))
      else none)
    if es = [] then st else sendCtl p.module i 4 0 es.length es.flatten st) s

/-- R333: groups whose Optical Sum phase has come into force start with a training burst. -/
def trainGroups (n : Nat) (s : State) : State :=
  let gs := sumGroups s n
  dealSpans (updColl (fun c =>
    { c with training := c.training.filter (fun g => !gs.contains g) ++ gs }) s)

/-- What follows when a slot's phase has come into force: its Optical Sum groups train (R333). -/
def afterSwitch (n : Nat) (old s : State) : State :=
  let p := slotAt s n
  if p.code = .armed ∧ p.switching.isNone ∧ ((slotAt old n).switching.isSome ∨ (slotAt old n).code ≠ .armed ∨
      old.fab.switches ≠ s.fab.switches) then trainGroups n s else s

/-- R302, R328: slots whose switch waited for a burst go on with it. -/
def releaseSums (s : State) : State :=
  forEach (armedSlots s) (fun n st =>
    if (slotAt st n).switching.isSome then afterSwitch n st (releaseFree n st) else st) s

/-- OSUM_BURST_END (R326, R328, R334 to R337): the first burst of a plane group that has begun ends;
the operand is what the four fibres measured. Where none of this module's own ends, one to which it
contributed does, and a phase switch that waited goes on. -/
def execOsumBurstEnd (g : Nat) (fs : List FibreSeen) (s : State) : Result :=
  .next (
    match s.coll.bursts.find? (fun b => decide (b.group = g) && b.begun && decide (b.start + burstNs ≤ nowNs s)) with
    | none => dealSpans (releaseSums s)
    | some b =>
      let s := collCount 4 (updColl (fun c => { c with bursts := c.bursts.erase b }) s)
      let r := (List.range 4).foldl (fun (acc : State × List (List Nat × FibreSeen)) f =>
        let m := fs.getD f ⟨0, [], []⟩
        let src := (fibreRxs acc.1 (4 * g + f)).map (fun x => x.2.2)
        let c := checkFibre b f m acc.1
        (c.1, if c.2 then acc.2 ++ [(src, m)] else acc.2)) (s, [])
      let s := r.1
      match s.coll.insts.find? (fun i => i.desc = b.desc && instRuns i) with
      | none => dealSpans (releaseSums s)
      | some i =>
        let s := forEach b.spans.zipIdx (fun x st =>
          match instAt st i.ctx with
          | some i => addSpan i x.2 x.1.1 x.1.2 r.2 st
          | none => st) s
        let n := Cells.get 0 s.coll.sinceSkew g + 1
        let due := b.spans = [] ∨ 10 ≤ n
        let s := updColl (fun c => { c with sinceSkew := Cells.set 0 c.sinceSkew g (if due then 0 else n) }) s
        let s := if due then reportSkew i g s else s
        dealSpans (pumpColl (releaseSums s)))

/-! ### Twins (R340) -/

/-- The segment is rebuilt: its slot starts again from the own contribution, and what has been
taken of it from every rank is dropped. -/
def rebuildSegment (ctx rank k : Nat) (s : State) : State :=
  match instAt s ctx with
  | none => s
  | some i =>
    let d := descOf s i
    let reduced := decide (k * segSize < reduceLen d)
    let mine := fun (r : Nat) => reduced || decide (r = rank)
    let s := updInst ctx (fun i => { i with segIn := i.segIn.filter (fun x => !(decide (x.seg = k) && mine x.rank)) }) s
    let s := if reduced then
      let r := ownElems i k s
      let n := segPart (shardLen d) k
      updInst ctx (mapSlot k (fun _ => ⟨k, r.2, (otherRanks s i).map (fun x => (x, n))⟩)) r.1
    else s
    forEach (i.peers.filter (fun p => mine p.rank)) (fun p st =>
      sendCtl p.module i 5 (streamOffset d p.rank (ownRank st i) (k * segSize)) 0 [] st) s

/-- COLL_SEG_RESTART (R340): the twin that supplied a segment has been declared failed before
its last unit. -/
def execCollSegRestart (c rank seg : Nat) (s : State) : Result :=
  .next (
    match instAt s c with
    | none => s
    | some i =>
      match segSupplier i rank seg with
      | some m =>
        if instRuns i ∧ (twinOf s m).isSome ∧
            segGot i rank seg < segPart (streamLen s (descOf s i) rank (ownRank s i)) seg ∧
            !(descOf s i).ring then
          let t := (twinOf s m).getD m
          let s := rebuildSegment c rank seg (collCount 8 s)
          emit 0x0C04 (min m t) (leBytes 2 (min m t) ++ leBytes 2 (max m t) ++ leBytes 4 seg) s
        else s
      | none => s)

/-- R341: a phase trigger fires with bursts scheduled but not begun: their spans go in DATA
units. An EXP_AGREED of theirs that has not been sent says so by start 0 (assumption 56). -/
def cancelBursts (n : Nat) (s : State) : State :=
  let mine := fun (d : Nat) => decide ((s.job.colls[d]?).map (·.slot) = some n)
  let gone := fun (u : CtlUnit) => decide (u.sub = 3) && mine u.desc && s.coll.bursts.any (fun b =>
    decide (b.desc = u.desc ∧ agreedBurst u.data = (b.group, b.start)) && !b.begun)
  updColl (fun c =>
    { c with
      ctl := (c.ctl.filter (fun u => !gone u || decide (u.total ≠ 0))).map (fun u =>
        if gone u then { u with data := agreedData (agreedBurst u.data).1 0 ((u.data.drop 32).map (·.toNat)) } else u)
      bursts := c.bursts.filter (fun b => b.begun || !mine b.desc)
      insts := c.insts.map (fun i =>
        if mine i.desc then
          let d := descOf s i
          let off := i.spanTx.filter (fun x => x.code = 0)
          let more := off.filterMap (fun x =>
            match x.span, i.peers.find? (fun p => p.rank = x.owner) with
            | some k, some p => some (p.module, k * 128, spanPart d k)
            | _, _ => none)
          { i with again := i.again ++ more
                   spanTx := (i.spanTx.filter (fun x => x.code ≠ 0 || x.span.isSome)).map (fun x =>
                     if x.code = 0 then { x with code := 2 } else x) }
        else i) }) s

end Sys2Proof.Machine
end

