-- ==== Sys2Proof/Machine/FabTx.lean ====
section
/-!
DEFINITION. The frame that a lane sends (R248, R253 to R255, R259 to R263, R274, R275).
-/

namespace Sys2Proof.Machine

/-! ### Discovery frames -/

/-- R274: a discovery runs on a plane. -/
def discovering (s : State) (p : Nat) : Bool := s.fab.disc.code = 2 && bitOf s.fab.disc.mask p

/-- The identifiers heard in rounds 0 to 3, by plane and channel. -/
def heardEarly (s : State) : List HeardRec := s.fab.disc.heard.filter (fun h => decide (16 ≤ h.early))

/-- R276: the identifiers heard in two slots whose expected sources differ. -/
def dupIds (s : State) : List Nat :=
  let hs := heardEarly s
  let exp := fun (h : HeardRec) => hears s (cfgPods s h.plane) h.plane h.channel
  ((hs.filter (fun h => hs.any (fun g => decide (g.src = h.src ∧ exp g ≠ exp h)))).map (·.src)).dedup

/-- R275: the payload of a DISCOVERY frame on a plane. -/
def discPayload (s : State) (p : Nat) : List Byte :=
  let r := s.fab.disc.round
  let mask := ((heardEarly s).filter (fun h => h.plane = p)).foldl (fun m h => m ||| 2 ^ h.channel) 0
  let dups := if r < 4 then [] else (dupIds s).take 16
  leBytes 2 (ownId s) ++ leBytes 2 0 ++ leBytes 4 deviceTag ++ leBytes 4 (if r < 4 then 0 else mask) ++
    leBytes 1 r ++ leBytes 1 (b2n s.fab.quar) ++ leBytes 2 dups.length ++ dups.flatMap (leBytes 2)

/-! ### The header -/

/-- R257, R266: the receive channels in FAULT whose expected source is a module, which a lane to it
reports, in a plan or outside. -/
def faultsOf (s : State) (d : Nat) : List Nat :=
  (List.range 256).filter (fun i =>
    let r := rxAt s i
    decide (r.code = .fault ∧ r.away = none ∧ expected s i = d ∧
      (r.reason ∈ [1, 2, 3, 4, 6, 7, 13])))

/-- The FAULT field of a frame to a module from lane `i`: each frame of the lane takes the next of
the faults (assumption 49). -/
def faultField (s : State) (i d : Nat) : Nat :=
  let fs := faultsOf s d
  match fs[(i + (laneAt s i).faultTurn) % max 1 fs.length]? with
  | some j => 2 ^ 15 + (rxAt s j).reason * 2 ^ 10 + (rxAt s j).channel * 2 ^ 5 + j / 8
  | none => 0

/-- R254: the lane's laser is held at dim idle. -/
def laneHeld (s : State) (i : Nat) : Bool :=
  match laneLaser s i with
  | some n => decide ((laserAt s (chipOf i) n).code = .dim)
  | none => false

/-- The header of lane `i`, before its type's own fields. -/
def laneHdr (s : State) (i : Nat) : FrameHdr :=
  let l := laneAt s i
  let p := i / 8
  let d := laneDest s i
  { type := 0, hold := laneHeld s i, dest := d, src := ownId s, plane := p, slot := i % 8
    channel := l.channel, tag := l.tag, fault := faultField s i d
    claim := s.red.claim }

/-- R301: the tag of a lane's IDLE frames once its set has closed: that of the phase being
entered, 0 when leaving the plan. -/
def endTag (s : State) (n : Nat) : Nat :=
  match nextPhase (slotAt s n) with
  | some q => phaseTag n q.1
  | none => 0

/-! ### DATA -/

/-- Units that fit in a payload, from the head of a queue. -/
def fitUnits : Nat → List OutUnit → List OutUnit
  | _, [] => []
  | room, u :: us =>
    let k := 32 + u.u.data.length
    if k ≤ room then u :: fitUnits (room - k) us else []

/-- R261, R262: the lane that takes the next new frame of a set: the next in ascending order
among those in service with room in their replay buffers. -/
def turnLane (s : State) (n d : Nat) (new : Bool) (x : LaneSet) : Option Nat :=
  let ls := (liveLanes s n d new).filter (fun i => (laneAt s i).buf.length < 64)
  match ls.find? (fun i => x.turn < i ∧ x.turn < 256) with
  | some i => some i
  | none => ls.head?

/-- R261: the window of a set has room. -/
def windowOpen (s : State) (n d : Nat) (new : Bool) (x : LaneSet) : Bool :=
  decide (x.frames.length < min (64 * (liveLanes s n d new).length) 16384)

/-- The units of the set's next DATA frame: those placed, else one that an engine has ready. -/
def nextUnits (n d : Nat) (new : Bool) (s : State) : List OutUnit × State :=
  match setAt s n d new with
  | none => ([], s)
  | some x =>
    match fitUnits 1024 x.queue with
    | [] =>
      if new ∨ (slotAt s n).switching.isSome ∨ s.red.state = .fenced then ([], s)
      else match nextCollUnit n d s with
        | some (u, s) => ([u], s)
        | none =>
          if d = s.red.partner ∧ reachSlot s d = some n then
            match mirrorUnit s with
            | some (u, s) => ([u], s)
            | none => ([], s)
          else ([], s)
    | us => (us, updSet n d new (fun x => { x with queue := x.queue.drop us.length }) s)

/-- A frame leaves the lane. -/
def putFrame (i : Nat) (h : FrameHdr) (payload : List Byte) (s : State) : State :=
  updLane i (fun l => { l with frame := frameLine h payload, faultTurn := (l.faultTurn + 1) % 256 }) s

/-- The acknowledgement that a frame of a set carries; a NAK goes once (R262, R263). -/
def ackHdr (x : LaneSet) (h : FrameHdr) : FrameHdr :=
  { h with ack := x.rxNext, nakValid := x.nak.isSome, nak := x.nak.getD 0, lsn := x.nextLsn }

/-- A DATA frame leaves a lane. -/
def sendData (i n d : Nat) (new : Bool) (h : FrameHdr) (lsn : Nat) (us : List OutUnit) (again : Bool) (s : State) : State :=
  let bytes := us.flatMap (fun u => unitBytes u.u)
  let s := updSet n d new (fun x => { x with nak := none }) s
  let s := fabCount (i / 8 % 8) 0 (if again then fabCount (i / 8 % 8) 10 s else s)
  putFrame i { h with type := 1, lsn := lsn, resent := again, len := bytes.length } bytes s

/-- R266, R279: the module to which a set leads sends HOLD. -/
def peerHolds (s : State) (n d : Nat) (new : Bool) : Bool :=
  (setRxs s n d new).any (fun i => (rxAt s i).held && decide ((rxAt s i).code = .inSet))

/-- A lane in its set sends a frame to be resent, whatever its replay buffer holds (R263, R267), its
turn's new frame, or IDLE. A frame taken from a faulty lane counts in that lane's chiplet (R258). -/
def setFrame (i n d : Nat) (new : Bool) (x : LaneSet) (s : State) : State :=
  let h := ackHdr x (laneHdr s i)
  let idle := fun (tag : Nat) (st : State) =>
    putFrame i { h with tag := tag } [] (updSet n d new (fun x => { x with nak := none }) st)
  let ready := decide ((laneAt s i).code = .inSet) && x.opened && !s.fab.quar && !h.hold && !peerHolds s n d new
  if x.closed then idle (if new then h.tag else endTag s n) s
  else if !ready then idle h.tag s
  else
    match x.resend with
    | lsn :: rest =>
      match x.frames.find? (fun f => f.lsn = lsn) with
      | some f =>
        let s := { s with fab := { s.fab with lanes := s.fab.lanes.map (fun l =>
          if laneKey l = some (n, d, new) then { l with buf := l.buf.filter (· ≠ lsn) } else l) } }
        let s := updLane i (fun l => { l with buf := l.buf ++ [lsn] }) s
        let s := updSet n d new (fun x =>
          { x with resend := rest, frames := x.frames.map (fun f => if f.lsn = lsn then { f with lane := i, lost := none } else f) }) s
        let s := match f.lost with
          | some c => fabCount c 11 s
          | none => s
        sendData i n d new h lsn f.units true s
      | none => idle h.tag (updSet n d new (fun x => { x with resend := rest }) s)
    | [] =>
      if turnLane s n d new x = some i ∧ windowOpen s n d new x then
        match nextUnits n d new s with
        | ([], _) => idle h.tag s
        | (us, s) =>
          let s := updLane i (fun l => { l with buf := l.buf ++ [x.nextLsn] }) s
          let s := updSet n d new (fun y =>
            { y with frames := y.frames ++ [{ lsn := x.nextLsn, lane := i, units := us }], nextLsn := (x.nextLsn + 1) % 65536, turn := i }) s
          sendData i n d new h x.nextLsn us false s
      else idle h.tag s

/-- LANE_FRAME_TX (R248): a lit lane, not in Optical Sum mode, sends its next frame. -/
def execLaneFrameTx (i : Nat) (s : State) : Result :=
  .next (
    let l := laneAt s i
    if 256 ≤ i ∨ !laneLit s i ∨ bitOf (osumMask s) (i / 8) then s
    else if discovering s (i / 8) then
      putFrame i { laneHdr s i with
        type := 2, tag := 0, lsn := 0
        dest := sendsTo s (cfgPods s (i / 8)) (i / 8) l.channel } (discPayload s (i / 8)) s
    else match l.slot with
      | some n =>
        match setAt s n l.dest l.rel with
        | some x => setFrame i n l.dest l.rel x s
        | none => putFrame i (laneHdr s i) [] s
      | none => putFrame i (laneHdr s i) [] s)

end Sys2Proof.Machine
end

