-- ==== Sys2Proof/Machine/FabRx.lean ====
section
/-!
DEFINITION. The frame that a receive channel takes (R250, R256 to R258, R261 to R267, R274,
R301, R352, R353).
-/

namespace Sys2Proof.Machine

/-! ### Wrong colours -/

/-- R257, R352, R353: the ring is on the wrong channel: it scans again, or fails at its third
within 1 s. On a plane whose faults are not raised (R270, R308) the frame is only counted. -/
def wrongRing (i : Nat) (h : FrameHdr) (s : State) : State :=
  let c := chipOf i
  let e := elemOf i
  let k := (rxAt s i).channel
  if (rxAt s i).code = .fault ∨ darkOpen s (i / 8) ∨ rxWaits s i then s
  else
    let s := updRx i (fun r => { r with lock := false }) (faultRx i 6 h.src h.dest s)
    let s := emit 0x0D04 (laneSource i k) (leBytes 1 (i / 8) ++ leBytes 1 (i % 8) ++ leBytes 1 k) s
    let now := runNs s
    let s := bump s rFabLightCount c [6]
    let ts := ((ringAt s c e).wrong.filter (fun t => decide (now < t + 1000000000))) ++ [now]
    let s := scanRing c e k (updRing c e (fun r => { r with wrong := ts }) s)
    if 3 ≤ ts.length then
      emit 0x0E08 (288 + 32 * c + e) [] (updRing c e (fun r => { r with code := .failed }) s)
    else s

/-- R257: the source is not the expected one. On a plane whose faults are not raised (R270, R308) the
frame is only counted. -/
def wrongSource (i : Nat) (h : FrameHdr) (s : State) : State :=
  if darkOpen s (i / 8) ∨ rxWaits s i then s
  else if (rxAt s i).code = .fault then updRx i (fun r => { r with stuck := true }) s
  else
    let s := updRx i (fun r => { r with stuck := true }) (faultRx i 7 h.src h.dest s)
    emit 0x0D05 (laneSource i (rxAt s i).channel)
      (leBytes 2 h.src ++ leBytes 2 (expected s i) ++ leBytes 1 (i / 8)) s

/-! ### Discovery -/

/-- R274, R275: a DISCOVERY frame is recorded. -/
def noteDisc (i : Nat) (h : FrameHdr) (payload : List Byte) (s : State) : State :=
  let d := s.fab.disc
  let p := i / 8
  if nowNs s < d.start + d.round * 50000 + 10000 then s
  else
    let early := decide (d.round < 4)
    let dups := if early then [] else
      (List.range (min 16 (leAt payload 14 2))).map (fun j => leAt payload (16 + 2 * j) 2)
    let up := fun (x : HeardRec) =>
      { x with
        dest := h.dest, tag := leAt payload 4 4
        early := if early then x.early + 1 else x.early
        late := if early then x.late else x.late + 1
        mask := if early then x.mask else leAt payload 8 4, dups := if early then x.dups else dups }
    let mine := fun (x : HeardRec) => decide (x.plane = p ∧ x.channel = h.channel ∧ x.src = h.src)
    let heard := if d.heard.any mine then d.heard.map (fun x => if mine x then up x else x)
      else d.heard ++ [up { plane := p, channel := h.channel, src := h.src, dest := h.dest, tag := 0 }]
    { s with fab := { s.fab with disc := { d with heard := heard } } }

/-! ### Acknowledgements and faults -/

/-- R263: a NAK: that frame alone is resent, unless it lies below ACK_LSN. -/
def nakSet (n d : Nat) (new : Bool) (lsn : Nat) (s : State) : State :=
  updSet n d new (fun x => mergeResend x [lsn]) s

/-- R266, R267: a FAULT report names a lane of this module. -/
def faultReport (src field : Nat) (s : State) : State :=
  if !bitOf field 15 then s
  else
    let p := field % 32
    let k := field / 32 % 32
    match (List.range 8).find? (fun j =>
      decide ((laneAt s (8 * p + j)).channel = k ∧ laneDest s (8 * p + j) = src)) with
    | some j => faultLane (8 * p + j) 11 s
    | none => s

/-- R301: the tag of the phase that the sender enters, as this module's plan gives it. -/
def enteredTag (s : State) (n : Nat) : Nat :=
  let p := slotAt s n
  match p.plan with
  | some pl =>
    if p.phase + 1 < pl.phases.length then phaseTag n (p.phase + 1)
    else if pl.loop then phaseTag n 0 else 0
  | none => 0

/-- R301: whether a frame is an end mark for a receive channel. Where the next phase has the
tag of the present one, an IDLE frame whose set has nothing more to send is. Tag 0 is also that of a
module that has not armed the plan yet: in a plan's first phase it is a mark only once the set has
opened (assumption 49). -/
def isEndMark (s : State) (n : Nat) (r : RxCh) (h : FrameHdr) : Bool :=
  if h.tag = r.tag then
    decide (enteredTag s n = r.tag ∧ h.type = 0 ∧ (slotAt s n).switching ≠ none) &&
      ((setAt s n r.source false).map (fun x => decide (h.lsn = x.rxNext ∧ x.frames = [] ∧ x.closed))).getD false
  else
    let p := slotAt s n
    let known := ((setAt s n r.source false).map (·.opened)).getD false || decide (p.phase ≠ 0 ∨ p.loops ≠ 0)
    decide (h.type ≠ 2) && (decide (h.tag = enteredTag s n) || (decide (h.tag = 0) && known))

/-- R256: what a frame that passes checks 1 to 7 does besides its units. -/
def actOn (i n : Nat) (h : FrameHdr) (s : State) : State :=
  let r := rxAt s i
  let d := r.source
  let mark := !r.rel && isEndMark s n r h
  let s := if h.tag = r.tag ∨ mark then
      let s := ackSet n d r.rel h.ack s
      if h.nakValid then nakSet n d r.rel h.nak s else s
    else s
  let s := faultReport d h.fault s
  let s := updRx i (fun r => { r with held := h.hold, ended := r.ended || mark }) s
  if h.claim = 0 then s else applyHeaderClaim h.src h.claim s

/-! ### Delivery -/

/-- R262: the frames held that follow in LSN order are delivered, and counted where they arrived;
the fuel is their number. -/
def deliver (n d : Nat) (new : Bool) : Nat → State → State
  | 0, s => s
  | fuel + 1, s =>
    match setAt s n d new with
    | none => s
    | some x =>
      match x.rxHeld.find? (fun f => f.1 = x.rxNext) with
      | none => s
      | some f =>
        let h := readHdr f.2
        let us := payloadUnits h (f.2.drop 32)
        let s := updSet n d new (fun x =>
          { x with rxNext := (x.rxNext + 1) % 65536, rxHeld := x.rxHeld.filter (fun g => g.1 ≠ f.1) }) s
        let s := fabCount (h.plane % 8) 1 (if us.2 then fabCount (h.plane % 8) 13 s else s)
        let s := { s with fab := { s.fab with
          inbox := s.fab.inbox ++ us.1.map (fun u => ⟨h.src, h.dest, h.claim, u⟩) } }
        deliver n d new fuel s

/-- R256 check 9 and R265: a DATA frame of the phase in force. -/
def takeData (i n : Nat) (h : FrameHdr) (body : List Byte) (s : State) : State :=
  let r := rxAt s i
  let d := r.source
  match setAt s n d r.rel with
  | none => s
  | some x =>
    let k := lsnDist x.rxNext h.lsn
    if x.rxHeld.any (fun f => f.1 = h.lsn) ∨ 64 * (setRxs s n d r.rel).length ≤ k then
      fabCount (i / 8 % 8) 9 s
    else
      deliver n d r.rel (x.rxHeld.length + 1)
        (updSet n d r.rel (fun x => { x with rxHeld := x.rxHeld ++ [(h.lsn, body)] }) s)

/-- A frame that passes checks 1 to 6, on a receive channel of a plan (R256 checks 7 to 9,
R302 step 6). -/
def inService (i n : Nat) (h : FrameHdr) (body : List Byte) (s : State) : State :=
  let s := actOn i n h s
  let r := rxAt s i
  if h.tag ≠ r.tag then fabCount (i / 8 % 8) 8 s
  else
    let s := if h.type = 2 then s else updSet n r.source r.rel (fun x => { x with opened := true }) s
    if h.type = 1 then takeData i n h body s else s

/-- R256: a frame whose codewords decode and whose CRC and format hold. -/
def checkFrame (i : Nat) (h : FrameHdr) (body : List Byte) (s : State) : State :=
  let c := i / 8 % 8
  let r := rxAt s i
  if discovering s (i / 8) ∧ h.type = 2 then
    if h.channel ≠ r.channel then wrongRing i h (fabCount c 6 (fabErr 6 (i / 8) r.channel h.src h.dest s))
    else if h.plane ≠ i / 8 then wrongSource i h (fabCount c 7 (fabErr 7 (i / 8) r.channel h.src h.dest s))
    else noteDisc i h (body.drop 32) s
  else if h.type ≠ 2 ∧ h.dest ≠ ownId s then
    emit 0x0D03 (laneSource i r.channel) (leBytes 2 h.src ++ leBytes 2 h.dest)
      (fabCount c 5 (fabErr 5 (i / 8) r.channel h.src h.dest s))
  else if h.channel ≠ r.channel then
    wrongRing i h (fabCount c 6 (fabErr 6 (i / 8) r.channel h.src h.dest s))
  else if h.plane ≠ i / 8 ∨ h.src ≠ expected s i then
    wrongSource i h (fabCount c 7 (fabErr 7 (i / 8) r.channel h.src h.dest s))
  else if r.code ≠ .inSet then s
  else match r.slot with
    | some n => inService i n h body s
    | none => s

/-- R266: an uncorrectable frame's time, among those of the last millisecond; FEC_UNCORR_LIMIT is at
most 15. -/
def noteUncorr (i : Nat) (s : State) : State :=
  updRx i (fun r => { r with
    uncorr := (nowNs s :: r.uncorr.filter (fun t => decide (nowNs s < t + 1000000))).take 15 }) s

/-- LANE_FRAME_RX (R256): the 1,152 bytes of a frame arrive on a receive channel with marker
lock, not in Optical Sum mode. -/
def execLaneFrameRx (i : Nat) (line : List Byte) (s : State) : Result :=
  .next (
    let r := rxAt s i
    let c := i / 8 % 8
    if 256 ≤ i ∨ !r.lock ∨ r.code = .off ∨ bitOf (osumMask s) (i / 8) then s
    else match takeLine (line.drop 16) with
      | none => noteUncorr i (fabCount c 3 s)
      | some (body, fixed) =>
        let s := bumpBy s rFabCount c [2] fixed
        let h := readHdr body
        if !crcOk body then fabCount c 4 s
        else if h.version ≠ 1 ∨ 2 < h.type ∨ !h.clean then fabCount c 13 s
        else checkFrame i h body s)

end Sys2Proof.Machine
end

