-- ==== Sys2Proof/Machine/FabRows.lean ====
section
/-!
DEFINITION. Faults, readmission and death of lanes and lane sets, and neighbour discovery
(R250, R263, R266 to R278).
-/

namespace Sys2Proof.Machine

/-! ### Locks and faults -/

/-- R302 step 5: a lane or receive channel is ready after its release: the longest gap seen. -/
def noteGap (relAt : Nat) (s : State) : State :=
  { s with fab := { s.fab with maxGap := min 65535 (max s.fab.maxGap (nowNs s - relAt)) } }

/-- MARKER_LOCK_GAINED (R250, R302 step 5): the ring has locked; a listening receive channel of
a phase enters it. -/
def execMarkerLockGained (i : Nat) (s : State) : Result :=
  .next (
    let r := rxAt s i
    if 256 ≤ i ∨ r.code = .off ∨ r.lock then s
    else
      let s := lockRing (chipOf i) (elemOf i) s
      let s := updRx i (fun r => { r with lock := true }) s
      if r.code = .listen ∧ r.slot ≠ none ∧ ¬ rxWaits s i ∧ ¬ discovering s (i / 8) then
        noteGap r.relAt (updRx i (fun r => { r with code := .inSet }) s)
      else s)

/-- MARKER_LOCK_LOST (R250, R266 code 2). -/
def execMarkerLockLost (i : Nat) (s : State) : Result :=
  .next (
    let r := rxAt s i
    if 256 ≤ i ∨ !r.lock then s
    else
      let s1 := updRx i (fun r => { r with lock := false }) s
      if faultable s i then faultRx i 2 0 0 s1 else s1)

/-- LOS (R266 code 1, R271). -/
def execLos (i : Nat) (s : State) : Result :=
  .next (
    let p := i / 8
    if 256 ≤ i ∨ (rxAt s i).code = .off then s
    else
      let s1 := updRx i (fun r => { r with lock := false }) s
      if faultable s i then
        let s1 := faultRx i 1 0 0 s1
        if isSpine s p then
          let pods := match (rxAt s i).slot.bind (fun n => phaseOf (slotAt s n)) with
            | some f => phasePods s f p
            | none => cfgPods s p
          emit 0x0D0C (laneSource i (rxAt s i).channel) (leBytes 1 p ++ leBytes 2 pods.2 ++ leBytes 2 pods.1) s1
        else s1
      else s1)

/-- FEC_UNCORR_LIMIT (R266 code 3, R283): the uncorrectable frames of a channel within 1 ms have
reached FAB_POLICY.FEC_UNCORR_LIMIT. -/
def execFecUncorrLimit (i : Nat) (s : State) : Result :=
  .next (
    let n := ((rxAt s i).uncorr.filter (fun t => decide (nowNs s < t + 1000000))).length
    if faultable s i ∧ fabPolicy s 7 4 ≤ n then faultRx i 3 0 0 s else s)

/-- FEC_DEGRADED (R266 code 4): not in Optical Sum mode, nor on a plane that waits for a dark
window. HOLD does not keep it out. -/
def execFecDegraded (i : Nat) (s : State) : Result :=
  .next (
    if faultable (updRx i (fun r => { r with held := false }) s) i then faultRx i 4 0 0 s else s)

/-- A change of a slot's set to a module, of the phase in force or of the one being entered. -/
def updSets (n d : Nat) (f : LaneSet → LaneSet) (s : State) : State :=
  updSet n d true f (updSet n d false f s)

/-- NAK_TIMER (R263): an LSN has been missing for 1 µs while a higher one is held. -/
def execNakTimer (n d : Nat) (s : State) : Result :=
  .next (updSets n d (fun x => if x.rxHeld = [] then x else { x with nak := some x.rxNext }) s)

/-- REPLAY_TIMEOUT (R263): the oldest unacknowledged frame is resent. -/
def execReplayTimeout (n d : Nat) (s : State) : Result :=
  .next (updSets n d (fun x =>
    match x.frames with
    | f :: _ => mergeResend x [f.lsn]
    | [] => x) s)

/-- LANE_FAULT (R267): a lane becomes faulty for a reason that its sender finds. -/
def execLaneFault (i reason : Nat) (s : State) : Result :=
  .next (if i < 256 ∧ 8 ≤ reason ∧ reason ≤ 13 then faultLane i reason s else s)

/-- R333: a plane group trains again after one of its elements has returned. -/
def trainAgain (p : Nat) (s : State) : State :=
  if bitOf (osumMask s) p then
    updColl (fun c => { c with training := c.training.filter (· ≠ p / 4) ++ [p / 4] }) s
  else s

/-- FAB_LANE_READMIT carries the plane, the slot and the channel. -/
def recordReadmit (i channel : Nat) (s : State) : State :=
  emit 0x0D02 (laneSource i channel) (leBytes 1 (i / 8) ++ leBytes 1 (i % 8) ++ leBytes 1 channel) s

/-- R268: a lane returns: its laser is lit at launch power on its channel. -/
def readmitLane (i : Nat) (s : State) : State :=
  let l := laneAt s i
  let p := i / 8
  match laneLaser s i with
  | none => s
  | some n =>
    let x := laserAt s (chipOf i) n
    if (l.code = .fault ∨ l.code = .darkWindow) ∧ x.code = .lit ∧ x.isOpen ∧ x.channel = l.channel ∧ ¬ darkOpen s p then
      let wait := laneWaits s i
      let s := updLane i (fun l => { l with code := if l.slot.isSome && !wait then .inSet else .idle, retune := false }) s
      trainAgain p (recordReadmit i l.channel s)
    else s

/-- R268: a receive channel returns: it has marker lock, and is not held out for WRONG_SOURCE.
A group that waits for it takes spans again (R339). -/
def readmitRx (i : Nat) (s : State) : State :=
  let r := rxAt s i
  let p := i / 8
  let sum := bitOf (osumMask s) p
  if (r.code = .fault ∨ r.code = .darkWindow) ∧ (r.lock ∨ sum) ∧ ¬ r.stuck ∧ ¬ darkOpen s p ∧
      (ringAt s (chipOf i) (elemOf i)).code ≠ .failed then
    let wait := rxWaits s i
    let s := updRx i (fun r => { r with code := if r.slot.isSome && !wait then .inSet else .listen }) s
    let s := trainAgain p (recordReadmit i r.channel s)
    let g := i / 32
    if s.coll.dropped.contains g ∧ (List.range 32).all (fun j => (rxAt s (32 * g + j)).code ≠ .fault) then
      dealSpans (updColl (fun c => { c with dropped := c.dropped.filter (· ≠ g) }) s)
    else s
  else s

/-- LANE_READMIT (R268, R306 step 5): a locked lane or receive channel has carried clean IDLE
frames for READMIT_US. -/
def execLaneReadmit (rx : Bool) (i : Nat) (s : State) : Result :=
  .next (if 256 ≤ i then s else if rx then readmitRx i s else readmitLane i s)

/-- R270: a set has no lane in service, and waits for a dark window that is open: that time does not
count. -/
def waitsDark (s : State) (n d : Nat) (new : Bool) : Bool :=
  decide (liveLanes s n d new = []) &&
    (setLanes s n d new).any (fun i => decide ((laneAt s i).code = .darkWindow) && darkOpen s (i / 8))

/-- LANESET_DEAD (R269, R304): no lane in service, no acknowledgement, or no opening, for
LANESET_DEAD_MS. -/
def execLanesetDead (n d : Nat) (s : State) : Result :=
  .next (
    let dead := fun (new : Bool) =>
      match setAt s n d new with
      | some x => !x.dead && !waitsDark s n d new
      | none => false
    let new := !dead false
    if !dead new then s
    else
      let s := emit 0x0D06 d (leBytes 2 d) s
      let s := dropEntriesTo d (losePeer (some n) d s)
      let s := updSet n d new (fun x =>
        { x with dead := true, closed := true, queue := [], frames := [], resend := [], ackLsn := x.nextLsn }) s
      { s with fab := { s.fab with lanes := s.fab.lanes.map (fun l =>
          if laneKey l = some (n, d, new) then { l with buf := [] } else l) } })

/-! ### Discovery (R272 to R278) -/

/-- FABRIC_DISCOVER (R272, R273): its reply comes when the discovery ends. -/
def fabricDiscover : CmdFn := fun h c s =>
  let p := c.payload
  let mask := leAt p 12 4
  let start := leAt p 0 8 * 1000000000 + leAt p 8 4
  let entry := fun (k : Nat) => leAt p (152 + 4 * k) 4
  let planes := (List.range 32).filter (bitOf mask)
  if armedMask s &&& mask ≠ 0 ∨ s.fab.disc.code = 1 ∨ s.fab.disc.code = 2 then status 1 s
  else if start < nowNs s + 1000000 ∨ nowNs s + 10000000000 < start ∨ leAt p 6 2 ≠ 0 ∨ 1000000000 ≤ leAt p 8 4 ∨
      leAt p 20 4 ≠ 0 ∨ (List.range 32).any (fun k => decide (bits (entry k) 30 27 ≠ 0 ∨ bits (entry k) 15 11 ≠ 0)) ∨
      planes.any (fun k => bitOf (entry k) 31 && decide (entry k % 2048 ≠ bits (entry k) 26 16)) then status 5 s
  else
    let s := forEach planes (fun k st => regPut st rFabPlaneCfg (k % 8) [k / 8] (entry k)) s
    let d : Disc :=
      { code := 1, round := 0, start := start, mask := mask, pods := leAt p 16 4
        tags := (List.range 32).map (fun i => leAt p (24 + 4 * i) 4)
        remote := (List.range 32).map (fun i => leAt p (280 + 4 * i) 4), heard := [], cmd := refOf h }
    ({ s with fab := { s.fab with disc := d } }, .wait)

/-- R274: the slots of a plane tune to a round's channels. A lane or channel out of service returns
under R268; one out for WRONG_SOURCE may, from a later discovery on (R257). -/
def tuneRound (r i : Nat) (s : State) : State :=
  let k := 8 * (r % 4) + i % 8
  let c := chipOf i
  let s := match laneLaser s i with
    | some n =>
      let x := laserAt s c n
      if (x.channel = k ∧ isLit x) ∨ x.code = .off ∨ x.code = .worn ∨ x.code = .failed then s
      else acquireLaser c n k s
    | none => s
  let lit := laneLit s i
  let s := updLane i (fun l =>
    { l with channel := k, retune := !lit, relAt := nowNs s
             code := (l.away.getD (if l.code = .fault ∨ l.code = .darkWindow then l.code else if lit then .idle else .dark))
             away := none }) s
  let rnd := r
  let r := rxAt s i
  let same := decide (r.channel = k ∧ r.code ≠ .off)
  let s := if same then s else scanRing c (elemOf i) k s
  updRx i (fun r =>
    { r with channel := k, lock := same && r.lock, stuck := r.stuck && decide (rnd ≠ 0), away := none
             code := r.away.getD (if r.code = .darkWindow ∨ r.code = .fault then r.code else .listen) }) s

/-- DISCOVERY_ROUND (R274): the first round begins at START, and each of the others 50 µs after
the one before. -/
def execDiscoveryRound (s : State) : Result :=
  .next (
    let d := s.fab.disc
    let go := fun (r : Nat) =>
      forEach (planeElems d.mask) (tuneRound r) { s with fab := { s.fab with disc := { d with code := 2, round := r } } }
    if d.code = 1 ∧ d.start ≤ nowNs s then go 0
    else if d.code = 2 ∧ d.round < 7 ∧ d.start + (d.round + 1) * 50000 ≤ nowNs s then go (d.round + 1)
    else s)

/-- What the discovery heard on a slot in rounds 0 to 3. -/
def heardOn (s : State) (p k : Nat) : Option HeardRec :=
  (heardEarly s).find? (fun h => decide (h.plane = p ∧ h.channel = k))

/-- R276: the expected source of a slot is planned in the map. -/
def plannedAt (s : State) (p k : Nat) : Bool :=
  let e := hears s (cfgPods s p) p k
  bitOf (if isSpine s p then s.fab.disc.remote.getD p 0 else s.fab.disc.pods) (e % 32)

/-- R276: every identifier in a DUP_ID list that was received. -/
def dupsHeard (s : State) : List Nat := s.fab.disc.heard.flatMap (·.dups)

/-- R276: the expected source has said, in rounds 4 to 7, that it has heard this module. -/
def confirmedAt (s : State) (p k e : Nat) : Bool :=
  s.fab.disc.heard.any (fun h => decide (h.plane = p ∧ h.channel = k ∧ h.src = e) && bitOf h.mask ((32 - k) % 32))

/-- R276: a slot's entry of the neighbour table. -/
def judgeSlot (s : State) (p k : Nat) : Neigh :=
  let e := hears s (cfgPods s p) p k
  let plan := plannedAt s p k
  match heardOn s p k with
  | none => { code := .absent, heard := false, confirmed := false, planned := plan, id := e }
  | some h =>
    let tag := s.fab.disc.tags.getD (e % 32) 0
    let loop := decide (k = 0 ∧ e = ownId s)
    let conf := loop || confirmedAt s p k e
    let code : NeighCode :=
      if (dupIds s).contains h.src ∨ (dupsHeard s).contains h.src then .quarantined
      else if h.src ≠ e ∨ h.dest ≠ ownId s ∨ (tag ≠ 0 ∧ h.tag ≠ tag ∧ !isSpine s p) ∨ !plan then .unplanned
      else if conf then .present else .absent
    { code := code, heard := true, confirmed := conf, planned := plan, id := h.src }

/-- R278: why the module is to be in quarantine: 2 SELF_HEARD, 1 DUPLICATE, 3 PORT_MISMATCH. -/
def quarantineWhy (s : State) : Option Nat :=
  let hs := heardEarly s
  let own := ownId s
  let pod := hs.filter (fun h => !isSpine s h.plane)
  let off := pod.filter (fun h => h.dest ≠ own)
  if hs.any (fun h => decide (h.src = own ∧ h.channel ≠ 0)) then some 2
  else if (dupsHeard s).contains own then some 1
  else if pod.length < 2 * off.length then some 3
  else none

/-- R278: the module enters quarantine. -/
def enterQuarantine (why : Nat) (s : State) : State :=
  let s := { s with fab := { s.fab with quar := true, quarReason := why } }
  let s := forEach (List.range 16) (fun n => dropPlan n 3) s
  emit 0x0D0B 0 (leBytes 1 why) (failAll 1 s)

/-- R276: the records of the slots. -/
def recordSlots (slots : List (Nat × Nat × Neigh)) (s : State) : State :=
  forEach slots (fun x st =>
    let p := x.1
    let k := x.2.1
    let n := x.2.2
    let body := leBytes 1 p ++ leBytes 1 k ++ leBytes 2 n.id
    if n.code = .unplanned then emit 0x0D08 (32 * p + k) body st
    else if n.code = .absent ∧ n.planned then emit 0x0D09 (32 * p + k) body st
    else st) s

/-- R276, R280: one record for each identifier found duplicated, with the first two slots whose
expected sources differ. -/
def recordDups (s : State) : State :=
  forEach (dupIds s) (fun id st =>
    let hs := (heardEarly st).filter (fun h => h.src = id)
    let exp := fun (h : HeardRec) => hears st (cfgPods st h.plane) h.plane h.channel
    match hs.findSome? (fun a => (hs.find? (fun b => decide (exp a ≠ exp b))).map (fun b => (a, b))) with
    | some (a, b) =>
      emit 0x0D0A id (leBytes 2 id ++ leBytes 1 a.plane ++ leBytes 1 a.channel ++ leBytes 1 b.plane ++ leBytes 1 b.channel) st
    | none => st) s

/-- DISCOVERY_END (R273, R276 to R278). -/
def execDiscoveryEnd (s : State) : Result :=
  .next (
    let d := s.fab.disc
    if d.code = 2 ∧ d.round = 7 ∧ d.start + 400000 ≤ nowNs s then
      let slots := ((List.range 32).filter (bitOf d.mask)).flatMap (fun p =>
        (List.range 32).map (fun k => (p, k, judgeSlot s p k)))
      let count := fun (c : NeighCode) => (slots.filter (fun x => x.2.2.code = c)).length
      let sum := [count .present, count .absent, count .unplanned, count .quarantined]
      let neigh := slots.foldl (fun m x => Cells.set {} m (32 * x.1 + x.2.1) x.2.2) s.fab.neigh
      let why := quarantineWhy s
      let s1 := recordDups (recordSlots slots s)
      let s1 := { s1 with fab := { s1.fab with neigh := neigh, summary := sum, disc := { d with code := 3 } } }
      let s1 := match why with
        | some w => enterQuarantine w s1
        | none => if d.mask = 2 ^ 32 - 1 then { s1 with fab := { s1.fab with quar := false, quarReason := 0 } } else s1
      let body := sum.flatMap (leBytes 2)
      let s1 := emit 0x0D07 0 body s1
      if s1.fab.quar then finishCmd d.cmd 0x0501 [] s1 else finishCmd d.cmd 0 body s1
    else s)

end Sys2Proof.Machine
end

