-- ==== Sys2Proof/Machine/Ecdsa.lean ====
section
/-!
DEFINITION. Verification of an ECDSA signature over P-384 with SHA-384 (FIPS 186-5, which
R14's standards table names). The curve's constants are the standard's.
-/

namespace Sys2Proof.Machine

/-- The field's prime: 2^384 - 2^128 - 2^96 + 2^32 - 1. -/
def ecP : Nat := 2 ^ 384 - 2 ^ 128 - 2 ^ 96 + 2 ^ 32 - 1
/-- The curve's coefficient b (a is -3). -/
def ecB : Nat := 0xb3312fa7e23ee7e4988e056be3f82d19181d9c6efe8141120314088f5013875ac656398d8a2ed19d2a85c8edd3ec2aef
/-- The order of the base point. -/
def ecN : Nat := 0xffffffffffffffffffffffffffffffffffffffffffffffffc7634d81f4372ddf581a0db248b0a77aecec196accc52973
/-- The base point's x. -/
def ecGx : Nat := 0xaa87ca22be8b05378eb1c71ef320ad746e1d3b628ba79b9859f741e082542a385502f25dbf55296c3a545e3872760ab7
/-- The base point's y. -/
def ecGy : Nat := 0x3617de4a96262c6f5d9e98bf9292dc29f8f41dbd289a147ce9da3113b5f0b8c00a60b1ce1d7e819d7a431d7c90ea0e5f

/-- Powers modulo `m`, over `k` bits of the exponent from the top. -/
def powModAt (m b e : Nat) : Nat → Nat
  | 0 => 1
  | k + 1 =>
    let r := powModAt m b (e / 2) k
    if e % 2 = 1 then r * r % m * b % m else r * r % m

/-- The inverse modulo a prime of 384 bits (by Fermat). -/
def invMod (m x : Nat) : Nat := powModAt m (x % m) (m - 2) 384

/-- A point in Jacobian coordinates; z = 0 is the point at infinity. -/
structure EcPoint where
  x : Nat
  y : Nat
  z : Nat
deriving DecidableEq, Repr

/-- The point at infinity. -/
def ecInf : EcPoint := ⟨1, 1, 0⟩

/-- Subtraction in the field. -/
def fSub (a b : Nat) : Nat := (a + ecP - b % ecP) % ecP

/-- Doubling. -/
def ecDbl (p : EcPoint) : EcPoint :=
  if p.z = 0 ∨ p.y = 0 then ecInf
  else
    let yy := p.y * p.y % ecP
    let s := 4 * p.x * yy % ecP
    let zz := p.z * p.z % ecP
    let m := 3 * (fSub p.x zz * (p.x + zz)) % ecP
    let x := fSub (m * m) (2 * s)
    ⟨x, fSub (m * fSub s x) (8 * yy * yy), 2 * p.y * p.z % ecP⟩

/-- Addition. -/
def ecAdd (p q : EcPoint) : EcPoint :=
  if p.z = 0 then q
  else if q.z = 0 then p
  else
    let z1 := p.z * p.z % ecP
    let z2 := q.z * q.z % ecP
    let u1 := p.x * z2 % ecP
    let u2 := q.x * z1 % ecP
    let s1 := p.y * z2 % ecP * q.z % ecP
    let s2 := q.y * z1 % ecP * p.z % ecP
    if u1 = u2 then (if s1 = s2 then ecDbl p else ecInf)
    else
      let h := fSub u2 u1
      let r := fSub s2 s1
      let hh := h * h % ecP
      let v := u1 * hh % ecP
      let hhh := h * hh % ecP
      let x := fSub (fSub (r * r) hhh) (2 * v)
      ⟨x, fSub (r * fSub v x) (s1 * hhh), h * p.z % ecP * q.z % ecP⟩

/-- A multiple of a point, over `k` bits of the factor from the top. -/
def ecMul (p : EcPoint) (e : Nat) : Nat → EcPoint
  | 0 => ecInf
  | k + 1 =>
    let d := ecDbl (ecMul p (e / 2) k)
    if e % 2 = 1 then ecAdd d p else d

/-- The public key lies on the curve. -/
def onCurve (x y : Nat) : Bool :=
  decide (x < ecP ∧ y < ecP ∧ y * y % ecP = (x * x % ecP * x + ecB + ecP * 3 - 3 * x) % ecP)

/-- A P-384 signature (r then s) over a message, under a public key (x then y), every
number 48 bytes, little-endian. -/
def ecdsaOk (pub sig msg : List Byte) : Bool :=
  let qx := leAt pub 0 48
  let qy := leAt pub 48 48
  let r := leAt sig 0 48
  let s := leAt sig 48 48
  let e := beVal (sha384 msg)
  if r = 0 ∨ ecN ≤ r ∨ s = 0 ∨ ecN ≤ s ∨ !onCurve qx qy then false
  else
    let w := invMod ecN s
    let p := ecAdd (ecMul ⟨ecGx, ecGy, 1⟩ (e * w % ecN) 384) (ecMul ⟨qx, qy, 1⟩ (r * w % ecN) 384)
    if p.z = 0 then false
    else
      let zi := invMod ecP p.z
      decide (p.x * zi % ecP * zi % ecP % ecN = r)

end Sys2Proof.Machine
end

