-- ==== Sys2Proof/Machine/Health.lean ====
section
/-!
DEFINITION. The health margins (R608) and the EVT_HEALTH record (R609).
-/

namespace Sys2Proof.Machine

/-- A margin of R608: LEFT, FULL and WORST. -/
structure Margin where
  left : Nat
  full : Nat
  worst : Nat := 0
deriving DecidableEq, Repr

/-- R608: the fewest over some units, with the unit that has it; `full` where there is none. -/
def fewest (full : Nat) (xs : List Nat) (f : Nat → Nat) : Margin :=
  xs.foldl (fun m x => if f x < m.left then ⟨f x, full, x⟩ else m) ⟨full, full, 0⟩

/-- R608: how many units meet a condition, with the first that does not. -/
def howMany (xs : List Nat) (full : Nat) (ok : Nat → Bool) : Margin :=
  ⟨(xs.filter ok).length, full, (xs.find? (fun x => !ok x)).getD 0⟩

/-- The tiles whose slices are in service. -/
def slicesInService (s : State) : List Nat :=
  (List.range 156).filter (fun t => !(decide ((tileAt s t).code = .spare ∨ (tileAt s t).code = .retired)))

/-- ROWS_LEFT of a slice. -/
def rowsLeft (s : State) (t : Nat) : Nat :=
  ((List.range 32).map (fun b => 16 - Cells.get 0 (sliceAt s t).rows b)).foldl min 16

/-- COLS_LEFT of a slice. -/
def colsLeft (s : State) (t : Nat) : Nat :=
  ((List.range 32).map (fun b => 8 - Cells.get 0 (sliceAt s t).cols b)).foldl min 8

/-- R608: margin `i`. -/
def margin (s : State) (i : Nat) : Margin :=
  match i with
  | 0 => ⟨(spares s).length, 12, 0⟩
  | 1 => fewest 16 (slicesInService s) (rowsLeft s)
  | 2 => fewest 8 (slicesInService s) (colsLeft s)
  | 3 => fewest 16 ((List.range 16).filter (fun n =>
      (stripAt s n).code = .online || (stripAt s n).code = .degraded)) (fun n => 16 - (stripAt s n).patch.length)
  | 4 => fewest 15 (List.range 16) (fun n => (stripAt s n).pprLeft)
  | 5 => howMany (List.range 16) 16 (fun n => (stripAt s n).code = .online)
  | 6 => fewest 4 (List.range 8) (fun c => (spareLasers s c).length)
  | 7 => howMany (List.range 256) 256 (fun i => (ringAt s (chipOf i) (elemOf i)).code ≠ .failed)
  | 8 => howMany (List.range 256) 256 (fun i => (laneAt s i).code ≠ .fault)
  | 9 => howMany [0, 1] 2 (fun i => (if i = 0 then s.pups.a else s.pups.b) ≠ .unavailable)
  | 10 => howMany [0, 1] 2 (netUp s)
  | 11 => howMany [0, 1] 2 (fun d => (s.time.domains.getD d {}).code = .locked)
  | _ => ⟨b2n (s.red.state = .active && !s.red.lost), 1, 0⟩

/-- R608: LEVEL of a margin: 0 OK, 1 LOW, 2 OUT. -/
def marginLevel (m : Margin) : Nat :=
  if m.left = 0 then 2 else if m.left ≤ m.full / 4 then 1 else 0

/-- EVT_HEALTH(i) as it reads (R612). -/
def healthReg (s : State) (i : Nat) : Nat :=
  let m := margin s i
  min m.left 255 + min m.worst 255 * 2 ^ 8 + m.full * 2 ^ 16 + marginLevel m * 2 ^ 30

/-- Hours of run time. -/
def runHours (s : State) : Nat := runNs s / 3600000000000

/-- R609: the payload of an EVT_HEALTH record. -/
def healthBytes (s : State) : List Byte :=
  let t := s.peat.totals
  (List.range 13).map (fun i => BitVec.ofNat 8 (min (margin s i).left 255)) ++
  leBytes 4 (runHours s) ++
  [t.tilesRetired, t.lasersSwapped, t.rowsRetired, t.sliceRepairs].flatMap (fun n => leBytes 2 (min n 65535))

/-- R608: the LEVELs of the margins. -/
def marginLevels (s : State) : List Nat := (List.range 13).map (fun i => marginLevel (margin s i))

/-- R609: the recorder is to write EVT_HEALTH: the interval of EVT_POLICY.HEALTH_H has passed, or a
margin has become LOW or OUT. -/
def healthDue (s : State) : Bool :=
  decide (s.peat.healthAt + atLeast1 (regField s rEvtPolicy 0 [] 23 16) * 3600000000000 ≤ runNs s) ||
    (List.range 13).any (fun i => decide (s.peat.levels.getD i 0 < marginLevel (margin s i)))

/-- R608: the recorder has looked at the margins. -/
def noteLevels (s : State) : State := { s with peat := { s.peat with levels := marginLevels s } }

/-- R609: an EVT_HEALTH record. -/
def writeHealth (s : State) : State :=
  emit 0x0504 0 (healthBytes s) { s with peat := { s.peat with levels := marginLevels s, healthAt := runNs s } }

end Sys2Proof.Machine
end

