-- ==== Sys2Proof/Machine/LogRows.lean ====
section
/-!
DEFINITION. The Peat log (R595 to R612): writing records to the ring, copying them to
flash, reading and sealing.
-/

namespace Sys2Proof.Machine

/-- The state with the recorder changed. -/
def updPeat (f : Peat → Peat) (s : State) : State := { s with peat := f s.peat }

/-! ### Records -/

/-- R595: bytes 0 to 59 of a record. -/
def recHead (q : Nat) (r : LogRec) : List Byte :=
  leBytes 8 q ++ leBytes 8 r.time ++ leBytes 2 r.code ++ leBytes 2 r.source ++ leBytes 2 r.reps ++
  leBytes 1 (b2n r.valid + 2 * b2n (!r.closed) + 4 * b2n r.sat) ++ leBytes 1 0 ++
  leBytes 4 r.last ++ leBytes 4 r.boot ++ padTo 28 r.payload

/-- R595: the 64 bytes of a record. -/
def recBytes (q : Nat) (r : LogRec) : List Byte := recHead q r ++ leBytes 4 (crc32c (recHead q r))

/-- R598: a record is written to the ring, under the next SEQ. -/
def ringWrite (r : LogRec) (s : State) : State :=
  let p := s.peat
  let ring := p.ring ++ [(p.next, r)]
  bump { s with peat := { p with ring := ring.drop (ring.length - 16384), next := p.next + 1 } } rEvtCount 0 [0]

/-- R600: EVT_LOST, when the queue has emptied after losses. -/
def writeLost (s : State) : State :=
  let p := s.peat
  if p.queue = [] ∧ p.lost ≠ 0 then
    let r : LogRec :=
      { code := 0x0501, source := 0, time := p.lostTime, valid := p.lostValid, last := p.lostLast
        boot := p.boot, payload := padTo 28 (leBytes 4 p.lost) }
    let s := { s with peat := { p with
      lost := 0, ring := mapLast (fun x => (x.1, { x.2 with closed := true })) p.ring } }
    ringWrite r s
  else s

/-- EVENT_SUBMIT (R599, R600): a subsystem submits an event. -/
def execEventSubmit (code source : Nat) (payload : List Byte) (s : State) : Result :=
  .next (emit (code % 65536) source payload s)

/-- RECORD_WRITE (R597, R598, R600). -/
def execRecordWrite (s : State) : Result :=
  match s.peat.queue with
  | [] => .next s
  | r :: q => .next (writeLost (ringWrite r (updPeat (fun p => { p with queue := q }) s)))

/-- COALESCE_WINDOW_END (R599): the last record is closed once its window has ended. -/
def execCoalesceWindowEnd (s : State) : Result :=
  match lastRec s.peat with
  | some r =>
    if r.time ≤ nowNs s ∧ nowNs s < r.time + coalesceNs s then .next s
    else .next (updPeat (mapLastRec (fun r => { r with closed := true })) s)
  | none => .next s

/-- EVT_HEALTH (R608, R609): the margins are looked at, and the record is written where one is due. -/
def execEvtHealth (s : State) : Result := .next (if healthDue s then writeHealth s else noteLevels s)

/-! ### Flash -/

/-- Records of a segment that are in flash. -/
def flashSegLen (p : Peat) (g : Nat) : Nat := (p.flash.filter (fun f => f.seg = g)).length

/-- The segment being written, where it has room. -/
def openSeg (p : Peat) : Option Nat :=
  match p.segs.getLast? with
  | some g => if flashSegLen p g.seg < 8192 ∧ ¬ p.badSegs.contains g.seg then some g.seg else none
  | none => none

/-- R601: the segment that the next record goes to, opened, or erased, where one is needed;
none where every segment is out of use. -/
def takeSeg (p : Peat) (first : Nat) : Option (Nat × Peat) :=
  match openSeg p with
  | some g => some (g, p)
  | none =>
    match (List.range 16).find? (fun g => !p.badSegs.contains g && !p.segs.any (fun x => x.seg = g)) with
    | some g => some (g, { p with segs := p.segs ++ [⟨g, first, p.chain⟩] })
    | none =>
      match p.segs.find? (fun x => !p.badSegs.contains x.seg) with
      | some o => some (o.seg,
          { p with segs := p.segs.filter (fun x => x.seg ≠ o.seg) ++ [⟨o.seg, first, p.chain⟩]
                   flash := p.flash.filter (fun f => f.seg ≠ o.seg) })
      | none => none

/-- R601, R602: a record of 64 bytes written to flash, in the chain. -/
def flashWrite (q : Nat) (bs : List Byte) (torn : Bool) (s : State) : State :=
  match takeSeg s.peat q with
  | none => s
  | some (g, p) =>
    let p := { p with flash := p.flash ++ [{ seg := g, seq := q, bytes := bs, torn := torn }]
                      chain := sha384 (p.chain ++ bs) }
    bump { s with peat := p } rEvtCount 0 [3]

/-- The first record of the ring that has not been copied. -/
def toCopy (p : Peat) : Option (Nat × LogRec) := p.ring.find? (fun x => p.copyNext ≤ x.1)

/-- R601: records that the ring overwrote before they were copied are skipped, and recorded
in flash under the last of their numbers (DESIGN CHOICE, assumption 60). -/
def skipLost (upTo : Nat) (s : State) : State :=
  let a := s.peat.copyNext
  if a < upTo then
    let r := { newRec s 0x0502 0 (leBytes 8 a ++ leBytes 8 (upTo - 1)) with closed := true }
    let s := updPeat (fun p => { p with copyNext := upTo }) (flashWrite (upTo - 1) (recBytes (upTo - 1) r) false s)
    bumpBy s rEvtCount 0 [4] (upTo - a)
  else s

/-- Records by number, ascending. -/
def bySeq (rs : List (Nat × List Byte)) : List (Nat × List Byte) :=
  rs.foldl (fun a r => a.filter (fun x => x.1 ≤ r.1) ++ [r] ++ a.filter (fun x => r.1 < x.1)) []

/-- The lowest SEQ in flash (R606); 0 where there is none. -/
def flashFirst (p : Peat) : Nat := (p.flash.map (·.seq)).foldl min ((p.flash.map (·.seq)).headD 0)

/-- R606 step 4: the signed statement of a seal. -/
def sealStatement (nonce : List Byte) (last : Nat) (s : State) : List Byte :=
  let p := s.peat
  let b := padTo 32 nonce ++ leBytes 8 (flashFirst p) ++ leBytes 8 last ++ padTo 48 p.chain ++
    leBytes 8 (nowNs s) ++ leBytes 4 deviceTag ++ leBytes 4 p.boot
  b ++ padTo 96 (Config.sign b)

/-- R606: a seal whose last record has been copied is answered. -/
def answerSeals (s : State) : State :=
  match s.peat.seals with
  | [] => s
  | (last, nonce, ref) :: rest =>
    if last < s.peat.copyNext then
      finishCmd ref 0 (sealStatement nonce last s) (updPeat (fun p => { p with seals := rest }) s)
    else s

/-- R601: one record copied to flash, unless the segment fails to erase or program. -/
def copyRecord (bad : Bool) (s : State) : State :=
  match toCopy s.peat with
  | none => s
  | some (q, r) =>
    if r.closed then
      match takeSeg s.peat q with
      | none => s
      | some (g, _) =>
        if bad then
          emit 0x0506 g (leBytes 1 g) (updPeat (fun p => { p with badSegs := p.badSegs ++ [g] }) s)
        else
          let s := skipLost q s
          answerSeals (updPeat (fun p => { p with copyNext := q + 1 }) (flashWrite q (recBytes q r) false s))
    else s

/-- FLASH_COPY (R601, R602, R606). -/
def execFlashCopy (bad : Bool) (s : State) : Result := .next (copyRecord bad s)

/-! ### EVT_READ and EVT_SEAL -/

/-- R605: SEQ and bytes of the records of a medium that can be read, in ascending SEQ order. -/
def readable (s : State) (medium : Nat) : List (Nat × List Byte) :=
  if medium = 0 then s.peat.ring.map (fun x => (x.1, recBytes x.1 x.2))
  else bySeq ((s.peat.flash.filter (fun f => !f.torn)).map (fun f => (f.seq, f.bytes)))

/-- R602: records of flash that fail their CRC at a read are counted once. -/
def countTorn (s : State) : State :=
  let n := (s.peat.flash.filter (fun f => f.torn && !f.counted)).length
  if n = 0 then s
  else bumpBy (updPeat (fun p => { p with flash := p.flash.map (fun f =>
    if f.torn then { f with counted := true } else f) }) s) rEvtCount 0 [5] n

/-- EVT_READ (R605). -/
def evtRead : CmdFn := fun _ c s =>
  let p := c.payload
  let from_ := leAt p 0 8
  let n := leAt p 8 2
  let medium := leAt p 10 1
  if n < 1 ∨ 128 < n ∨ 1 < medium ∨ leAt p 11 5 ≠ 0 then status 5 s
  else
    let s := if medium = 1 then countTorn s else s
    let rs := ((readable s medium).filter (fun x => decide (from_ ≤ x.1))).take n
    let skip := match rs with
      | [] => 0
      | r :: _ => min (r.1 - from_) (2 ^ 32 - 1)
    (s, .reply 0 (leBytes 2 rs.length ++ leBytes 1 (b2n (skip ≠ 0)) ++ leBytes 1 0 ++ leBytes 4 skip ++
      rs.flatMap (·.2)))

/-- EVT_SEAL (R606). -/
def evtSeal : CmdFn := fun h c s =>
  let p := mapLastRec (fun r => { r with closed := true }) s.peat
  let last := p.next + p.queue.length
  let r := { newRec s 0x0503 0 (leBytes 8 (last - 1)) with closed := true }
  ({ s with peat := { p with
      queue := p.queue ++ [r], seals := p.seals ++ [(last, c.payload.take 32, refOf h)] } }, .wait)

end Sys2Proof.Machine
end

