-- ==== Sys2Proof/Machine/FwOps.lean ====
section
/-!
DEFINITION. Firmware images, the update journal, activation and revert, settings, and the
quote (R567 to R594).
-/

namespace Sys2Proof.Machine

/-- The state with the firmware changed. -/
def updFw (f : Fw → Fw) (s : State) : State := { s with fw := f s.fw }

/-- Firmware slot `n`. -/
def slotOf (s : State) (n : Nat) : FwSlot := s.fw.slots.getD n {}

/-- The state with a firmware slot changed. -/
def updFwSlot (n : Nat) (f : FwSlot → FwSlot) (s : State) : State :=
  updFw (fun w => { w with slots := w.slots.set n (f (slotOf s n)) }) s

/-- A slot given a state. -/
def setSlot (n : Nat) (c : SlotState) (s : State) : State := updFwSlot n (fun x => { x with state := c }) s

/-- R568: the code of a slot's state. -/
def slotCode : SlotState → Nat
  | .empty => 0
  | .partly => 1
  | .unverified => 2
  | .verified => 3
  | .active => 4
  | .trial => 5
  | .fallback => 6

/-- One count of SUP_COUNT. -/
def supCount (i : Nat) (s : State) : State := bump s rSupCount 0 [i]

/-! ### Images (R569) -/

/-- The block of a slot at an offset. -/
def blockAt (x : FwSlot) (off : Nat) : Option (List Byte) := (x.blocks.find? (fun b => b.1 = off)).map (·.2)

/-- The image's header and the start of its first block. -/
def imageHead (x : FwSlot) : List Byte := if x.shipped then Config.shippedImage else (blockAt x 0).getD []

/-- IMAGE_LEN. -/
def imageLen (x : FwSlot) : Nat := leAt (imageHead x) 8 4

/-- The image's bytes. -/
def imageBytes (x : FwSlot) : List Byte :=
  if x.shipped then Config.shippedImage
  else ((List.range ((imageLen x + 8191) / 8192)).flatMap (fun k => padTo 8192 ((blockAt x (8192 * k)).getD []))).take
    (imageLen x)

/-- R570: every block up to IMAGE_LEN has been written. -/
def imageWhole (x : FwSlot) : Bool :=
  x.shipped || (decide (12 ≤ (imageHead x).length) &&
    (List.range ((imageLen x + 8191) / 8192)).all (fun k =>
      match blockAt x (8192 * k) with
      | some b => decide (min 8192 (imageLen x - 8192 * k) ≤ b.length)
      | none => false))

/-- FW_VERSION, SETTINGS_VERSION, SETTINGS_MIN, SVN and KEY_ID of a slot's image. -/
def imageVersion (x : FwSlot) : Nat := leAt (imageHead x) 12 4
/-- SETTINGS_VERSION. -/
def imageSettings (x : FwSlot) : Nat := leAt (imageHead x) 16 2
/-- SETTINGS_MIN. -/
def imageMin (x : FwSlot) : Nat := leAt (imageHead x) 18 2
/-- SVN. -/
def imageSvn (x : FwSlot) : Nat := leAt (imageHead x) 20 1
/-- KEY_ID. -/
def imageKey (x : FwSlot) : Nat := leAt (imageHead x) 21 1

/-- R571 check 1. -/
def formatOk (b : List Byte) : Bool :=
  decide (leAt b 0 4 = 0x4D524946 ∧ leAt b 4 2 = 1 ∧ leAt b 6 2 = 512 ∧ leAt b 22 1 < 16 ∧ leAt b 23 1 = 0 ∧
    leAt b 26 6 = 0 ∧ leAt b 176 240 = 0)

/-- R571 check 4. -/
def keyOk (s : State) (b : List Byte) : Bool :=
  let id := leAt b 21 1
  let pub := (b.drop 80).take 96
  if id < 4 then decide (sha384 pub = Config.keyDigest id) && !s.fw.revoked.contains id
  else decide (id = 15 ∧ s.fw.ownerKey ≠ [] ∧ pub = s.fw.ownerKey) && bitOf (regGet s rSupPolicy 0 []) 0

/-- R571 checks 4 to 7; the answer is the reason of the first that fails. -/
def imageTrust (s : State) (x : FwSlot) : Option Nat :=
  let b := imageBytes x
  if !keyOk s b then some 4
  else if !ecdsaOk ((b.drop 80).take 96) ((b.drop 416).take 96) (b.take 416) then some 5
  else if sha384 (b.drop 512) ≠ (b.drop 32).take 48 then some 6
  else if imageSvn x < s.fw.svn then some 7
  else none

/-- R571: the checks in order. -/
def imageFails (s : State) (x : FwSlot) : Option Nat :=
  let b := imageHead x
  if !formatOk b then some 1
  else if !(imageWhole x && decide (imageLen x % 16 = 0 ∧ 512 ≤ imageLen x ∧ imageLen x ≤ 8388608)) then some 2
  else if (b.drop 24).take 2 ≠ [0x41, 0x31] then some 3
  else imageTrust s x

/-- R583: an image passes checks 1, 4, 5, 6 and 7. The image as shipped passes them
(assumption 62). -/
def imagePasses (s : State) (x : FwSlot) : Bool :=
  x.shipped || (decide (x.state ≠ .empty ∧ x.state ≠ .partly) && formatOk (imageHead x) && imageWhole x &&
    (imageTrust s x).isNone)

/-! ### The journal (R583) -/

/-- A journal entry appended. -/
def journal (t : JournalType) (old new limit elapsed : Nat) (s : State) : State :=
  updFw (fun w =>
    { w with journal := w.journal ++
        [⟨t, w.journal.length, old, new, limit, elapsed, ((w.areas.getD 0 {}).gen, (w.areas.getD 1 {}).gen)⟩] }) s

/-- The settings area in force. -/
def areaOf (s : State) : SettingsArea := s.fw.areas.getD s.fw.area {}

/-! ### Handover, activation, revert -/

/-- The standby Puppeteer. -/
def standby (s : State) : PupState := if s.pups.bActive then s.pups.a else s.pups.b

/-- R573 step 4, R574: the active role passes to the other core, and the former active core is
READY as standby. -/
def handover (s : State) : State :=
  let b := !s.pups.bActive
  let s := { s with pups := { s.pups with
    bActive := b, a := if b then .ready else .active, b := if b then .active else .ready
    aTested := false, aReadyAt := if b then runNs s else s.pups.aReadyAt } }
  emit 0x060D 0 [] (supCount 6 s)

/-- R572: the limit of probation in minutes. -/
def probationLimit (s : State) (m : Nat) : Nat :=
  if m = 0 then min (max (regField s rSupPolicy 0 [] 31 16) 1) 1440 else m

/-- R580: the settings are migrated into the other area. -/
def migrateSettings (format : Nat) (s : State) : State :=
  let a := areaOf s
  let n := 1 - s.fw.area
  emit 0x0607 0 (leBytes 2 a.format ++ leBytes 2 format)
    (updFw (fun w => { w with areas := w.areas.set n { format := format, gen := a.gen + 1, sealed_ := true, regs := a.regs } }) s)

/-- R577, R578: the FALLBACK image takes over; `how` hands the active role over, where a switch-over
has not done so. -/
def revertTrial (cause : Nat) (how : State → State) (s : State) : State :=
  let trial := s.fw.activeSlot
  let back := s.fw.standbySlot
  let s := how s
  let s := journal .revert back trial 0 0 s
  let s := setSlot trial .verified (setSlot back .active s)
  let s := updFw (fun w =>
    { w with activeSlot := back, standbySlot := back, probation := none, area := 1 - w.area
             areas := w.areas.modify w.area (fun a => { a with sealed_ := false }) }) s
  emit 0x0606 0 (leBytes 1 cause) (supCount 5 s)

/-- R573: an accepted activation, with what befalls it: 0 it completes; 1 the new image cannot
migrate the settings; 2 the standby fails; 3 the TRIAL image cannot apply a migrated setting
(R581). -/
def activate (n limit outcome : Nat) (s : State) : State × Answer :=
  let old := s.fw.activeSlot
  let x := slotOf s n
  let s := updFw (fun w => { w with incompat := false }) (journal .begin_ old n limit 0 s)
  if outcome = 2 then status 3 (journal .abort old n limit 0 s)
  else if (imageTrust s x).isSome then status 0x000C (journal .abort old n limit 0 s)
  else if outcome = 1 then status 8 (emit 0x0608 0 [] (journal .abort old n limit 0 s))
  else
    let s := handover (migrateSettings (imageSettings x) s)
    let s := journal .commit old n limit 0 s
    let s := setSlot n .trial (setSlot old .fallback s)
    let s := updFw (fun w =>
      { w with activeSlot := n, standbySlot := old, probation := some (0, limit), area := 1 - w.area }) s
    let s := emit 0x0604 n [] (supCount 3 s)
    if outcome = 3 then
      status 0 (revertTrial 2 handover (emit 0x0608 0 [] (updFw (fun w => { w with incompat := true }) s)))
    else status 0 s

/-- What befalls an activation. -/
def fwOutcome (c : HostCmd) : Nat := ((c.meas.headD 0) % 4).toNat

/-- R572: the activation of a VERIFIED slot, after its checks. In recovery mode COMMIT and
CONFIRM are written together and SW_COLD is raised (R585). -/
def tryActivate (n limit outcome : Nat) (s : State) : State × Answer :=
  if (slotOf s n).state ≠ .verified then status 3 s
  else if s.fw.recovery then
    let old := 1 - n
    let s := journal .confirm old n 0 0 (journal .commit old n 0 0 s)
    let s := setSlot n .active s
    let s := match (slotOf s old).state with
      | .active | .trial | .fallback => setSlot old (if imagePasses s (slotOf s old) then .verified else .unverified) s
      | _ => s
    status 0 (raiseSource 8 (updFw (fun w => { w with activeSlot := n, standbySlot := n, probation := none }) (supCount 3 s)))
  else if s.fw.probation.isSome ∨ standby s ≠ .ready then status 1 s
  else if (areaOf s).format < imageMin (slotOf s n) then status 8 s
  else activate n (probationLimit s limit) outcome s

/-! ### The commands -/

/-- FW_BLOCK (R570). -/
def fwBlock : CmdFn := fun _ c s =>
  let p := c.payload
  let n := leAt p 0 1
  let flags := leAt p 1 1
  let off := leAt p 4 4
  let data := p.drop 8
  if 2 ≤ n ∨ 2 ≤ flags ∨ leAt p 2 2 ≠ 0 ∨ off % 8192 ≠ 0 ∨ data.length < 16 ∨ 8192 < data.length ∨ data.length % 16 ≠ 0 then
    status 5 s
  else
    let x := slotOf s n
    if x.state = .active ∨ x.state = .trial ∨ x.state = .fallback ∨ (flags = 0 ∧ ¬ x.started) then status 3 s
    else if 8388608 < off + data.length then status 5 s
    else
      let s := if flags = 1 then
          emit 0x0601 n [] (updFwSlot n (fun _ => { state := .partly, started := true }) s)
        else s
      match blockAt (slotOf s n) off with
      | some b => if b = data then status 0 s else status 5 s
      | none =>
        let s := updFwSlot n (fun x => { x with blocks := x.blocks ++ [(off, data)] }) (supCount 0 s)
        status 0 (if (slotOf s n).state = .partly ∧ imageWhole (slotOf s n) then setSlot n .unverified s else s)

/-- FW_VERIFY (R571). -/
def fwVerify : CmdFn := fun _ c s =>
  let n := leAt c.payload 0 1
  if 2 ≤ n ∨ leAt c.payload 1 3 ≠ 0 then status 5 s
  else
    let x := slotOf s n
    if x.state ≠ .unverified ∧ x.state ≠ .verified then status 3 s
    else match imageFails s x with
      | some r =>
        (emit 0x0603 n (leBytes 1 r) (setSlot n .unverified (supCount 2 s)), .reply 0x000C (leBytes 1 r))
      | none =>
        let v := leBytes 4 (imageVersion x) ++ leBytes 1 (imageSvn x)
        (emit 0x0602 n (leBytes 1 n ++ v) (setSlot n .verified (supCount 1 s)), .reply 0 v)

/-- FW_ACTIVATE (R572, R573). -/
def fwActivate : CmdFn := fun _ c s =>
  let p := c.payload
  if 2 ≤ leAt p 0 1 ∨ leAt p 1 3 ≠ 0 ∨ 1440 < leAt p 4 2 then status 5 s
  else tryActivate (leAt p 0 1) (leAt p 4 2) (fwOutcome c) s

/-- R586: the keys revoked after an image is confirmed: never its own, and never the last. -/
def revokeKeys (own mask : Nat) (revoked : List Nat) : List Nat :=
  (List.range 4).foldl (fun r k =>
    if bitOf mask k && decide (k ≠ own) && !r.contains k && decide (r.length < 3) then r ++ [k] else r) revoked

/-- A bit for each number. -/
def maskOf (xs : List Nat) : Nat := (List.range 32).foldl (fun m i => if xs.contains i then m + 2 ^ i else m) 0

/-- FW_CONFIRM (R576, R586). -/
def fwConfirm : CmdFn := fun _ _ s =>
  if s.fw.probation.isNone then status 3 s
  else
    let n := s.fw.activeSlot
    let old := s.fw.standbySlot
    let s := journal .confirm old n 0 0 s
    let s := setSlot n .active (setSlot old .verified s)
    let b := imageHead (slotOf s n)
    let svn := max s.fw.svn (imageSvn (slotOf s n))
    let rev := revokeKeys (leAt b 21 1) (leAt b 22 1) s.fw.revoked
    let s := if svn = s.fw.svn ∧ rev = s.fw.revoked then s
      else emit 0x060C 0 (leBytes 1 svn ++ leBytes 1 (maskOf rev)) (updFw (fun w => { w with svn := svn, revoked := rev }) s)
    let s := updFw (fun w => { w with standbySlot := n, probation := none }) s
    status 0 (emit 0x0605 n [] (supCount 4 s))

/-- FW_REVERT (R577). -/
def fwRevert : CmdFn := fun _ c s =>
  if s.fw.probation.isSome then
    if standby s ≠ .ready then status 1 s else status 0 (revertTrial 0 handover s)
  else
    let n := 1 - s.fw.activeSlot
    if (slotOf s n).state ≠ .verified then status 3 s
    else if imageSvn (slotOf s n) < s.fw.svn then status 0x0901 s
    else if 2 ≤ s.pwr.current then status 0x0602 s
    else tryActivate n 0 (fwOutcome c) s

/-- A digest field of the quote: zeros where there is nothing to digest. -/
def digestOf (b : List Byte) : List Byte := if b = [] then leBytes 48 0 else sha384 b

/-- R579: the sealed header of a settings area (assumption 63: its four fields in order). -/
def areaHeader (a : SettingsArea) : List Byte :=
  let b := leBytes 2 a.format ++ leBytes 4 a.gen ++ leBytes 1 (b2n a.sealed_)
  b ++ leBytes 4 (crc32c b)

/-- R589: bytes 0 to 311 of the quote. -/
def quoteBody (nonce : List Byte) (s : State) : List Byte :=
  let act := slotOf s s.fw.activeSlot
  let stb := slotOf s s.fw.standbySlot
  let has := !s.fw.recovery && decide (standby s ≠ .unavailable)
  leBytes 4 0x544F5551 ++ leBytes 2 1 ++ leBytes 2 408 ++ leBytes 4 deviceTag ++
  leBytes 4 (if s.fw.recovery then 0 else imageVersion act) ++ leBytes 4 (if has then imageVersion stb else 0) ++
  leBytes 1 s.fw.svn ++
  leBytes 1 (b2n s.pups.bActive + 2 * b2n s.fw.probation.isSome + 4 * b2n s.fw.recovery) ++
  leBytes 1 (b2n (s.red.state = .fenced)) ++ leBytes 1 0 ++ leBytes 4 s.red.claim ++ leBytes 4 0 ++
  padTo 32 nonce ++ padTo 48 Config.romDigest ++
  (if s.fw.recovery then leBytes 48 0 else sha384 ((imageHead act).take 512)) ++
  (if has then sha384 ((imageHead stb).take 512) else leBytes 48 0) ++
  digestOf s.fw.ownerKey ++ sha384 (areaHeader (areaOf s)) ++ leBytes 8 (nowNs s)

/-- ATTEST_QUOTE (R589). -/
def attestQuote : CmdFn := fun _ c s =>
  let p := c.payload
  if 2 ≤ leAt p 32 1 ∨ leAt p 33 3 ≠ 0 then status 5 s
  else if leAt p 32 1 = 1 then (s, .reply 0 Config.certificate)
  else
    let b := quoteBody (p.take 32) s
    (s, .reply 0 (b ++ padTo 96 (Config.sign b)))

/-! ### Settings -/

/-- The registers that are loaded from the settings store. -/
def isSetting : RegName → Bool
  | .MEM_POLICY | .FAB_MODID | .FAB_POLICY | .COLL_POLICY | .FAB_LIGHT_POLICY | .FAB_LAUNCH
  | .MAR_STR_CFG | .MAR_STR_IO | .MAR_STR_SP | .MAR_STR_SUP | .MAR_STR_MODEL | .MAR_STR_SAFE
  | .MAR_STG_CTL | .MAR_STG_C | .HOST_NET_CFG | .HOST_IP6 | .HOST_IP4 | .HOST_POLICY | .TIME_CFG
  | .TIME_POLICY | .PWR_POLICY | .RED_CFG | .RED_POLICY | .RED_MIRROR_CFG | .RED_MIRROR_THRESH
  | .RED_MIRROR_STEP | .RED_AREA_BASE | .RED_AREA_SIZE | .RED_REGION_BASE | .RED_REGION_SIZE
  | .SUP_POLICY | .EVT_POLICY => true
  | _ => false

/-- Whether the register at an address is loaded from the settings store. -/
def settingAddr (a : Nat) : Bool :=
  match findReg a with
  | some (r, _, _) => isSetting r.name
  | none => false

/-- A write of SUP_SAVE (R579): the area in force takes the value of every settings register. -/
def supSave (v : Nat) (s : State) : State :=
  if bits v 31 16 = 0x5356 ∧ bitOf v 0 then
    let a := areaOf s
    supCount 7 (updFw (fun w =>
      { w with areas := w.areas.set w.area { a with regs := s.regs.filter (fun c => settingAddr c.1) } }) s)
  else s

end Sys2Proof.Machine
end

