-- ==== Sys2Proof/Machine/PwrOps.lean ====
section
/-!
DEFINITION. P-levels, power states, wakes and the 40 V input (R489 to R517).
-/

namespace Sys2Proof.Machine

/-- The state with the power state changed. -/
def updPwr (f : Pwr → Pwr) (s : State) : State := { s with pwr := f s.pwr }

/-! ### P-levels -/

/-- R498: the requests in the order of the table. -/
def pRequests (p : Pwr) : List Nat :=
  [p.ceiling, p.zones.foldl max 0, p.cap, p.curr, if p.memHot then 4 else 0]

/-- R498: the effective level asked for. -/
def pTarget (p : Pwr) : Nat := (pRequests p).foldl max 0

/-- R498: LIMITER. -/
def pLimiter (p : Pwr) : Nat := ((List.range 5).find? (fun i => (pRequests p).getD i 0 = pTarget p)).getD 0

/-- R498, R515: requests change; LIMITER's change is recorded. -/
def setRequest (f : Pwr → Pwr) (s : State) : State :=
  let s := updPwr f s
  let l := pLimiter s.pwr
  if l = s.pwr.limiter then s
  else emit 0x0205 l (leBytes 1 l ++ leBytes 1 (pTarget s.pwr)) (updPwr (fun p => { p with limiter := l }) s)

/-- PWR_SET_PLEVEL (R503). -/
def pwrSetPlevel : CmdFn := fun _ c s =>
  if 8 ≤ leAt c.payload 0 1 ∨ leAt c.payload 1 3 ≠ 0 then status 5 s
  else status 0 (setRequest (fun p => { p with ceiling := leAt c.payload 0 1 }) s)

/-- PLEVEL_CHANGE (R497): the sequencer moves to the level asked for; raising waits while VBUS
is low (R491). Islands in use that do not acknowledge raise CLK_FAULT. -/
def execPlevelChange (late : List Nat) (s : State) : Result :=
  .next (
    let t := pTarget s.pwr
    if t = s.pwr.effective ∨ (t < s.pwr.effective ∧ s.pwr.raiseHeld) ∨ 4 ≤ s.pwr.current ∨ s.rst.level ≠ 0 then s
    else
      let s := forEach (late.filter (fun i => decide (i < 156 ∧ s.pwr.current = 0))) (fun i st => faultTile i .clkFault st) s
      bump (updPwr (fun p => { p with effective := t }) s) rPwrCount 0 [3])

/-- MEM_HOT (R501): set while a device is above its range, cleared when all have been back for
1 s. -/
def execMemHot (s : State) : Result :=
  .next (
    let hot := decide (s.pwr.hotDevs ≠ [])
    if hot = s.pwr.memHot then s else setRequest (fun p => { p with memHot := hot }) s)

/-- POWER_CAP_WINDOW (R500): the mean input power of the window that ends. -/
def execPowerCapWindow (mean : Nat) (s : State) : Result :=
  .next (updPwr (fun p => { p with pinDw := mean % 65536 }) s)

/-! ### Light and the other parts at entry and exit -/

/-- Every lit laser at the dim level. -/
def dimAll (s : State) : State := forEach (List.range 256) dimLane s

/-- Every dim laser back at launch power, where it may be. -/
def brightenAll (s : State) : State := forEach (List.range 256) brightenLane s

/-- R348, R508: the lasers, the rings and the chiplet engines' strings are off. -/
def chipletsOff (s : State) : State :=
  let laserOff := fun (x : Laser) =>
    if x.code = .spare ∨ x.code = .worn ∨ x.code = .failed then x
    else unbias (if x.slot.isSome then .off else x.rest)
      { x with forSlot := none, swapDue := false, swapTo := none, prior := none }
  let ringOff := fun (r : Ring) => if r.code = .failed then r else { r with code := .off }
  { s with
    light := s.light.map (fun c => { c with lasers := c.lasers.map laserOff, rings := c.rings.map ringOff })
    mar := s.mar.zipIdx.map (fun m => 
      if m.2 < 8 then
        { m.1 with strs := m.1.strs.map (fun c => (c.1, { c.2 with code := .off, next := none })), heaters := [] }
      else m.1)
    fab := { s.fab with
      lanes := s.fab.lanes.map (fun l => { l with code := .dark, slot := none, tag := 0, buf := [], retune := false })
      rxs := s.fab.rxs.map (fun r => { r with code := .off, slot := none, tag := 0, lock := false, ended := false, stuck := false }) } }

/-- R349: each laser that serves a slot acquires channel s of its slot s, and the rings take
their mid-range bias. -/
def lightUp (s : State) : State :=
  let s := forEach (List.range 8) (fun c st =>
    forEach (List.range 36) (fun n st =>
      match (laserAt st c n).code, (laserAt st c n).slot with
      | .off, some e => acquireLaser c n (e % 8) st
      | _, _ => st) st) s
  forEach (List.range 8) (fun c st => forEach (List.range 32) (fun r st => prebiasRing c r st) st) s

/-- R504: the tile islands go off: scratch and registers are lost. -/
def islandsOff (s : State) : State :=
  { s with
    tiles := s.tiles.map islandReset
    job := { s.job with loaded := false }
    mem := { s.mem with
      cells := s.mem.cells.filter (fun c => decide (ddrBase ≤ c.1 ∨ sliceOff ≤ (c.1 - windowBase) % windowStride))
      words := s.mem.words.filter (fun c => decide (sliceOff ≤ (c.1 * 16 - windowBase) % windowStride)) } }

/-- R504: the activation store goes off. -/
def slicesOff (s : State) : State :=
  { s with mem := { s.mem with
    cells := s.mem.cells.filter (fun c => decide (ddrBase ≤ c.1)), words := [] } }

/-- The links of the Ethernet ports of which `f` holds go down. -/
def portsOff (f : Nat → Bool) (s : State) : State :=
  forEach ((List.range 8).filter f) dropPort s

/-! ### Transitions -/

/-- R508: the entry steps from a state to a deeper one; 60 is step 6a. -/
def entrySteps (old target : Nat) : List Nat :=
  let all := if target = 1 then [1] else if target = 2 then [1, 2, 3, 4, 5, 6]
    else if target = 3 then [1, 2, 3, 4, 5, 60] else [1, 2, 3, 4, 5, 60, 7]
  all.filter (fun k => if old = 0 then true else if old = 1 then 1 < k else if old = 2 then 6 < k else k = 7)

/-- R508: BLOCK of a step. -/
def stepBlock (k : Nat) : Nat := if k = 60 then 6 else k

/-- R508: REASON, where a block refuses. A calibration run, a retirement, a slice repair, an activation and a
handover are whole steps of this model, so none is met in progress. -/
def stepRefuses (k : Nat) (s : State) : Option Nat :=
  match k with
  | 1 => if jobRunning s then some 1 else none
  | 2 => if armedSlots s ≠ [] then some 1 else if s.fab.windows ≠ [] then some 2
      else if s.fab.disc.code = 1 ∨ s.fab.disc.code = 2 then some 3 else none
  | 3 => if s.light.any (fun c => c.eyes.any (fun e => e.code = .restoring)) then some 2 else none
  | 4 => if s.host.bulks ≠ [] then some 1 else none
  | 5 => if s.mem.strips.any (fun x => x.code = .training) then some 1 else none
  | 7 => if inPair s then some 1 else none
  | _ => none

/-- R508: what stopping does. -/
def enterStep (k : Nat) (s : State) : State :=
  match k with
  | 2 => dimAll s
  | 6 => islandsOff s
  | 60 => portsOff (fun n => n % 4 ≠ 0) (chipletsOff (slicesOff (islandsOff s)))
  | 7 =>
    let s := portsOff (fun _ => true) s
    { s with
      mem := { s.mem with cells := [], words := [], gran := [] }
      sync := { s.sync with objs := [] }
      fab := { s.fab with slots := s.fab.slots.map (fun _ => {}) }
      pwr := { s.pwr with padHeld := true }
      -- R622: before the pads are latched
      rst := { s.rst with pwrGood := false } }
  | _ => s

/-- The reply of a transition, where a command asked for it. -/
def transReply (t : PwrTrans) (st : Nat) (payload : List Byte) (s : State) : State :=
  match t.cmd with
  | some r => finishCmd r st payload s
  | none => s

/-- The transition in progress is over. -/
def transOver (result state : Nat) (s : State) : State :=
  updPwr (fun p => { p with trans := none, lastResult := result, current := state }) s

/-- A transition completes (R506, R515). -/
def completeTrans (t : PwrTrans) (s : State) : State :=
  let s := bump (transOver 0 t.target s) rPwrCount 0 [0]
  transReply t 0 [] (emit 0x0201 0 (leBytes 1 t.origin ++ leBytes 1 t.target) s)

/-- R509: the blocks already stopped restart, and the module is in the state it was in. -/
def restartBlocks (t : PwrTrans) (ran : List Nat) (s : State) : State :=
  let s := if ran.contains 60 ∧ t.origin < 3 then lightUp s else s
  if ran.contains 2 ∧ t.origin < 2 then brightenAll s else s

/-- R509, R514: entry is refused. -/
def refuseTrans (t : PwrTrans) (ran : List Nat) (block reason st : Nat) (payload : List Byte) (s : State) : State :=
  let s := restartBlocks t ran (transOver 1 t.origin s)
  let s := updPwr (fun p => { p with refuserValid := true, refuser := reason * 256 + block }) (bump s rPwrRefuseCount 0 [])
  transReply t st payload (emit 0x0202 0 (leBytes 1 block ++ leBytes 1 reason ++ leBytes 1 t.target) s)

/-- A bit for each wake source. -/
def wakeMask (ws : List Nat) : Nat := ws.dedup.foldl (fun m w => m + 2 ^ w) 0

/-- R510: entry is abandoned for a wake, after a step. -/
def abandonTrans (t : PwrTrans) (ran : List Nat) (k : Nat) (s : State) : State :=
  let m := leBytes 1 (wakeMask s.pwr.wakePending)
  let s := restartBlocks t ran (transOver 2 t.origin s)
  let s := bump s rPwrCount 0 [1]
  transReply t 0x0601 (m ++ leBytes 3 0) (emit 0x0203 0 (m ++ leBytes 1 (stepBlock k)) s)

/-- R508: a SPARE self-test has still to finish. -/
def testRuns (s : State) : Bool := s.tiles.any (fun x => x.code = .testing)

/-- R508 to R510: the entry steps that are left run in order. -/
def runEntry (t : PwrTrans) (ran : List Nat) : List Nat → State → State
  | [], s => completeTrans t s
  | k :: ks, s =>
    match stepRefuses k s with
    | some r => refuseTrans t ran (stepBlock k) r 3 (leBytes 1 (stepBlock k) ++ leBytes 1 r ++ leBytes 2 0) s
    | none =>
      if k = 1 ∧ testRuns s then updPwr (fun p => { p with trans := some { t with steps := k :: ks } }) s
      else if ks = [] then
        -- R506: for STANDBY, OK is sent before the ports go down
        if k = 7 then enterStep 7 (completeTrans t s) else completeTrans t (enterStep k s)
      else
        let s := enterStep k s
        if s.pwr.wakePending ≠ [] then abandonTrans t (k :: ran) k s else runEntry t (k :: ran) ks s

/-- R511: an exit to a shallower state. -/
def runExit (t : PwrTrans) (s : State) : State :=
  if t.origin = 4 then raiseSource 5 s
  else
    let s := if t.origin = 3 then lightUp s else s
    let s := completeTrans t s
    if t.target < 2 then brightenAll s else s

/-- R507: a request starts. -/
def startTrans (target : Nat) (cmd : Option CmdRef) (s : State) : State :=
  let t : PwrTrans := ⟨s.pwr.current, target, entrySteps s.pwr.current target, cmd⟩
  if target = s.pwr.current then
    match cmd with
    | some r => finishCmd r 0 [] s
    | none => emit 0x0201 0 (leBytes 1 target ++ leBytes 1 target) (updPwr (fun p => { p with lastResult := 0 }) s)
  else if s.pwr.current < target then runEntry t [] t.steps (updPwr (fun p => { p with trans := some t }) s)
  else runExit t s

/-- PWR_SET_STATE (R506, R507). -/
def pwrSetState : CmdFn := fun h c s =>
  let target := leAt c.payload 0 1
  if 5 ≤ target ∨ leAt c.payload 1 3 ≠ 0 then status 5 s
  else if s.pwr.trans.isSome then
    if s.pwr.pend.isSome then status 1 s else status 2 (updPwr (fun p => { p with pend := some target }) s)
  else (startTrans target (some (refOf h)) s, .wait)

/-- The self-test that a transition waits for has ended (R508). -/
def resumePwr (s : State) : State :=
  match s.pwr.trans with
  | some t => runEntry t [] t.steps s
  | none => s

/-- PWR_PENDING_START (R507): latched wakes have been served, and the pending request runs. -/
def execPwrPendingStart (s : State) : Result :=
  .next (
    match s.pwr.pend with
    | some t =>
      if s.pwr.trans.isNone ∧ s.pwr.wakePending = [] ∧ s.rst.level = 0 then
        startTrans t none (updPwr (fun p => { p with pend := none }) s)
      else s
    | none => s)

/-! ### Wakes -/

/-- R510, R640: an enabled wake event: 0 ALARM, 1 PIN, 2 SMBUS. A wake in RUN is latched and cleared
at once; one in an L3 or L4 reset waits for RUN. -/
def latchWake (w : Nat) (s : State) : State :=
  if bitOf (regGet s rPwrWakeCfg 0 []) w then
    updPwr (fun p =>
      { p with
        wakeSeen := if p.wakeSeen.contains w then p.wakeSeen else p.wakeSeen ++ [w]
        wakePending := if (p.current = 0 ∧ p.trans = none ∧ s.rst.level < 3) ∨ p.wakePending.contains w then p.wakePending
          else p.wakePending ++ [w] }) s
  else s

/-- WAKE_PIN (R510). -/
def execWakePin (s : State) : Result := .next (latchWake 1 s)

/-- WAKE_REPLAY (R510, R511): with no transition in progress, the latched wakes are replayed:
the first takes the module to RUN. -/
def execWakeReplay (s : State) : Result :=
  .next (
    match s.pwr.wakePending with
    | [] => s
    | w :: _ =>
      if s.pwr.trans.isSome ∨ s.rst.level ≠ 0 then s
      else
        let s := updPwr (fun p => { p with wakePending := [] }) s
        if s.pwr.current = 0 then s
        else
          let s := emit 0x0204 0 (leBytes 1 w) (bump s rPwrCount 0 [2])
          runExit ⟨s.pwr.current, 0, [], none⟩ s)

/-- A write of PWR_PAD (R512, R515). -/
def pwrPad (v : Nat) (s : State) : State :=
  if bitOf v 0 ∧ s.pwr.padHeld then emit 0x020A 0 [] (updPwr (fun p => { p with padHeld := false }) s) else s

/-! ### The input and temperatures -/

/-- VIN_OUT_OF_RANGE (R493): VIN leaves the operating range; `fault` when it has been outside
the VIN_FAULT thresholds for 100 microseconds. -/
def execVinOutOfRange (mv : Nat) (fault : Bool) (s : State) : Result :=
  .next (
    if 38000 ≤ mv ∧ mv ≤ 42000 then s
    else
      let s := if s.pwr.vinRange then s else emit 0x0207 0 (leBytes 2 mv) s
      let s := updPwr (fun p => { p with vinRange := true }) s
      if fault then raiseSource 3 s else s)

/-- VIN_IN_RANGE (R493). -/
def execVinInRange (mv : Nat) (s : State) : Result :=
  .next (if 38000 ≤ mv ∧ mv ≤ 42000 then updPwr (fun p => { p with vinRange := false }) s else s)

/-- R491: VBUS against its thresholds, in millivolts. -/
def vbusAt (mv : Nat) (s : State) : State :=
  updPwr (fun p =>
    { p with busLow := decide (mv < 11000), raiseHeld := decide (mv < 11500), stretch := decide (mv < 10500) }) s

/-- VBUS_LOW (R491). -/
def execVbusLow (mv : Nat) (s : State) : Result := .next (if mv < 11500 then vbusAt mv s else s)

/-- VBUS_RECOVERED (R491). -/
def execVbusRecovered (mv : Nat) (s : State) : Result := .next (if 10500 ≤ mv then vbusAt mv s else s)

/-- THERMAL_TRIP (R502): a zone's comparator trips. -/
def execThermalTrip (zone : Nat) (s : State) : Result :=
  .next (
    if zone < 16 then
      raiseSource 4 (emit 0x0206 0 (leBytes 1 zone) (updPwr (fun p => { p with tripped := true }) s))
    else s)

/-- INLET_HOT (R502): inlet water crosses 50 degrees. -/
def execInletHot (hot : Bool) (s : State) : Result :=
  .next (
    if hot = s.pwr.inletHot then s
    else
      let s := updPwr (fun p => { p with inletHot := hot }) s
      if hot then emit 0x0208 0 [] s else s)

end Sys2Proof.Machine
end

