-- ==== Sys2Proof/Machine/FwRows.lean ====
section
/-!
DEFINITION. The Puppeteers (R559 to R561), probation (R575, R578) and the board management
port (R588, R626 to R628).
-/

namespace Sys2Proof.Machine

/-! ### The Puppeteers -/

/-- The faults of A within 24 h of run time. -/
def recentFaults (s : State) : List Nat := recent s s.pups.aFaults

/-- The failed core after its restart (R559 step 3, R560). -/
def restarted (pass : Bool) (faults : List Nat) : PupState :=
  if pass ∧ faults.length < 3 then .ready else .unavailable

/-- R559: the standby takes over from the failed active core, which restarts. -/
def switchOver (pass : Bool) (s : State) : State :=
  let p := s.pups
  let faults := if p.bActive then p.aFaults else recentFaults s ++ [runNs s]
  let s := { s with pups := { p with
    bActive := !p.bActive, switchovers := satAdd 16 p.switchovers 1, aFaults := faults, aTested := false
    aReadyAt := if p.bActive then p.aReadyAt else runNs s
    a := if p.bActive then .active else restarted pass faults
    b := if p.bActive then restarted pass [] else .active } }
  let s := emit 0x070C 0 [] s
  let s := if pass then s else emit 0x070E 0 [] s
  if s.fw.probation.isSome then revertTrial 3 id s else s

/-- SUP_SWITCHOVER (R559, R567): the active Puppeteer fails. -/
def execSupSwitchover (pass : Bool) (s : State) : Result :=
  .next (
    if ¬ s.fw.running ∨ s.fw.recovery then s
    else if standby s = .unavailable then
      raiseSource 9 (updHost (fun h => { h with switching := true }) (updFw (fun w => { w with running := false }) s))
    else switchOver pass s)

/-- R560, R566: A has been READY for the hold-off, in run time. -/
def heldOff (s : State) : Bool :=
  decide (s.pups.aReadyAt + atLeast1 (regField s rRedPolicy 0 [] 23 16) * 60000000000 ≤ runNs s)

/-- SUP_SWITCHBACK (R560). -/
def execSupSwitchback (s : State) : Result :=
  .next (
    if s.fw.running ∧ s.pups.bActive ∧ s.pups.a = .ready ∧ s.pups.aTested ∧ heldOff s ∧ s.fw.probation = none then
      emit 0x070D 0 [] (handover s)
    else s)

/-- STANDBY_SELFTEST (R561). -/
def execStandbySelftest (pass : Bool) (s : State) : Result :=
  .next (
    if s.fw.running ∧ standby s = .ready then
      if pass then
        if s.pups.bActive then { s with pups := { s.pups with aTested := true } } else s
      else
        emit 0x070E 0 [] { s with pups :=
          if s.pups.bActive then { s.pups with a := .unavailable } else { s.pups with b := .unavailable } }
    else s)

/-- PROBATION_RUNTIME (R575): 60 s more of run time. -/
def execProbationRuntime (s : State) : Result :=
  .next (
    match s.fw.probation with
    | some (e, l) =>
      if s.fw.running then
        journal .runtime s.fw.standbySlot s.fw.activeSlot l (e + 60)
          (updFw (fun w => { w with probation := some (e + 60, l) }) s)
      else s
    | none => s)

/-- PROBATION_EXPIRY (R578). -/
def execProbationExpiry (s : State) : Result :=
  .next (
    match s.fw.probation with
    | some (e, l) =>
      if s.fw.running ∧ l * 60 ≤ e ∧ standby s = .ready then revertTrial 1 handover s else s
    | none => s)

/-! ### The board management port -/

/-- R628: the port does not answer in the L4 sequence on the RC oscillator. -/
def smbServes (s : State) : Bool := !(s.rst.rcClock && decide (s.rst.level = 4))

/-- The result of a write (STATUS byte 6). -/
def smbResult (r : Nat) (s : State) : State := updFw (fun w => { w with smbResult := r }) s

/-- RST_STATUS.EFFECTIVE: the highest level of the module-wide sources asserted. -/
def rstEffective (s : State) : Nat :=
  ((List.range 20).filter (fun i => s.rst.active.getLsbD i && decide (2 ≤ sourceLevel s i))).foldl
    (fun m i => max m (sourceLevel s i)) 0

/-- STATUS (R627). -/
def smbStatus (s : State) : List Byte :=
  leBytes 1 s.pwr.current ++ leBytes 1 (rstEffective s + 8 * s.rst.hold) ++ leBytes 3 s.rst.cause.toNat ++
  leBytes 1 (b2n s.rst.alert + 2 * b2n s.pwr.padHeld +
    4 * b2n (s.light.any (fun c => c.eyes.any (fun e => decide (e.code ≠ .normal))))) ++
  leBytes 1 s.fw.smbResult ++ [0]

/-- SMBUS_STATUS (R627). -/
def execSmbusStatus (s : State) : Result :=
  .next (if smbServes s then updFw (fun w => { w with smbOut := w.smbOut ++ [smbStatus s] }) s else s)

/-- SMBUS_WAKE (R510, R627). -/
def execSmbusWake (s : State) : Result :=
  .next (if smbServes s then latchWake 2 (smbResult 1 s) else s)

/-- SMBUS_WARM_RESET (R627). -/
def execSmbusWarmReset (data : Nat) (s : State) : Result :=
  .next (
    if smbServes s then
      if data = 0x57 then raiseSource 14 (smbResult 1 s) else smbResult 3 s
    else s)

/-- SMBUS_COLD_RESET (R627). -/
def execSmbusColdReset (data : Nat) (s : State) : Result :=
  .next (
    if smbServes s then
      if data = 0x43 then raiseSource 7 (smbResult 1 s) else smbResult 3 s
    else s)

/-- R588: the owner key changes; the open session closes. -/
def setOwner (key : List Byte) (s : State) : State :=
  emit 0x060B 0 [] (closeSession 2 (smbResult 1 (updFw (fun w => { w with ownerKey := key, install := none }) s)))

/-- R628: a Puppeteer runs firmware, so that the owner commands are served. -/
def ownerServes (s : State) : Bool := s.fw.running && !s.fw.recovery && decide (s.pwr.current ≠ 4)

/-- OWNER_INSTALL (R588, R628). -/
def execOwnerInstall (data : List Byte) (s : State) : Result :=
  .next (
    if ¬ smbServes s then s
    else if ¬ ownerServes s ∨ s.fw.install.isSome then smbResult 4 s
    else if s.fw.ownerKey = [] then
      if data.length = 96 then setOwner data s else smbResult 3 s
    else if data.length = 192 then smbResult 2 (updFw (fun w => { w with install := some data }) s)
    else smbResult 3 s)

/-- OWNER_INSTALL_CHECKED (R588): the signature check ends. -/
def execOwnerInstallChecked (s : State) : Result :=
  .next (
    match s.fw.install with
    | none => s
    | some d =>
      if ecdsaOk s.fw.ownerKey (d.drop 96) (d.take 96 ++ leBytes 4 deviceTag) then setOwner (d.take 96) s
      else smbResult 3 (updFw (fun w => { w with install := none }) s))

/-- OWNER_CLEAR (R588). -/
def execOwnerClear (s : State) : Result :=
  .next (
    if ¬ smbServes s then s
    else if ¬ ownerServes s ∨ s.fw.install.isSome then smbResult 4 s
    else match s.fw.l4End with
      | some t => if runNs s < t + 10000000000 then setOwner [] s else smbResult 3 s
      | none => smbResult 3 s)

/-- RECOVERY_REQ (R585, R588). -/
def execRecoveryReq (s : State) : Result :=
  .next (if smbServes s then smbResult 1 (updFw (fun w => { w with recoveryReq := true }) s) else s)

end Sys2Proof.Machine
end

