-- ==== Sys2Proof/Machine/MemRows.lean ====
section
/-!
DEFINITION. The events of the memories and the effects of their command registers (R162 to
R164, R168 to R173, R180 to R184, R189).
-/

namespace Sys2Proof.Machine

/-- MR4_POLL (R162, R172): whether device `n` answered, and whether it reports a temperature
above its range. -/
def execMr4Poll (n : Nat) (answered hot : Bool) (s : State) : Result :=
  .next (
    let st := stripAt s n
    if st.code = .training then s
    else if answered then
      let s := updStrip n (fun x => { x with mrMiss := 0 }) s
      let rest := s.pwr.hotDevs.filter (fun d => d ≠ n)
      let s := { s with pwr := { s.pwr with hotDevs := if hot then rest ++ [n] else rest } }
      if hot then emit 0x0A0A n [] s else s
    else
      let s := updStrip n (fun x => { x with mrMiss := x.mrMiss + 1 }) s
      if 3 ≤ st.mrMiss + 1 then offlineStrip n 2 s else s)

/-- WCK2DQ_CHECK (R163): a drifted channel is retrained; its accesses are held meanwhile and
none is lost or reordered, so nothing else changes. -/
def execWck2dqCheck (_n _c : Nat) (_drifted : Bool) (s : State) : Result := .next s

/-- LPDDR_SCRUB (R167, R168): the patrol scrub reads granule `g`; the upsets strike first. -/
def execLpddrScrub (g : Nat) (ups : List Upset) (s : State) : Result :=
  .next (
    let c := (stripAt s (stripOf (g * 64))).code
    if regField s rMemPolicy 0 [] 31 24 ≠ 0 ∧ s.pwr.current < 2 ∧ g * 64 < ddrSize ∧ (c = .online ∨ c = .degraded) then
      (readGran g (strike ups s)).1
    else s)

/-- R92, R93, R99, R504: a slice that is powered: the tile islands run, the tile is neither SPARE,
nor RETIRED with nothing to be copied from it, and its slice is not in retention. -/
def slicePowered (s : State) (t : Nat) : Bool :=
  let c := (tileAt s t).code
  decide (s.pwr.current < 2) &&
    (if c = .retired then s.mem.migrate.any (fun p => p.1 = t) else !(decide (c = .spare ∨ c = .faulted)))

/-- SLICE_SCRUB (R180): a row of a bank of a slice is read. -/
def execSliceScrub (t bank row : Nat) (ups : List Upset) (s : State) : Result :=
  .next (
    if t < 156 ∧ bank < 32 ∧ row < 2048 ∧ slicePowered s t then
      (sliceCheck t (sliceRowOff bank row) 512 (strike ups s)).1
    else s)

/-- R183: the tile's program runs, or its job has not ended. -/
def tileInRun (s : State) (t : Nat) : Bool :=
  decide ((tileAt s t).code = .running) || (decide ((tileAt s t).code = .halted) && jobRunning s)

/-- AS_COLUMN_REPAIR (R183): the tile runs no program, so its pending column repairs are
made. -/
def execAsColumnRepair (t : Nat) (s : State) : Result :=
  .next (
    if !tileInRun s t then
      forEach (sliceAt s t).colDue (fun c st => repairColumn t (c / 4384) (c % 4384) st) s
    else s)

/-! ### Bringing a strip up (R164, R170 to R173) -/

/-- R164 step 6, R165: every granule of a strip is written as zero with a valid check word. -/
def zeroStrip (n : Nat) (s : State) : State :=
  { s with mem := { s.mem with
      cells := memClear s.mem.cells (ddrBase + n * stripSize) stripSize
      gran := s.mem.gran.filter (fun c => stripOf (c.1 * 64) ≠ n) } }

/-- R641: the lowest code among the causes for DEGRADED that hold. -/
def degradeCause (x : Strip) : Nat :=
  if x.slow then 1 else if x.lost ≠ [] then 2 else if 12 ≤ x.patch.length then 3 else 0

/-- R164 step 4, R169 step 4, R171: hard PPR repairs some of the retired rows. -/
def pprRows (n : Nat) (r : StripTrain) (s : State) : State :=
  let st := stripAt s n
  let done := st.retired.filter (fun x => r.repaired.contains x)
  let keep := fun (xs : List Nat) => xs.filter (fun x => !r.repaired.contains x)
  let s := updStrip n (fun x =>
    { x with patch := keep x.patch, lost := keep x.lost, retired := keep x.retired
             pprLeft := min r.pprLeft 15 }) s
  forEach done (fun row st => emit 0x0A05 n (leBytes 8 ((rowGrans n row).headD 0 * 64)) st) s

/-- R164 steps 2 to 6 for one strip: what training comes to is the operand. -/
def bringUpStrip (n : Nat) (r : StripTrain) (s : State) : State :=
  let s := if r.fast then s else emit 0x0A09 n [0] s
  if !r.fast && !r.slow then
    offlineStrip n 1 (updStrip n (fun x => { x with code := .training }) (emit 0x0A09 n [1] s))
  else
    let s := updStrip n (fun x => { x with slow := !r.fast, mrMiss := 0, ueRows := [], ceRows := [] }) s
    let s := zeroStrip n (pprRows n r s)
    let x := stripAt s n
    let s := updStrip n (fun x => { x with code := .online, cause := 0 }) s
    if 16 < x.lost.length then offlineStrip n 3 s
    else if degradeCause x ≠ 0 then degradeStrip n (degradeCause x) s
    else s

/-- MEM_STRIP_CTRL.RESTORE (R173). -/
def stripRestore (n : Nat) (r : StripTrain) (s : State) : State :=
  if (stripAt s n).code = .offline then
    let s := bringUpStrip n r (updStrip n (fun x => { x with code := .training }) s)
    if (stripAt s n).code = .offline then s else emit 0x0A08 n [] s
  else s

/-- MEM_STRIP_CTRL.OFFLINE (R172, R186): a bulk transfer on the strip ends with
MEM_OFFLINE. -/
def stripOffline (n : Nat) (s : State) : State := offlineStrip n 5 s

/-- MEM_RETIRE_ADDR (R169). -/
def retireAddr (dpa : Nat) (s : State) : State := retireRow (stripOf dpa) (rowOf dpa) s

end Sys2Proof.Machine
end

