-- ==== Sys2Proof/Machine/BulkOps.lean ====
section
/-!
DEFINITION. Bulk transfers (R460 to R464, R174, R175).
-/

namespace Sys2Proof.Machine

/-- A field of HOST_POLICY, where 0 acts as 1 (R467). -/
def hostPolicy (s : State) (hi lo : Nat) : Nat := atLeast1 (regField s rHostPolicy 0 [] hi lo)

/-- R462: the WINDOW that the module gives, in blocks. -/
def bulkWindow (s : State) : Nat := min (hostPolicy s 7 0) 32 * 32

/-- R461: 8,192 B a block. -/
def blockLen : Nat := 8192

/-- R461: the blocks of a transfer. -/
def bulkBlocks (b : Bulk) : Nat := (b.len + blockLen - 1) / blockLen

/-- R461: the bytes of a block; the last holds the remainder. -/
def bulkPart (b : Bulk) (k : Nat) : Nat := min blockLen (b.len - k * blockLen)

/-- The transfer in progress with a sequence number. -/
def bulkAt (s : State) (q : Nat) : Option Bulk := s.host.bulks.find? (fun b => b.cmd.seq = q)

/-- The state with a transfer changed. -/
def updBulk (q : Nat) (f : Bulk → Bulk) (s : State) : State :=
  updHost (fun h => { h with bulks := h.bulks.map (fun b => if b.cmd.seq = q then f b else b) }) s

/-- R463: a transfer ends with its final reply. -/
def endBulk (b : Bulk) (st : Nat) (payload : List Byte) (s : State) : State :=
  finishCmd b.cmd st payload
    (updHost (fun h => { h with bulks := h.bulks.filter (fun x => x.cmd.seq ≠ b.cmd.seq) }) s)

/-! ### Where packets of the module's own go -/

/-- The source of the session seen most recently on a port's network (R432). -/
def seenOn (s : State) (n : Nat) : Option ReplyTo := if n < 4 then s.host.seenA else s.host.seenB

/-- A packet of the open session has arrived by a port from a source (R432, R462). -/
def touchSession (h : Header) (s : State) : State :=
  let src := some (sourceOf h)
  updHost (fun x =>
    { x with seenA := if h.port < 4 then src else x.seenA, seenB := if h.port < 4 then x.seenB else src
             portSeen := Cells.set 0 x.portSeen h.port (runNs s + 1) }) s

/-- When the session was last heard on a port; 0 for never. -/
def portHeard (s : State) (n : Nat) : Nat := Cells.get 0 s.host.portSeen n

/-- R432: the port for an acknowledgement: an up port of a network on which the session has
been heard, the one heard most recently. -/
def ackPort (s : State) : Option Nat :=
  ((List.range 8).filter (fun n => portUp s n && (seenOn s n).isSome)).foldl (fun best n =>
    match best with
    | some m => if portHeard s m < portHeard s n then some n else some m
    | none => some n) none

/-- R462: the port for the next read block, in turn over those that are up and on which the
session has sent within the last 1 s. -/
def readPort (s : State) : Option Nat :=
  let ok := (List.range 8).filter (fun n =>
    portUp s n && decide (portHeard s n ≠ 0 ∧ runNs s < portHeard s n - 1 + 1000000000))
  (ok.find? (fun n => s.host.robin < n)).or ok.head?

/-- R461: a bulk packet leaves by a port. -/
def sendBulk (n op : Nat) (c : CmdRef) (payload : List Byte) (s : State) : State :=
  match seenOn s n with
  | some d => sendPacket ⟨n, d.src, op, c.session, c.seq, 0, s.red.claim, payload⟩ s
  | none => s

/-! ### Writes -/

/-- R461: the lowest block not yet received. -/
def nextBlock (b : Bulk) : Nat := ((List.range (bulkBlocks b)).find? (fun k => !b.got.contains k)).getD (bulkBlocks b)

/-- R461, R462: a BULK_ACK of a write. -/
def sendAck (b : Bulk) (s : State) : State :=
  let n := nextBlock b
  let mask := (List.range 64).foldl (fun m i => if b.got.contains (n + 1 + i) then m + 2 ^ i else m) 0
  let s := updBulk b.cmd.seq (fun x => { x with sinceAck := 0 }) s
  match ackPort s with
  | some p => sendBulk p 0x0303 b.cmd (leBytes 4 n ++ leBytes 4 (bulkWindow s) ++ leBytes 8 mask) s
  | none => s

/-- The memory key of an offset of a transfer. -/
def bulkKey (b : Bulk) (a : Nat) : Nat :=
  match b.space with
  | 0 => ddrBase + a
  | 1 => sliceBase b.tile + a
  | _ => scratchBase b.tile + a

/-- R464: the keys of a range of a write that another write in progress covers too. -/
def bulkOverlap (b : Bulk) (a n : Nat) (s : State) : List Nat :=
  s.host.bulks.flatMap (fun c =>
    if c.write && decide (c.cmd ≠ b.cmd) && decide (c.space = b.space ∧ (b.space = 0 ∨ c.tile = b.tile)) then
      sharedKeys (bulkKey b a) n (bulkKey c c.addr) c.len else [])

/-- A block of a write reaches memory, unless its tile does not serve (R88); the answer is the first byte discarded (R175, R227). -/
def storeBlock (b : Bulk) (k : Nat) (data : List Byte) (s : State) : State × Option Nat :=
  let a := b.addr + k * blockLen
  let s := fun (f : State → State × Option Nat) => let r := f s; (spoilKeys (bulkOverlap b a data.length s) r.1, r.2)
  match b.space with
  | 0 => s (ddrWrite a data)
  | 1 => s (fun s => (if serving (tileAt s b.tile) then sliceWrite b.tile a data s else s, none))
  | _ => s (fun s => (if serving (tileAt s b.tile) then scratchWrite b.tile a data s else s, none))

/-- A place of a write discarded: counted, and the lowest kept. -/
def noteBad (n first : Nat) (b : Bulk) : Bulk :=
  if n = 0 then b
  else { b with bad := b.bad + n, firstBad := if b.bad = 0 then first else min b.firstBad first }

/-- R175: places of a read that return zeros: each counts once, be it met in two blocks. -/
def noteZeroed (us : List Nat) (b : Bulk) : Bulk :=
  let new := us.filter (fun u => decide (b.lastBad ≠ some u))
  { noteBad new.length (new.headD 0) b with lastBad := us.getLast?.or b.lastBad }

/-! ### Reads -/

/-- R175: the words of an SRAM range that are marked or decode as uncorrectable, by key. -/
def badWords (key n : Nat) (s : State) : List Nat :=
  ((wordRange key n).filter (fun w => match Cells.get .clean s.mem.words w with
    | .double => true
    | .bad => true
    | _ => false)).map (· * 16)

/-- Bytes from address `a` with zeros in place of those of the units of `n` bytes that start
at the addresses listed. -/
def blankAt (a n : Nat) (starts : List Nat) (bs : List Byte) : List Byte :=
  bs.zipIdx.map (fun x => if starts.any (fun u => decide (u ≤ a + x.2 ∧ a + x.2 < u + n)) then 0 else x.1)

/-- R88: what a tile that does not serve answers: an error for every word, which the model reads
as R175 reads uncorrectable words (assumption 33, DESIGN CHOICE). -/
def refusedRange (a n : Nat) : List Byte × List Nat :=
  (List.replicate n 0, (List.range ((n + 15) / 16)).map (fun i => a + 16 * i))

/-- R175: a range as a BULK_READ returns it, with the places that read as zero: DPAs, or
offsets into the slice or scratch. -/
def loadRange (b : Bulk) (a n : Nat) (s : State) : State × List Byte × List Nat :=
  match b.space with
  | 0 =>
    let r := ddrRead a n s
    let bad := r.2.2.map (· * 64)
    (r.1, blankAt a 64 bad r.2.1, bad)
  | 1 =>
    if !serving (tileAt s b.tile) then (s, refusedRange a n) else
    let t := (sliceCheck b.tile a n s).1
    let bad := (badWords (sliceBase b.tile + a) n t).map (· - sliceBase b.tile)
    (t, blankAt a 16 bad (memRead t.mem.cells (sliceBase b.tile + a) n), bad)
  | _ =>
    if !serving (tileAt s b.tile) then (s, refusedRange a n) else
    let t := (scratchCheck b.tile a n s).1
    let bad := (badWords (scratchBase b.tile + a) n t).map (· - scratchBase b.tile)
    (t, blankAt a 16 bad (memRead t.mem.cells (scratchBase b.tile + a) n), bad)

/-- R462: read block `k` is sent; the first time, the places that read as zero are counted. -/
def sendBlock (b : Bulk) (k p : Nat) (s : State) : State :=
  let r := loadRange b (b.addr + k * blockLen) (bulkPart b k) s
  let s := if k < b.sent then hostCount 10 r.1
    else updBulk b.cmd.seq (fun x => { noteZeroed r.2.2 x with sent := k + 1 }) r.1
  let s := bumpBy (updHost (fun h => { h with robin := p }) s) rHostCount 0 [9] (bulkPart b k)
  sendBulk p 0x0302 b.cmd (leBytes 4 k ++ leBytes 4 0 ++ r.2.1) s

/-- A strip that a transfer touches is TRAINING, so its bytes wait (R172). -/
def bulkHeld (b : Bulk) (s : State) : Bool := decide (b.space = 0) && ddrHeld b.addr b.len s

/-- R462: new read blocks are sent while the window is open and a port serves. -/
def pumpRead (q : Nat) : Nat → State → State
  | 0, s => s
  | n + 1, s =>
    match bulkAt s q, readPort s with
    | some b, some p =>
      if !b.write && !b.offline && !bulkHeld b s && decide (b.sent < bulkBlocks b ∧ b.sent < b.window) then
        pumpRead q n (sendBlock b b.sent p s)
      else s
    | _, _ => s

/-- R462: read blocks are sent again. -/
def resendBlocks (q : Nat) (ks : List Nat) (s : State) : State :=
  forEach ks (fun k st =>
    match bulkAt st q, readPort st with
    | some b, some p => sendBlock b k p st
    | _, _ => st) s

/-! ### The command -/

/-- R460, R174: the status with which BULK_WRITE or BULK_READ ends before a byte moves. -/
def bulkFault (p : List Byte) (s : State) : Option Nat :=
  let space := at1 p 0
  let l := leAt p 2 2
  let a := leAt p 8 8
  let n := leAt p 16 8
  let size := if space = 0 then ddrSize else if space = 1 then sliceSize else scratchSize
  if 2 < space ∨ !zeros p 1 1 ∨ !zeros p 4 4 ∨ 143 < l ∨ (space = 0 ∧ l ≠ 0) ∨ a % 16 ≠ 0 ∨ n % 16 ≠ 0 ∨ n < 16 ∨
      size < a + n then some 5
  else if space = 0 then
    if (List.range 16).any (fun k => decide (stripOf a ≤ k ∧ k ≤ stripOf (a + n - 1)) && (stripAt s k).code = .offline)
    then some 0x0301 else none
  else match physOf s l with
    | none => some 0x0401
    | some t => if (tileAt s t).code = .running ∨ (tileAt s t).code = .testing then some 1 else none

/-- BULK_WRITE and BULK_READ start (R460, R462). -/
def bulkStart (write : Bool) : CmdFn := fun h c s =>
  let p := c.payload
  match bulkFault p s with
  | some e => status e s
  | none =>
    let b : Bulk :=
      { cmd := refOf h, write := write, space := at1 p 0, tile := (physOf s (leAt p 2 2)).getD 0
        addr := leAt p 8 8, len := leAt p 16 8, window := bulkWindow s }
    let s := updHost (fun x => { x with bulks := x.bulks ++ [b] }) s
    (if write then sendAck b s else pumpRead h.seq (bulkBlocks b) s, .wait)

end Sys2Proof.Machine
end

