-- ==== Sys2Proof/Machine/MarOps.lean ====
section
/-!
DEFINITION. The Marionette engines (R380 to R409): the arithmetic of a string's chain, its
supervision, its policies, the crosstalk matrix and what an engine's tick does.
-/

namespace Sys2Proof.Machine

/-! ### Arithmetic (R384, R387) -/

/-- A two's-complement field of `n` bits as a number. -/
def signedOf (n v : Nat) : Int :=
  if v % 2 ^ n < 2 ^ (n - 1) then ((v % 2 ^ n : Nat) : Int) else ((v % 2 ^ n : Nat) : Int) - 2 ^ n

/-- A number clamped to bounds. -/
def clampTo (lo hi v : Int) : Int := max lo (min hi v)

/-- A value saturated at the limits of a signed field of `n` bits. -/
def satInt (n : Nat) (v : Int) : Int := clampTo (-(2 ^ (n - 1))) (2 ^ (n - 1) - 1) v

/-- Round to nearest, ties to even, of `v / 2 ^ k`. -/
def rneInt (v : Int) (k : Nat) : Int :=
  if v < 0 then -(rneShift v.natAbs k : Int) else (rneShift v.natAbs k : Int)

/-- R387: a sum in units of 2^-46 rounded once to string units. -/
def toUnits (v : Int) : Int := satInt 24 (rneInt v 46)

/-! ### Strings -/

/-- Engine `e`. -/
def engAt (s : State) (e : Nat) : MarEngine :=
  s.mar.getD e { ticks := 0, strs := [], active := [], heaters := [], cmdRej := false }

/-- The state with an engine changed. -/
def updEng (e : Nat) (f : MarEngine → MarEngine) (s : State) : State :=
  { s with mar := s.mar.set e (f (engAt s e)) }

/-- String `i` of engine `e`. -/
def strAt (s : State) (e i : Nat) : Str := Cells.get {} (engAt s e).strs i

/-- The state with a string changed. -/
def updStr (e i : Nat) (f : Str → Str) (s : State) : State :=
  updEng e (fun m => { m with strs := Cells.upd {} m.strs i f }) s

/-- CMD_REJ of MAR_STATUS. -/
def marReject (e : Nat) (s : State) : State := updEng e (fun m => { m with cmdRej := true }) s

/-- One count of MAR_COUNT. -/
def marCount (e i : Nat) (s : State) : State := bump s rMarCount e [i]

/-- R381: the fixed strings of an engine are the first of it. -/
def fixedCount (e : Nat) : Nat := if e < 8 then 136 else 18

/-- R381: the laser, or the ring, of a chiplet engine's string. -/
def strLaser (i : Nat) : Nat := i % 36

/-- R381: the lane of an alignment string. -/
def strLane (e i : Nat) : Nat := laneOf e (i - 104)

/-- R382, R513: whether a string's element has it run. -/
def strRuns (s : State) (e i : Nat) : Bool :=
  if i < fixedCount e then
    if e < 8 then
      if i < 72 then
        let k := (laserAt s e (strLaser i)).code
        decide (k ≠ .off ∧ k ≠ .spare ∧ k ≠ .worn ∧ k ≠ .failed)
      else if i < 104 then
        let k := (ringAt s e (i - 72)).code
        decide (k ≠ .off ∧ k ≠ .failed)
      else bitOf (osumMask s) (strLane e i / 8)
    else s.pwr.applied && decide (s.pwr.current < 4)
  else regField s rMarStrCfg e [i] 31 31 = 1

/-- R386: DIV of a string. -/
def strDiv (s : State) (e i : Nat) : Nat := regField s rMarStrCfg e [i] 15 0

/-- R386: fractions added. -/
def addFrac (a b : Nat × Nat) : Nat × Nat :=
  let n := a.1 * b.2 + b.1 * a.2
  let d := a.2 * b.2
  let g := Nat.gcd n d
  if g = 0 then (n, d) else (n / g, d / g)

/-- R386: LOAD of an engine. -/
def marLoad (s : State) (e : Nat) : Nat :=
  let t := ((List.range 256).filter (fun i =>
      decide (i < fixedCount e) || regField s rMarStrCfg e [i] 31 31 = 1)).foldl
    (fun a i => addFrac a (8, max 1 (strDiv s e i))) (0, 1)
  (t.1 + t.2 - 1) / t.2

/-- A PWR_POLICY field with its range (R500). -/
def policyIn (lo hi v : Nat) : Int := ((max lo (min hi v) : Nat) : Int)

/-- R381, R499: the hardware set point of a fixed string. -/
def hardPoint (s : State) (e i : Nat) : Int :=
  if e < 8 then
    if 36 ≤ i ∧ i < 72 then
      let n := strLaser i
      let x := laserAt s e n
      let f := (x.slot.getD 0) / 8
      let sp := clampTo (-30) 30 (signedOf 8 (regField s rFabLaunch e [f] 7 0))
      if x.code = .dim then
        -- R372 step 5: at most 3 dB in each 100 µs
        let up : Nat := if rising s e n then 30 * ((runNs s - (eyeAt s e f).since) / 100000) else 0
        Config.launchUnits (36 * e + n) (min (max sp (-130)) ((up : Int) - 130))
      else Config.launchUnits (36 * e + n) sp
    else 0
  else
    let p := regGet s rPwrPolicy 0 []
    if i < 16 then policyIn 80 105 (bits p 22 16) * 2 ^ 16
    else if i = 16 then policyIn 100 450 (bits p 31 23) * 2 ^ 14
    else ((rneShift ((policyIn 50 125 (bits p 7 0)).toNat * 2 ^ 20 / 10) 1 : Nat) : Int)

/-- R392: the set point of a string. -/
def setPoint (s : State) (e i : Nat) : Int :=
  match regField s rMarStrCfg e [i] 28 27 with
  | 1 => (strAt s e (regField s rMarStrCfg e [i] 23 16)).u
  | 2 => if i < fixedCount e then hardPoint s e i else signedOf 24 (regGet s rMarStrSp e [i])
  | _ => signedOf 24 (regGet s rMarStrSp e [i])

/-- R393: a string whose output is the set point of a string that is not CLOSED. -/
def innerOpen (s : State) (e i : Nat) : Bool :=
  (List.range 256).any (fun k =>
    decide (regField s rMarStrCfg e [k] 28 27 = 1 ∧ regField s rMarStrCfg e [k] 23 16 = i ∧
      (strAt s e k).code ≠ .closed))

/-! ### The chain (R388 to R390) -/

/-- The committed copy of a shadowed register (R395). -/
def activeReg (s : State) (r : RegRow) (e : Nat) (ix : List Nat) : Nat :=
  (Cells.get (BitVec.ofNat 64 (regReset r e ix)) (engAt s e).active (rowOffset r ix)).toNat

/-- The state with a shadowed register committed. -/
def commitReg (r : RegRow) (e : Nat) (ix : List Nat) (s : State) : State :=
  let d := BitVec.ofNat 64 (regReset r e ix)
  let v := BitVec.ofNat 64 (regGet s r e ix)
  updEng e (fun m => { m with active := Cells.set d m.active (rowOffset r ix) v }) s

/-- TYPE, IDX, TABLE and X of a stage, and its six coefficients. -/
structure StageCfg where
  type : Nat
  idx : Nat
  table : Nat
  x : Nat
  c : List Int
deriving DecidableEq, Repr

/-- A stage as its four registers hold it. -/
def stageCfg (ctl c0 c1 c2 : Nat) : StageCfg :=
  ⟨bits ctl 2 0, bits ctl 9 8, bits ctl 21 16, bits ctl 29 24,
    [c0, c1, c2].flatMap (fun v => [signedOf 16 (v % 65536), signedOf 16 (v / 65536)])⟩

/-- A committed stage. -/
def stageOf (s : State) (e i j : Nat) : StageCfg :=
  stageCfg (activeReg s rMarStgCtl e [i, j]) (activeReg s rMarStgC e [i, j, 0])
    (activeReg s rMarStgC e [i, j, 1]) (activeReg s rMarStgC e [i, j, 2])

/-- A stage's shadow. -/
def stageShadow (s : State) (e i j : Nat) : StageCfg :=
  stageCfg (regGet s rMarStgCtl e [i, j]) (regGet s rMarStgC e [i, j, 0])
    (regGet s rMarStgC e [i, j, 1]) (regGet s rMarStgC e [i, j, 2])

/-- R389: the commanded channel of a string's element. -/
def strChannel (s : State) (e i : Nat) : Nat :=
  if e < 8 ∧ i < 72 then (laserAt s e (strLaser i)).channel
  else if e < 8 ∧ i < 104 then (ringAt s e (i - 72)).channel
  else Config.lutChannel e i % 32

/-- Entry T(n) of a gain table. -/
def lutEntry (s : State) (e t n : Nat) : Int :=
  let v := activeReg s rMarLut e [t, n / 2]
  signedOf 16 (if n % 2 = 0 then v % 65536 else v / 65536)

/-- R389: the gain of a table: its segment and the fraction of it. -/
def lutGain (s : State) (e t seg f : Nat) : Int :=
  let a := lutEntry s e t seg
  a + rneInt ((lutEntry s e t (seg + 1) - a) * f) 8

/-- R389: the segment and the fraction that an index source gives. -/
def lutIndex (s : State) (e i idx : Nat) (sp y x : Int) : Nat × Nat :=
  if idx = 2 then (strChannel s e i / 2, 128 * (strChannel s e i % 2))
  else
    let v := if idx = 0 then sp else if idx = 1 then y else x
    let n := (v + 2 ^ 23).toNat
    (n / 2 ^ 20 % 16, n / 2 ^ 12 % 256)

/-- A sample on its way through a chain: the signal, the stages' state, the integrator's
candidate with its increment, its input and its output, and the way the limiter clipped. -/
structure ChainRun where
  x : Int
  st : Cells (Int × Int)
  cand : Option Int := none
  inc : Int := 0
  xin : Int := 0
  iout : Int := 0
  hi : Bool := false
  lo : Bool := false
deriving DecidableEq, Repr

/-- R388: a signal through one stage. `acc` is the integrator's accumulator. -/
def runStage (s : State) (e i : Nat) (sp y acc : Int) (g : StageCfg) (j : Nat) (r : ChainRun) : ChainRun :=
  let k := fun (n : Nat) => g.c.getD n 0 * 2 ^ g.x
  match g.type with
  | 1 =>
    let p := lutIndex s e i g.idx sp y r.x
    { r with x := toUnits (lutGain s e g.table p.1 p.2 * 2 ^ g.x * r.x) }
  | 2 =>
    let inc := k 1 * r.x
    let cand := satInt 48 (rneInt (acc * 2 ^ 22 + inc) 22)
    let out := toUnits (k 0 * r.x + cand * 2 ^ 22)
    { r with x := out, cand := some cand, inc := inc, xin := r.x, iout := out }
  | 3 =>
    let z := Cells.get (0, 0) r.st j
    let out := toUnits (k 0 * r.x + z.1 * 2 ^ 30)
    let s1 := satInt 40 (rneInt (k 1 * r.x - k 3 * out + z.2 * 2 ^ 30) 30)
    let s2 := satInt 40 (rneInt (k 2 * r.x - k 4 * out) 30)
    { r with x := out, st := Cells.set (0, 0) r.st j (s1, s2) }
  | 4 =>
    let v := r.x * 2 ^ 46
    let last := (Cells.get (0, 0) r.st j).1 * 2 ^ 46
    let a := clampTo (k 0) (k 1) v
    let b := if k 2 = 0 then a else clampTo (last - k 2) (last + k 2) a
    let out := toUnits b
    { r with x := out, st := Cells.set (0, 0) r.st j (out, 0), hi := decide (b < v), lo := decide (v < b) }
  | _ => r

/-- R385: a signal through the stages from number `j`, up to the first NONE. -/
def runChain (s : State) (e i : Nat) (sp y acc : Int) : Nat → Nat → ChainRun → ChainRun
  | 0, _, r => r
  | n + 1, j, r =>
    let g := stageOf s e i j
    if g.type = 0 then r else runChain s e i sp y acc n (j + 1) (runStage s e i sp y acc g j r)

/-- A sample of a string through its whole chain. -/
def chainOf (s : State) (e i : Nat) : ChainRun :=
  let x := strAt s e i
  let sp := setPoint s e i
  runChain s e i sp x.y x.acc 8 0 { x := satInt 24 (sp - x.y), st := x.st }

/-- R390: whether the candidate is dropped. -/
def windup (x : Str) (r : ChainRun) : Bool :=
  x.innerHeld || (decide (0 < r.inc) && (r.hi || x.boundHi)) || (decide (r.inc < 0) && (r.lo || x.boundLo))

/-- An increment that is dropped is counted. -/
def countSkip (e : Nat) (inc : Int) (s : State) : State := if inc = 0 then s else marCount e 7 s

/-- R401 step 2: the accumulator with which the integrator's output equals its last, or the one that
light management has loaded (R407). -/
def rearmAcc (s : State) (e i : Nat) : Int :=
  let x := strAt s e i
  if x.loaded then x.acc else
  match (List.range 8).find? (fun j => (stageOf s e i j).type = 2) with
  | some j =>
    let g := stageOf s e i j
    satInt 48 (rneInt (x.iout * 2 ^ 46 - g.c.getD 0 0 * 2 ^ g.x * x.xin) 22)
  | none => x.acc

/-- R396, R401: the supervision's windows restart, and the string is CLOSED. -/
def closeStr (e i : Nat) (s : State) : State :=
  updStr e i (fun x =>
    { x with code := .closed, ys := [], us := [x.u], count := 0, ends := 0, badBlocks := 0, loaded := false }) s

/-! ### Supervision (R396 to R399) -/

/-- R396: N. -/
def frozenN (s : State) (e i : Nat) : Nat :=
  2 ^ max 3 (min 12 (regField s rMarStrSup e [i] 27 24))

/-- The span of a list of values. -/
def spanOf : List Int → Int
  | [] => 0
  | v :: vs => vs.foldl max v - vs.foldl min v

/-- R396: whether a block of N samples looks implausible: the change that the model predicts
against the change observed, in units of 2^-46. -/
def badBlock (s : State) (e i : Nat) (x : Str) (n : Nat) : Bool :=
  let m := regGet s rMarStrModel e [i]
  let lsb : Int := 2 ^ (24 - x.width)
  let p := signedOf 16 (bits m 15 0) * 2 ^ (bits m 31 26) * (x.us.getD 0 0 - x.us.getD n 0)
  let a := (x.ys.getD 0 0 - x.ys.getD n 0) * 2 ^ 46
  decide (4 * lsb * 2 ^ 46 ≤ (p.natAbs : Int) ∧ a * p < 0 ∧ p.natAbs ≤ 2 * a.natAbs)

/-- R396: the checks of a sample of a CLOSED string: the fault, if any (1 LOST, 2 FROZEN,
3 IMPLAUSIBLE, 4 PARITY), and the string with its counts. `x.ys` holds the new reading. -/
def supervise (s : State) (e i : Nat) (parity : Bool) (x : Str) : Nat × Str :=
  let n := frozenN s e i
  let lost := max 1 (regField s rMarStrSup e [i] 31 28)
  let impl := regField s rMarStrModel e [i] 25 22
  let x := { x with ends := if x.atEnd then x.ends + 1 else 0 }
  if parity then (4, x)
  else if !x.valid then (1, x)
  else if lost ≤ x.ends then (1, x)
  else if n ≤ x.count then
    if spanOf (x.ys.take n) ≤ 2 ^ (24 - x.width) ∧
        (regField s rMarStrSup e [i] 23 0 : Int) < spanOf (x.us.take n) then (2, x)
    else if x.count % n = 0 then
      let bad := if badBlock s e i x n then x.badBlocks + 1 else 0
      (if 0 < impl ∧ impl ≤ bad then 3 else 0, { x with badBlocks := bad })
    else (0, x)
  else (0, x)

/-- R402: row `r` of the matrix of fibre `f`, with the outputs of its rings. -/
def heaterRow (s : State) (e f r : Nat) (us : List Int) : Int :=
  let x := activeReg s rMarXtExp e [f]
  let c := fun (q : Nat) =>
    let v := activeReg s rMarXt e [f, r, q / 2]
    signedOf 16 (if q % 2 = 0 then v % 65536 else v / 65536)
  rneInt (((List.range 8).map (fun q => c q * us.getD q 0)).foldl (· + ·) 0 * 2 ^ x) 46

/-- R403: the outputs of a fibre's ring strings as the matrix takes them. -/
def ringOuts (s : State) (e f : Nat) : List Int :=
  (List.range 8).map (fun q =>
    let k := (ringAt s e (8 * f + q)).code
    if k = .off ∨ k = .failed then 0 else (strAt s e (72 + 8 * f + q)).u)

/-- R397, R398: what entering a policy does to the string's element: R375 for a laser, HELD (R351) or
PREBIAS for a ring. -/
def policyElem (e i : Nat) (safe : Bool) (good : Int) (s : State) : State :=
  if e < 8 ∧ i < 72 ∧ safe then
    let n := strLaser i
    let x := laserAt s e n
    let s := updLaser e n (fun x =>
      { x with lockOut := x.lockOut || decide (i < 36), alcOut := x.alcOut || decide (36 ≤ i) }) (dimLaser e n s)
    let s := match x.slot with
      | some k => faultLane (laneOf e k) 12 s
      | none => s
    emit 0x0E0B (36 * e + n) [] s
  else if e < 8 ∧ 72 ≤ i ∧ i < 104 then
    let r := i - 72
    if safe then prebiasRing e r s
    else
      let h := clampTo 0 8388607 (heaterRow s e (r / 8) (r % 8) ((ringOuts s e (r / 8)).set (r % 8) good))
      updStr e i (fun x => { x with heat := h })
        (updRing e r (fun y => if y.code = .locked ∨ y.code = .scan then { y with code := .held } else y) s)
  else s

/-- R398: one step of a ramp. -/
def rampTo (s : State) (e i : Nat) (goal from_ : Int) : Int :=
  let step : Int := 2 ^ min 23 (regField s rMarStrSafe e [i] 28 24)
  clampTo (from_ - step) (from_ + step) goal

/-- R398: where a string in SAFE ramps to; none where its output is held. -/
def safeGoal (s : State) (e i : Nat) : Option Int :=
  if e < 8 ∧ i < 36 then none
  else if e < 8 ∧ i < 72 then some (calValue s 2 (36 * e + strLaser i) 1 * 2 ^ 12)
  else if 8 ≤ e ∧ i < 18 then some (-(2 ^ 23))
  else some (signedOf 24 (regField s rMarStrSafe e [i] 23 0))

/-- R398: the output of a string in HOLD or SAFE at a sample. -/
def policyOut (s : State) (e i : Nat) (x : Str) : Int :=
  if x.code = .safe then
    match safeGoal s e i with
    | some g => rampTo s e i g x.u
    | none => x.good
  else x.good

/-- The bytes of a signal in a record. -/
def signalBytes (v : Int) : List Byte := leBytes 3 (v % 2 ^ 24).toNat

/-- R408: a record of a string. -/
def marRecord (code e i : Nat) (s : State) : State :=
  let x := strAt s e i
  emit code (256 * e + i) (leBytes 1 e ++ leBytes 2 i ++ signalBytes x.y ++ signalBytes x.u) s

/-- R397: a check has failed: the string enters its policy, whose first output is applied at
the next tick. -/
def faultStr (e i cause : Nat) (s : State) : State :=
  let safe := regField s rMarStrCfg e [i] 29 29 = 1
  let x := strAt s e i
  let good := if cause = 1 ∨ cause = 4 then x.u else x.us.getD (frozenN s e i - 1) x.u
  let s := marRecord (0x0F00 + cause) e i (marCount e (cause - 1) s)
  let s := updStr e i (fun x =>
    { x with code := if safe then .safe else .hold, cause := cause, good := good
             parity := x.parity || decide (cause = 4) }) s
  let s := updStr e i (fun x => { x with next := some (policyOut s e i x) }) s
  policyElem e i safe good s

/-! ### A sample -/

/-- R385, R390, R396: a sample of a CLOSED string. -/
def sampleClosed (e i : Nat) (parity : Bool) (s : State) : State :=
  let n := frozenN s e i
  let x0 := strAt s e i
  let r := supervise s e i parity { x0 with ys := (x0.y :: x0.ys).take (n + 1) }
  let s := updStr e i (fun _ => r.2) s
  if r.1 ≠ 0 then faultStr e i r.1 s
  else
    let c := chainOf s e i
    let skip := windup r.2 c
    let s := if c.cand.isSome ∧ skip then countSkip e c.inc s else s
    updStr e i (fun x =>
      { x with
        acc := if skip then x.acc else c.cand.getD x.acc
        st := c.st, xin := c.xin, iout := c.iout, clipHi := c.hi, clipLo := c.lo
        next := some c.x, us := (c.x :: x.us).take (n + 1), count := x.count + 1 }) s

/-- R386, R394, R406: a sample of a string that runs. -/
def sampleStr (e i : Nat) (parity : Bool) (s : State) : State :=
  let x := strAt s e i
  let manual := regField s rMarStrCfg e [i] 30 30 = 1
  let s := updStr e i (fun x => { x with event := false, innerHeld := innerOpen s e i }) s
  if manual then
    updStr e i (fun x =>
      { x with code := .manual, next := some (signedOf 24 (regGet s rMarStrManual e [i])) }) s
  else if x.code = .manual then
    let s := updStr e i (fun x => { x with acc := rearmAcc s e i }) s
    if x.cause ≠ 0 then
      updStr e i (fun x =>
        { x with code := if regField s rMarStrCfg e [i] 29 29 = 1 then .safe else .hold, good := x.u }) s
    else sampleClosed e i parity (closeStr e i s)
  else if x.code = .closed then sampleClosed e i parity s
  else if x.code = .off then s
  else
    let c := chainOf s e i
    let s := if c.cand.isSome then countSkip e c.inc s else s
    updStr e i (fun x => { x with xin := c.xin, next := some (policyOut s e i x) }) s

/-! ### A tick -/

/-- R382, R399: a string starts or stops with its element. -/
def syncStr (e i : Nat) (s : State) : State :=
  let x := strAt s e i
  let run := strRuns s e i
  if run ∧ x.code = .off then
    if x.cause ≠ 0 then
      updStr e i (fun x =>
        { x with code := if regField s rMarStrCfg e [i] 29 29 = 1 then .safe else .hold, good := x.u }) s
    else closeStr e i s
  else if ¬ run ∧ x.code ≠ .off then updStr e i (fun x => { x with code := .off, next := none }) s
  else s

/-- R384: an actuator of `b` bits takes an output's top bits. -/
def actBits (b : Nat) (u : Int) : Int := rneInt u (24 - b)

/-- R499: the level that an output requests, beside the level requested now. -/
def levelOf (u : Int) (now : Nat) : Nat :=
  let band := fun (v : Int) => (clampTo 0 7 ((v + 2 ^ 23) / 2 ^ 21)).toNat
  let new := 7 - band u
  if new < now then min now (7 - band (u - 2 ^ 16)) else new

/-- R368: the hardware launch clamps act on a laser: more than +4 dBm of its own, or more than +12 dBm
of its fibre. -/
def capActs (s : State) (c n : Nat) : Bool :=
  let x := laserAt s c n
  let y := fun (k : Nat) => (strAt s c (36 + k)).y
  match x.slot with
  | some e =>
    let on := (List.range 36).filter (fun k =>
      isLit (laserAt s c k) && (laserAt s c k).slot.any (fun q => decide (q / 8 = e / 8)))
    isLit x && (decide (Config.launchUnits (36 * c + n) 40 < y n) ||
      decide (120 < Config.fibrePower (4 * c + e / 8) (on.map (fun k => (k, y k)))))
  | none => false

/-- R361, R368, R372: the highest bias that the hardware lets a laser take: its limit, the dim bias
while it is held DIM, and where a launch clamp acts the bias of the clamp. -/
def biasTop (s : State) (c n : Nat) : Int :=
  let lim := calValue s 2 (36 * c + n) 0
  let a := if (laserAt s c n).code = .dim ∧ ¬ rising s c n then min lim (calValue s 2 (36 * c + n) 1) else lim
  if capActs s c n then min a (Config.capBias (36 * c + n) (strAt s c (36 + n)).y) else a

/-- R381, R384, R402: an output is applied to its string's actuator. -/
def actuate (e i : Nat) (u : Int) (s : State) : State :=
  if e < 8 then
    if i < 36 then s
    else if i < 72 then
      let n := strLaser i
      let lim := calValue s 2 (36 * e + n) 0
      let v := actBits 12 u
      let top := biasTop s e n
      let b := clampTo 0 top v
      let cap := capActs s e n
      let s := if cap ∧ ¬ (laserAt s e n).capped then bump s rFabLightCount e [8] else s
      let s := updLaser e n (fun x =>
        { x with bias := if lim ≤ 0 then 0 else (100 * b / lim).toNat, capped := cap }) s
      updStr e i (fun x => { x with boundHi := decide (top < v), boundLo := decide (v < 0) }) s
    else if 104 ≤ i ∧ i < 136 then
      let l := strLane e i
      let v := actBits 8 u
      let b := clampTo 0 255 v
      let s := regPutField s rCollOsumTrim 0 [l / 8, (laneAt s l).channel] 7 0 b.toNat
      updStr e i (fun x => { x with boundHi := decide (b < v), boundLo := decide (v < b) }) s
    else s
  else if i < 16 then setRequest (fun p => { p with zones := p.zones.modify i (levelOf u) }) s
  else if i = 16 then setRequest (fun p => { p with cap := levelOf u p.cap }) s
  else if i = 17 then setRequest (fun p => { p with curr := levelOf u p.curr }) s
  else s

/-- R347: a drive that MANUAL moves has no passing verdict. -/
def manualDrive (e i : Nat) (u : Int) (s : State) : State :=
  if e < 8 ∧ i < 36 ∧ (strAt s e i).code = .manual ∧ u ≠ (strAt s e i).u then
    updLaser e i (fun x => { x with passed := false }) s
  else s

/-- R385: the outputs computed in the last tick are applied together. -/
def applyOutput (e i : Nat) (s : State) : State :=
  match (strAt s e i).next with
  | some u => actuate e i u (updStr e i (fun x => { x with u := u, next := none }) (manualDrive e i u s))
  | none => s

/-- R402, R403: the drives of a fibre's heaters. -/
def driveHeaters (e f : Nat) (s : State) : State :=
  let us := ringOuts s e f
  forEach (List.range 8) (fun r st =>
    let x := strAt st e (72 + 8 * f + r)
    let k := (ringAt st e (8 * f + r)).code
    let v := if k = .off ∨ k = .failed then 0 else if x.code = .hold then x.heat
      else if x.code = .safe then x.u else heaterRow st e f r us
    let h := clampTo 0 8388607 v
    let st := updStr e (72 + 8 * f + r) (fun x =>
      { x with boundHi := decide (h < v), boundLo := decide (v < h) }) st
    updEng e (fun m => { m with heaters := Cells.set 0 m.heaters (8 * f + r) h }) st) s

/-- R384: the sensor's new value reaches the strings that read it. -/
def takeReading (e : Nat) (r : SensorRead) (s : State) : State :=
  let w := max 1 (min 24 r.width)
  let v := satInt w r.raw
  let c := r.code / 4096
  if c = 0 ∨ c = 4 ∨ c = 8 ∨ 8 < c then s
  else
    forEach ((List.range 256).filter (fun i => regField s rMarStrIo e [i] 31 16 = r.code)) (fun i st =>
      updStr e i (fun x =>
        { x with y := v * 2 ^ (24 - w), valid := r.valid, width := w, event := true
                 atEnd := decide (v = -(2 ^ (w - 1)) ∨ v = 2 ^ (w - 1) - 1) }) st) s

/-- R383: a string that reads another string's output, or no sensor. -/
def innerReading (e i : Nat) (s : State) : State :=
  let code := regField s rMarStrIo e [i] 31 16
  if code / 4096 = 8 then
    let u := (strAt s e (code % 256)).u
    updStr e i (fun x =>
      { x with y := u, valid := true, width := 24, event := x.event || decide (u ≠ x.y)
               atEnd := decide (u = -(2 ^ 23) ∨ u = 2 ^ 23 - 1) }) s
  else if code / 4096 = 0 then
    updStr e i (fun x => { x with y := 0, valid := true, width := 24, atEnd := false }) s
  else s

/-- R386: whether a string samples in this tick. -/
def isDue (s : State) (e i : Nat) : Bool :=
  let x := strAt s e i
  x.code ≠ .off &&
    (if strDiv s e i = 0 then x.event else decide ((engAt s e).ticks % strDiv s e i = 0))

/-- The strings of an engine that may run. -/
def liveStrs (s : State) (e : Nat) : List Nat :=
  (List.range 256).filter (fun i => strRuns s e i || decide ((strAt s e i).code ≠ .off))

/-- R405, R504: the engine ticks: not before stage 3 of an L3 or L4 reset, and not with its
power off. -/
def engineRuns (s : State) (e : Nat) : Bool :=
  decide (e < 9) && s.pwr.applied && hostServes s &&
    (if e < 8 then decide (s.pwr.current < 3) else decide (s.pwr.current < 4))

/-- R385: one tick of an engine. -/
def marTick (e : Nat) (reads : List SensorRead) (parity : List Nat) (s : State) : State :=
  let is := liveStrs s e
  let s := forEach is (syncStr e) s
  let s := forEach is (applyOutput e) s
  let s := if e < 8 then forEach (List.range 4) (driveHeaters e) s else s
  let s := forEach reads (takeReading e) s
  let s := forEach is (innerReading e) s
  let due := is.filter (isDue s e)
  let s := forEach due (fun i st => sampleStr e i (parity.contains i || (strAt st e i).parity) st) s
  updEng e (fun m => { m with ticks := m.ticks + 1 }) s

/-! ### Commands -/

/-- R391: whether the coefficients of a type's unused places are 0. -/
def unusedZero (g : StageCfg) : Bool :=
  let used : Nat := match g.type with
    | 2 => 2
    | 3 => 5
    | 4 => 3
    | _ => 0
  (g.c.drop used).all (· = 0)

/-- R391: the checks of a chain. -/
def chainOk (gs : List StageCfg) : Bool :=
  let body := gs.takeWhile (fun g => g.type ≠ 0)
  let types := body.map (·.type)
  (gs.drop body.length).all (fun g => g.type = 0) &&
  decide (types.count 2 ≤ 1 ∧ types.count 4 ≤ 1) &&
  types.dropLast.all (fun t => t ≠ 4) &&
  gs.all (fun g => decide (g.type ≤ 4) && unusedZero g &&
    (g.type ≠ 4 || decide (g.c.getD 0 0 ≤ g.c.getD 1 0 ∧ 0 ≤ g.c.getD 2 0)))

/-- R391, R395: COMMIT of the stages of a mask. -/
def marCommit (e i mask : Nat) (s : State) : State :=
  let mask := if mask = 0 then 255 else mask
  let js := (List.range 8).filter (bitOf mask)
  let old := (List.range 8).map (stageOf s e i)
  let new := (List.range 8).map (fun j => if bitOf mask j then stageShadow s e i j else stageOf s e i j)
  if ¬ chainOk new then marReject e s
  else
    let s := forEach js (fun j st =>
      forEach (List.range 3) (fun q => commitReg rMarStgC e [i, j, q]) (commitReg rMarStgCtl e [i, j] st)) s
    let changed := fun (j : Nat) => decide ((old.getD j ⟨0, 0, 0, 0, []⟩).type ≠ (new.getD j ⟨0, 0, 0, 0, []⟩).type)
    let integ := js.any (fun j => changed j &&
      decide ((old.getD j ⟨0, 0, 0, 0, []⟩).type = 2 ∨ (new.getD j ⟨0, 0, 0, 0, []⟩).type = 2))
    let s := updStr e i (fun x =>
      { x with
        st := x.st.filter (fun c => !(js.contains c.1 && changed c.1))
        acc := if integ then 0 else x.acc
        iout := if integ then 0 else x.iout
        parity := x.parity && decide (mask ≠ 255) }) s
    marCount e 6 s

/-- R395: LUT_COMMIT. -/
def marLutCommit (e t : Nat) (s : State) : State :=
  marCount e 6 (forEach (List.range 9) (fun q => commitReg rMarLut e [t, q]) s)

/-- R404: XT_COMMIT; ignored by engine 8 (R407). -/
def marXtCommit (e f : Nat) (s : State) : State :=
  if 8 ≤ e then marReject e s
  else
    let s := forEach (List.range 8) (fun r => forEach (List.range 4) (fun q => commitReg rMarXt e [f, r, q])) s
    marCount e 6 (commitReg rMarXtExp e [f] s)

/-- R401, R375: one string is re-armed, or refused. -/
def rearmStr (e i : Nat) (s : State) : State × Bool :=
  let x := strAt s e i
  if ¬ x.valid ∨ x.atEnd ∨ x.parity then (marRecord 0x0F06 e i (marCount e 5 s), false)
  else
    let s := updStr e i (fun x => { x with acc := rearmAcc s e i, cause := 0 }) s
    let s := marRecord 0x0F05 e i (marCount e 4 (closeStr e i s))
    if e < 8 ∧ i < 72 then
      let n := strLaser i
      let was := laserAt s e n
      let s := updLaser e n (fun y => if i < 36 then { y with lockOut := false } else { y with alcOut := false }) s
      let y := laserAt s e n
      (if was.safeOut ∧ ¬ y.safeOut ∧ (isLit y ∨ y.code = .parked) then acquireLaser e n y.channel s else s, true)
    else if e < 8 ∧ 72 ≤ i ∧ i < 104 then
      let lock := (rxAt s (laneOf e (i - 72))).lock
      (updRing e (i - 72) (fun y =>
        if y.code = .held then { y with code := if lock then .locked else .scan } else y) s, true)
    else (s, true)

/-- R400: the strings that a re-arm names: how many are re-armed, and the first refused. -/
def rearm (e i : Nat) (s : State) : State × Nat × Option Nat :=
  let is := (if i = 0xFFFF then List.range 256 else [i]).filter (fun k =>
    let c := (strAt s e k).code
    decide (c = .hold ∨ c = .safe))
  is.foldl (fun a k =>
    let r := rearmStr e k a.1
    (r.1, if r.2 then a.2.1 + 1 else a.2.1, if r.2 then a.2.2 else a.2.2.or (some k))) (s, 0, none)

/-- LOOP_REARM (R400). -/
def loopRearm : CmdFn := fun _ c s =>
  let e := leAt c.payload 0 1
  let i := leAt c.payload 2 2
  if 9 ≤ e ∨ leAt c.payload 1 1 ≠ 0 ∨ (256 ≤ i ∧ i ≠ 0xFFFF) then status 5 s
  else
    let r := rearm e i s
    (r.1, .reply (if r.2.2.isNone then 0 else 3) (leBytes 2 r.2.1 ++ leBytes 2 (r.2.2.getD 0xFFFF)))

/-- A write of MAR_CMD (R409). -/
def marCmd (e v : Nat) (s : State) : State :=
  let i := bits v 15 0
  if b2n (bitOf v 31) + b2n (bitOf v 30) + b2n (bitOf v 29) + b2n (bitOf v 28) > 1 then marReject e s
  else if bitOf v 31 then (if i < 256 ∨ i = 0xFFFF then (rearm e i s).1 else s)
  else if bitOf v 30 then (if i < 256 then marCommit e i (bits v 23 16) s else s)
  else if bitOf v 29 then marLutCommit e (i % 64) s
  else if bitOf v 28 then marXtCommit e (i % 4) s
  else s

/-- R392: whether a string is its own outer string through others. -/
def nestsItself (s : State) (e i : Nat) : Bool :=
  let up := fun (k : Nat) =>
    if regField s rMarStrCfg e [k] 28 27 = 1 then some (regField s rMarStrCfg e [k] 23 16) else none
  ((List.range 256).foldl (fun (a : Option Nat × Bool) _ =>
    match a.1.bind up with
    | some k => (some k, a.2 || decide (k = i))
    | none => (none, a.2)) (some i, false)).2

/-- R406: MANUAL may be written. -/
def manualOk (s : State) (e i : Nat) : Bool :=
  if fixedCount e ≤ i then true
  else if 8 ≤ e then false
  else if i < 72 then
    let k := (laserAt s e (strLaser i)).code
    decide (k ≠ .lit ∧ k ≠ .dim)
  else if i < 104 then (rxAt s (laneOf e (i - 72))).code ≠ .inSet
  else !bitOf (osumMask s) (strLane e i / 8)

/-- A write of MAR_STR_CFG (R386, R392, R406): ENABLE and DIV of a fixed string stay. -/
def strCfgWrite (e i v : Nat) (s : State) : State :=
  let old := regGet s rMarStrCfg e [i]
  let v := if i < fixedCount e then bits old 31 31 * 2 ^ 31 + bits v 30 27 * 2 ^ 27 + bits v 23 16 * 2 ^ 16 + bits old 15 0
    else v - bits v 26 24 * 2 ^ 24
  let t := regPut s rMarStrCfg e [i] v
  if 1024 < marLoad t e ∨ nestsItself t e i ∨ (bits v 28 27 = 2 ∧ fixedCount e ≤ i) ∨
      (bitOf v 30 ∧ ¬ manualOk s e i) then marReject e s
  else t

/-- A write of MAR_STR_IO (R383): fixed strings keep theirs, and a free string has no actuator. -/
def strIoWrite (e i v : Nat) (s : State) : State :=
  if i < fixedCount e ∨ v % 65536 ≠ 0 then s else regPut s rMarStrIo e [i] v

end Sys2Proof.Machine
end

