-- ==== Sys2Proof/Machine/LightRows.lean ====
section
/-!
DEFINITION. The rows of lasers, rings, the referee and eye safety (R345 to R379), and the
effects of their control registers.
-/

namespace Sys2Proof.Machine

/-- One count of FAB_LIGHT_COUNT. -/
def lightCount (c i : Nat) (s : State) : State := bump s rFabLightCount c [i]

/-- A field of a register brought into its range (R368). -/
def inRange (lo hi v : Nat) : Nat := max lo (min hi v)

/-! ### The referee (R355 to R358) -/

/-- R355: the condition that a verdict fails for, as FAIL of FAB_LASER_REF; 0 where it passes. -/
def verdict (s : State) (c : Nat) (x : Laser) (r : LaserRead) : Nat :=
  let limit := 100 * inRange 5 10 (regField s rFabLightPolicy c [] 19 16)
  if r.tones = 0 then 3
  else if 1 < r.tones then 4
  else if r.index ≠ x.channel then 1
  else if (limit : Int) < r.offset.natAbs then 2
  else 0

/-- A lit laser's lane goes dark for the referee, and the laser acquires its channel again. -/
def refereeDark (c n : Nat) (s : State) : State :=
  let x := laserAt s c n
  let s := match x.slot with
    | some e => faultLane (laneOf c e) 8 s
    | none => s
  acquireLaser c n x.channel s

/-- R359 steps 1 and 2: a verdict fails for a laser in acquisition. One whose drive had passed is
driven to the calibrated setting; a wrong index moves the drive by the calibrated step per channel
times the difference, and an absent tone by an eighth of the tuning range (assumption 58). -/
def seekChannel (c n f : Nat) (passed : Bool) (index : Nat) (s : State) : State :=
  let x := laserAt s c n
  if x.code ≠ .acquire then s
  else if passed then acquireLaser c n x.channel s
  else if f = 1 then moveDrive c n (calValue s 1 (36 * c + n) 32 * ((x.channel : Int) - index)) s
  else if f = 3 then moveDrive c n 8192 s
  else s

/-- R355, R357: the verdict on one laser. -/
def judge (c : Nat) (r : LaserRead) (s : State) : State :=
  let x := laserAt s c r.laser
  let f := verdict s c x r
  let s := updLaser c r.laser (fun x =>
    { x with
      refValid := true, refPass := decide (f = 0), refFail := f, refIndex := r.index % 32
      refOffset := (r.offset % 65536).toNat
      passed := if f = 0 then decide (x.code ≠ .off ∧ x.code ≠ .spare ∧ x.code ≠ .worn ∧ x.code ≠ .failed) else x.passed }) s
  if f ≠ 0 ∧ (x.code = .lit ∨ x.code = .dim) then
    let s := emit 0x0E01 (36 * c + r.laser) (leBytes 1 r.laser ++ leBytes 1 x.channel ++ leBytes 1 (r.index % 32) ++
      leBytes 2 (r.offset % 65536).toNat ++ leBytes 1 f) (lightCount c 1 s)
    refereeDark c r.laser s
  else if f ≠ 0 then seekChannel c r.laser f x.passed r.index s
  else s

/-- R355: what a bus shows of a laser: nothing of one that the read does not name. -/
def readOf (reads : List LaserRead) (n : Nat) : LaserRead :=
  (reads.find? (fun r => r.laser = n)).getD { laser := n, tones := 0, index := 0, offset := 0 }

/-- R359 step 4: two reads in a row have passed a laser: its registers show the last, whose offset is
a free value within the limit, and both are counted (assumption 58). -/
def passReads (c n : Nat) (s : State) : State :=
  let limit := 100 * inRange 5 10 (regField s rFabLightPolicy c [] 19 16)
  let d := drawFree (lightCount c 0 (lightCount c 0 s))
  let o : Int := (d.1 % (2 * limit + 1) : Nat) - (limit : Int)
  updLaser c n (fun x =>
    { x with refValid := true, refPass := true, refFail := 0, refIndex := x.channel % 32
             refOffset := (o % 65536).toNat, passed := true }) d.2

/-- R358: a bus's calibration: two failures in a row put its lasers out. -/
def calibrateBus (c b : Nat) (pass : Bool) (s : State) : State :=
  if pass then
    updChip c (fun x => { x with calFails := x.calFails.set b 0, busOut := x.busOut.filter (fun k => k ≠ b) }) s
  else
    let s := updChip c (fun x => { x with calFails := x.calFails.set b (x.calFails.getD b 0 + 1) }) s
    if 2 ≤ (chipAt s c).calFails.getD b 0 ∧ ¬ (chipAt s c).busOut.contains b then
      let s := updChip c (fun x => { x with busOut := x.busOut ++ [b] }) s
      let s := forEach ((List.range 36).filter (fun n =>
        decide (busOf (laserAt s c n) = b) && isLit (laserAt s c n))) (refereeDark c) s
      emit 0x0E03 (8 * c + b) (leBytes 1 b) s
    else s

/-- REFEREE_READ (R355 to R358): a bus is read, and perhaps calibrated. -/
def execRefereeRead (c b : Nat) (cal : Option Bool) (reads : List LaserRead) (s : State) : Result :=
  .next (
    if c < 8 ∧ b < 5 ∧ s.pwr.current < 3 then
      let s := match cal with
        | some pass => calibrateBus c b pass s
        | none => s
      let ns := (List.range 36).filter (fun n => busOf (laserAt s c n) = b)
      forEach ns (fun n => judge c (readOf reads n)) (lightCount c 0 s)
    else s)

/-! ### Swaps (R361 to R367) -/

/-- R363: a planned swap is scheduled for a serving laser; without a spare it is not (R366). -/
def scheduleSwap (c n : Nat) (s : State) : State :=
  let x := laserAt s c n
  match x.slot, spareLasers s c with
  | some e, m :: _ =>
    let s := updLaser c n (fun x => { x with swapDue := true, swapTo := some m }) s
    let s := updLaser c m (fun y => { y with forSlot := some e }) s
    acquireLaser c m (swapTarget s (laneOf c e)) s
  | some _, [] => emit 0x0E07 (36 * c + n) [] s
  | none, _ => s

/-- R365, R377: the spare that a forced swap takes: the one kept for the slot, else a SPARE
laser, else one kept for a planned swap. -/
def forcedSpare (s : State) (c n : Nat) : Option Nat :=
  (laserAt s c n).swapTo.or ((spareLasers s c).head?.or ((List.range 36).find? (fun m => (laserAt s c m).forSlot.isSome)))

/-- R365, R366: a serving laser is replaced at once; it becomes WORN or FAILED. -/
def forceSwap (c n : Nat) (code : LaserCode) (s : State) : State :=
  match (laserAt s c n).slot with
  | none => updLaser c n (unbias code) s
  | some e =>
    let i := laneOf c e
    -- R309: in the phase gap the lane stays in its retune
    let gap := decide ((laneAt s i).retune ∧ (laneAt s i).slot.isSome)
    let s := if gap then s else faultLane i 9 s
    match forcedSpare s c n with
    | none => updLaser c n (fun x => unbias code { x with swapDue := false, swapTo := none }) s
    | some m =>
      -- a planned swap that loses its spare is made with another when there is one
      let s := forEach ((List.range 36).filter (fun k => decide (k ≠ n ∧ (laserAt s c k).swapTo = some m)))
        (fun k => updLaser c k (fun x => { x with swapDue := false, swapTo := none })) s
      let k := (laneAt s i).channel
      let s := updLaser c n (unbias code) (giveSlot c n m e s)
      let y := laserAt s c m
      let s := if y.code = .parked ∧ y.channel = k then openLaser c m s else acquireLaser c m k s
      emit 0x0E06 (36 * c + n) [] (lightCount c 5 (countSwap s))

/-- R350, R360: a laser has failed. -/
def failLaser (c n : Nat) (s : State) : State :=
  let s := emit 0x0E04 (36 * c + n) [] s
  let x := laserAt s c n
  if x.slot.isSome then forceSwap c n .failed s
  else
    let s := updLaser c n (fun x => unbias .failed { x with forSlot := none }) s
    forEach ((List.range 36).filter (fun k => decide ((laserAt s c k).swapTo = some n))) (fun k st =>
      scheduleSwap c k (updLaser c k (fun y => { y with swapDue := false, swapTo := none }) st)) s

/-- SWAP_THRESHOLD (R362, R366): the measured launch in tenths of dBm. -/
def execSwapThreshold (c n : Nat) (launch : Int) (s : State) : Result :=
  .next (
    let x := laserAt s c n
    match x.slot with
    | some e =>
      let pct := inRange 50 94 (regField s rFabLightPolicy c [] 31 25)
      let qdb := min 24 (regField s rFabLightPolicy c [] 24 20)
      let least := clampTo (-60) 30 (signedOf 8 (regField s rFabLaunch c [e / 8] 15 8))
      if ¬ x.swapDue ∧ (pct ≤ x.bias ∨ (isLit x ∧ (launch - least) * 10 < 25 * (qdb : Int))) then scheduleSwap c n s else s
    | none => s)

/-- PLANNED_SWAP (R364): the lane is in an idle gap: no DATA frame unacknowledged, none placed. A spare
kept on the channel of the next phase takes the present one first (assumption 58). -/
def execPlannedSwap (c n : Nat) (s : State) : Result :=
  .next (
    match (laserAt s c n).slot with
    | some e =>
      let i := laneOf c e
      let l := laneAt s i
      if l.buf ≠ [] then s
      else if swapReady s c n l.channel then plannedSwap c n 1 (faultLane i 9 s)
      else
        match (laserAt s c n).swapTo with
        | some m =>
          let y := laserAt s c m
          if y.channel ≠ l.channel ∧ (y.code = .acquire ∨ y.code = .parked) then acquireLaser c m l.channel s else s
        | none => s
    | none => s)

/-- FORCED_SWAP (R365): the bias has reached 95% of its limit. -/
def execForcedSwap (c n : Nat) (s : State) : Result :=
  .next (
    let x := laserAt s c n
    if x.slot.isSome ∧ 95 ≤ x.bias then forceSwap c n .worn s else s)

/-! ### Acquisition and checks (R350, R359, R360) -/

/-- LASER_ACQUIRE (R359, R360): an acquisition ends: two reads in a row have passed, or not. -/
def execLaserAcquire (c n : Nat) (ok : Bool) (s : State) : Result :=
  .next (
    let x := laserAt s c n
    if x.code ≠ .acquire ∨ s.rst.level = 2 ∨ (x.slot.isNone ∧ x.forSlot.isNone) then s
    else if ok then
      let s := updLaser c n (fun x => { x with code := .parked }) (passReads c n s)
      let s := emit 0x0E02 (36 * c + n) [] (lightCount c 2 s)
      match x.slot with
      | some e => if laneWants s (laneOf c e) then openLaser c n s else s
      | none => s
    else
      let s := lightCount c 3 s
      let tries := x.tries.filter (fun t => decide (runNs s < t + 1000000000)) ++ [runNs s]
      let s := updLaser c n (fun x => { x with tries := tries }) s
      if inRange 1 7 (regField s rFabLightPolicy c [] 15 13) ≤ tries.length then failLaser c n s
      else acquireLaser c n x.channel s)

/-- R350: a check of a laser has ended: it acquired channel 0, and was passed, or not. -/
def endCheck (c n : Nat) (ok : Bool) (s : State) : State :=
  let s := acquireLaser c n 0 s
  if ok then
    let s := passReads c n s
    updLaser c n (fun x => { unbias .spare x with prior := none, lastCheck := runNs s }) s
  else
    emit 0x0E04 (36 * c + n) []
      (lightCount c 3 (updLaser c n (fun x => { unbias .failed x with prior := none }) s))

/-- SPARE_LASER_CHECK (R350, R367): a SPARE laser 24 h after its last check, one laser of a chiplet at
a time, or a laser that is being restored, is checked. -/
def execSpareLaserCheck (c n : Nat) (ok : Bool) (s : State) : Result :=
  .next (
    let x := laserAt s c n
    let others := (List.range 36).any (fun k => (laserAt s c k).prior.isSome)
    if x.prior.isSome ∧ x.code = .acquire then endCheck c n ok (emit 0x0E0C (36 * c + n) [] s)
    else if x.code = .spare ∧ x.lastCheck + dayNs ≤ runNs s ∧ ¬ others then endCheck c n ok s
    else s)

/-- RING_SCAN (R351, R352): a scan ends on the resonance of the ring's channel, or goes on. -/
def execRingScan (c r : Nat) (ok : Bool) (s : State) : Result := .next (if ok then lockRing c r s else s)

/-! ### FAB_LIGHT_CTRL (R353, R362, R367) -/

/-- CMD_REJ of FAB_LIGHT_STATUS. -/
def lightReject (c : Nat) (s : State) : State := updChip c (fun x => { x with cmdRej := true }) s

/-- FAB_LIGHT_CTRL.SWAP. -/
def lightSwap (c n : Nat) (s : State) : State :=
  let x := laserAt s c n
  if 36 ≤ n ∨ x.slot.isNone ∨ x.swapDue ∨ x.code = .off ∨ x.code = .worn ∨ x.code = .failed then lightReject c s
  else scheduleSwap c n s

/-- FAB_LIGHT_CTRL.RESTORE. -/
def lightRestore (c i : Nat) (ring : Bool) (s : State) : State :=
  if ring then
    if 32 ≤ i ∨ (ringAt s c i).code ≠ .failed then lightReject c s
    else emit 0x0E0C (288 + 32 * c + i) [] (updRing c i (fun r => { r with code := .prebias, wrong := [] }) s)
  else
    let x := laserAt s c i
    if 36 ≤ i ∨ (x.code ≠ .worn ∧ x.code ≠ .failed) then lightReject c s
    else acquireLaser c i 0 (updLaser c i (fun x =>
      { x with slot := none, forSlot := none, tries := [], prior := some x.code }) s)

/-- A write of FAB_LIGHT_CTRL. -/
def lightCtrl (c v : Nat) (s : State) : State :=
  if bitOf v 9 ∧ bitOf v 8 then lightReject c s
  else if bitOf v 9 then lightRestore c (bits v 5 0) (bitOf v 6) s
  else if bitOf v 8 then (if bitOf v 6 then lightReject c s else lightSwap c (bits v 5 0) s)
  else s

/-! ### Eye safety (R370 to R374) -/

/-- R371: RX_LOSS acts only while a receive fibre of the receptacle lies outside dark windows. -/
def rxLossSeen (s : State) (c : Nat) : Bool := (List.range 4).any (fun f => !darkOpen s (8 * f + c))

/-- R372 steps 1 to 3: a fibre trips, and is SAFE. -/
def tripFibre (c cause f : Nat) (s : State) : State :=
  let e := eyeAt s c f
  if e.code = .safe ∨ e.code = .tripped then updEye c f (fun e => { e with last := runNs s }) s
  else
    let s := updEye c f (fun e =>
      { e with code := .safe, cause := cause, trips := min 65535 (e.trips + 1), last := runNs s, req := false }) s
    let s := forEach (List.range 8) (fun k st =>
      faultLane (laneOf c (8 * f + k)) 10 (dimLane (laneOf c (8 * f + k)) st)) s
    emit 0x0E09 (4 * c + f) (leBytes 1 f ++ leBytes 1 cause) (lightCount c 7 s)

/-- EYE_TRIP (R371 to R373): 1 REFLECTION on a fibre, 2 RX_LOSS on all four. -/
def execEyeTrip (c f cause : Nat) (s : State) : Result :=
  .next (
    if 8 ≤ c ∨ 4 ≤ f then s
    else if cause = 1 then tripFibre c 1 f s
    else if cause = 2 ∧ rxLossSeen s c then forEach (List.range 4) (tripFibre c 2) s
    else s)

/-- R372 step 4: neither criterion has held for the hold. -/
def holdMet (s : State) (c f : Nat) : Bool :=
  decide ((eyeAt s c f).last + max 1 (regField s rFabLightPolicy c [] 11 4) * 100000000 ≤ runNs s)

/-- R372 step 4: the fibre enters RESTORING. -/
def startRestore (c f : Nat) (s : State) : State :=
  updEye c f (fun e => { e with code := .restoring, req := false, since := runNs s }) s

/-- EYE_RESTORE_START (R372). -/
def execEyeRestoreStart (c f : Nat) (s : State) : Result :=
  .next (
    let e := eyeAt s c f
    if c < 8 ∧ f < 4 ∧ e.code = .safe ∧ holdMet s c f ∧
        (regField s rFabLightPolicy c [] 12 12 = 1 ∨ e.req) then startRestore c f s
    else s)

/-- A write of FAB_EYE_CTRL: it acts once the hold is met. -/
def eyeCtrl (c v : Nat) (s : State) : State :=
  forEach ((List.range 4).filter (bitOf v)) (fun f st =>
    if (eyeAt st c f).code = .safe then
      if holdMet st c f then startRestore c f st else updEye c f (fun e => { e with req := true }) st
    else st) s

/-- EYE_RESTORE_DONE (R372 step 6), at least 1 ms after the ramp began. -/
def execEyeRestoreDone (c f : Nat) (s : State) : Result :=
  .next (
    if c < 8 ∧ f < 4 ∧ (eyeAt s c f).code = .restoring ∧ (eyeAt s c f).since + 1000000 ≤ runNs s then
      let s := updEye c f (fun e => { e with code := .normal }) s
      emit 0x0E0A (4 * c + f) [] (forEach (List.range 8) (fun k => brightenLane (laneOf c (8 * f + k))) s)
    else s)

end Sys2Proof.Machine
end

