-- ==== Sys2Proof/Machine/CalRun.lean ====
section
/-!
DEFINITION. CAL_RUN (R418 to R427). A run is one step, from its start to its reply; what it
measures, and whether something that coincides ends it (R426), come as measurements: first the
result code, then the values that each kind names.
-/

namespace Sys2Proof.Machine

/-- R418: the fields of the payload that every kind checks. -/
def calArgsOk (kind last : Nat) (p : List Byte) : Bool :=
  p.length = 32 && leAt p 0 1 = kind && leAt p 1 1 < (if kind = 4 then 1 else 8) &&
  leAt p 2 2 ≤ last && leAt p 4 1 ≤ 1 && leAt p 5 1 < (if kind = 4 then 16 else 1) &&
  leAt p 6 2 = 0 && leAt p 24 8 = 0 && leAt p 14 2 = 0 && leAt p 16 4 < 1000000000

/-- R418: STORE. -/
def calStore (p : List Byte) : Bool := leAt p 4 1 = 1

/-- R419: a run ends with a result and changes nothing. -/
def calFail (kind index result : Nat) (s : State) : State × Answer :=
  let r := calEnd kind index result 0 s
  (r.1, .reply 0 r.2)

/-- R419: a run ends with its values, or with STORE_FULL. -/
def calDone (kind index : Nat) (r : State × Option Nat) (s : State) : State × Answer :=
  match r.2 with
  | none => calFail kind index 5 s
  | some g =>
    let e := calEnd kind index 0 g r.1
    (e.1, .reply 0 e.2)

/-- R420: a lane leaves its set only while another lane of it stays in service. -/
def mayLeave (s : State) (l : Nat) : Bool :=
  let x := laneAt s l
  x.code ≠ .inSet || (match x.slot with
    | some n => decide (2 ≤ (liveLanes s n x.dest x.rel).length)
    | none => true)

/-- R420: a receive channel leaves the channels that hear its source only while another stays. -/
def mayLeaveRx (s : State) (i : Nat) : Bool :=
  let x := rxAt s i
  x.code ≠ .inSet || (match x.slot with
    | some n => decide (2 ≤ ((setRxs s n x.source x.rel).filter (fun k => decide ((rxAt s k).code = .inSet))).length)
    | none => true)

/-- R410, R421: the LASER_TUNE values of a run: from 32 drives and the die temperature above 50 °C,
the drives at 50 °C and their mean step; the temperature coefficient stands (assumption 64). -/
def tuneData (coeff : Int) (m : List Int) : List Int :=
  let d := (List.range 32).map (fun k => m.getD k 0 - coeff * m.getD 32 0)
  d ++ [(d.getD 31 0 - d.getD 0 0) / 31, coeff]

/-- CAL_RUN of KIND LASER (R421); measured: the result, 32 drives, the die temperature. -/
def calRunLaser : CmdFn := fun _ h s =>
  let p := h.payload
  let c := leAt p 1 1
  let n := leAt p 2 2
  let x := laserAt s c n
  if !calArgsOk 1 35 p then status 5 s
  else
    match x.slot with
    | some e =>
      if (eyeAt s c (e / 8)).code ≠ .normal then status 3 s
      else if !mayLeave s (laneOf c e) then calFail 1 n 3 s
      else
        let s := acquireLaser c n x.channel (faultLane (laneOf c e) 13 s)
        let k := (h.meas.headD 0).toNat
        if k ≠ 0 then calFail 1 n k s
        else calDone 1 n (calResult (calStore p) 1 (36 * c + n) (tuneData (calValue s 1 (36 * c + n) 33) (h.meas.drop 1)) s) s
    | none =>
      -- a laser that was SPARE, WORN or FAILED returns to that state
      let k := (h.meas.headD 0).toNat
      if k ≠ 0 then calFail 1 n k s
      else calDone 1 n (calResult (calStore p) 1 (36 * c + n) (tuneData (calValue s 1 (36 * c + n) 33) (h.meas.drop 1)) s) s

/-- R422: the RING_TUNE value of a ring's channel at the present die temperature. -/
def ringDrive (s : State) (c r : Nat) : Int :=
  calValue s 3 (32 * c + r) (ringAt s c r).channel + tempDrive s c (calValue s 3 (32 * c + r) 32)

/-- CAL_RUN of KIND RING (R422); measured: the result, the mean heater drive. The offset is what it
exceeds the calibrated drive of the ring's channel by. -/
def calRunRing : CmdFn := fun _ h s =>
  let p := h.payload
  let c := leAt p 1 1
  let r := leAt p 2 2
  let x := ringAt s c r
  if !calArgsOk 2 31 p then status 5 s
  else if (eyeAt s c (r / 8)).code ≠ .normal ∨ x.code ≠ .locked ∨ runNs s < x.lockedAt + 10000000 then status 3 s
  else
    let k := (h.meas.headD 0).toNat
    if k ≠ 0 then calFail 2 r k s
    else
      let d := ((calData s 3 (32 * c + r)).getD []).take 34
      calDone 2 r (calResult (calStore p) 3 (32 * c + r)
        (d ++ List.replicate (34 - d.length) 0 ++ [h.meas.getD 1 0 - ringDrive s c r]) s) s

/-- R420, R423: a ring has been out of service for its column, and is back. -/
def stepOut (i : Nat) (s : State) : State :=
  if (rxAt s i).code = .inSet then
    updRx i (fun r => { r with code := .inSet }) (faultRx i 13 0 0 s)
  else s

/-- R423: the columns of the matrix: those of LOCKED rings measured, the others as they are. -/
def mixColumns (s : State) (c f : Nat) (locked : List Nat) (m : List Int) : List Int :=
  (List.range 64).map (fun k =>
    if locked.contains (k % 8) then m.getD k 0
    else
      let v := activeReg s rMarXt c [f, k / 8, k % 8 / 2]
      signedOf 16 (if k % 2 = 0 then v % 65536 else v / 65536))

/-- A matrix and its exponent written into the shadow registers of a fibre. -/
def loadMatrix (c f : Nat) (d : List Int) (s : State) : State :=
  let u := fun (k : Nat) => (d.getD k 0 % 65536).toNat
  let s := forEach (List.range 8) (fun r => forEach (List.range 4) (fun q st =>
    regPut st rMarXt c [f, r, q] (u (8 * r + 2 * q) + 65536 * u (8 * r + 2 * q + 1)))) s
  regPut s rMarXtExp c [f] ((d.getD 64 31 % 64).toNat)

/-- CAL_RUN of KIND XTALK (R423); measured: the result, the 64 mantissas of C by rows, XT. -/
def calRunXtalk : CmdFn := fun _ h s =>
  let p := h.payload
  let c := leAt p 1 1
  let f := leAt p 2 2
  let locked := (List.range 8).filter (fun r => decide ((ringAt s c (8 * f + r)).code = .locked))
  let rxs := locked.map (fun r => laneOf c (8 * f + r))
  if !calArgsOk 3 3 p then status 5 s
  else if (eyeAt s c f).code ≠ .normal ∨ locked.length < 2 then status 3 s
  else if rxs.any (fun i => !mayLeaveRx s i) then calFail 3 f 3 s
  else
    let s := forEach rxs stepOut s
    let k := (h.meas.headD 0).toNat
    if k ≠ 0 then calFail 3 f k s
    else
      let d := mixColumns s c f locked (h.meas.drop 1) ++ [h.meas.getD 65 31 % 64]
      let r := calResult (calStore p) 4 (4 * c + f) d s
      calDone 3 f (if r.2.isSome then marXtCommit c f (loadMatrix c f d r.1) else r.1, r.2) s

/-! ### Optical Sum alignment (R424, R425) -/

/-- R425: the coarse search: from the reports of its twelve steps, a bit is kept where the
report is not negative. -/
def coarseSearch (reports : List Int) : Nat :=
  (List.range 12).foldl (fun a j => if reports.getD j 0 < 0 then a else a + 2 ^ (11 - j)) 0

/-- R425: the fine search: FINE moves by each report; it has converged once four in a row lie
within 1 ps. `n` counts those. -/
def fineSearch : Nat → Int → List Int → Option Int
  | n, f, rs =>
    match rs with
    | [] => if 4 ≤ n then some f else none
    | r :: rest =>
      if 4 ≤ n then some f
      else fineSearch (if -1 ≤ r ∧ r ≤ 1 then n + 1 else 0) (clampTo 0 255 (f + r)) rest

/-- R425: a path's trim from its reports: COARSE and FINE; none where it has not converged. -/
def pathTrim (reports : List Int) : Option (Nat × Int) :=
  if reports.length < 16 then none
  else (fineSearch 0 0 (reports.drop 12)).map (fun f => (coarseSearch reports, f))

/-- Reports of paths one after another, each with its count first, and what follows them. -/
def splitReports : Nat → List Int → List (List Int) × List Int
  | 0, m => ([], m)
  | n + 1, m =>
    let k := (m.headD 0).toNat
    let r := splitReports n (m.drop (1 + k))
    ((m.drop 1).take k :: r.1, r.2)

/-- R424: channel `k` of a plane group lies on this plane. -/
def groupPlane (g k : Nat) : Nat := 4 * g + k / 8

/-- R424: the channels that lead to the other members. -/
def memberChannels (s : State) (members : Nat) : List Nat :=
  (List.range 32).filter (fun k => k ≠ 0 && bitOf members ((ownId s % 32 + k) % 32))

/-- R247: the channels on which the other members are heard. -/
def memberHears (s : State) (members : Nat) : List Nat :=
  (List.range 32).filter (fun k => k ≠ 0 && bitOf members ((ownId s % 32 + 32 - k) % 32))

/-- R424: the digital plan reaches, and hears, every other member. -/
def osumPathsOk (s : State) (slot members : Nat) : Bool :=
  let others := ((List.range 32).filter (fun q => bitOf members q && q ≠ ownId s % 32)).map (fun q => ownId s / 32 * 32 + q)
  match phaseOf (slotAt s slot) with
  | some f =>
    let m := slotMask (slotAt s slot) &&& digitalMask f
    others.all (fun d => (phaseDests s f m).contains d && (phaseSources s f m).contains d)
  | none => false

/-- R424: the lane slots and the receive channels of the group take their channels. -/
def setGroup (g : Nat) (s : State) : State :=
  forEach (List.range 32) (fun k st =>
    let i := 8 * (4 * g + k / 8) + k % 8
    let st := updLane i (fun l => { l with channel := k }) (updRx i (fun r => { r with channel := k }) st)
    let st := match laneLaser st i with
      | some n => updLaser (chipOf i) n (fun x => if isLit x || x.code = .parked then { x with channel := k } else x) st
      | none => st
    updRing (chipOf i) (elemOf i) (fun r => if r.code = .locked || r.code = .scan then { r with channel := k } else r) st) s

/-- R425: the values of a run put into their registers and records, one after another: kind,
channel, data. -/
def storeOsum (store : Bool) (g : Nat) : List (Nat × Nat × List Int) → Option Nat → State → State × Option Nat
  | [], gen, s => (s, gen)
  | (kind, k, d) :: rest, _, s =>
    let p := groupPlane g k
    let r := calResult store kind (32 * p + k) d s
    match r.2 with
    | none => (s, none)
    | some gen =>
      let t := if kind = 6 then regPut r.1 rCollOsumTrim 0 [p, k] (2 ^ 31 + (d.getD 0 0).toNat * 2 ^ 16 + (d.getD 1 0).toNat)
        else r.1
      storeOsum store g rest (some gen) t

/-- CAL_RUN of KIND OSUM (R424, R425); measured: the result, the reports of the 32 channels as
contributor, each list with its count first, then the mean pilot amplitudes of the 32 channels
as owner. -/
def calRunOsum : CmdFn := fun _ h s =>
  let p := h.payload
  let g := leAt p 2 2
  let slot := leAt p 5 1
  let start := leAt p 8 8 * 1000000000 + leAt p 16 4
  let members := leAt p 20 4
  let planes := (List.range 4).map (fun q => 4 * g + q)
  if !calArgsOk 4 7 p then status 5 s
  else if start < nowNs s + 1000000 ∨ nowNs s + 10000000000 < start then status 5 s
  else if planes.any (fun q => isSpine s q || bitOf (armedMask s) q) ∨
      (slotAt s slot).code ≠ .armed ∨ ¬ osumPathsOk s slot members ∨
      planes.any (fun q => (eyeAt s (q % 8) (q / 8)).code ≠ .normal) then status 3 s
  else
    let s := setGroup g s
    let k := (h.meas.headD 0).toNat
    if k ≠ 0 then calFail 4 g k s
    else
      let m := splitReports 32 (h.meas.drop 1)
      let outs := (memberChannels s members).map (fun k => (k, pathTrim (m.1.getD k [])))
      if outs.any (fun o => o.2.isNone) then calFail 4 g 3 s
      else
        let trims := outs.map (fun o => (6, o.1, [((o.2.map (·.1)).getD 0 : Int), (o.2.map (·.2)).getD 0]))
        let amps := (memberHears s members).map (fun k => (7, k, [m.2.getD k 0]))
        calDone 4 g (storeOsum (calStore p) g (trims ++ amps) (some 0) s) s

/-! ### Loading (R414 to R416) -/

/-- R415: the elements of a kind. -/
def calElems (kind : Nat) : List Nat :=
  match kind with
  | 1 | 2 => List.range 288
  | 3 => List.range 256
  | 4 => List.range 32
  | 5 => List.range 576
  | 6 => List.range 1024
  | 7 => []
  | 8 => List.range 32
  | _ => [0]

/-- R415: what an element without a record becomes. -/
def uncalibrated (kind index : Nat) (s : State) : State :=
  let s := { s with cal := { s.cal with uncal := true } }
  let s := if kind = 1 ∨ kind = 2 then
      if (laserAt s (index / 36) (index % 36)).code = .failed then s else forceSwap (index / 36) (index % 36) .failed s
    else if kind = 3 then updRing (index / 32) (index % 32) (fun r => { r with code := .failed }) s
    else s
  emit 0x1003 0 (leBytes 1 kind ++ leBytes 2 index) s

/-- R404, R410: the values of an element put where they feed. -/
def feedElem (kind index : Nat) (d : List Int) (s : State) : State :=
  if kind = 4 then marXtCommit (index / 4) (index % 4) (loadMatrix (index / 4) (index % 4) d s)
  else if kind = 5 then
    let e := index / 64
    let t := index % 64
    let u := fun (k : Nat) => (d.getD k 0 % 65536).toNat
    marLutCommit e t (forEach (List.range 9) (fun q st =>
      regPut st rMarLut e [t, q] (u (2 * q) + (if q = 8 then 0 else 65536 * u (2 * q + 1)))) s)
  else if kind = 6 then
    regPut s rCollOsumTrim 0 [index / 32, index % 32] (2 ^ 31 + (d.getD 0 0).toNat % 4096 * 2 ^ 16 + (d.getD 1 0).toNat % 256)
  else s

/-- R415, R416: an element is loaded. -/
def loadElem (kind index : Nat) (s : State) : State :=
  match calData s kind index with
  | some d => feedElem kind index d s
  | none => uncalibrated kind index s

/-- R414: a record is skipped: a field record that is not valid, with none valid and later; or a
factory record that is not valid, with no field record in force. -/
def skipped (c : Cal) (r : CalRec) : Bool :=
  !r.ok && calField r.kind && (calFieldRec c r.kind r.index).all (fun o => decide (o.gen < r.gen))

/-- R416: the elements whose factory record is loaded. -/
def factoryLoaded (s : State) : Nat :=
  ([1, 2, 3, 4, 5, 8, 9].flatMap (fun k => (calElems k).filter (fun i =>
    (calFieldRec s.cal k i).isNone && !s.cal.failed.contains (k, i)))).length

/-- R414 to R416: every record is loaded. `badField` are the places of field records, and
`badFactory` the KIND and INDEX of factory records, whose check fails. -/
def loadCal (badField : List Nat) (badFactory : List (Nat × Nat)) (s : State) : State :=
  let c := s.cal
  let recs := c.recs.zipIdx.map (fun r => if badField.contains r.2 then { r.1 with ok := false } else r.1)
  let s := { s with cal := { c with recs := recs, vol := [], failed := badFactory } }
  let s := forEach (recs.filter (skipped s.cal)) (fun r st =>
    emit 0x1002 0 (leBytes 1 r.kind ++ leBytes 2 r.index ++ leBytes 4 r.gen) (bump st rCalCount 0 [2])) s
  let s := forEach (badFactory.filter (fun b => calFactory b.1 && (calFieldRec s.cal b.1 b.2).isNone)) (fun b st =>
    emit 0x1002 0 (leBytes 1 b.1 ++ leBytes 2 b.2 ++ leBytes 4 0) (bump st rCalCount 0 [2])) s
  let s := forEach [1, 2, 3, 4, 5, 6, 8, 9] (fun k => forEach (calElems k) (loadElem k)) s
  let field := (calInForce s.cal).length
  let s := { s with cal := { s.cal with loaded := true } }
  emit 0x1001 0 (leBytes 4 (factoryLoaded s) ++ leBytes 4 field) s

end Sys2Proof.Machine
end

