-- ==== Sys2Proof/Machine/Chunk.lean ====
section
/-!
DEFINITION. Compressed and raw weight chunks (R190, R200 to R205, R213): what the bytes of
a chunk decode to.
-/

namespace Sys2Proof.Machine

/-- FORMAT of a WEIGHT descriptor (R190). -/
structure WForm where
  fmt : Nat
  sparse : Bool
  expand : Bool
  codec : Bool
  errTrap : Bool
deriving DecidableEq, Repr

/-- R190. -/
def wform (f : Nat) : WForm :=
  ⟨f % 4, bitOf f 2, bitOf f 3, bitOf f 4, bitOf f 5⟩

/-- The stored size of a raw block (R200). -/
def storedSize (f : WForm) : Nat := if f.sparse then fmtSparseBytes f.fmt else fmtBytes f.fmt

/-- Sb: the delivered size of a block (R190). -/
def deliveredSize (f : WForm) : Nat :=
  if f.sparse && !f.expand then fmtSparseBytes f.fmt else fmtBytes f.fmt

/-- BUF_SIZE (R190). -/
def bufSize (f : WForm) (kb : Nat) : Nat := (64 * kb * deliveredSize f + 15) / 16 * 16

/-- A delivered zero block, or poisoned block (R205). -/
def specialBlock (f : WForm) (e : Nat) : List Byte :=
  BitVec.ofNat 8 e :: List.replicate (deliveredSize f - 1) 0

/-- A chunk delivered poisoned (R213). -/
def poisonChunk (f : WForm) (kb : Nat) : List Byte :=
  (List.replicate (64 * kb) (specialBlock f 255)).flatten

/-- The mantissa bytes of a payload: of a dense block, or the 16 kept codes (R204). -/
def mantBytes (f : WForm) : Nat :=
  if f.sparse then fmtSparseBytes f.fmt - 6 else fmtBytes f.fmt - 2

/-- The payload size of a block (R204). -/
def payloadSize (f : WForm) (nudgesZero : Bool) : Nat :=
  (if nudgesZero then 0 else 1) + (if f.sparse then 3 else 0) + mantBytes f

/-- R202: the bits of bytes, least significant first. -/
def streamBits (bs : List Byte) : List Bool :=
  bs.flatMap (fun b => (List.range 8).map (fun i => b.getLsbD i))

/-- A value read most significant bit first. -/
def msbVal (bs : List Bool) : Nat := bs.foldl (fun a b => 2 * a + b2n b) 0

/-- A delta from the predictor: it must give an exponent in 1 to 254 (R203). -/
def deltaExp (p : Nat) (neg : Bool) (m : Nat) : Option Nat :=
  if neg then (if m < p then some (p - m) else none)
  else if p + m ≤ 254 then some (p + m) else none

/-- R202: one codeword: the block's exponent, and the bits after it. -/
def codeword (p : Nat) : List Bool → Option (Nat × List Bool)
  | false :: r => some (p, r)
  | true :: false :: s :: r => (deltaExp p s 1).map (·, r)
  | true :: true :: false :: s :: m :: r => (deltaExp p s (2 + b2n m)).map (·, r)
  | true :: true :: true :: false :: s :: m1 :: m0 :: r =>
    (deltaExp p s (4 + 2 * b2n m1 + b2n m0)).map (·, r)
  | true :: true :: true :: true :: r =>
    if r.length < 8 then none else some (msbVal (r.take 8), r.drop 8)
  | _ => none

/-- R203: the predictor after a block. -/
def predictor (p e : Nat) : Nat := if e = 0 ∨ e = 255 then p else e

/-- R202, R203: the exponents of `n` blocks, and the bits after the last codeword. -/
def exponents : Nat → Nat → List Bool → Option (List Nat × List Bool)
  | 0, _, bs => some ([], bs)
  | n + 1, p, bs =>
    match codeword p bs with
    | none => none
    | some (e, r) => (exponents n (predictor p e) r).map (fun x => (e :: x.1, x.2))

/-- R204: the kept positions of a pattern code. -/
def patternPos (c : Nat) : Option (Nat × Nat) :=
  [(0, 1), (0, 2), (0, 3), (1, 2), (1, 3), (2, 3)][c]?

/-- R205: the index word of a sparse block from its pattern bytes; none where a code is
invalid. -/
def indexWord (pat : Nat) : Option Nat :=
  (List.range 8).foldl (fun acc g =>
    match acc, patternPos (pat / 8 ^ g % 8) with
    | some w, some p => some (w + p.1 * 2 ^ (4 * g) + p.2 * 2 ^ (4 * g + 2))
    | _, _ => none) (some 0)

/-- R205: a block delivered from its exponent, nudge byte, mantissa bytes and, where it is
stored sparse, its index word. -/
def deliverBlock (f : WForm) (e : Nat) (nudge : Byte) (mant : List Byte) (idx : Nat) : List Byte :=
  let dense := BitVec.ofNat 8 e :: nudge :: mant
  if f.sparse then
    let b := dense ++ leBytes 4 idx
    if f.expand then blockBytes f.fmt (sparseBlockOf f.fmt b) else b
  else dense

/-- R204, R205: one payload. -/
def payloadBlock (f : WForm) (nudgesZero : Bool) (e : Nat) (pay : List Byte) : Option (List Byte) :=
  let nudge := if nudgesZero then 0 else pay.headD 0
  let r := if nudgesZero then pay else pay.drop 1
  if f.sparse then
    (indexWord (leAt r 0 3)).map (deliverBlock f e nudge (r.drop 3))
  else some (deliverBlock f e nudge r 0)

/-- R203 to R205: the blocks of a chunk from their exponents and the payloads; none where a
pattern is invalid or the payloads do not end with the chunk. -/
def payloadBlocks (f : WForm) (nz : Bool) : List Nat → List Byte → Option (List Byte)
  | [], [] => some []
  | [], _ :: _ => none
  | e :: es, bs =>
    if e = 0 ∨ e = 255 then (payloadBlocks f nz es bs).map (specialBlock f e ++ ·)
    else
      let k := payloadSize f nz
      if bs.length < k then none
      else match payloadBlock f nz e (bs.take k) with
        | none => none
        | some b => (payloadBlocks f nz es (bs.drop k)).map (b ++ ·)

/-- The header of a compressed chunk (R201). -/
structure ChunkHdr where
  nudgesZero : Bool
  base : Nat
  len : Nat
  expBytes : Nat
  dcrc : Nat
deriving DecidableEq, Repr

/-- R201, R213: the header, unless a field of it is wrong or out of the bounds of R213;
`room` is what is left of the strip. -/
def chunkHdr (f : WForm) (kb room : Nat) (h : List Byte) : Option ChunkHdr :=
  let fl := leAt h 1 1
  let nz := bitOf fl 0
  let base := leAt h 2 1
  let len := leAt h 4 4
  let ex := leAt h 8 4
  if leAt h 0 1 = 0xC7 ∧ fl < 2 ∧ 1 ≤ base ∧ base ≤ 254 ∧ leAt h 3 1 = 0 ∧
      ex ≤ (3 * (64 * kb) + 1) / 2 ∧ 16 + ex ≤ len ∧
      len ≤ 16 + ex + 64 * kb * payloadSize f nz ∧ len ≤ room then
    some ⟨nz, base, len, ex, leAt h 12 4⟩
  else none

/-- R202 to R205: the delivered bytes of a chunk from the bytes after its header. -/
def chunkBody (f : WForm) (kb : Nat) (h : ChunkHdr) (body : List Byte) : Option (List Byte) :=
  if crc32c body ≠ h.dcrc then none
  else match exponents (64 * kb) h.base (streamBits (body.take h.expBytes)) with
    | none => none
    | some (es, rest) =>
      if rest.any id then none else payloadBlocks f h.nudgesZero es (body.drop h.expBytes)

/-- A raw block as it is delivered (R200, R205). -/
def rawBlock (f : WForm) (b : List Byte) : List Byte :=
  if f.sparse && f.expand then
    let e := (b.headD 0).toNat
    if e = 0 ∨ e = 255 then specialBlock f e else blockBytes f.fmt (sparseBlockOf f.fmt b)
  else b

/-- Bytes cut into pieces of `k`. -/
def cutBytes (k : Nat) : Nat → List Byte → List (List Byte)
  | 0, _ => []
  | n + 1, bs => bs.take k :: cutBytes k n (bs.drop k)

/-- R213: whether a raw chunk that is expanded holds a bad index word. -/
def rawBad (f : WForm) (blocks : List (List Byte)) : Bool :=
  f.sparse && f.expand && blocks.any (sparseBad f.fmt)

end Sys2Proof.Machine
end

