-- ==== Sys2Proof/Machine/StreamOps.lean ====
section
/-!
DEFINITION. The shared operations of the weight stream engine (chapter 6): groups, passes,
contexts, landing buffers, and reading a chunk out of its strip (R200, R213).
-/

namespace Sys2Proof.Machine

/-- Stream descriptor `d` of the loaded job. -/
def streamDesc (s : State) (d : Nat) : Option StreamDesc := s.job.streams[d]?

/-- Stream `d` at run time. -/
def streamAt (s : State) (d : Nat) : Stream := Cells.get {} s.wse.streams d

/-- The state with stream `d` changed. -/
def updStream (d : Nat) (f : Stream → Stream) (s : State) : State :=
  { s with wse := { s.wse with streams := Cells.upd {} s.wse.streams d f } }

/-- The logical numbers of a tile group, ascending (R147). -/
def groupOf (s : State) (g : Nat) : List Nat :=
  ((s.job.groups.find? (fun p => p.1 = g)).map (·.2)).getD []

/-- Whether physical tile `t` is a member of group `g`. -/
def memberOf (s : State) (t g : Nat) : Bool :=
  match (tileAt s t).logical with
  | none => false
  | some l => (groupOf s g).contains l

/-- The contexts in use (R199). -/
def ctxUsed (s : State) : List Nat :=
  s.wse.streams.filterMap (fun c => c.2.pass.bind (·.ctx))

/-- The lowest free context of the 32. -/
def freeCtx (s : State) : Option Nat :=
  (List.range 32).find? (fun c => !(ctxUsed s).contains c)

/-- The passes that wait for a context, by their order of SSTART (R199). -/
def waitingOrders (s : State) : List Nat :=
  s.wse.streams.filterMap (fun c =>
    match c.2.pass with
    | some p => if p.ctx.isNone then some p.order else none
    | none => none)

/-- A landing buffer of a member. -/
def bufAt (st : Stream) (l b : Nat) : Buf := Cells.get ⟨.empty, none⟩ st.bufs (l * 8 + b)

/-- The stream with a landing buffer of a member changed. -/
def setBuf (l b : Nat) (v : Buf) (st : Stream) : Stream :=
  { st with bufs := Cells.set ⟨.empty, none⟩ st.bufs (l * 8 + b) v }

/-- BUF_SIZE of a descriptor. -/
def descBufSize (d : StreamDesc) : Nat := bufSize (wform d.format) d.kb

/-- R132: a new pass of a descriptor, in the order of its SSTART. -/
def newPass (s : State) (d : StreamDesc) (st : Stream) : Pass :=
  { order := s.wse.order, first := st.starts * d.nchunk }

/-- The strips of a STRIP_MASK, ascending. -/
def maskStrips (m : Nat) : List Nat := (List.range 16).filter (fun i => bitOf m i)

/-- R216, R217: an error of a stream is recorded. -/
def wseErr (type d dpa : Nat) (s : State) : State :=
  { s with wse := { s.wse with errValid := true, errType := type, errDesc := d, errDpa := dpa } }

/-- A poisoned chunk counts among the uncorrectable, or among the bad (R217). -/
def wseCount (ue : Bool) (s : State) : State :=
  { s with wse := if ue then { s.wse with ue := satAdd 16 s.wse.ue 1 }
                  else { s.wse with bad := satAdd 16 s.wse.bad 1 } }

/-- What the reading of one chunk comes to. -/
structure ChunkRead where
  chunk : Chunk
  /-- The next read offset in the strip, beyond STRIP_OFF. -/
  next : Nat
  /-- The strip is lost to the pass (R213), at this DPA. -/
  lost : Option Nat := none
deriving DecidableEq, Repr

/-- R213: a chunk of a strip that is lost to the pass is delivered poisoned. -/
def lostChunk (d : StreamDesc) (dpa size : Nat) : Chunk :=
  ⟨poisonChunk (wform d.format) d.kb, some dpa, size⟩

/-- R213 row 2: a strip is lost to a pass. -/
def loseStrip (dn : Nat) (d : StreamDesc) (chunk strip dpa size next : Nat) (ue : Bool)
    (s : State) : State × ChunkRead :=
  let s := wseCount ue (wseErr 1 dn dpa s)
  let s := emit 0x0B03 dn (leBytes 2 dn ++ leBytes 1 strip ++ leBytes 4 chunk) s
  (s, ⟨lostChunk d dpa size, next, some dpa⟩)

/-- R213 rows 1, 3 and 4: one chunk is poisoned, or some blocks of it. -/
def spoilChunk (dn chunk dpa : Nat) (ue : Bool) (c : Chunk) (next : Nat) (s : State) :
    State × ChunkRead :=
  let s := wseCount ue (wseErr (if ue then 0 else 2) dn dpa s)
  let s := emit (if ue then 0x0B01 else 0x0B02) dn (leBytes 2 dn ++ leBytes 4 chunk ++ leBytes 8 dpa) s
  (s, ⟨c, next, none⟩)

/-- R200, R213: a raw chunk is read. -/
def readRaw (dn : Nat) (d : StreamDesc) (chunk strip off : Nat) (s : State) : State × ChunkRead :=
  let f := wform d.format
  let n := 64 * d.kb
  let k := storedSize f
  let at_ := d.stripOff + off
  let dpa := strip * stripSize + at_
  let next := off + (n * k + 63) / 64 * 64
  if stripSize < at_ + n * k then loseStrip dn d chunk strip dpa 0 next false s
  else
    let r := ddrRead dpa (n * k) s
    let s := bumpBy r.1 rWseCount 0 [0] (n * k)
    let blocks := cutBytes k n r.2.1
    match r.2.2 with
    | [] =>
      if rawBad f blocks then
        spoilChunk dn chunk dpa false ⟨poisonChunk f d.kb, some dpa, n * k⟩ next s
      else (s, ⟨⟨(blocks.map (rawBlock f)).flatten, none, n * k⟩, next, none⟩)
    | g :: gs =>
      -- the blocks that a failing granule touches are poisoned
      let hit := fun i => (g :: gs).any (fun x =>
        decide (x * 64 < dpa + (i + 1) * k ∧ dpa + i * k < x * 64 + 64))
      let bs := (blocks.zipIdx.map (fun p => if hit p.2 then specialBlock f 255 else rawBlock f p.1)).flatten
      -- a bad index in a block that no failing granule touches poisons the whole chunk besides
      if rawBad f ((blocks.zipIdx.filter (fun p => !hit p.2)).map (·.1)) then
        spoilChunk dn chunk (g * 64) true ⟨poisonChunk f d.kb, some (g * 64), n * k⟩ next
          (spoilChunk dn chunk dpa false ⟨[], none, 0⟩ next s).1
      else spoilChunk dn chunk (g * 64) true ⟨bs, some (g * 64), n * k⟩ next s

/-- R201, R213: a compressed chunk is read. -/
def readPacked (dn : Nat) (d : StreamDesc) (chunk strip off : Nat) (s : State) : State × ChunkRead :=
  let f := wform d.format
  let at_ := d.stripOff + off
  let dpa := strip * stripSize + at_
  if stripSize < at_ + 16 then loseStrip dn d chunk strip dpa 0 off false s
  else
    let r := ddrRead dpa 16 s
    match r.2.2 with
    | _ :: _ => loseStrip dn d chunk strip (dpa / 64 * 64) 64 off true (bumpBy r.1 rWseCount 0 [0] 64)
    | [] =>
      match chunkHdr f d.kb (stripSize - at_) r.2.1 with
      | none => loseStrip dn d chunk strip dpa 64 off false (bumpBy r.1 rWseCount 0 [0] 64)
      | some h =>
        let size := (h.len + 63) / 64 * 64
        let b := ddrRead (dpa + 16) (h.len - 16) (bumpBy r.1 rWseCount 0 [0] size)
        let s := bumpBy b.1 rWseCount 0 [1] (64 * d.kb)
        match b.2.2 with
        | g :: _ =>
          spoilChunk dn chunk (g * 64) true ⟨poisonChunk f d.kb, some (g * 64), size⟩ (off + size) s
        | [] =>
          match chunkBody f d.kb h b.2.1 with
          | none => spoilChunk dn chunk dpa false ⟨poisonChunk f d.kb, some dpa, size⟩ (off + size) s
          | some bs => (s, ⟨⟨bs, none, size⟩, off + size, none⟩)

/-- The strip that holds the next chunk that a pass reads (R200). -/
def nextStrip (d : StreamDesc) (p : Pass) : Nat :=
  let ms := maskStrips d.mask
  ms.getD (p.read % ms.length) 0

/-- A pass reads its next chunk. -/
def readChunk (dn : Nat) (d : StreamDesc) (p : Pass) (s : State) : State × Pass × Chunk :=
  let strip := nextStrip d p
  match (p.lost.find? (fun c => c.1 = strip)).map (·.2) with
  | some dpa => (wseCount false s, { p with read := p.read + 1 }, lostChunk d dpa 0)
  | none =>
    let off := Cells.get 0 p.offs strip
    let r := if (wform d.format).codec then readPacked dn d (p.first + p.read) strip off s
      else readRaw dn d (p.first + p.read) strip off s
    (r.1, { p with
        read := p.read + 1
        offs := Cells.set 0 p.offs strip r.2.next
        lost := match r.2.lost with
          | some dpa => p.lost ++ [(strip, dpa)]
          | none => p.lost }, r.2.chunk)

/-- The strip of the next chunk is TRAINING: its accesses are held (R172). -/
def readHeld (d : StreamDesc) (p : Pass) (s : State) : Bool :=
  decide ((stripAt s (nextStrip d p)).code = .training)

/-- Bytes of compressed chunks in staging, all contexts together (R206, R209). -/
def stagedBytes (s : State) : Nat :=
  ((s.wse.streams.map (fun c =>
    ((c.2.pass.map (fun p => (p.staged.map (·.size)).sum)).getD 0) +
      ((c.2.held.map (fun p => (p.staged.map (·.size)).sum)).getD 0)))).sum

/-- The buffer of chunk `n` is EMPTY in every member (R193). -/
def bufferFree (s : State) (d : StreamDesc) (st : Stream) (n : Nat) : Bool :=
  (groupOf s d.group).all (fun l => (bufAt st l (n % d.nbuf)).code = .empty)

/-- Every member tile of a descriptor is HALTED (R198). -/
def membersHalted (s : State) (d : StreamDesc) : Bool :=
  (groupOf s d.group).all (fun l =>
    match physOf s l with
    | some t => decide ((tileAt s t).code = .halted)
    | none => true)

/-- A stream has a pass outstanding (R20, R198). -/
def outstanding (st : Stream) : Bool := st.pass.isSome || st.held.isSome

/-- The run of a pass is over: a held start takes over its context at once (R132, R199). -/
def endPass (dn : Nat) (s : State) : State :=
  updStream dn (fun st =>
    { st with pass := st.held.map (fun h => { h with ctx := st.pass.bind (·.ctx) }), held := none }) s

end Sys2Proof.Machine
end

