-- ==== Sys2Proof/Machine/JobOps.lean ====
section
/-!
DEFINITION. Job images: their checks, the mesh routes, loading, launching, aborting and the
end of a job (R85, R86, R97, R101, R102, R143 to R157, R190, R191, R313, R315, R642).
-/

namespace Sys2Proof.Machine

/-- A failed check: the status, the index of the section table entry (0xFFFF for the header)
and the image offset of the first faulty byte (R151). -/
abbrev JobFault := Nat × Nat × Nat

/-- A section of an image: its place in the table, its offset, its length, its COUNT. -/
structure Sect where
  index : Nat
  type : Nat
  off : Nat
  len : Nat
  count : Nat
deriving DecidableEq, Repr

/-- An IMAGE_INVALID at an offset, where a check fails. -/
def invalidAt (i : Nat) (o : Option Nat) : Option JobFault := o.map (fun o => (0x0403, i, o))

/-- R151 step 1. -/
def jobHeader (bs : List Byte) (length : Nat) : Option JobFault :=
  match firstOf [unlessAt (decide (64 ≤ length ∧ leAt bs 8 4 = length)) 8, unlessAt (leAt bs 0 4 = 0x424F4A5A) 0,
      unlessAt (leAt bs 4 2 = 1) 4, unlessAt (leAt bs 6 2 = 64) 6] with
  | some o => some (0x0403, 0xFFFF, o)
  | none => if leAt bs 60 4 = crcZeroed bs 60 then none else some (0x0404, 0xFFFF, 60)

/-- R144: the header's fields that step 1 leaves. -/
def headerFields (bs : List Byte) : Option JobFault :=
  let n := leAt bs 12 2
  let so := leAt bs 24 4
  invalidAt 0xFFFF (firstOf [unlessAt (decide (1 ≤ n ∧ n ≤ 32)) 12, firstNonzero bs 14 2,
    unlessAt (decide (so % 8 = 0 ∧ 64 ≤ so ∧ so + 16 * n ≤ bs.length)) 24, firstNonzero bs 28 32])

/-- R145: the sections of an image. -/
def sections (bs : List Byte) : List Sect :=
  (List.range (leAt bs 12 2)).map (fun i =>
    let o := leAt bs 24 4 + 16 * i
    ⟨i, leAt bs o 2, leAt bs (o + 4) 4, leAt bs (o + 8) 4, leAt bs (o + 12) 4⟩)

/-- R145: entry size and count limits of a fixed type. -/
def sectKind (t : Nat) : Option (Nat × Nat × Nat) :=
  match t with
  | 1 => some (32, 1, 144)
  | 2 => some (24, 0, 32)
  | 4 => some (64, 0, 1024)
  | 6 => some (64, 0, 1024)
  | 7 => some (16, 0, 256)
  | _ => none

/-- Two ranges share a byte. -/
def rangesMeet (a n b m : Nat) : Bool := decide (a < b + m ∧ b < a + n ∧ n ≠ 0 ∧ m ≠ 0)

/-- R144, R145: a section table entry against the image, the table and the entries before. -/
def sectEntry (bs : List Byte) (all : List Sect) (e : Sect) : Option JobFault :=
  let o := leAt bs 24 4 + 16 * e.index
  let before := all.filter (fun x => x.index < e.index)
  invalidAt e.index (firstOf [
    unlessAt (decide (1 ≤ e.type ∧ e.type ≤ 7)) o,
    unlessAt (e.type = 3 || !before.any (fun x => x.type = e.type)) o,
    firstNonzero bs (o + 2) 2,
    unlessAt (e.off % 8 = 0) (o + 4),
    unlessAt (!rangesMeet e.off e.len 0 64 && !rangesMeet e.off e.len (leAt bs 24 4) (16 * all.length) &&
      !before.any (fun x => rangesMeet e.off e.len x.off x.len)) (o + 4),
    unlessAt (decide (e.off + e.len ≤ bs.length)) (o + 8),
    (match sectKind e.type with
      | some (size, lo, hi) => firstOf [unlessAt (decide (lo ≤ e.count ∧ e.count ≤ hi)) (o + 12),
          unlessAt (e.len = size * e.count) (o + 8)]
      | none => unlessAt (if e.type = 3 then e.count = 0 else decide (e.count ≤ 16)) (o + 12))])

/-- The entries of a section of fixed size: the image offset and the bytes of each. -/
def sectRecs (bs : List Byte) (e : Sect) (size : Nat) : List (Nat × List Byte) :=
  (List.range e.count).map (fun k => (e.off + size * k, (bs.drop (e.off + size * k)).take size))

/-- The section of a type. -/
def sectOf (all : List Sect) (t : Nat) : Option Sect := all.find? (fun e => e.type = t)

/-- The entries of the section of a type. -/
def recsOf (bs : List Byte) (all : List Sect) (t size : Nat) : List (Nat × List Byte) :=
  match sectOf all t with
  | some e => sectRecs bs e size
  | none => []

/-- A range lies within one BLOB section. R146 says 'within BLOB sections'; that a range may not
cross from one into the next is the model's choice (assumption 27, DESIGN CHOICE). -/
def inBlob (all : List Sect) (o n : Nat) : Bool :=
  all.any (fun e => decide (e.type = 3 ∧ e.off ≤ o ∧ o + n ≤ e.off + e.len))

/-- R146: a TILE_TABLE entry, after the entries before it; the offset within the entry. -/
def tileEntryFault (all : List Sect) (before : List Nat) (r : List Byte) : Option Nat :=
  let code := leAt r 8 4
  let len := leAt r 24 4
  let a := leAt r 28 4
  firstOf [
    unlessAt (decide (at1 r 0 < 144) && !before.contains (at1 r 0)) 0, firstNonzero r 1 1,
    unlessAt (leAt r 4 4 % 8 = 0 && inBlob all (leAt r 4 4) code) 4,
    unlessAt (decide (code % 8 = 0 ∧ 8 ≤ code ∧ code ≤ 131072)) 8,
    unlessAt (decide (leAt r 12 4 % 8 = 0 ∧ leAt r 12 4 < code)) 12,
    unlessAt (if len = 0 then zeros r 20 4 else inBlob all (leAt r 20 4) len) 20,
    unlessAt (len % 16 = 0) 24,
    unlessAt (decide (a % 16 = 0 ∧ (len = 0 ∨ (code ≤ a ∧ a + len ≤ scratchSize)))) 28]

/-- R146: a TILE_TABLE entry. -/
def readJobTile (r : List Byte) : JobTile :=
  ⟨at1 r 0, leAt r 2 2, leAt r 8 4, leAt r 12 4, leAt r 16 4⟩

/-- R147: the members of a TILE_GROUPS entry, ascending. -/
def groupMembers (r : List Byte) : List Nat :=
  (List.range 144).filter (fun l => bitOf (at1 r (6 + l / 8)) (l % 8))

/-- R89, R147: a TILE_GROUPS entry. A member that is absent from the module is left to R97. -/
def groupFault (absent : Nat → Bool) (tiles before : List Nat) (r : List Byte) : Option Nat :=
  firstOf (unlessAt (decide (at1 r 0 < 32) && !before.contains (at1 r 0)) 0 :: firstNonzero r 1 5 ::
    unlessAt (decide (groupMembers r ≠ [])) 6 :: (List.range 144).map (fun l => unlessAt (!bitOf (at1 r (6 + l / 8)) (l % 8) || tiles.contains l || absent l) (6 + l / 8)))

/-- R190: a stream descriptor. -/
def readStream (r : List Byte) : StreamDesc :=
  ⟨at1 r 0, at1 r 1, at1 r 2, at1 r 3, leAt r 4 2, at1 r 6, at1 r 7, leAt r 8 4, leAt r 12 4, leAt r 16 2,
    leAt r 18 2, leAt r 24 8, leAt r 32 4, leAt r 36 4⟩

/-- R190, R191: a stream descriptor against the groups and the tiles' code lengths. -/
def streamFault (groups : List (Nat × List Nat)) (tiles : List JobTile) (r : List Byte) : Option Nat :=
  let d := readStream r
  let members := ((groups.find? (fun g => g.1 = d.group)).map (·.2)).getD []
  let f := wform d.format
  let n := ((List.range 16).filter (bitOf d.mask)).length
  let weight := d.kind = 1
  firstOf [
    unlessAt (decide (1 ≤ d.kind ∧ d.kind ≤ 3)) 0,
    unlessAt (groups.any (fun g => g.1 = d.group)) 1,
    unlessAt (members.contains d.leader) 2,
    unlessAt (if weight then f.fmt ≠ 0 && d.format < 64 && (!f.expand || f.sparse) &&
        !(f.sparse && f.fmt = 3 && !f.expand) else d.format = 0) 3,
    unlessAt (if weight then decide (1 ≤ d.kb ∧ d.kb ≤ 4096) else d.kb = 0) 4,
    unlessAt (if weight then decide (1 ≤ d.nbuf ∧ d.nbuf ≤ 8) else d.nbuf = 0) 6,
    unlessAt (if weight then d.prefetch < 16 else d.prefetch = 0) 7,
    unlessAt (if weight then d.bufAddr % 16 = 0 &&
        tiles.all (fun t => !members.contains t.ltile || decide (t.codeLen ≤ d.bufAddr)) &&
        decide (d.bufAddr + d.nbuf * descBufSize d ≤ scratchSize) else d.bufAddr = 0) 8,
    unlessAt (if weight then decide (1 ≤ d.nchunk ∧ d.nchunk ≤ 16777215) else d.nchunk = 0) 12,
    unlessAt (d.mask ≠ 0) 16,
    unlessAt (!bitOf d.sync 14) 18,
    firstNonzero r 20 4,
    unlessAt (d.stripOff % 64 = 0 && decide (d.stripOff < stripSize) &&
      (weight || decide (d.stripOff + (members.length + n - 1) / n * d.len ≤ stripSize))) 24,
    unlessAt (if weight then d.sliceOff = 0 else d.sliceOff % 256 = 0 && decide (d.sliceOff + d.len ≤ sliceSize)) 32,
    unlessAt (if weight then d.len = 0 else d.len % 256 = 0 && decide (256 ≤ d.len ∧ d.len ≤ sliceSize)) 36,
    firstNonzero r 40 24]

/-- R313: a collective descriptor. -/
def readColl (r : List Byte) : CollDesc where
  op := at1 r 0
  ring := bitOf (at1 r 1) 0
  osum := bitOf (at1 r 1) 1
  integ := 2 ^ bits (at1 r 1) 3 2
  degFail := bitOf (at1 r 1) 4
  fmt := at1 r 2 % 4
  slot := at1 r 3
  podA := leAt r 4 2
  podB := leAt r 6 2
  maskA := leAt r 8 4
  maskB := leAt r 12 4
  count := leAt r 16 4
  root := leAt r 20 2
  sync := leAt r 22 2
  addend := leAt r 24 4
  degObj := leAt r 28 2

/-- R315: a collective descriptor. -/
def collFault (r : List Byte) : Option Nat :=
  let d := readColl r
  let m := (collMembers d).length
  firstOf [
    unlessAt (decide (1 ≤ d.op ∧ d.op ≤ 5)) 0,
    unlessAt (decide (at1 r 1 < 32) && (!d.ring || decide (d.op ≤ 3 ∧ d.podB = 0xFFFF ∧ d.maskA = 0xFFFFFFFF)) &&
      (!d.osum || (decide (d.op ≤ 2 ∧ d.podB = 0xFFFF) && !d.ring)) &&
      (d.osum || (d.integ = 1 && !d.degFail))) 1,
    unlessAt (decide (at1 r 2 < 4)) 2, unlessAt (decide (d.slot < 16)) 3,
    unlessAt (decide (d.podA < 2048)) 4,
    unlessAt (decide ((d.podB < 2048 ∧ d.podB ≠ d.podA) ∨ d.podB = 0xFFFF)) 6,
    unlessAt (decide (2 ≤ m ∧ m ≤ 64)) 8,
    unlessAt (decide (d.podB ≠ 0xFFFF ∨ d.maskB = 0)) 12,
    unlessAt (decide (d.count ≠ 0 ∧ d.count % (32 * m) = 0)) 16,
    unlessAt (if d.op = 5 then decide (d.root < m) else d.root = 0) 20,
    unlessAt (!bitOf d.sync 14) 22,
    unlessAt (!bitOf d.degObj 14 && (d.osum || !bitOf d.degObj 15)) 28,
    firstNonzero r 30 34]

/-- R149: the PLANS entries from an offset: slot, plan offset and length of each, or the
offset at which the entries leave their section. -/
def planEntries (bs : List Byte) (stop : Nat) : Nat → Nat → (List (Nat × Nat × Nat)) ⊕ Nat
  | 0, o => if o = stop then .inl [] else .inr o
  | n + 1, o =>
    let len := leAt bs (o + 4) 4
    let next := o + 8 + (len + 7) / 8 * 8
    if stop < o + 8 ∨ stop < next then .inr o
    else match planEntries bs stop n next with
      | .inl r => .inl ((at1 bs o, o + 8, len) :: r)
      | .inr e => .inr e

/-- The plans of an image. -/
def imagePlans (bs : List Byte) (all : List Sect) : List (Nat × Nat × Nat) :=
  match sectOf all 5 with
  | some e => match planEntries bs (e.off + e.len) e.count e.off with
    | .inl r => r
    | .inr _ => []
  | none => []

/-- R149, R289: the PLANS section. -/
def plansFault (s : State) (bs : List Byte) (all : List Sect) : Option JobFault :=
  match sectOf all 5 with
  | none => none
  | some e =>
    match planEntries bs (e.off + e.len) e.count e.off with
    | .inr o => some (0x0403, e.index, o)
    | .inl r => r.findSome? (fun p =>
        invalidAt e.index (firstOf [
          unlessAt (decide (p.1 < 16 ∧ (slotAt s p.1).code ≠ .armed)) (p.2.1 - 8),
          firstNonzero bs (p.2.1 - 7) 3,
          (planFault ((bs.drop p.2.1).take p.2.2) p.2.2).map (· + p.2.1),
          firstNonzero bs (p.2.1 + p.2.2) ((8 - p.2.2 % 8) % 8)]))

/-- R150: the SYNC_INIT entries. -/
def syncRanges (rs : List (Nat × List Byte)) : List (Nat × Nat × Nat) :=
  rs.map (fun r => (leAt r.2 0 4, leAt r.2 4 4, leAt r.2 8 8))

/-- Checks of the entries of a section, each after the entries before it. -/
def eachRec (i : Nat) (rs : List (Nat × List Byte)) (f : List (List Byte) → List Byte → Option Nat) :
    Option JobFault :=
  rs.zipIdx.findSome? (fun x =>
    invalidAt i ((f ((rs.take x.2).map (·.2)) x.1.2).map (· + x.1.1)))

/-- R151 step 2: the contents of the sections. -/
def contentsFault (s : State) (bs : List Byte) (all : List Sect) : Option JobFault :=
  let idx := fun t => ((sectOf all t).map (·.index)).getD 0xFFFF
  let tileRecs := recsOf bs all 1 32
  let tiles := tileRecs.map (fun r => readJobTile r.2)
  let groups := (recsOf bs all 2 24).map (fun r => (at1 r.2 0, groupMembers r.2))
  firstOf [
    if tileRecs = [] then some (0x0403, 0xFFFF, 12) else none,
    eachRec (idx 1) tileRecs (fun before r => tileEntryFault all (before.map (at1 · 0)) r),
    eachRec (idx 2) (recsOf bs all 2 24) (fun before r => groupFault (fun l => (physOf s l).isNone) (tiles.map (·.ltile)) (before.map (at1 · 0)) r),
    eachRec (idx 4) (recsOf bs all 4 64) (fun _ r => streamFault groups tiles r),
    plansFault s bs all,
    eachRec (idx 6) (recsOf bs all 6 64) (fun _ r => collFault r),
    eachRec (idx 7) (recsOf bs all 7 16) (fun before r =>
      let o := leAt r 0 4
      let n := leAt r 4 4
      unlessAt (decide (o + n ≤ 16384) && !before.any (fun b => rangesMeet o n (leAt b 0 4) (leAt b 4 4))) 0)]

/-! ### Routes -/

/-- A point of the mesh: column plus 1 (0 and 14 are the edge ports), and row. -/
abbrev MeshPoint := Nat × Nat

/-- The point of a tile. -/
def meshPoint (t : Nat) : MeshPoint := (tileCol t + 1, tileRow t)

/-- R642: the point of a tile's edge port. -/
def portPoint (t : Nat) : MeshPoint := (if tileCol t < 7 then 0 else 14, tileRow t)

/-- A router of the mesh is marked failed. -/
def routerBad (s : State) (p : MeshPoint) : Bool :=
  decide (1 ≤ p.1 ∧ p.1 ≤ 13) && (tileAt s (13 * p.2 + p.1 - 1)).routerFailed

/-- The points strictly between two values of one coordinate. -/
def between (a b : Nat) : List Nat := (List.range (max a b)).filter (fun x => decide (min a b < x))

/-- Two neighbours in a list are both bad: no skip link passes them (R86). -/
def twoBad : List Bool → Bool
  | a :: b :: r => (a && b) || twoBad (b :: r)
  | _ => false

/-- R86: a route along one coordinate and then the other is not blocked: the spec names two ways of
blocking, and the routers at the ends are in neither. -/
def routeOk (s : State) (rowFirst : Bool) (a b : MeshPoint) : Bool :=
  let turn : MeshPoint := if rowFirst then (b.1, a.2) else (a.1, b.2)
  let row := fun (y x1 x2 : Nat) => (between x1 x2).map (fun x => routerBad s (x, y))
  let col := fun (x y1 y2 : Nat) => (between y1 y2).map (fun y => routerBad s (x, y))
  let turns := decide (a.1 ≠ b.1 ∧ a.2 ≠ b.2)
  let r := if rowFirst then row a.2 a.1 b.1 else row b.2 a.1 b.1
  let c := if rowFirst then col b.1 a.2 b.2 else col a.1 a.2 b.2
  !twoBad r && !twoBad c && !(turns && routerBad s turn)

/-- R86: some route can be made. -/
def routable (s : State) (a b : MeshPoint) : Bool := routeOk s true a b || routeOk s false a b

/-- R642: the routes of a job in order: the logical numbers at their ends, and the points. -/
def jobRoutes (s : State) (tiles : List Nat) (groups : List (Nat × List Nat)) (streams : List StreamDesc) :
    List (Nat × MeshPoint × MeshPoint) :=
  let at_ := fun l => (physOf s l).getD 0
  tiles.flatMap (fun a => (tiles.filter (fun b => b ≠ a)).map (fun b =>
    (min a b, meshPoint (at_ a), meshPoint (at_ b)))) ++
  tiles.flatMap (fun a =>
    [(a, meshPoint (at_ a), portPoint (at_ a)), (a, portPoint (at_ a), meshPoint (at_ a))]) ++
  (streams.filter (fun d => d.kind = 1)).flatMap (fun d =>
    (((groups.find? (fun g => g.1 = d.group)).map (·.2)).getD []).map (fun m =>
      (m, portPoint (at_ d.leader), meshPoint (at_ m))))

/-- R86, R642: the first route that cannot be made. -/
def badRoute (s : State) (rs : List (Nat × MeshPoint × MeshPoint)) : Option (Nat × MeshPoint × MeshPoint) :=
  rs.find? (fun r => !routable s r.2.1 r.2.2)

/-! ### Loading -/

/-- R101, R178: the slice of tile `t` is read for a migration: every word that holds an error. -/
def readSlice (t : Nat) (s : State) : State :=
  forEach ((s.mem.words.filter (fun w =>
      decide (sliceBase t ≤ w.1 * 16 ∧ w.1 * 16 < sliceBase t + sliceSize))).map (·.1))
    (fun w st => (sliceCheck t (w * 16 - sliceBase t) 16 st).1) s

/-- R101: one slice, as memory `m` holds it, copied from tile `t` to the tile that holds its
number. The receiving tile is the SOURCE of TILE_MIGRATED, which the spec leaves open
(assumption 46, DESIGN CHOICE). -/
def copySlice (m : Mem) (t u : Nat) (s : State) : State :=
  let shift := fun (k : Nat) => k - sliceBase t + sliceBase u
  let inT := fun (k : Nat) => decide (sliceBase t ≤ k ∧ k < sliceBase t + sliceSize)
  let s := clearWords (sliceBase u) sliceSize { s with mem := { s.mem with
    cells := memClear s.mem.cells (sliceBase u) sliceSize } }
  let moved := (m.cells.filter (fun c => inT c.1)).map (fun c => (shift c.1, c.2))
  let bad := (m.words.filter (fun w => inT (w.1 * 16) && (w.2 = .double || w.2 = .bad))).map (·.1)
  let s := { s with mem := { s.mem with
    cells := s.mem.cells.filter (fun c => c.1 < sliceBase u) ++ moved ++
      s.mem.cells.filter (fun c => sliceBase u ≤ c.1) } }
  let s := forEach bad (fun w st => setWord (shift (w * 16) / 16) .bad st) s
  emit 0x1107 u (leBytes 1 t ++ leBytes 1 u ++ leBytes 4 bad.length) s

/-- The migrations that can be made: the retired tile, and the tile that holds its number now. -/
def dueMigrations (s : State) : List (Nat × Nat) :=
  s.mem.migrate.filterMap (fun p => (physOf s p.2).map (fun u => (p.1, u)))

/-- R99 step 5, R101, R102, R181: the pending slice migrations whose number a tile holds are made;
a source that is out of service loses its slice afterwards. -/
def migrateSlices (s : State) : State :=
  let due := dueMigrations s
  let stay := s.mem.migrate.filter (fun p => (physOf s p.2).isNone)
  let s := forEach due (fun p st => if (tileAt st p.1).routerFailed then st else readSlice p.1 st) s
  let m := s.mem
  let s := forEach due (fun p st =>
    if (tileAt st p.1).routerFailed then
      emit 0x1107 p.2 (leBytes 1 p.1 ++ leBytes 1 p.2 ++ leBytes 4 0xFFFFFFFF) st
    else copySlice m p.1 p.2 st) s
  forEach due (fun p st =>
    if (tileAt st p.1).code = .retired ∨ (tileAt st p.1).code = .spare then dropSlice p.1 st else st)
    { s with mem := { s.mem with migrate := stay } }

/-- R150: the sync objects at JOB_LOAD. -/
def syncInit (rs : List (Nat × Nat × Nat)) (s : State) : State :=
  let s := { s with sync := { s.sync with objs := s.sync.objs.filter (fun c => decide (15360 ≤ c.1)) } }
  forEach rs (fun r st =>
    forEach (List.range r.2.1) (fun i x => syncPut (r.1 + i) (BitVec.ofNat 64 r.2.2) x) st) s

/-- R151 step 4: code and initial data of one tile; a tile that does not serve discards them
(R88). -/
def placeTile (bs r : List Byte) (s : State) : State :=
  match physOf s (at1 r 0) with
  | none => s
  | some t =>
    if !serving (tileAt s t) then s else
    let s := scratchWrite t 0 ((bs.drop (leAt r 4 4)).take (leAt r 8 4)) s
    scratchWrite t (leAt r 28 4) ((bs.drop (leAt r 20 4)).take (leAt r 24 4)) s

/-- The tiles that an image names and that are READY: the offset of each one's TILE_TABLE entry,
its logical number, the physical tile. -/
def readyTiles (bs : List Byte) (all : List Sect) (s : State) : List (Nat × Nat × Nat) :=
  (recsOf bs all 1 32).filterMap (fun r =>
    match physOf s (at1 r.2 0) with
    | some t => if (tileAt s t).code = .ready then some (r.1, at1 r.2 0, t) else none
    | none => none)

/-- R644: the first of those tiles that has left READY since. -/
def leftReady (was : List (Nat × Nat × Nat)) (s : State) : Option Nat :=
  (was.find? (fun x => !decide ((tileAt s x.2.2).code = .ready ∧ (tileAt s x.2.2).logical = some x.2.1))).map (·.1)

/-- R151 steps 3 and 4, R644: migrations, the faults that strike meanwhile, then code and data
tile by tile, until a tile of the image has left READY. -/
def loadTiles (bs : List Byte) (all : List Sect) (hits : List (Nat × FaultSrc)) (s : State) : State :=
  let was := readyTiles bs all s
  let s := forEach hits (fun x st => if x.1 < 156 then faultTile x.1 x.2 st else st) (migrateSlices s)
  forEach (recsOf bs all 1 32) (fun r st => if (leftReady was st).isSome then st else placeTile bs r.2 st) s

/-- R151 steps 4 and 5: descriptors, plans and sync objects are placed, and the job is loaded. -/
def placeJob (bs : List Byte) (all : List Sect) (s : State) : State :=
  let s := forEach (imagePlans bs all) (fun p st =>
    placePlan p.1 (readPlan ((bs.drop p.2.1).take p.2.2)) st) s
  let s := syncInit (syncRanges (recsOf bs all 7 16)) s
  let s := { s with
    wse := { s.wse with streams := [] }
    job :=
      { loaded := true, launched := false, ending := none, jobId := leAt bs 16 8
        tiles := (recsOf bs all 1 32).map (fun r => readJobTile r.2)
        groups := (recsOf bs all 2 24).map (fun r => (at1 r.2 0, groupMembers r.2))
        streams := (recsOf bs all 4 64).map (fun r => readStream r.2)
        colls := (recsOf bs all 6 64).map (fun r => readColl r.2) } }
  emit 0x1110 0 (leBytes 8 (leAt bs 16 8) ++ leBytes 4 bs.length) s

/-- R97, R151: the first entry that names an absent logical number: of TILE_TABLE for a program or
a seed, of TILE_GROUPS for a group member. -/
def absentFault (s : State) (bs : List Byte) (all : List Sect) : Option JobFault :=
  let idx := fun t => ((sectOf all t).map (·.index)).getD 0xFFFF
  ((recsOf bs all 1 32).findSome? (fun r =>
    if (physOf s (at1 r.2 0)).isNone then some (0x0401, idx 1, r.1) else none)).or
  ((recsOf bs all 2 24).findSome? (fun r =>
    if (groupMembers r.2).any (fun l => (physOf s l).isNone) then some (0x0401, idx 2, r.1) else none))

/-- R151 steps 1 and 2: the first failure. A field of several bytes that is wrong is named by its
first byte, which R151's 'first faulty byte' leaves open (assumption 27, DESIGN CHOICE). -/
def imageFault (s : State) (bs : List Byte) (length : Nat) : Option JobFault :=
  match (jobHeader bs length).or (headerFields bs) with
  | some e => some e
  | none =>
    let all := sections bs
    match (all.findSome? (sectEntry bs all)).or (contentsFault s bs all) with
    | some e => some e
    | none => absentFault s bs all

/-- R86: the route of an image that cannot be made. -/
def imageRoute (s : State) (bs : List Byte) : Option (Nat × MeshPoint × MeshPoint) :=
  let all := sections bs
  let tiles := ((recsOf bs all 1 32).map (fun r => at1 r.2 0)).mergeSort (· ≤ ·)
  badRoute s (jobRoutes s tiles ((recsOf bs all 2 24).map (fun r => (at1 r.2 0, groupMembers r.2)))
    ((recsOf bs all 4 64).map (fun r => readStream r.2)))

/-- The reply of a failed JOB_LOAD (R151). -/
def jobReply (f : JobFault) : Answer := .reply f.1 (leBytes 2 f.2.1 ++ leBytes 4 f.2.2)

/-- JOB_LOAD (R143 to R151, R644). A tile of the image that is not READY at the checks, TESTING or
FAULTED, is loaded like any other, and what is written to it is discarded (R88): the spec is
silent, and this is the model's choice (assumption 27, DESIGN CHOICE). -/
def jobLoad : CmdFn := fun _ c s =>
  let p := c.payload
  let dpa := leAt p 0 8
  let len := leAt p 8 4
  if jobBusy s then status 1 s
  else if dpa % 8 ≠ 0 ∨ 67108864 < len ∨ ddrSize < dpa + len ∨ !zeros p 12 4 then status 5 s
  else
    let r := readStaged dpa len s
    match r.2 with
    | .inl e => (r.1, .reply e.1 e.2)
    | .inr bs =>
      match imageFault r.1 bs len with
      | some f => (r.1, jobReply f)
      | none =>
        let all := sections bs
        match imageRoute r.1 bs with
        | some f =>
          let o := ((recsOf bs all 1 32).find? (fun x => at1 x.2 0 = f.1)).map (·.1)
          let pt := fun (m : MeshPoint) => leBytes 1 (m.1 + 255) ++ leBytes 1 m.2
          (emit 0x1109 0 (pt f.2.1 ++ pt f.2.2) r.1,
            jobReply (0x0402, ((sectOf all 1).map (·.index)).getD 0xFFFF, o.getD 0))
        | none =>
          let s2 := loadTiles bs all c.hits r.1
          match leftReady (readyTiles bs all r.1) s2 with
          | some o => ({ s2 with job := { s2.job with loaded := false } },
              jobReply (0x0401, ((sectOf all 1).map (·.index)).getD 0xFFFF, o))
          | none => (placeJob bs all s2, .reply 0 [])

/-! ### Launching and ending -/

/-- R59, R60: the seed of a tile of a job. -/
def jobSeed (j : JobTile) : BitVec 16 :=
  if j.seed % 65536 = 0 then srngLoad (0xACE1#16 ^^^ BitVec.ofNat 16 (j.ltile * 16))
  else BitVec.ofNat 16 j.seed

/-- R153: the state of a tile at JOB_LAUNCH; TILE_PC is cleared with TILE_TRAP, the model's choice
(assumption 17). -/
def launchTile (j : JobTile) (x : Tile) : Tile :=
  { islandReset x with
    code := .running, pc := j.entry, codeLen := j.codeLen, arg := BitVec.ofNat 32 j.arg
    srng := jobSeed j, trapValid := false, trapReg := ⟨0, 0, 0, 0, 0⟩, haltPc := 0 }

/-- JOB_LAUNCH (R152, R153). -/
def jobLaunch : CmdFn := fun _ c s =>
  if jobBusy s then status 1 s
  else if ¬ s.job.loaded then status 3 s
  else if leAt c.payload 0 8 ≠ s.job.jobId then status 5 s
  else if (jobTiles s).any (fun t => (tileAt s t).code ≠ .ready) then status 1 s
  else
    let s := { s with
      job := { s.job with launched := true, ending := none, stopDue := false }
      wse := { s.wse with streams := [] }
      sync := { s.sync with puts := [] }
      coll := { s.coll with
        nums := [], early := s.coll.early.filter (fun e => Cells.get 0 s.coll.nums e.1 = 0) } }
    let s := forEach s.job.tiles (fun j st =>
      match physOf st j.ltile with
      | some t => updTile t (launchTile j) st
      | none => st) s
    let s := forEach (List.range 7) (fun i st => regPut st rWseCount 0 [i] 0) s
    status 0 (emit 0x1111 0 (leBytes 8 s.job.jobId) s)

/-- R157: an exception has been taken, or recorded, and the job has not ended. -/
def jobTrapping (s : State) : Bool :=
  match s.job.ending with
  | some e => e.status = 2
  | none => (jobTiles s).any (fun t => (tileAt s t).trap.isSome)

/-- JOB_ABORT (R154, R157). -/
def jobAbort : CmdFn := fun _ _ s =>
  if !jobRunning s then status 0 s
  else if jobTrapping s then status 0x0405 s
  else if s.job.ending.isSome then status 0 s
  else status 0 (endJob ⟨1, 0, 0, 0⟩ s)

/-- A job that runs has nothing left to do: every tile of it has halted, and no pass and no
collective instance is outstanding (R20, R198, R318). -/
def jobDone (s : State) : Bool :=
  jobRunning s && !s.job.stopDue &&
  (jobTiles s).all (fun t => (tileAt s t).code ≠ .running) &&
  (s.job.ending.isSome ||
    ((jobTiles s).all (fun t => (tileAt s t).code = .halted) && s.coll.insts = [] &&
      s.wse.streams.all (fun c => !outstanding c.2)))

/-- The completion record of a job (R20, R156). -/
def recordJobEnd (e : JobEnd) (s : State) : State :=
  emit 0x1112 0 (leBytes 8 s.job.jobId ++ leBytes 1 e.status ++
    (if 2 ≤ e.status then leBytes 1 e.tile ++ leBytes 1 e.ltile ++ leBytes 4 e.cause else [])) s

/-- JOB_END (R20, R92, R100, R154, R184): the job is no longer loaded, its tiles return to
READY, and what waited for its end is done. -/
def execJobEnd (s : State) : Result :=
  .next (
    if jobDone s then
      let s := recordJobEnd (s.job.ending.getD ⟨0, 0, 0, 0⟩) s
      let mine := jobTiles s
      let s := { s with
        job := { s.job with loaded := false, launched := false, ending := none }
        wse := { s.wse with streams := [] } }
      let s := forEach mine (fun t st =>
        updTile t (fun x => if x.code = .halted then { x with code := .ready } else x) st) s
      let s := forEach (List.range 156) (fun t st =>
        let st := if st.rst.level = 0 then applyPolicy t st else st
        if (tileAt st t).retireDue then retireTile t st else st) s
      tileFaultActive s
    else s)

end Sys2Proof.Machine
end

