-- ==== Sys2Proof/Machine/PhaseRows.lean ====
section
/-!
DEFINITION. The phase switch and dark windows (R264, R292 to R309).
-/

namespace Sys2Proof.Machine

/-- PLAN_ARM and PLAN_DISARM, with the training that a first phase at once in force needs. -/
def planArmCmd : CmdFn := fun h c s =>
  let r := planArm h c s
  (afterSwitch (at1 c.payload 0) s r.1, r.2)

/-- R296: the trigger of the phase in force is met; for TIME, its instant. -/
def triggerMet (s : State) (n : Nat) : Option (Option Nat) :=
  let p := slotAt s n
  match phaseOf p with
  | none => none
  | some f =>
    match f.trig with
    | 1 => if p.fired then some none else none
    | 2 =>
      let t := p.t0 + f.value + p.loops * ((p.plan.map (·.period)).getD 0)
      if t ≤ nowNs s then some (some t) else none
    | 3 => if phaseDone s n then some none else none
    | _ => none

/-- R298: where the end of the phase in force leads. -/
def nextGoal (p : PlanSlot) : SwitchTo :=
  match p.plan with
  | some pl =>
    if p.phase + 1 < pl.phases.length then .phase (p.phase + 1)
    else if pl.loop then .phase 0 else .leave 1
  | none => .leave 1

/-- R297: a TIME trigger that fires later than its instant, by more than a tick. -/
def noteLate (n t : Nat) (s : State) : State :=
  if nowNs s < t + 20 then s
  else
    let s := { s with fab := { s.fab with late := satAdd 16 s.fab.late 1 } }
    emit 0x0D13 n (leBytes 1 n ++ leBytes 1 (slotAt s n).phase ++ leBytes 8 (nowNs s - t)) s

/-- PHASE_TRIGGER (R293, R296 to R298, R302 step 1): the trigger of a slot's phase in force
fires, or a disarm that has waited acts. -/
def execPhaseTrigger (n : Nat) (s : State) : Result :=
  .next (
    let p := slotAt s n
    if p.code ≠ .armed ∨ p.switching.isSome then s
    else if p.disarmDue then startSwitch n (.leave 0) (cancelBursts n s)
    else match triggerMet s n with
      | none => s
      | some t =>
        let s1 := match t with
          | some t => noteLate n t s
          | none => s
        afterSwitch n s (startSwitch n (nextGoal p) (cancelBursts n s1)))

/-- LANESET_CLOSED (R264): every frame of a set has been acknowledged after the trigger. What waited
only for that is released (R302, R306). -/
def execLanesetClosed (n d : Nat) (s : State) : Result :=
  .next (
    if (slotAt s n).switching.isNone then s
    else
      let s1 := updSet n d false (fun x =>
        if x.queue = [] ∧ x.frames = [] ∧ x.resend = [] then { x with closed := true } else x) s
      afterSwitch n s (releaseFree n s1))

/-- LANE_RELEASE (R302 steps 3 and 4): the set to a module has closed and the incoming set has
ended. -/
def execLaneRelease (n d : Nat) (s : State) : Result :=
  .next (
    match (slotAt s n).switching, setAt s n d false with
    | some _, some x =>
      if x.closed ∧ (x.dead ∨ incomingEnded s n d) then
        let u := unreleased s n
        afterSwitch n s (releaseAll n (u.1.filter (fun i => (laneAt s i).dest = d))
          (u.2.filter (fun i => (rxAt s i).source = d)) s)
      else s
    | _, _ => s)

/-- RETUNE_DONE (R302 step 5, R354): a retuned laser has passed the referee and is lit. -/
def execRetuneDone (i : Nat) (s : State) : Result :=
  .next (
    let l := laneAt s i
    if 256 ≤ i ∨ !l.retune then s
    else match laneLaser s i with
      | none => s
      | some n =>
        let s1 := if (laserAt s (chipOf i) n).channel = l.channel then openLaser (chipOf i) n s else s
        if laneLit s1 i then
          let wait := laneWaits s1 i
          let s1 := updLane i (fun l =>
            { l with retune := false
                     code := if l.code ≠ .dark then l.code else if l.slot.isSome && !wait then .inSet else .idle }) s1
          if l.slot.isSome then noteGap l.relAt s1 else s1
        else s)

/-- PHASE_GAP_OVERRUN (R303): a lane not lit and confirmed, or a receive channel without marker
lock, 5 µs after its release. -/
def execPhaseGapOverrun (rx : Bool) (i : Nat) (s : State) : Result :=
  .next (
    let rec_ := fun (k : Nat) => emit 0x0D14 (laneSource i k) (leBytes 1 (i / 8) ++ leBytes 1 (i % 8) ++ leBytes 1 k)
    if rx then
      let r := rxAt s i
      if i < 256 ∧ r.code = .listen ∧ r.slot ≠ none ∧ ¬ r.lock ∧ r.relAt + 5000 ≤ nowNs s ∧
          ¬ rxWaits s i ∧ ¬ bitOf (osumMask s) (i / 8) then rec_ r.channel (faultRx i 2 0 0 s)
      else s
    else
      let l := laneAt s i
      if i < 256 ∧ l.retune ∧ l.slot ≠ none ∧ l.relAt + 5000 ≤ nowNs s ∧ ¬ laneWaits s i then rec_ l.channel (faultLane i 8 s) else s)

/-! ### Dark windows -/

/-- A mask of planes. -/
def planeMask (ps : List Nat) : Nat := ps.dedup.foldl (fun m p => m ||| 2 ^ p) 0

/-- R270, R306 step 2: a lane or receive channel of a plane leaves its set for a window. -/
def darkElem (i : Nat) (s : State) : State :=
  let s := resendLane i s
  let s := updLane i (fun l =>
    if l.code = .dark ∧ ¬ l.retune then l else { l with code := .darkWindow, retune := false }) s
  dimLane i (updRx i (fun r => if r.code = .off then r else { r with code := .darkWindow }) s)

/-- DARK_WINDOW_OPEN (R306 steps 2 and 3): the pending windows that have reached START. -/
def execDarkWindowOpen (s : State) : Result :=
  .next (
    let due := fun (w : DarkWin) => !w.isOpen && decide (w.start ≤ nowNs s)
    match s.fab.windows.filter due with
    | [] => s
    | ws =>
      let ps := ws.map (·.plane)
      let s := { s with fab := { s.fab with
        windows := s.fab.windows.map (fun w => if due w then { w with isOpen := true } else w) } }
      let s := forEach ps (fun p => forEach ((List.range 8).map (· + 8 * p)) darkElem) s
      let s := emit 0x0D16 0 (leBytes 4 (planeMask ps)) s
      releaseSums s)

/-- A lane or receive channel of a plane has not been released in the switch in progress. -/
def stillOld (s : State) (p : Nat) : Bool :=
  (List.range 8).any (fun j =>
    decide (((laneAt s (8 * p + j)).slot.isSome ∧ ¬ (laneAt s (8 * p + j)).rel) ∨
      ((rxAt s (8 * p + j)).slot.isSome ∧ ¬ (rxAt s (8 * p + j)).rel)))

/-- DARK_WINDOW_CLOSE (R306 step 4, R308): the open windows that have reached their end. The
plane's lanes and receive channels return under R268. -/
def execDarkWindowClose (s : State) : Result :=
  .next (
    let done := fun (w : DarkWin) => w.isOpen && decide (w.finish ≤ nowNs s)
    match s.fab.windows.filter done with
    | [] => s
    | ws =>
      let ps := ws.map (·.plane)
      let s := { s with fab := { s.fab with
        windows := s.fab.windows.filter (fun w => !done w)
        spineWait := s.fab.spineWait.filter (fun p => !ps.contains p)
        spineNext := s.fab.spineNext.filter (fun p => !ps.contains p || stillOld s p) } }
      let s := forEach ps (fun p => forEach ((List.range 8).map (· + 8 * p)) brightenLane) s
      emit 0x0D17 0 (leBytes 4 (planeMask ps)) s)

end Sys2Proof.Machine
end

