-- ==== Sys2Proof/Machine/Scalar.lean ====
section
/-!
DEFINITION. The meanings of the scalar, address, memory and control-flow instructions
(R119 to R124, R142) and of the words that are no instruction (R112).
-/

namespace Sys2Proof.Machine

/-- NOP. -/
def execNop (t : Nat) (s : State) : Result := .next (simpleInsn 0x01 (fun _ x => x) t s)

/-- HALT (R142): issue stops; TILE_HALTED follows when the queues are empty. -/
def execHalt (t : Nat) (s : State) : Result :=
  .next (runInsn 0x02 t (fun _ s => updTile t (fun x => { x with wait := .halt }) s) s)

/-- BRK (R120, R138). -/
def execBrk (t : Nat) (s : State) : Result :=
  .next (runInsn 0x03 t (fun i s => raiseHere t 11 i.imm s) s)

/-- The queues that FENCE names are empty. -/
def fenceOpen (i : Insn) (x : Tile) : Bool :=
  (!bitOf i.x 0 || x.mq.isEmpty) && (!bitOf i.x 1 || x.vq.isEmpty) &&
    (!bitOf i.x 2 || x.oq.isEmpty) && (!bitOf i.x 3 || x.fq.isEmpty)

/-- FENCE (R117, R120): waits until the named queues have completed. -/
def execFence (t : Nat) (s : State) : Result :=
  .next (runInsn 0x04 t (fun i s1 => if fenceOpen i (tileAt s1 t) then stepOver t s1 else s) s)

/-- GETC (R119). -/
def execGetc (t : Nat) (s : State) : Result :=
  .next (runInsn 0x05 t (fun i s =>
    stepOver t (updTile t (fun x => sSet x i.d (ctlGet t i.a s)) { s with fresh := s.fresh + 1 })) s)

/-- SETC (R119): c0 is written, c5 clears the flags written 1. -/
def execSetc (t : Nat) (s : State) : Result :=
  .next (simpleInsn 0x06 (fun i x =>
    let v := BitVec.setWidth 6 (sGet x i.a)
    if i.d = 0 then { x with trapEn := v } else { x with flags := x.flags &&& ~~~v }) t s)

/-- SEED (R59, R118): waits for earlier stochastic conversions. -/
def execSeed (t : Nat) (s : State) : Result :=
  .next (runInsn 0x07 t (fun i s1 =>
    if (allEntries (tileAt s1 t)).any (fun e => stochastic (insnOf e.word)) then s
    else stepOver t (updTile t (fun x =>
      { x with srng := srngLoad (BitVec.setWidth 16 (sGet x i.a)) }) s1)) s)

/-- R121: MULHU. -/
def mulHigh (a b : W32) : W32 := BitVec.ofNat 32 (a.toNat * b.toNat / 2 ^ 32)
/-- R121: shifts use bits 4:0 of their second operand. -/
def shamt (b : W32) : Nat := b.toNat % 32
/-- R121: SLT. -/
def sltVal (a b : W32) : W32 := if a.slt b then 1#32 else 0#32
/-- R121: SLTU. -/
def sltuVal (a b : W32) : W32 := if a.ult b then 1#32 else 0#32
/-- R121: MIN. -/
def minVal (a b : W32) : W32 := if b.slt a then b else a
/-- R121: MAX. -/
def maxVal (a b : W32) : W32 := if a.slt b then b else a

/-- ADD (R121). -/
def execAdd (t : Nat) (s : State) : Result := .next (aluReg 0x10 (fun a b => a + b) t s)
/-- SUB (R121). -/
def execSub (t : Nat) (s : State) : Result := .next (aluReg 0x11 (fun a b => a - b) t s)
/-- AND (R121). -/
def execAnd (t : Nat) (s : State) : Result := .next (aluReg 0x12 (fun a b => a &&& b) t s)
/-- OR (R121). -/
def execOr (t : Nat) (s : State) : Result := .next (aluReg 0x13 (fun a b => a ||| b) t s)
/-- XOR (R121). -/
def execXor (t : Nat) (s : State) : Result := .next (aluReg 0x14 (fun a b => a ^^^ b) t s)
/-- SHL (R121). -/
def execShl (t : Nat) (s : State) : Result := .next (aluReg 0x15 (fun a b => a <<< shamt b) t s)
/-- SHR (R121). -/
def execShr (t : Nat) (s : State) : Result := .next (aluReg 0x16 (fun a b => a >>> shamt b) t s)
/-- SRA (R121). -/
def execSra (t : Nat) (s : State) : Result := .next (aluReg 0x17 (fun a b => a.sshiftRight (shamt b)) t s)
/-- MUL (R121). -/
def execMul (t : Nat) (s : State) : Result := .next (aluReg 0x18 (fun a b => a * b) t s)
/-- MULHU (R121). -/
def execMulhu (t : Nat) (s : State) : Result := .next (aluReg 0x19 (fun a b => mulHigh a b) t s)
/-- SLT (R121). -/
def execSlt (t : Nat) (s : State) : Result := .next (aluReg 0x1A (fun a b => sltVal a b) t s)
/-- SLTU (R121). -/
def execSltu (t : Nat) (s : State) : Result := .next (aluReg 0x1B (fun a b => sltuVal a b) t s)
/-- MIN (R121). -/
def execMin (t : Nat) (s : State) : Result := .next (aluReg 0x1C (fun a b => minVal a b) t s)
/-- MAX (R121). -/
def execMax (t : Nat) (s : State) : Result := .next (aluReg 0x1D (fun a b => maxVal a b) t s)
/-- ADDI (R121). -/
def execAddi (t : Nat) (s : State) : Result := .next (aluImm 0x20 (fun a b => a + b) t s)
/-- SUBI (R121). -/
def execSubi (t : Nat) (s : State) : Result := .next (aluImm 0x21 (fun a b => a - b) t s)
/-- ANDI (R121). -/
def execAndi (t : Nat) (s : State) : Result := .next (aluImm 0x22 (fun a b => a &&& b) t s)
/-- ORI (R121). -/
def execOri (t : Nat) (s : State) : Result := .next (aluImm 0x23 (fun a b => a ||| b) t s)
/-- XORI (R121). -/
def execXori (t : Nat) (s : State) : Result := .next (aluImm 0x24 (fun a b => a ^^^ b) t s)
/-- SHLI (R121). -/
def execShli (t : Nat) (s : State) : Result := .next (aluImm 0x25 (fun a b => a <<< shamt b) t s)
/-- SHRI (R121). -/
def execShri (t : Nat) (s : State) : Result := .next (aluImm 0x26 (fun a b => a >>> shamt b) t s)
/-- SRAI (R121). -/
def execSrai (t : Nat) (s : State) : Result := .next (aluImm 0x27 (fun a b => a.sshiftRight (shamt b)) t s)
/-- MULI (R121). -/
def execMuli (t : Nat) (s : State) : Result := .next (aluImm 0x28 (fun a b => a * b) t s)
/-- MULHUI (R121). -/
def execMulhui (t : Nat) (s : State) : Result := .next (aluImm 0x29 (fun a b => mulHigh a b) t s)
/-- SLTI (R121). -/
def execSlti (t : Nat) (s : State) : Result := .next (aluImm 0x2A (fun a b => sltVal a b) t s)
/-- SLTUI (R121). -/
def execSltui (t : Nat) (s : State) : Result := .next (aluImm 0x2B (fun a b => sltuVal a b) t s)
/-- MINI (R121). -/
def execMini (t : Nat) (s : State) : Result := .next (aluImm 0x2C (fun a b => minVal a b) t s)
/-- MAXI (R121). -/
def execMaxi (t : Nat) (s : State) : Result := .next (aluImm 0x2D (fun a b => maxVal a b) t s)

/-- LI. -/
def execLi (t : Nat) (s : State) : Result :=
  .next (simpleInsn 0x2E (fun i x => sSet x i.d (BitVec.ofNat 32 i.imm)) t s)

/-- AADD. -/
def execAadd (t : Nat) (s : State) : Result :=
  .next (simpleInsn 0x30 (fun i x => aSet x i.d (aGet x i.a + sext48 (sGet x i.b))) t s)

/-- AADDI. -/
def execAaddi (t : Nat) (s : State) : Result :=
  .next (simpleInsn 0x31 (fun i x => aSet x i.d (aGet x i.a + sext48 (BitVec.ofNat 32 i.imm))) t s)

/-- ALO: bits 47:32 stay. -/
def execAlo (t : Nat) (s : State) : Result :=
  .next (simpleInsn 0x32 (fun i x =>
    aSet x i.d (BitVec.ofNat 48 ((aGet x i.d).toNat / 2 ^ 32 * 2 ^ 32 + i.imm))) t s)

/-- AHI: bits 31:0 stay. -/
def execAhi (t : Nat) (s : State) : Result :=
  .next (simpleInsn 0x33 (fun i x =>
    aSet x i.d (BitVec.ofNat 48 ((aGet x i.d).toNat % 2 ^ 32 + i.imm % 2 ^ 16 * 2 ^ 32))) t s)

/-- AGET. -/
def execAget (t : Nat) (s : State) : Result :=
  .next (simpleInsn 0x34 (fun i x =>
    let a := (aGet x i.a).toNat
    sSet x i.d (BitVec.ofNat 32 (if bitOf i.x 0 then a / 2 ^ 32 else a))) t s)

/-- AMOV. -/
def execAmov (t : Nat) (s : State) : Result :=
  .next (simpleInsn 0x35 (fun i x => aSet x i.d (aGet x i.a)) t s)

/-- LW (R122, R123); the upsets strike memory before it reads (assumption 6). -/
def execLw (t : Nat) (ups : List Upset) (s : State) : Result :=
  .next (match nextInsn t s with
    | (_, some i) =>
      if i.op = 0x38 then
        scalarLoad 0x38 4 (fun i bs x => sSet x i.d (BitVec.ofNat 32 (leVal bs))) t (strike ups s)
      else s
    | (s', none) => if (tileAt s' t).code = .running then s else s')

/-- SW (R122, R123). -/
def execSw (t : Nat) (s : State) : Result :=
  .next (scalarStore 0x39 4 (fun i x => (sGet x i.b).toNat) t s)

/-- LA (R122, R123): a loaded value wins over POST. -/
def execLa (t : Nat) (s : State) : Result :=
  .next (scalarLoad 0x3A 8 (fun i bs x => aSet x i.d (BitVec.ofNat 48 (leVal bs))) t s)

/-- SA (R122, R123). -/
def execSa (t : Nat) (s : State) : Result :=
  .next (scalarStore 0x3B 8 (fun i x => (aGet x i.b).toNat) t s)

/-- R112: the word at the program counter is no instruction: ILLEGAL. -/
def execIllegalWord (t : Nat) (s : State) : Result :=
  .next (match fetchWord t s with
    | (s', some w) => if insnOk (insnOf w) then s else raiseHere t 1 0 s'
    | (s', none) => if (tileAt s' t).code = .running then s else s')

/-- BEQ (R121, R124). -/
def execBeq (t : Nat) (s : State) : Result := .next (branchOn 0x40 (fun a b => a == b) t s)
/-- BNE (R121, R124). -/
def execBne (t : Nat) (s : State) : Result := .next (branchOn 0x41 (fun a b => a != b) t s)
/-- BLT (R121, R124). -/
def execBlt (t : Nat) (s : State) : Result := .next (branchOn 0x42 (fun a b => a.slt b) t s)
/-- BGE (R121, R124). -/
def execBge (t : Nat) (s : State) : Result := .next (branchOn 0x43 (fun a b => !a.slt b) t s)
/-- BLTU (R121, R124). -/
def execBltu (t : Nat) (s : State) : Result := .next (branchOn 0x44 (fun a b => a.ult b) t s)
/-- BGEU (R121, R124). -/
def execBgeu (t : Nat) (s : State) : Result := .next (branchOn 0x45 (fun a b => !a.ult b) t s)

/-- JMP (R124). -/
def execJmp (t : Nat) (s : State) : Result :=
  .next (runInsn 0x46 t (fun i s => jumpBy t i.imm s) s)

/-- JAL (R124). -/
def execJal (t : Nat) (s : State) : Result :=
  .next (runInsn 0x47 t (fun i s =>
    jumpBy t i.imm (updTile t (fun x => sSet x i.d (BitVec.ofNat 32 (x.pc + 8))) s)) s)

/-- JR (R124): a target that may not be fetched raises FETCH with the address of JR. -/
def execJr (t : Nat) (s : State) : Result :=
  .next (runInsn 0x48 t (fun i s =>
    let x := tileAt s t
    let a := (sGet x i.a).toNat
    if a % 8 = 0 ∧ a < x.codeLen then setTile t { x with pc := a } s
    else raiseHere t 2 a s) s)

end Sys2Proof.Machine
end

