-- ==== Sys2Proof/Machine/TileRows.lean ====
section
/-!
DEFINITION. The events of a tile's life (R92 to R107, R140, R142) and the effect of its
control register (R106, R110).
-/

namespace Sys2Proof.Machine

/-- TILE_HALTED (R142, R154): the queues of a halting or stopping tile are empty. -/
def execTileHalted (t : Nat) (s : State) : Result :=
  .next (
    let x := tileAt s t
    if x.code = .running ∧ x.trap = none ∧ (x.wait = .halt ∨ x.wait = .stop) ∧ queuesEmpty x then
      haltTile t s
    else s)

/-- TILE_TRAP as a register value (R158). -/
def trapWord (v : Bool) (tr : Trap) : Nat :=
  b2n v * 2 ^ 31 + tr.flags % 64 * 2 ^ 16 + tr.unit % 16 * 2 ^ 12 + tr.cause % 256

/-- TILE_TRAPPED (R140): the started entries have completed; the trap registers are
written, the tile is HALTED, and the job ends as JOB_ABORT would end it. -/
def execTileTrapped (t : Nat) (s : State) : Result :=
  .next (
    let x := tileAt s t
    match x.trap with
    | none => s
    | some tr =>
      if x.code = .running ∧ queuesEmpty x then
        let s := haltTile t (setTile t { x with trap := none, trapValid := true, trapReg := tr } s)
        let s := emit 0x110A t (leBytes 1 t ++ leBytes 1 (x.logical.getD 255) ++
          leBytes 4 (trapWord true tr) ++ leBytes 4 tr.pc ++ leBytes 6 tr.addr) s
        stopJob s
      else s)

/-- R98: the lowest logical number that no tile holds and that the tile did not hold before. -/
def lowestAbsent (s : State) (former : Option Nat) : Option Nat :=
  (List.range 144).find? (fun l => (physOf s l).isNone && decide (former ≠ some l))

/-- The result of a self-test (R110). -/
def noteTest (pass : Bool) (fails : BitVec 8) (s : State) (x : Tile) : Tile :=
  { x with stDone := true, stPass := pass, stUnits := fails, lastTest := runNs s, test := .plain }

/-- R92, R181: a tile that has passed a test takes its state; a SPARE tile's slice is off. -/
def enterService (t : Nat) (s : State) : State :=
  if (tileAt s t).logical.isSome then updTile t (fun x => { x with code := .ready }) s
  else dropSlice t (updTile t (fun x => { x with code := .spare }) s)

/-- R92, R98: a self-test has passed. The failed-router mark of R107 is not cleared, not even by
a RESTORE: the spec names nothing that clears it (assumption 19, DESIGN CHOICE). -/
def testPassed (t : Nat) (s : State) : State :=
  let x := tileAt s t
  let s := updTile t (noteTest true 0#8 s) s
  if x.test = .restore then
    let l := lowestAbsent s x.former
    emit 0x1108 t (leBytes 1 (l.getD 255)) (enterService t (updTile t (fun x => { x with logical := l }) s))
  else enterService t s

/-- R92, R107, R108: a self-test has failed in some units; a failed router is the fault source
ROUTER_FAULT too. -/
def testFailed (t : Nat) (fails : BitVec 8) (s : State) : State :=
  let s := updTile t (fun x => setErr 8 (noteTest false fails s x)) s
  let s := if fails.getLsbD 5 then
      let s := updTile t (fun x => setErr 6 { x with routerFailed := true }) s
      emit 0x1101 t (leBytes 1 t ++ leBytes 4 (tileAt s t).err.toNat) s
    else s
  retireTile t (emit 0x1104 t (leBytes 4 (2 ^ 31 + fails.toNat)) s)

/-- R105: after an L3 or L4 the tests run when stage 3 has reached them, one row at a time: no
other row of which one tile has been tested still has a tile TESTING. -/
def testsNow (s : State) (t : Nat) : Bool :=
  decide (s.rst.level = 0) ||
  (decide (s.rst.point = 2) && (List.range 12).all (fun y =>
    let row := (List.range 13).map (fun c => tileAt s (13 * y + c))
    decide (y = tileRow t) || !(row.any (fun x => decide (x.code = .testing)) && row.any (fun x => x.stDone))))

/-- TILE_SELFTEST_DONE (R92, R98, R100, R105): the units that failed are the operand. A tile
whose slice has failed its march test is retired, not restored (R185). A power transition that
waited for the test goes on (R508). -/
def execTileSelftestDone (t : Nat) (fails : BitVec 8) (s : State) : Result :=
  .next (
    let x := tileAt s t
    if x.code = .testing ∧ ¬ x.testStopped ∧ testsNow s t then
      resumePwr (tileFaultActive (
        if fails ≠ 0#8 then testFailed t fails s
        else if (sliceAt s t).bistFail ∧ x.test ≠ .restore then retireTile t (updTile t (noteTest true 0#8 s) s)
        else testPassed t s))
    else s)

/-- TILE_FAULT (R99, R103, R107). -/
def execTileFault (t : Nat) (src : FaultSrc) (s : State) : Result :=
  .next (if t < 156 then faultTile t src s else s)

/-- SPARE_TILE_SELFTEST (R100): one tile at a time, and not within 24 h of run time of its last
test. -/
def execSpareTileSelftest (t : Nat) (s : State) : Result :=
  .next (
    if (tileAt s t).code = .spare ∧ within s s.fw.tilePolicy.spareHours [(tileAt s t).lastTest] = [] ∧
        ¬ s.tiles.any (fun x => decide (x.code = .testing ∧ x.test = .spare)) then
      startTest t .spare s
    else s)

/-- MESH_STALL (R107, R110): recorded only; a limit of 0 disables the report. -/
def execMeshStall (t : Nat) (s : State) : Result :=
  .next (
    if t < 156 ∧ regGet s rTileStallLimit t [] ≠ 0 then
      emit 0x1106 t [] (updTile t (setErr 7) s)
    else s)

/-- R106: a TILE_CTRL command that the tile's state does not admit. -/
def rejectCmd (t : Nat) (s : State) : State := updTile t (fun x => { x with cmdRej := true }) s

/-- TILE_CTRL.SELFTEST (R92, R106). -/
def tileSelftest (t : Nat) (s : State) : State :=
  let c := (tileAt s t).code
  if c = .spare ∨ c = .ready ∨ c = .faulted then tileFaultActive (startTest t .plain s)
  else rejectCmd t s

/-- TILE_CTRL.RETIRE (R94, R106). -/
def tileRetire (t : Nat) (s : State) : State :=
  let c := (tileAt s t).code
  if c = .ready ∨ c = .faulted then tileFaultActive (retireTile t s) else rejectCmd t s

/-- TILE_CTRL.RESTORE (R98, R106). -/
def tileRestore (t : Nat) (s : State) : State :=
  if (tileAt s t).code = .retired then startTest t .restore s else rejectCmd t s

/-- R106, R110: a write of TILE_CTRL. -/
def tileCtrl (t v : Nat) (s : State) : State :=
  match v % 8 with
  | 0 => s
  | 1 => tileSelftest t s
  | 2 => tileRetire t s
  | 4 => tileRestore t s
  | _ => rejectCmd t s

end Sys2Proof.Machine
end

