-- ==== Sys2Proof/Machine/Waits.lean ====
section
/-!
DEFINITION. The counters of time spent in a condition (R217, R344, R517): each grows by the 20
ns of a tick that finds its condition.
-/

namespace Sys2Proof.Machine

/-- R217: tiles that wait in STAKE. -/
def stakeWaits (s : State) : Nat :=
  (s.tiles.filter (fun x => match x.wait with
    | .stake _ _ => true
    | _ => false)).length

/-- R217: a context holds a staged chunk whose buffer is not EMPTY in every member. -/
def bufWaits (s : State) : Bool :=
  s.wse.streams.any (fun c => match streamDesc s c.1, c.2.pass with
    | some d, some p => p.ctx.isSome && decide (p.writing = []) && decide (p.staged ≠ []) &&
        !bufferFree s d c.2 (p.first + p.begun)
    | _, _ => false)

/-- An instance whose peer `m` has granted one segment more. -/
def moreCredit (m : Nat) (i : Inst) : Inst := mapPeer m (fun p => { p with granted := p.granted + 1 }) i

/-- R344: a stream has units ready and no credit: it has nothing to send, and would have with
one segment more of credit. -/
def creditWaits (s : State) : Bool :=
  s.coll.insts.any (fun i => instRuns i && i.peers.any (fun p =>
    (instPiece i p.module s).isNone && (instPiece (moreCredit p.module i) p.module s).isSome))

/-- R344: a grant waits for a reduction slot. -/
def slotWaits (s : State) : Bool :=
  s.coll.insts.any (fun i => instRuns i && if (descOf s i).ring then
    i.peers.any (fun p => decide (p.given < wantGrant s i p.rank)) else
    decide (i.slots.length + i.segsDone.length <
      min ((i.peers.map (fun p => wantGrant s i p.rank)).foldl max 0) (segCount (reduceLen (descOf s i)))))

/-- R517: the level is slower than CEILING because of one of the requests of R498. -/
def limitedBy (s : State) (ls : List Nat) : Bool :=
  decide (s.pwr.ceiling < s.pwr.effective) && ls.contains s.pwr.limiter

/-- A counter that grows by `n`; a counter that does not grow is not written. -/
def growBy (r : RegRow) (i n : Nat) (s : State) : State := if n = 0 then s else bumpBy s r 0 [i] n

/-- The 20 ns of a tick, or none. -/
def tickNs (b : Bool) : Nat := if b then 20 else 0

/-- R217: a WEIGHT pass with a context has chunks still to read. -/
def weightWork (s : State) : Bool :=
  s.wse.streams.any (fun c => match streamDesc s c.1, c.2.pass with
    | some d, some p => p.ctx.isSome && decide (d.kind = 1 ∧ p.done < d.nchunk)
    | _, _ => false)

/-- R217: the nanoseconds of a tick that MEM_BUSY (0) and DEC_BUSY (1) count: a free value, of at
most the tick's 20, while the engine has weight work (assumption 10). -/
def busyTick (k : Nat) (s : State) : Nat :=
  if weightWork s then min (Config.busyNs k s.time.ticks) 20 else 0

/-- The waits that a tick finds (R217, R344, R517), counted. -/
def countWaits (s : State) : State :=
  growBy rWseCount 2 (20 * stakeWaits s) (growBy rWseCount 3 (busyTick 0 s) (growBy rWseCount 4 (busyTick 1 s) (growBy rWseCount 5 (tickNs (bufWaits s))
    (growBy rCollCount 2 (tickNs (creditWaits s)) (growBy rCollCount 3 (tickNs (slotWaits s))
      (growBy rPwrCount 4 (tickNs (limitedBy s [2, 3])) (growBy rPwrCount 5 (tickNs (limitedBy s [1])) s)))))))

end Sys2Proof.Machine
end

