-- ==== Sys2Proof/Machine/TimeRows.lean ====
section
/-!
DEFINITION. The time base (R468 to R488): the tick, the domains and their servos, the choice
of source, and alarms.
-/

namespace Sys2Proof.Machine

/-! ### The count -/

/-- The always-on logic is held: an L4 reset has yet to leave H4. -/
def aonHeld (s : State) : Bool := decide (s.rst.level = 4 ∧ s.rst.point = 4)

/-- TIME_TICK (R468): 20 ns pass, and the counters of waits grow with them. -/
def execTimeTick (s : State) : Result :=
  .next (
    if aonHeld s then s
    else
      let u : Int := ((nowNs s + 20) * 2 ^ 32 + s.time.frac : Nat) + s.time.corr
      timeUnits u.toNat (updTime (fun t => { t with ticks := t.ticks + 1 }) (countWaits s)))

/-! ### Domains -/

/-- TIME_LOST (R475): no Sync for 4 Sync intervals (0), or an announceReceiptTimeout (1). -/
def execTimeLost (m cause : Nat) (s : State) : Result := .next (if m < 2 then loseDomain m cause s else s)

/-- TIME_LISTEN_RETURN (R475): 1 s after LOST. -/
def execTimeListenReturn (m : Nat) (s : State) : Result :=
  .next (
    if (domainAt s m).code = .lost then
      updDomain m (fun d => { freshServo .listening none d with masters := [] }) s
    else s)

/-- TIME_HOLDOFF_EXPIRY (R476): the primary domain has held lock for HOLDOFF_S. -/
def execTimeHoldoffExpiry (s : State) : Result :=
  .next (if locked s 0 then selectSource (updDomain 0 (fun d => { d with held := true }) s) else s)

/-- HOLDOVER_EXPIRY (R479). -/
def execHoldoverExpiry (s : State) : Result :=
  .next (if s.time.source = 0 then updTime (fun t => { t with valid := false }) s else s)

/-- A write of TIME_CFG (R475): a domain is enabled or disabled. -/
def applyTimeCfg (m : Nat) (s : State) : State :=
  let on := bitOf (regGet s rTimeCfg 0 [m]) 31
  let d := domainAt s m
  if !on then selectSource (updDomain m (fun d => { freshServo .disabled none d with masters := [] }) s)
  else if d.code = .disabled then updDomain m (fun d => { freshServo .listening none d with masters := [] }) s
  else s

/-- DOMAIN of TIME_CFG. -/
def cfgDomain (s : State) (m : Nat) : Nat := min (regField s rTimeCfg 0 [m] 7 0) 127

/-- R474: whether a message is of the domain and of its chosen master. -/
def fromMaster (s : State) (m clock dom : Nat) : Bool :=
  decide ((domainAt s m).master = some clock ∧ dom = cfgDomain s m)

/-- A message is discarded and counted. -/
def discardPtp (m : Nat) (s : State) : State :=
  if (domainAt s m).code = .disabled then s else timeCount m 4 s

/-! ### Messages -/

/-- R474: one key of the best master clock algorithm before another. -/
def keyBefore : List Nat → List Nat → Bool
  | [], _ => false
  | _ :: _, [] => false
  | a :: x, b :: y => decide (a < b) || (decide (a = b) && keyBefore x y)

/-- R474: the best of the clocks of which two Announce messages have arrived. -/
def bestMaster (ms : List (Nat × List Nat × Nat)) : Option Nat :=
  ((ms.filter (fun x => decide (2 ≤ x.2.2))).foldl (fun b x =>
    match b with
    | none => some x
    | some y => if keyBefore x.2.1 y.2.1 then some x else some y) none).map (·.1)

/-- PTP_ANNOUNCE_RX (R474, R475): an Announce message of clock `clock`, with the numbers that the
best master clock algorithm compares. -/
def execPtpAnnounceRx (port clock dom : Nat) (key : List Nat) (s : State) : Result :=
  .next (
    let m := port / 4
    let d := domainAt s m
    if 8 ≤ port ∨ d.code = .disabled then s
    else if dom ≠ cfgDomain s m then discardPtp m s
    else
      let n := ((d.masters.find? (fun x => x.1 = clock)).map (·.2.2)).getD 0
      let ms := d.masters.filter (fun x => x.1 ≠ clock) ++ [(clock, key, min (n + 1) 2)]
      let s := updDomain m (fun d => { d with masters := ms }) s
      if d.code = .lost ∨ bestMaster ms = none ∨ bestMaster ms = d.master then s
      else selectSource (updDomain m (freshServo .acquiring (bestMaster ms)) s))

/-- PTP_SYNC_RX (R472, R474): its origin time, with its correction, in nanoseconds. -/
def execPtpSyncRx (port clock dom seq : Nat) (two : Bool) (origin : Int) (s : State) : Result :=
  .next (
    let m := port / 4
    if 8 ≤ port then s
    else if fromMaster s m clock dom then
      timeCount m 0 (updDomain m (fun d =>
        if two then { d with port := port, waiting := some (seq, (nowNs s : Int)) }
        else { d with port := port, waiting := none, down := some ((nowNs s : Int) - origin) }) s)
    else discardPtp m s)

/-- PTP_FOLLOW_UP_RX (R472). -/
def execPtpFollowUpRx (port clock dom seq : Nat) (origin : Int) (s : State) : Result :=
  .next (
    let m := port / 4
    if 8 ≤ port then s
    else if fromMaster s m clock dom then
      match (domainAt s m).waiting with
      | some (q, t) =>
        if q = seq then
          timeCount m 1 (updDomain m (fun d => { d with waiting := none, down := some (t - origin) }) s)
        else discardPtp m s
      | none => discardPtp m s
    else discardPtp m s)

/-- DELAY_REQ (R472, R473): a Delay_Req leaves on the port of the master's latest Sync, never more than
16 in a second. -/
def execDelayReq (m : Nat) (s : State) : Result :=
  .next (
    let d := domainAt s m
    if m < 2 ∧ (d.code = .acquiring ∨ d.code = .locked) ∧ d.down.isSome ∧ portUp s d.port ∧
        d.reqAt.all (fun t => decide (t + 62500000 ≤ runNs s)) then
      timeCount m 2 (bump (updDomain m (fun d =>
        { d with req := some (d.reqSeq, (nowNs s : Int)), reqSeq := (d.reqSeq + 1) % 65536, reqAt := some (runNs s) }) s)
        rHostPortCount 0 [d.port, 1])
    else s)

/-- R475: the span of the last 16 estimates. -/
def spanOk (est : List Int) : Bool :=
  decide (est.length = 16) && est.all (fun a => est.all (fun b => decide (a - b ≤ 200)))

/-- R486: the two LOCKED domains differ by more than the limit. -/
def checkDiff (s : State) : State :=
  let lim := atLeast1 (regField s rTimePolicy 0 [] 14 8) * 100
  if locked s 0 ∧ locked s 1 ∧ lim < ((domainAt s 0).offset - (domainAt s 1).offset).natAbs then
    emit 0x0406 0 [] s
  else s

/-- R475, R476: an estimate of a domain's offset, with the servo's prediction of it. -/
def takeEstimate (m : Nat) (off path pred : Int) (s : State) : State :=
  let d := domainAt s m
  let far := if 10000 < (off - pred).natAbs then d.far + 1 else 0
  let s := updDomain m (fun d =>
    { d with offset := off, path := path, est := (off :: d.est).take 16, far := far }) s
  match d.code with
  | .locked =>
    if 4 ≤ far then loseDomain m 2 s
    else checkDiff (if s.time.source = m + 1 then follow m s else s)
  | .acquiring =>
    if spanOk (domainAt s m).est then
      let s := updDomain m (fun d => { d with code := .locked, far := 0, held := false }) s
      let s := emit 0x0401 m (leBytes 1 m ++ leBytes 8 (d.master.getD 0)) s
      checkDiff (selectSource s)
    else s
  | _ => s

/-- PTP_DELAY_RESP_RX (R472, R475): the time at which the master received the Delay_Req, less its
correction; the servo's prediction of the offset is an operand. -/
def execPtpDelayRespRx (port clock dom seq : Nat) (rx pred : Int) (s : State) : Result :=
  .next (
    let m := port / 4
    if 8 ≤ port then s
    else if fromMaster s m clock dom then
      match (domainAt s m).req, (domainAt s m).down with
      | some (q, t), some down =>
        if q = seq then
          let up := rx - t
          let s := timeCount m 3 (updDomain m (fun d => { d with req := none }) s)
          takeEstimate m ((down - up) / 2) ((down + up) / 2) pred s
        else discardPtp m s
      | _, _ => discardPtp m s
    else discardPtp m s)

/-! ### TIME_CTRL and alarms -/

/-- A write of TIME_CTRL (R479, R485, R488). -/
def timeCtrl (v : Nat) (s : State) : State :=
  if bitOf v 0 then
    let ns := regField s rTimeSetNs 0 [] 29 0
    if locked s 0 ∨ locked s 1 ∨ 1000000000 ≤ ns then updTime (fun t => { t with cmdRej := true }) s
    else
      let at_ := regField s rTimeSetS 0 [] 47 0 * 1000000000 + ns
      updTime (fun t => { t with valid := true }) (stepTime ((at_ : Int) - (nowNs s : Int)) s)
  else s

/-- Alarm `i`. -/
def alarmAt (s : State) (i : Nat) : Alarm := s.time.alarms.getD i {}

/-- TIME_SET_ALARM (R481). -/
def timeSetAlarm : CmdFn := fun _ c s =>
  let p := c.payload
  let i := leAt p 0 1
  let f := leAt p 1 1
  if 8 ≤ i ∨ 8 ≤ f ∨ leAt p 2 6 ≠ 0 ∨ 2 ^ 48 ≤ leAt p 8 8 ∨ 1000000000 ≤ leAt p 16 4 ∨ (bitOf f 2 ∧ leAt p 20 4 = 0) then
    status 5 s
  else if bitOf f 0 ∧ ¬ s.time.valid then status 0x0701 s
  else
    let a : Alarm :=
      { enable := bitOf f 0, wake := bitOf f 1, periodic := bitOf f 2
        sec := leAt p 8 8, ns := leAt p 16 4, period := leAt p 20 4 }
    status 0 (updTime (fun t => { t with alarms := t.alarms.set i a }) s)

/-- R482: an alarm after it fires: a one-shot alarm is disabled, a periodic one moves on, past
the time in force where a step has carried its next instant into the past. Whether it is late: that, or a step has
passed its instant (R478). -/
def alarmAfter (now : Nat) (a : Alarm) : Alarm × Bool :=
  if a.periodic then
    let p := a.period * 1000000
    let next := alarmNs a + p
    let late := decide (next ≤ now)
    let n := if late then next + ((now - next) / p + 1) * p else next
    ({ a with sec := n / 1000000000, ns := n % 1000000000, passed := false }, late || a.passed)
  else ({ a with enable := false, passed := false }, a.passed)

/-- ALARM_FIRE (R482). -/
def execAlarmFire (i : Nat) (s : State) : Result :=
  .next (
    let a := alarmAt s i
    if i < 8 ∧ a.enable ∧ alarmNs a ≤ nowNs s ∧ ¬ aonHeld s then
      let r := alarmAfter (nowNs s) a
      let add := fun (xs : List Nat) => if xs.contains i then xs else xs ++ [i]
      let s := updTime (fun t =>
        { t with alarms := t.alarms.set i r.1, fired := add t.fired
                 late := if r.2 then add t.late else t.late }) s
      if a.wake then emit 0x0407 0 (leBytes 1 i) (latchWake 0 s) else s
    else s)

end Sys2Proof.Machine
end

