-- ==== Sys2Proof/Machine/RegRead.lean ====
section
/-!
DEFINITION. What every register reads (R7, R8, R10, R453, R455 and the maps of each chapter):
the stored value of a register that has no machinery of its own, and for every other one the
value that the state holds. A state code is the place of its constructor in its type, whose
constructors stand in the order of the codes.
-/

namespace Sys2Proof.Machine

/-- A field of `w` bits at bit `lo`. -/
def fld (lo w v : Nat) : Nat := v % 2 ^ w * 2 ^ lo

/-- A one-bit field. -/
def flagAt (lo : Nat) (b : Bool) : Nat := fld lo 1 (b2n b)

/-- A signed field of `w` bits at bit `lo`, saturating. -/
def sfld (lo w : Nat) (v : Int) : Nat :=
  fld lo w ((max (-(2 ^ (w - 1))) (min (2 ^ (w - 1) - 1) v)) % 2 ^ w).toNat

/-- A mask with a bit set for each number that meets a condition. -/
def maskWhere (n : Nat) (f : Nat → Bool) : Nat :=
  (List.range n).foldl (fun m i => if f i then m + 2 ^ i else m) 0

/-- R158: a control register in its window before any job has left one: nothing has been counted
and no GETC has executed, so c1 and c4 read 0 (assumption 38, DESIGN CHOICE). -/
def idleCtl (t i : Nat) (s : State) : W32 := if i = 1 ∨ i = 4 then 0#32 else ctlGet t i s

/-- The tile block (R74, R110, R158). -/
def readTile (s : State) (t : Nat) (n : RegName) (ix : List Nat) : Option Nat :=
  let x := tileAt s t
  let i := ix.headD 0
  match n with
  | .TILE_SRNG => some x.srng.toNat
  | .TILE_ARITH_FLAGS => some x.flags.toNat
  | .TILE_ID => some (flagAt 31 x.logical.isSome + fld 16 8 (x.logical.getD 0) + fld 8 8 t +
      fld 4 4 (tileRow t) + fld 0 4 (tileCol t))
  | .TILE_STATUS => some (flagAt 11 x.cmdRej + fld 0 3 x.code.ctorIdx)
  | .TILE_ERR => some x.err.toNat
  | .TILE_CE_COUNT => some (fld 0 16 x.ceCount)
  | .TILE_SELFTEST => some (flagAt 31 x.stDone + flagAt 30 x.stPass + x.stUnits.toNat)
  | .TILE_TRAP => some (trapWord x.trapValid x.trapReg)
  | .TILE_TRAP_PC => some (fld 0 19 x.trapReg.pc)
  | .TILE_TRAP_ADDR => some (fld 0 48 x.trapReg.addr)
  | .TILE_PC => some (fld 0 19 x.haltPc)
  | .TILE_WIN_S => some (sGet x i).toNat
  | .TILE_WIN_A => some (aGet x i).toNat
  | .TILE_WIN_C => some (if x.lastC = [] then (idleCtl t i s).toNat else (x.lastC.getD i 0#32).toNat)
  | .TILE_WIN_V => some ((vGet x i).getD (ix.getD 1 0) 0#32).toNat
  | _ => none

/-- R189: after an L3 or L4, the counts of the memories read their Reset values until stage 3 has
initialised them. -/
def memUp (s : State) : Bool := !(decide (3 ≤ s.rst.level) && decide (3 ≤ s.rst.point))

/-- The MEM block (R189). -/
def readMem (s : State) (n : RegName) (i : Nat) : Option Nat :=
  let x := stripAt s i
  match n with
  | .MEM_STRIP_STATUS => some (fld 30 2 x.code.ctorIdx + fld 28 2 (b2n x.slow) +
      (if memUp s then fld 24 4 (min x.pprLeft 15) else 0) +
      (if memUp s then fld 16 8 x.lost.length + fld 0 5 x.patch.length else 0))
  | .MEM_STRIP_ERR => some (fld 16 16 x.ueCount + fld 0 16 x.ceCount)
  | .MEM_ERR_LAST => some (flagAt 63 s.mem.errValid + fld 60 3 s.mem.errType + fld 0 48 s.mem.errWhere)
  | .MEM_LOST => some (match (if memUp s then (lostWindow s)[i]? else none) with
      | some d => flagAt 63 true + fld 0 41 d
      | none => 0)
  | .MEM_AS_STATUS => some (fld 24 8 (sliceAt s i).ce + fld 16 5 (if memUp s then rowsLeft s i else 16) +
      fld 12 4 (if memUp s then colsLeft s i else 8) +
      flagAt 1 (sliceAt s i).sparesOut + flagAt 0 (sliceAt s i).bistFail)
  | _ => none

/-- The WSE block (R217). -/
def readWse (s : State) (n : RegName) (i : Nat) : Option Nat :=
  match n with
  | .WSE_STATUS => some (fld 16 11 (waitingOrders s).length + fld 0 6 (ctxUsed s).length)
  | .WSE_ERR => some (fld 16 16 s.wse.bad + fld 0 16 s.wse.ue)
  | .WSE_ERR_LAST => some (flagAt 63 s.wse.errValid + fld 60 3 s.wse.errType + fld 48 10 s.wse.errDesc +
      fld 0 41 s.wse.errDpa)
  | .WSE_CTX => some (match s.wse.streams.find? (fun c => c.2.pass.bind (·.ctx) = some i) with
      | some (d, st) => flagAt 63 true + fld 61 2 (((streamDesc s d).map (·.kind)).getD 0) + fld 48 10 d +
          fld 0 24 ((st.pass.map (·.done)).getD 0)
      | none => 0)
  | _ => none

/-- R344: destination segments complete: those of the own shard, and those of the other
ranks' data that are not reduced. -/
def destSegments (s : State) (i : Inst) : Nat :=
  let d := descOf s i
  i.segsDone.length + ((otherRanks s i).map (fun r =>
    let len := streamLen s d r (ownRank s i)
    ((List.range (segCount len)).filter (fun k =>
      decide (reduceLen d ≤ k * segSize) && decide (segGot i r k = segPart len k))).length)).sum

/-- R344: CPOSTs that wait at the head of a fabric queue for a context. -/
def heldPosts (s : State) : Nat :=
  (s.tiles.filter (fun x => match x.fq with
    | e :: _ => decide ((insnOf e.word).op = 0xD0) && !e.handed
    | [] => false)).length

/-- The SYNC and COLL blocks (R225, R240, R344). -/
def readCollReg (s : State) (n : RegName) (i : Nat) : Option Nat :=
  match n with
  | .SYNC_VALUE => some (syncGet s i).toNat
  | .COLL_SYNC_STATUS => some (fld 0 8 (s.tiles.filter (fun x => match x.wait with
      | .sync _ _ => true
      | _ => false)).length)
  | .COLL_STATUS => some (fld 16 5 s.coll.insts.length + fld 0 8 (heldPosts s))
  | .COLL_CTX => some (match instAt s i with
      | some x => flagAt 63 true + flagAt 62 x.deg + fld 48 10 x.desc + fld 32 16 x.num + fld 24 8 (instSlots s x) +
          fld 0 24 (destSegments s x)
      | none => 0)
  | .COLL_LAST_END => some (flagAt 63 s.coll.lastValid + fld 48 10 s.coll.lastDesc + fld 40 8 s.coll.lastStatus +
      fld 16 16 s.coll.lastInst + fld 0 16 s.coll.lastPeer)
  | _ => none

/-- The fabric's registers in a chiplet's FAB block (R282, R283, R312): a fibre and an element
of it, or a slot. -/
def readFab (s : State) (c : Nat) (n : RegName) (ix : List Nat) : Option Nat :=
  let i := ix.headD 0
  let e := 64 * i + 8 * c + ix.getD 1 0
  match n with
  | .FAB_LANE => let l := laneAt s e
    some (fld 29 3 l.code.ctorIdx + fld 24 5 l.channel + fld 20 4 l.reason + fld 0 16 l.dest)
  | .FAB_RXCH => let r := rxAt s e
    some (fld 29 3 r.code.ctorIdx + fld 24 5 r.channel + fld 20 4 r.reason + fld 0 16 r.source)
  | .FAB_NEIGH => let x := Cells.get {} s.fab.neigh (32 * (8 * i + c) + ix.getD 1 0)
    some (fld 29 3 x.code.ctorIdx + flagAt 28 x.heard + flagAt 27 x.confirmed + flagAt 26 x.planned + fld 0 16 x.id)
  | .FAB_MOD_STATUS => some (flagAt 31 s.fab.quar + fld 28 3 s.fab.quarReason + flagAt 27 s.fab.cfgRej +
      fld 24 3 s.fab.disc.code + fld 20 4 s.fab.disc.round)
  | .FAB_DISC_SUMMARY =>
    let m := fun k => s.fab.summary.getD k 0
    some (fld 48 11 (m 3) + fld 32 11 (m 2) + fld 16 11 (m 1) + fld 0 11 (m 0))
  | .FAB_PLAN_STATUS => let p := slotAt s i
    some (fld 30 2 p.code.ctorIdx + flagAt 29 p.switching.isSome + fld 23 6 p.phase + fld 0 23 (min p.loops (2 ^ 23 - 1)))
  | .FAB_PLAN_ID => some (((slotAt s i).plan.map (fun (p : Plan) => p.id)).getD 0)
  | .FAB_DARK => some (
      fld 32 32 (maskWhere 32 (fun p => s.fab.windows.any (fun w => decide (w.plane = p) && !w.isOpen))) +
      maskWhere 32 (fun p => s.fab.windows.any (fun w => decide (w.plane = p) && w.isOpen)))
  | .FAB_PHASE_STATS => some (fld 48 16 (min s.fab.maxGap 65535) + fld 32 16 s.fab.late + fld 0 32 s.fab.switches)
  | _ => none

/-- R353: WRONG_RING events in the present 1 s of run time. -/
def wrongNow (s : State) (x : Ring) : Nat :=
  min 7 (x.wrong.filter (fun t => decide (runNs s < t + 1000000000))).length

/-- The light registers of a chiplet (R379). -/
def readLight (s : State) (c : Nat) (n : RegName) (ix : List Nat) : Option Nat :=
  let i := ix.headD 0
  match n with
  | .FAB_LASER => let x := laserAt s c i
    some (fld 28 4 x.code.ctorIdx + flagAt 27 x.slot.isSome + fld 25 2 (x.slot.getD 0 / 8) +
      fld 22 3 (x.slot.getD 0) + fld 17 5 x.channel + flagAt 16 x.isOpen + fld 9 7 x.bias)
  | .FAB_LASER_REF => let x := laserAt s c i
    some (flagAt 31 x.refValid + flagAt 30 x.refPass + fld 27 3 x.refFail + fld 22 5 x.refIndex + fld 0 16 x.refOffset)
  | .FAB_RING => let r := 8 * i + ix.getD 1 0
    let x := ringAt s c r
    some (fld 29 3 x.code.ctorIdx + fld 24 5 x.channel +
      fld 17 7 (100 * (Cells.get 0 (engAt s c).heaters r).toNat / 8388607) + fld 14 3 (wrongNow s x))
  | .FAB_LIGHT_STATUS => let x := chipAt s c
    some (flagAt 31 (x.busOut ≠ []) + flagAt 30 x.cmdRej + fld 27 3 (spareLasers s c).length)
  | .FAB_EYE => let x := eyeAt s c i
    some (fld 30 2 x.code.ctorIdx + fld 28 2 x.cause + fld 0 16 x.trips)
  | _ => none

/-- A Marionette engine's registers (R409). -/
def readMar (s : State) (e : Nat) (n : RegName) (ix : List Nat) : Option Nat :=
  let i := ix.headD 0
  let x := strAt s e i
  match n with
  | .MAR_STATUS => some (flagAt 31 (engAt s e).cmdRej + fld 16 11 (marLoad s e) +
      fld 0 9 ((List.range 256).filter (fun k => decide ((strAt s e k).code = .hold ∨ (strAt s e k).code = .safe))).length)
  | .MAR_STR_CFG =>
    if i < fixedCount e then
      some (low 31 (regGet s rMarStrCfg e [i]) + flagAt 31 (strRuns s e i))
    else none
  | .MAR_STR_STATUS => some (fld 29 3 x.code.ctorIdx + fld 26 3 x.cause + flagAt 25 x.innerHeld + flagAt 24 x.clipHi +
      flagAt 23 x.clipLo)
  | .MAR_STR_OUT => some (sfld 0 24 x.u)
  | .MAR_STR_MEAS => some (flagAt 31 x.valid + flagAt 30 x.atEnd + sfld 0 24 x.y)
  | _ => none

/-- The CAL block (R428). -/
def readCal (s : State) (n : RegName) : Option Nat :=
  match n with
  | .CAL_STATUS => some (flagAt 31 s.cal.uncal + flagAt 30 s.cal.loaded + fld 16 8 s.cal.result + fld 8 8 s.cal.kind)
  | .CAL_STORE => some (fld 32 32 (((calInForce s.cal).map (·.gen)).foldl max 0) + fld 31 1 s.cal.bank + min (calBank - s.cal.used) (2 ^ 18 - 1))
  | _ => none

/-- R568, R594: FW_VERSION of the image in a slot, or 0 when not VERIFIED or better. -/
def slotVersion (s : State) (n : Nat) : Nat :=
  if 3 ≤ slotCode (slotOf s n).state then imageVersion (slotOf s n) else 0

/-- R455: FW_VERSION of the image that runs; 0 in recovery mode. -/
def runningVersion (s : State) : Nat :=
  if s.fw.recovery ∨ ¬ s.fw.running then 0 else imageVersion (slotOf s s.fw.activeSlot)

/-- R455: the logical tiles present; set when the self-test of R105 ends. -/
def tilesPresent (s : State) : Nat :=
  if s.tiles.all (fun x => x.stDone || decide (x.code = .retired)) then (present s).length else 0

/-- R96: logical tile `l` is absent. -/
def isAbsent (s : State) (l : Nat) : Bool := decide (l < 144) && (physOf s l).isNone

/-- The GEN block (R455). -/
def readGen (s : State) (n : RegName) (i : Nat) : Option Nat :=
  match n with
  | .GEN_DEVICE_TAG => some deviceTag
  | .GEN_FW_VERSION => some (runningVersion s)
  | .GEN_STATUS => some (fld 24 8 (tilesPresent s) + fld 20 4 s.pwr.current + fld 17 3 (rstEffective s) +
      flagAt 5 s.fab.quar + flagAt 4 s.fw.recovery + flagAt 3 (s.red.state = .fenced) + flagAt 2 s.host.open_ +
      flagAt 1 s.pups.bActive + flagAt 0 s.rst.ready)
  | .GEN_MODID => some (ownId s)
  | .GEN_ABSENT => some (maskWhere 32 (fun j => isAbsent s (32 * i + j)))
  | .GEN_BOOT => some (fld 0 32 s.peat.boot)
  | _ => none

/-- The HOST block (R467). -/
def readHost (s : State) (n : RegName) (i : Nat) : Option Nat :=
  match n with
  | .HOST_PORT_STATUS => let p := s.host.ports.getD i {}
    some (flagAt 31 p.link + flagAt 30 p.anDone + flagAt 29 p.trained + flagAt 28 p.fecLock + flagAt 27 (decide (4 ≤ i)))
  | .HOST_MAC_BASE => some (fld 0 48 Config.macBase)
  | .HOST_SESSION => some (flagAt 63 s.host.open_ + fld 32 3 (s.host.started.filter (fun c => !c.serial)).length +
      fld 0 32 s.host.session)
  | .HOST_NEXT => some (fld 0 32 s.host.next)
  | _ => none

/-- The TIME block (R488). -/
def readTime (s : State) (n : RegName) (i : Nat) : Option Nat :=
  let d := s.time.domains.getD i {}
  let a := s.time.alarms.getD i {}
  match n with
  | .TIME_NOW_S => some (fld 0 48 s.time.sec)
  | .TIME_NOW_NS => some (fld 0 30 s.time.latch)
  | .TIME_STAMP => some (stampNow s)
  | .TIME_STATUS => some (flagAt 31 s.time.valid + flagAt 30 s.time.cmdRej + fld 28 2 s.time.source +
      fld 25 3 (s.time.domains.getD 0 {}).code.ctorIdx + fld 22 3 (s.time.domains.getD 1 {}).code.ctorIdx +
      fld 0 16 s.time.switches)
  | .TIME_OFFSET => some (sfld 32 32 d.path + sfld 0 32 d.offset)
  | .TIME_MASTER_ID => some (fld 0 64 (d.master.getD 0))
  | .TIME_ALARM_STATUS => some (fld 16 8 (maskWhere 8 s.time.late.contains) +
      fld 8 8 (maskWhere 8 (fun k => (s.time.alarms.getD k {}).enable)) + maskWhere 8 s.time.fired.contains)
  | .TIME_ALARM_AT_S => some (fld 0 48 a.sec)
  | .TIME_ALARM_AT_NS => some (fld 0 32 a.ns)
  | .TIME_ALARM_PERIOD => some (fld 0 32 a.period)
  | _ => none

/-- The PWR block (R517). VIN_MV and IIN_MA are measured as they are read: free values. -/
def readPwr (s : State) (n : RegName) : Option Nat :=
  let p := s.pwr
  match n with
  | .PWR_STATE => some (flagAt 31 p.trans.isSome + flagAt 30 p.pend.isSome + fld 28 2 p.lastResult +
      fld 8 4 (p.pend.getD 0) + fld 4 4 ((p.trans.map (·.target)).getD p.current) + fld 0 4 p.current)
  | .PWR_PLEVEL => some (fld 28 4 p.effective + fld 24 4 p.ceiling + fld 20 4 (p.zones.foldl max 0) + fld 16 4 p.cap +
      fld 12 4 p.curr + fld 8 4 (if p.memHot then 4 else 0) + fld 0 3 p.limiter)
  | .PWR_STATUS => some (flagAt 31 p.vinRange + flagAt 30 p.inletHot + flagAt 29 p.memHot + flagAt 28 p.busLow +
      flagAt 27 (decide (pTarget p ≠ p.effective)))
  | .PWR_REFUSER => some (flagAt 31 p.refuserValid + fld 0 16 p.refuser)
  | .PWR_WAKE_LATCH => some (fld 8 3 (wakeMask p.wakeSeen) + fld 0 3 (wakeMask p.wakePending))
  | .PWR_PAD => some (flagAt 31 p.padHeld)
  | .PWR_MEAS => some (fld 32 16 (Config.free s.fresh) + fld 16 16 (Config.free s.fresh / 65536) + fld 0 16 p.pinDw)
  | _ => none

/-- The RST block (R534). -/
def readRst (s : State) (n : RegName) (j : Nat) : Option Nat :=
  match n with
  | .RST_CAUSE => some s.rst.cause.toNat
  | .RST_ACTIVE => some s.rst.active.toNat
  | .RST_STATUS => some (fld 29 3 (rstEffective s) + fld 26 3 s.rst.hold + fld 23 3 s.rst.last)
  | .RST_MAP => some (((List.range 8).map (fun i =>
      if 8 * j + i < 20 then fld (4 * i) 3 (fuseLevel (8 * j + i)) else 0)).sum)
  | .RST_LAST_TIME => some (fld 32 32 s.rst.assertStamp + fld 0 32 s.rst.doneStamp)
  | _ => none

/-- The RED block (R566). -/
def readRed (s : State) (n : RegName) (i : Nat) : Option Nat :=
  let r := s.red
  match n with
  | .RED_STATUS => some (fld 30 2 r.state.ctorIdx + fld 28 2 r.mode + flagAt 27 r.lost +
      flagAt 26 (decide (r.state = .active) && !r.lost) + flagAt 25 r.tableReady + flagAt 24 r.cmdRej +
      fld 20 4 (min r.missFab 15) + fld 16 4 (min r.missEth 15) + fld 12 4 r.fenceCause)
  | .RED_PAIR => some (fld 16 16 r.partner + fld 8 8 r.prioOwn + fld 0 8 r.prioPartner)
  | .RED_CLAIM => some (fld 32 32 r.highest + fld 0 32 r.claim)
  | .RED_MIRROR_STATUS => some (fld 32 32 r.committed + flagAt 31 r.pass.isSome + flagAt 30 r.pendingStart)
  | .RED_HOLD_STATUS => some (fld 32 32 r.holdGen + fld 31 1 r.holdBank + flagAt 30 r.frozen)
  | .RED_HOLD_DIR_BASE => some (match r.holdDir[i]? with
      | some e => flagAt 63 true + fld 0 41 e.1
      | none => 0)
  | .RED_HOLD_DIR_SIZE => some (fld 0 41 ((r.holdDir[i]?.map (fun e => e.2)).getD 0))
  | .RED_ACC_ENTRY => let e := accOf s (regField s rRedAccIndex 0 [] 15 0)
    some (fld 32 32 e.claim + fld 16 16 e.partner + fld 8 8 e.prio + flagAt 7 e.valid + flagAt 6 e.twin)
  | .RED_SUP => some (flagAt 31 s.pups.bActive + fld 29 2 s.pups.a.ctorIdx + fld 27 2 s.pups.b.ctorIdx +
      fld 0 16 s.pups.switchovers)
  | _ => none

/-- The SUP block (R594). -/
def readSup (s : State) (n : RegName) (i : Nat) : Option Nat :=
  match n with
  | .SUP_FW_STATUS => some (flagAt 31 s.fw.recovery + flagAt 30 s.fw.probation.isSome + flagAt 28 s.fw.incompat +
      fld 8 4 (slotCode (slotOf s 1).state) + fld 4 4 (slotCode (slotOf s 0).state) + fld 0 1 s.fw.activeSlot)
  | .SUP_FW_VERSION => some (slotVersion s i)
  | .SUP_PROBATION => some (fld 32 32 ((s.fw.probation.map (·.1)).getD 0) + fld 0 16 ((s.fw.probation.map (·.2)).getD 0))
  | .SUP_SECURITY => some (flagAt 31 (s.fw.ownerKey ≠ []) + fld 8 4 (maskWhere 4 s.fw.revoked.contains) + fld 0 6 s.fw.svn)
  | .SUP_SETTINGS => some (fld 32 32 (areaOf s).gen + fld 16 16 (areaOf s).format + fld 0 1 s.fw.area)
  | _ => none

/-- The EVT block (R612). The oldest SEQ of a medium that holds no record is a free value once
records have been written. -/
def readEvt (s : State) (n : RegName) (i : Nat) : Option Nat :=
  let p := s.peat
  let none_ := if p.next = 0 then 0 else Config.free s.fresh
  match n with
  | .EVT_STATUS => some (flagAt 31 (p.badSegs ≠ []) + fld 16 5 (min p.queue.length 16) + fld 0 5 (16 - p.badSegs.length))
  | .EVT_SEQ => some (fld 0 64 (match i with
      | 0 => p.next
      | 1 => match p.ring with
        | x :: _ => x.1
        | [] => none_
      | _ => if p.flash = [] then none_ else flashFirst p))
  | .EVT_HEALTH => some (healthReg s i)
  | _ => none

/-- What a register with machinery of its own reads. -/
def liveValue (s : State) (r : RegRow) (inst : Nat) (ix : List Nat) : Option Nat :=
  let i := ix.headD 0
  match r.block with
  | .tile => readTile s inst r.name ix
  | .mem => readMem s r.name i
  | .wse => readWse s r.name i
  | .sync => readCollReg s r.name i
  | .coll => readCollReg s r.name i
  | .fab => match readFab s inst r.name ix with
    | some v => some v
    | none => readLight s inst r.name ix
  | .mar => readMar s inst r.name ix
  | .cal => readCal s r.name
  | .gen => readGen s r.name i
  | .host => readHost s r.name i
  | .time => readTime s r.name i
  | .pwr => readPwr s r.name
  | .rst => readRst s r.name i
  | .red => readRed s r.name i
  | .sup => readSup s r.name i
  | .evt => readEvt s r.name i

/-- The counters of happenings that no command reports: the line's own errors (R467). -/
def unreported (r : RegRow) (ix : List Nat) : Bool :=
  match r.name with
  | .HOST_PORT_COUNT => decide (2 ≤ ix.getD 1 0 ∧ ix.getD 1 0 ≤ 4)
  | _ => false

/-- A read of a register that may take a free value. -/
def readsFree (r : RegRow) (ix : List Nat) : Bool :=
  unreported r ix || r.name = .EVT_SEQ || r.name = .PWR_MEAS

/-- R8, R10: what a register reads: write-only and reserved bits read 0. -/
def regValue (s : State) (r : RegRow) (inst : Nat) (ix : List Nat) : Nat :=
  (if unreported r ix then Config.free s.fresh
    else match liveValue s r inst ix with
    | some v => v
    | none => regGet s r inst ix) % 2 ^ r.width

/-- A read of a register: TIME_NOW_S latches the nanoseconds (R470), and a read that may take
a free value draws one. -/
def readReg (r : RegRow) (inst : Nat) (ix : List Nat) (s : State) : State × Nat :=
  let v := regValue s r inst ix
  if r.name = .TIME_NOW_S then (updTime (fun t => { t with latch := t.ns }) s, v)
  else if readsFree r ix then ({ s with fresh := s.fresh + 1 }, v)
  else (s, v)

end Sys2Proof.Machine
end

