-- ==== Sys2Proof/Machine/ResetOps.lean ====
section
/-!
DEFINITION. Module-wide resets (R518 to R534): what an assertion sequence does, what is kept
through each level, the boot, and the power supply's coming and going (R492, R495, R603, R604).
-/

namespace Sys2Proof.Machine

/-- The state with the reset controller changed. -/
def updRst (f : Rst → Rst) (s : State) : State := { s with rst := f s.rst }

/-! ### What an assertion does to the work in progress -/

/-- R523 step 4: the running job ends with ABORTED, or for the cause seen earlier; a loaded job
is no longer loaded. -/
def resetJob (s : State) : State :=
  let s := if jobRunning s then recordJobEnd (s.job.ending.getD ⟨1, 0, 0, 0⟩) s else s
  { s with job := { s.job with loaded := false, launched := false, ending := none, stopDue := false } }

/-- R294: every plan is disarmed, for a reset. -/
def resetPlans (s : State) : State := forEach (List.range 16) (fun n => dropPlan n 2) s

/-- R523 step 4, R458: a discovery ends with RESETTING. -/
def resetDisc (s : State) : State :=
  let d := s.fab.disc
  if d.code = 1 ∨ d.code = 2 then
    finishCmd d.cmd 0x000B [] { s with fab := { s.fab with disc := { d with code := 0 } } }
  else s

/-- R514: a transition between power states is abandoned, with BLOCK 0 and reply RESETTING. -/
def resetTrans (s : State) : State :=
  match s.pwr.trans with
  | some t => refuseTrans t [] 0 0 0x000B [] s
  | none => s

/-- R104, R106: a tile through an L2. -/
def warmTile (x : Tile) : Tile :=
  let y := islandReset x
  match x.code with
  | .running | .halted => { y with code := .ready }
  | .testing => { y with testStopped := true }
  | _ => y

/-- A laser through an L2: what was being acquired for a swap, or in a check, is given up. -/
def warmLaser (x : Laser) : Laser :=
  if x.slot.isNone ∧ (x.code = .acquire ∨ x.code = .parked) then
    unbias x.rest { x with forSlot := none, prior := none }
  else { x with forSlot := none, swapDue := false, swapTo := none }

/-- R254: a lane, and a receive channel, held through an L2. -/
def warmLane (l : Lane) : Lane :=
  { l with code := if l.code = .idle then .hold else l.code, buf := [], retune := false }
/-- R266. -/
def warmRx (r : RxCh) : RxCh := { r with code := if r.code = .listen then .hold else r.code }

/-- L2 (R523, R525): what the warm islands lose. -/
def warmReset (s : State) : State :=
  let z := State.reset
  let s := dimAll s
  let s := resetTrans (resetDisc (resetPlans (resetJob s)))
  let keep := fun (a : Nat) => decide (ddrBase ≤ a ∨ sliceOff ≤ (a - windowBase) % windowStride)
  { s with
    tiles := s.tiles.map warmTile
    mem := { s.mem with
      cells := s.mem.cells.filter (fun c => keep c.1)
      words := s.mem.words.filter (fun c => keep (c.1 * 16)) }
    wse := { s.wse with streams := [] }
    coll := { s.coll with
      insts := [], nums := [], early := [], ctl := [], bursts := []
      launched := [], groupEnd := [], training := [], sinceSkew := [], discards := [] }
    fab := { s.fab with
      lanes := s.fab.lanes.map warmLane, rxs := s.fab.rxs.map warmRx
      spineWait := z.fab.spineWait, spineNext := z.fab.spineNext, inbox := z.fab.inbox }
    red := { s.red with pass := none, pendingStart := false }
    light := s.light.map (fun c => { c with lasers := c.lasers.map warmLaser }) }

/-! ### What is kept through L3 and L4 (R12, R603, and each chapter) -/

/-- R12: the registers whose stored values an L3 keeps: those of the always-on domain. -/
def aonReg (r : RegRow) : Bool :=
  r.aon ≠ 0 || r.name = .RST_RAISE || r.name = .RST_COUNT

/-- The listed values of the registers that `f` names. -/
def keptRegs (f : RegRow → Bool) (s : State) : Cells W64 :=
  s.regs.filter (fun c => match findReg c.1 with
    | some (r, _, _) => f r
    | none => false)

/-- A tile through L3: it is tested again (R105), unless it is RETIRED (R95). -/
def coldTile (x : Tile) : Tile :=
  { code := if x.code = .retired then .retired else .testing, logical := x.logical, former := x.former
    routerFailed := x.routerFailed, faultTimes := x.faultTimes, ceTimes := x.ceTimes, lastTest := x.lastTest
    retireDue := x.retireDue, policyDue := x.policyDue }

/-- A strip through L3: OFFLINE strips stay so, and the settings store keeps the repairs. -/
def coldStrip (x : Strip) : Strip :=
  { code := if x.code = .offline then .offline else .training, pprLeft := x.pprLeft, patch := x.patch
    lost := x.lost, retired := x.retired, cause := if x.code = .offline then x.cause else 0 }

/-- A slice's repairs are kept. -/
def coldSlice (x : SliceRep) : SliceRep :=
  { rows := x.rows, cols := x.cols, repaired := x.repaired, repairedCols := x.repairedCols }

/-- R229, R321: the numbers of the operation streams go on through L3 and L4; what had arrived of an
FPUT is forgotten (R231, assumption 37). -/
def coldSync (x : Sync) : Sync :=
  { State.reset.sync with
    outSeq := x.outSeq
    remote := x.remote.filterMap (fun c => if c.2.next = 0 then none else some (c.1, { next := c.2.next })) }

/-- A laser goes OFF (R348); a laser that serves no slot stays what it is, and one being
acquired for a slot is SPARE again. -/
def coldLaser (x : Laser) : Laser :=
  let code := match x.code with
    | .worn => .worn
    | .failed => .failed
    | .spare => .spare
    | _ => if x.slot.isSome then .off else x.rest
  { code := code, slot := x.slot, lastCheck := x.lastCheck }

/-- R370, R374: a chiplet through L3; the eye-safety state is kept through L3. -/
def coldChip (l4 : Bool) (c : Chiplet) : Chiplet :=
  { Chiplet.reset with
    lasers := c.lasers.map coldLaser
    rings := c.rings.map (fun r => { code := if r.code = .failed then .failed else .off })
    eyes := if l4 then Chiplet.reset.eyes else c.eyes }

/-- R538: the pair, its state and its claim are kept. -/
def coldRed (r : Red) : Red :=
  { State.reset.red with
    state := r.state, mode := r.mode, partner := r.partner, prioOwn := r.prioOwn, prioPartner := r.prioPartner
    addrA := r.addrA, addrB := r.addrB, claim := r.claim, highest := r.highest, out := r.out }

/-- R468, R483, R484: the time base through L3; an L4 restarts it. -/
def coldTime (l4 : Bool) (t : TimeB) : TimeB :=
  if l4 then { State.reset.time with ticks := t.ticks }
  else { State.reset.time with
    sec := t.sec, ns := t.ns, frac := t.frac, valid := t.valid, ticks := t.ticks
    alarms := t.alarms, fired := t.fired, late := t.late }

/-- Power through L3 and L4: the module is in RUN; the wake latches and the pads are of the
always-on domain. -/
def coldPwr (l4 : Bool) (p : Pwr) : Pwr :=
  { State.reset.pwr with
    vinRange := p.vinRange, inletHot := p.inletHot, busLow := p.busLow, raiseHeld := p.raiseHeld
    stretch := p.stretch, applied := p.applied
    wakePending := if l4 then [] else p.wakePending, wakeSeen := if l4 then [] else p.wakeSeen
    padHeld := !l4 && p.padHeld }

/-- Firmware, keys, settings and calibration lie in flash. -/
def coldFw (l4 : Bool) (w : Fw) : Fw :=
  { w with
    slots := w.slots.map (fun x => { x with started := false })
    recovery := false, incompat := false, running := false
    recoveryReq := !l4 && w.recoveryReq
    smbResult := if l4 then 0 else if w.install.isSome then 4 else w.smbResult
    install := none
    l4End := if l4 then none else w.l4End }

/-- What an L3 (or L4) leaves of the state: the values of reset, and what is kept. -/
def coldState (l4 : Bool) (s : State) : State :=
  let z := State.reset
  { z with
    pending := s.pending, fresh := s.fresh
    regs := keptRegs (fun r => if l4 then r.name = .RST_COUNT else aonReg r) s
    peat := s.peat
    tiles := s.tiles.map coldTile
    mem := { z.mem with strips := s.mem.strips.map coldStrip, slices := s.mem.slices.map (fun c => (c.1, coldSlice c.2)) }
    red := coldRed s.red
    sync := coldSync s.sync
    coll := { z.coll with txSeq := s.coll.txSeq, rxSeq := s.coll.rxSeq }
    host := { z.host with out := s.host.out, answers := s.host.answers }
    time := coldTime l4 s.time
    pwr := coldPwr l4 s.pwr
    light := s.light.map (coldChip l4)
    cal := { z.cal with bank := s.cal.bank, recs := s.cal.recs, used := s.cal.used }
    fw := coldFw l4 s.fw
    rst := if l4 then { s.rst with last := State.reset.rst.last, doneStamp := State.reset.rst.doneStamp } else s.rst }

/-- L3 and L4 (R523): the job ends, plans are disarmed, the session closes, and every island is
held. -/
def coldReset (l4 : Bool) (s : State) : State :=
  let s := resetPlans (resetJob s)
  let s := if !l4 && s.time.source ≠ 0 then emit 0x0404 0 [] s else s
  let s := { s with time := { s.time with domains := State.reset.time.domains, source := 0 } }
  let s := portsOff (fun _ => true) (closeSession 3 s)
  updRst (fun r => { r with alert := true, rstOut := true, pwrGood := false }) (coldState l4 s)

/-! ### Assertion (R523, R526, R527) -/

/-- R521: the sources that are held from outside, and released by RESET_SOURCE_RELEASE. -/
def heldSource (i : Nat) : Bool := i = 0 || i = 1 || i = 3 || i = 4 || i = 6 || i = 13

/-- R523: the assertion sequence of a level. BOOT counts the module's L3 and L4 resets. -/
def runSequence (level : Nat) (s : State) : State :=
  let s := if 3 ≤ level ∧ s.rst.level < 3 then { s with peat := { s.peat with boot := s.peat.boot + 1 } } else s
  let s := updRst (fun r =>
    { r with level := max r.level level, point := level, hold := 0, ready := false
             assertStamp := stampNow s, assertTime := if level = 4 then 0 else nowNs s }) s
  let s := bump s rRstCount 0 [level]
  let s := emit 0x0301 0 (leBytes 1 level ++ leBytes 3 s.rst.active.toNat) s
  if level = 2 then warmReset s else coldReset (level = 4) s

/-- The sources of a set, in order. -/
def sourceList (m : BitVec 20) : List Nat := (List.range 20).filter (fun i => m.getLsbD i)

/-- R521, R523, R526, R527: module-wide sources are asserted together. A pulse source is
released as soon as its level is asserted. -/
def assertSources (is : List Nat) (s : State) : State :=
  let m := is.foldl (fun (a : BitVec 20) i => a ||| (1#20 <<< i)) 0#20
  let level := (is.map (sourceLevel s)).foldl max 0
  let s := updRst (fun r => { r with cause := r.cause ||| m, active := r.active ||| m }) s
  let s := if s.rst.level < level ∨ s.rst.point < level then runSequence level s else s
  updRst (fun r => { r with active :=
    (sourceList r.active).foldl (fun (a : BitVec 20) i => if heldSource i || i = 17 then a ||| (1#20 <<< i) else a) 0#20 }) s

/-- R525: recovery may pass the hold point of a level. -/
def mayPass (s : State) (level : Nat) : Bool :=
  (sourceList s.rst.active).all (fun i => decide (i = 17) || decide (sourceLevel s i < level))

/-! ### The boot (R583, R585) -/

/-- R583: the entry that decides, and the run time of the probation that it began. -/
def bootEntry (s : State) : Option JournalEntry :=
  (s.fw.journal.filter (fun e => e.type ≠ .runtime)).getLast?

/-- R575, R583: the run time that the last RUNTIME entry after an entry holds. -/
def bootElapsed (s : State) (j : JournalEntry) : Nat :=
  (((s.fw.journal.filter (fun e => decide (e.type = .runtime ∧ j.seq < e.seq))).getLast?).map (·.elapsed)).getD 0

/-- R583: the image to run, with the standby's, and the probation that goes on. -/
def bootChoice (s : State) : State :=
  match bootEntry s with
  | none => s
  | some j =>
    match j.type with
    | .commit =>
      let e := bootElapsed s j
      let s := updFw (fun w => { w with activeSlot := j.new, standbySlot := j.old }) s
      if j.limit * 60 ≤ e then revertTrial 1 id s
      else updFw (fun w => { w with probation := some (e, j.limit) }) s
    | .confirm => updFw (fun w => { w with activeSlot := j.new, standbySlot := j.new, probation := none }) s
    | _ => updFw (fun w => { w with activeSlot := j.old, standbySlot := j.old, probation := none }) s

/-- R583: an image that fails its checks gives way to the other slot's, if that passes. -/
def bootChecked (s : State) : State × Bool :=
  let n := s.fw.activeSlot
  if imagePasses s (slotOf s n) then (s, true)
  else
    let s := if s.fw.probation.isSome then revertTrial 3 id s else s
    let o := 1 - n
    if imagePasses s (slotOf s o) then
      (updFw (fun w => { w with activeSlot := o, standbySlot := o, probation := none }) (setSlot o .active s), true)
    else (s, false)

/-- R579: the area in force for the image that runs. -/
def bootArea (s : State) : State :=
  let x := slotOf s s.fw.activeSlot
  let ok := fun (a : SettingsArea) =>
    a.sealed_ && (x.shipped || decide (imageMin x ≤ a.format ∧ a.format ≤ imageSettings x))
  let best := (List.range 2).foldl (fun (b : Option Nat) k =>
    let a := s.fw.areas.getD k {}
    if !ok a then b
    else match b with
      | some o => if (s.fw.areas.getD o {}).gen < a.gen then some k else b
      | none => some k) none
  match best with
  | some k => updFw (fun w => { w with area := k }) s
  | none => s

/-- R583, R585: the ROM loader. -/
def bootFw (s : State) : State :=
  let r := bootChecked (bootChoice s)
  let s := r.1
  let enter := fun (cause : Nat) (s : State) =>
    emit 0x060A 0 (leBytes 1 cause) (updFw (fun w => { w with recovery := true, recoveryReq := false, running := false }) s)
  if !r.2 then enter 0 s
  else if s.fw.recoveryReq ∧ s.rst.level = 3 then enter 1 s
  else
    let s := bootArea (updFw (fun w => { w with running := true, recoveryReq := false }) s)
    emit 0x0609 0 (leBytes 1 s.fw.activeSlot ++ leBytes 1 s.fw.standbySlot) s

/-- R579: the settings in force are loaded. -/
def loadSettings (s : State) : State :=
  forEach (areaOf s).regs (fun c st =>
    match findReg c.1 with
    | some (r, inst, ix) => if isSetting r.name then regPut st r inst ix c.2.toNat else st
    | none => st) s

/-- R395, R405: the stages that the settings hold are committed, string by string. -/
def commitStages (s : State) : State :=
  let strs := (s.regs.filterMap (fun c =>
    match findReg c.1 with
    | some (r, inst, ix) =>
      if r.name = .MAR_STG_CTL ∨ r.name = .MAR_STG_C then some (inst, ix.headD 0) else none
    | none => none)).dedup
  forEach strs (fun x => marCommit x.1 x.2 255) s

/-! ### Stage 3 -/

/-- R184, R185: a row or a column that the march test finds is repaired from a spare of its bank,
or stays unrepaired; the answer says whether something stays. -/
def bistRepair (t used most : Nat) (fix : State → State) (p : State × Bool) : State × Bool :=
  if most ≤ used then (noSpare t p.1, true) else (fix p.1, p.2)

/-- R185: what the march test of a slice finds is repaired from spares, or fails the slice. -/
def bistSlice (b : BistFind) (s : State) : State :=
  let t := b.tile
  if (tileAt s t).code = .retired ∨ 156 ≤ t then s
  else
    let p := b.rows.foldl (fun p r =>
      bistRepair t (Cells.get 0 (sliceAt p.1 t).rows (r / 2048)) 16 (repairRow t (r / 2048) (r % 2048)) p) (s, b.bad)
    let p := b.cols.foldl (fun p c =>
      bistRepair t (Cells.get 0 (sliceAt p.1 t).cols (c / 4384)) 8 (repairColumn t (c / 4384) (c % 4384)) p) p
    if p.2 then emit 0x0A14 t [] (updSlice t (fun x => { x with bistFail := true }) p.1) else p.1

/-- R164: the strips that are not OFFLINE are brought up. -/
def bringUpAll (trains : List StripTrain) (s : State) : State :=
  forEach (List.range 16) (fun n st =>
    if (stripAt st n).code = .offline then st
    else bringUpStrip n (trains.getD n ⟨true, true, [], (stripAt st n).pprLeft⟩) st) s

/-- R585: in recovery mode tiles stay READY, untested. -/
def untested (x : Tile) : Tile :=
  if x.code = .testing then { x with code := if x.logical.isSome then .ready else .spare } else x

/-- Stage 3 (R525): from H3 to H2. -/
def stage3 (trains : List StripTrain) (bist : List BistFind) (badField : List Nat)
    (badFactory : List (Nat × Nat)) (s : State) : State :=
  let s := loadSettings (bootFw (drawNonce s))
  let s := bringUpAll trains s
  let s := forEach bist bistSlice s
  let s := if s.fw.recovery then { s with tiles := s.tiles.map untested }
    else applyTimeCfg 1 (applyTimeCfg 0 (lightUp (loadCal badField badFactory (commitStages s))))
  updRst (fun r => { r with point := 2, hold := 0 }) s

/-! ### Stage 2 -/

/-- R100, R106, R532: after the reset, tests that it stopped run again, and the policy of
tiles that it covered is applied. -/
def settleTiles (s : State) : State :=
  forEach (List.range 156) (fun t st =>
    let st := updTile t (fun x => if x.code = .testing then { x with testStopped := false } else x) st
    let st := applyPolicy t st
    let x := tileAt st t
    if x.code = .retired ∨ x.code = .testing then st
    else if x.retireDue ∨ x.policyDue = some true then retireTile t st
    else updTile t (fun x => { x with policyDue := none }) st) s

/-- R525: after an L2, lasers at the dim level are relit, and lanes send IDLE frames with
PHASE_TAG 0. -/
def relight (s : State) : State :=
  brightenAll { s with fab := { s.fab with
    lanes := s.fab.lanes.map (fun l => if l.code = .hold then { l with code := .idle, tag := 0 } else l)
    rxs := s.fab.rxs.map (fun r => if r.code = .hold then { r with code := .listen } else r) } }

/-- The end of an L3 or L4: BOOT is made durable (R604), and the health record is written
(R609). -/
def coldEnd (level : Nat) (s : State) : State :=
  let s := updFw (fun w =>
    { w with bootSaved := s.peat.boot, l4End := if level = 4 then some (runNs s) else w.l4End }) s
  writeHealth (if s.fw.running then updRst (fun r => { r with rstOut := false, pwrGood := true }) s else s)

/-- R348, R524, R351: the unit of an L0 reset. -/
def resetUnit (i unit : Nat) (s : State) : State :=
  if i = 18 then
    if unit < 288 then
      let c := unit / 36
      let n := unit % 36
      let x := laserAt s c n
      match x.slot with
      | some e =>
        let s := faultLane (laneOf c e) 12 s
        if isLit x || x.code = .parked || x.code = .acquire then acquireLaser c n x.channel s else s
      | none => if x.code = .parked ∨ x.code = .acquire then acquireLaser c n x.channel s else s
    else
      let c := (unit - 288) / 32
      let r := (unit - 288) % 32
      let x := ringAt s c r
      if x.code = .off ∨ x.code = .failed ∨ x.code = .prebias then s else scanRing c r x.channel s
  else s

/-- R522: the L0 reset of a driver has been raised to a module-wide level: its own recovery is to run
after stage 2. A channel's is the retraining of stage 2 itself. -/
def absorb (unit : Nat) (s : State) : State :=
  updRst (fun r => { r with absorbed := if r.absorbed.contains unit then r.absorbed else r.absorbed ++ [unit] }) s

/-- Stage 2 (R525): the reset is done, and the units whose own resets were raised recover (R522). -/
def stage2 (s : State) : State :=
  let level := s.rst.level
  let units := s.rst.absorbed
  let s := emit 0x0302 0 (leBytes 1 level ++ leBytes 8 (nowNs s - s.rst.assertTime)) s
  let s := updRst (fun r =>
    { r with level := 0, point := 0, hold := 0, last := level, doneStamp := stampNow s, ready := true, absorbed := [] }) s
  let s := tileFaultActive (settleTiles s)
  forEach units (resetUnit 18) (if level = 2 then relight s else coldEnd level s)

/-! ### Power (R492, R495, R603, R604) -/

/-- R604: the highest SEQ of a whole record in flash, if there is one. -/
def flashHighest (p : Peat) : Option Nat :=
  (p.flash.filter (fun f => !f.torn)).foldl (fun b f =>
    match b with
    | some q => some (max q f.seq)
    | none => some f.seq) none

/-- R595, R604: the highest BOOT in flash. -/
def flashBoot (p : Peat) : Nat :=
  ((p.flash.filter (fun f => !f.torn)).map (fun f => leAt f.bytes 28 4)).foldl max 0

/-- R604: the recorder after power has been removed. -/
def restoreLog (s : State) : State :=
  let p := s.peat
  let high := (flashHighest p).getD 0
  let next := match flashHighest p with
    | some q => q + 16401
    | none => 0
  let s := { s with peat := { p with
    next := next, copyNext := next, boot := max (flashBoot p) s.fw.bootSaved + 1 } }
  emit 0x0505 0 (leBytes 8 high) s

/-- R601, R603: records that the flash writer still copies as the rails fall, oldest first. -/
def lastCopies (s : State) : List (Nat × LogRec) :=
  s.peat.ring.filter (fun x => s.peat.copyNext ≤ x.1) ++
    s.peat.queue.zipIdx.map (fun x => (s.peat.next + x.2, x.1))

/-- R492, R603: PWR_INPUT_LOST goes to flash first, then `n` of the records in SEQ order, the
next of them torn where `torn` says so. -/
def lastWrites (n : Nat) (torn : Bool) (s : State) : State :=
  let q := s.peat.next + s.peat.queue.length
  let r := { newRec s 0x0209 0 [] with closed := true }
  let rs := lastCopies s
  let s := flashWrite q (recBytes q r) false s
  let s := forEach (rs.take n) (fun x => flashWrite x.1 (recBytes x.1 { x.2 with closed := true }) false) s
  if torn then
    forEach ((rs.drop n).take 1) (fun x => flashWrite x.1 (recBytes x.1 { x.2 with closed := true }) true) s
  else s

/-- What is left without power: what lies in flash and fuses, and what has been sent. -/
def powerOff (s : State) : State :=
  let z := State.reset
  let c := coldState true s
  { c with
    regs := []
    peat := { z.peat with
      flash := s.peat.flash, segs := s.peat.segs, chain := s.peat.chain, badSegs := s.peat.badSegs
      totals := s.peat.totals }
    pwr := z.pwr
    rst := z.rst }

end Sys2Proof.Machine
end

