-- ==== Sys2Proof/Machine/ResetRows.lean ====
section
/-!
DEFINITION. The rows of resets and of power's coming and going.
-/

namespace Sys2Proof.Machine

/-- POWER_APPLY (R495): power good is given; the recorder is restored (R604), and recovery from
L4 may begin. -/
def execPowerApply (s : State) : Result :=
  .next (if s.pwr.applied then s else restoreLog (updPwr (fun p => { p with applied := true }) s))

/-- INPUT_LOST (R492): the conversion stops; what the flash writer still writes is the operand. -/
def execInputLost (n : Nat) (torn : Bool) (s : State) : Result :=
  .next (if s.pwr.applied then powerOff (lastWrites n torn s) else s)

/-- RESET_ASSERT (R523): sources seen together: those of the operand, which rise outside the
model's other commands (R521: AON_UE, PIN_COLD, HOST_UE, SYNC_UE, DEBUG, PIN_WARM, FIX_PARITY),
and those that commands have raised. -/
def execResetAssert (mask : Nat) (s : State) : Result :=
  .next (
    let is := (List.range 20).filter (fun i =>
      decide (2 ≤ sourceLevel s i) &&
        (s.rst.raised.getLsbD i || (bitOf mask i && [2, 6, 10, 11, 12, 13, 16].contains i)))
    if is = [] then s else assertSources is (updRst (fun r => { r with raised := 0#20 }) s))

/-- RESET_L0 (R518, R522, R524, R532): one laser or ring driver (18), or one LPDDR5X channel
(19), which is retrained while its accesses wait. -/
def execResetL0 (i unit : Nat) (s : State) : Result :=
  .next (
    if ¬ ((i = 18 ∧ unit < 544) ∨ (i = 19 ∧ unit < 64)) then s
    else if 2 ≤ sourceLevel s i then raiseSource i (if i = 18 then absorb unit s else s)
    else if s.rst.level ≠ 0 then updRst (fun r => { r with cause := r.cause ||| (1#20 <<< i) }) s
    else resetUnit i unit (localReset i unit 0 s))

/-- AON_CLK (R520): the 50 MHz oscillator is out of range. -/
def execAonClk (s : State) : Result :=
  .next (raiseSource 1 (updRst (fun r => { r with rcClock := true }) s))

/-- R493, R521: a held source may be released; VIN_FAULT, once VIN is within the operating range. -/
def mayRelease (s : State) (i : Nat) : Bool := heldSource i && !(decide (i = 3) && s.pwr.vinRange)

/-- RESET_SOURCE_RELEASE (R493, R502, R520, R521): a held source is released. -/
def execResetSourceRelease (i : Nat) (s : State) : Result :=
  .next (
    if mayRelease s i then
      updRst (fun r =>
        { r with active := r.active &&& ~~~(1#20 <<< i), rcClock := r.rcClock && decide (i ≠ 1) }) s
    else s)

/-- RESET_STAGE_4 (R525): from H4 to H3, once power is good; the straps are sampled (R625). -/
def execResetStage4 (straps : Nat) (s : State) : Result :=
  .next (
    if s.pwr.applied ∧ s.rst.level = 4 ∧ s.rst.point = 4 ∧ mayPass s 4 then
      updFw (fun w => { w with smbAddr := 0x48 + straps % 8 }) (updRst (fun r => { r with point := 3, hold := 0 }) s)
    else s)

/-- RESET_STAGE_3 (R525): from H3 to H2. -/
def execResetStage3 (trains : List StripTrain) (bist : List BistFind) (badField : List Nat)
    (badFactory : List (Nat × Nat)) (s : State) : Result :=
  .next (if s.rst.level ≠ 0 ∧ s.rst.point = 3 ∧ mayPass s 3 then stage3 trains bist badField badFactory s else s)

/-- RESET_STAGE_2 (R525): from H2 to the end, once the tiles have been tested. -/
def execResetStage2 (s : State) : Result :=
  .next (
    if s.rst.level ≠ 0 ∧ s.rst.point = 2 ∧ mayPass s 2 ∧
        ¬ s.tiles.any (fun x => decide (x.code = .testing) && !x.testStopped) then stage2 s
    else s)

/-- RST_HOLD (R526): recovery has waited at a hold point for longer than 1 ms. -/
def execRstHold (s : State) : Result :=
  .next (
    let p := s.rst.point
    if s.rst.level ≠ 0 ∧ ¬ mayPass s p ∧ s.rst.hold ≠ p then
      emit 0x0303 0 (leBytes 1 p) (updRst (fun r => { r with hold := p }) s)
    else s)

/-- A write of RST_CTRL (R531). -/
def rstCtrl (v : Nat) (s : State) : State :=
  if bits v 31 16 ≠ 0x5253 then s
  else if bitOf v 1 then raiseSource 8 s
  else if bitOf v 0 then raiseSource 15 s
  else s

end Sys2Proof.Machine
end

