-- ==== Sys2Proof/Machine/RegWrite.lean ====
section
/-!
DEFINITION. What a write of a register does (R8, R11, R453 and the maps of each chapter).
-/

namespace Sys2Proof.Machine

/-! ### Writes -/

/-- R8, R11: the stored value after a write: fields that are RW take the value written, and the
rest stay. -/
def maskedWrite (mask old v : Nat) : Nat := (old &&& (2 ^ 64 - 1 - mask)) ||| (v &&& mask)

/-- The fields of a register that are RW: the upper half of the last word of a gain table is
reserved (R409). -/
def rwMask (r : RegRow) (ix : List Nat) : Nat :=
  if r.name = .MAR_LUT ∧ ix.getD 1 0 = 8 then 0xFFFF else r.rw

/-- A write of a register that has no machinery of its own. -/
def plainWrite (r : RegRow) (inst : Nat) (ix : List Nat) (v : Nat) (s : State) : State :=
  if rwMask r ix = 0 then s else regPut s r inst ix (maskedWrite (rwMask r ix) (regGet s r inst ix) v)

/-- R8: a write of an RWO register takes effect once after each L3 or L4 reset. -/
def onceWrite (r : RegRow) (inst : Nat) (ix : List Nat) (v : Nat) (s : State) : State :=
  let a := regAddr r inst ix
  if s.rwo.contains a then s else regPut { s with rwo := a :: s.rwo } r inst ix (v % 2 ^ r.width)

/-- R242: a write of FAB_PLANE_CFG is ignored while an armed plan uses the plane. -/
def planeCfgWrite (c f v : Nat) (s : State) : State :=
  if bitOf (armedMask s) (8 * f + c) then { s with fab := { s.fab with cfgRej := true } }
  else plainWrite rFabPlaneCfg c [f] v s

/-- R283: a write of FAB_MODID is ignored while a plan is armed. -/
def modidWrite (v : Nat) (s : State) : State :=
  if armedSlots s ≠ [] then { s with fab := { s.fab with cfgRej := true } } else plainWrite rFabModid 0 [] v s

/-- R530, R534: a write of RST_CAUSE clears the bits written 1; ALERT_N is released once no bit
of an L3 or L4 source is left. -/
def causeWrite (v : Nat) (s : State) : State :=
  let s := updRst (fun r => { r with cause := r.cause &&& ~~~(BitVec.ofNat 20 v) }) s
  if (List.range 20).any (fun i => s.rst.cause.getLsbD i && decide (3 ≤ sourceLevel s i)) then s
  else updRst (fun r => { r with alert := false }) s

/-- The outcome of training strip `n` that a write of MEM_STRIP_CTRL.RESTORE meets: what its
command carries, or free values: a bit for each rate, and one for each row that hard PPR tries. -/
def trainOf (n : Nat) (meas : List Int) (s : State) : State × StripTrain :=
  match meas with
  | f :: w :: p :: rows => (s, ⟨f ≠ 0, w ≠ 0, rows.map (·.toNat), p.toNat⟩)
  | _ => let d := drawFree s
    let rows := ((stripAt s n).retired.zipIdx.filter (fun x => bitOf (d.1 / 64) x.2)).map (·.1)
    (d.2, ⟨d.1 % 2 = 1, d.1 / 2 % 2 = 1, rows, d.1 / 4 % 16⟩)

/-- A write of MEM_STRIP_CTRL (R189): OFFLINE is ignored when RESTORE is also set. -/
def stripCtrl (v : Nat) (meas : List Int) (s : State) : State :=
  if bitOf v 5 then
    if (stripAt s (v % 16)).code = .offline then
      let d := trainOf (v % 16) meas s
      stripRestore (v % 16) d.2 d.1
    else s
  else if bitOf v 4 then stripOffline (v % 16) s else s

/-- A write of MEM_AS_REPAIR (R182, R183, R189), or none where it is out of range. -/
def asRepair (v : Nat) (s : State) : Option State :=
  let t := bits v 30 23
  let col := bitOf v 31
  let i := bits v 12 0
  if 156 ≤ t ∨ (if col then 4384 ≤ i else 2048 ≤ i) then none
  else some (if col then wantColumn t (bits v 22 18) i s else repairRow t (bits v 22 18) i s)

/-- R433, R467: a write of HOST_PORT_CFG: DISABLE holds the port's link down. -/
def portCfgWrite (n v : Nat) (s : State) : State :=
  let s := plainWrite rHostPortCfg 0 [n] v s
  if bitOf v 0 then dropPort n s else s

/-- R488: a write of TIME_ALARM_STATUS. -/
def alarmClear (v : Nat) (s : State) : State :=
  updTime (fun t => { t with
    fired := t.fired.filter (fun i => !bitOf v i), late := t.late.filter (fun i => !bitOf v (16 + i)) }) s

/-- A write of a register with machinery of its own: none where the write is refused with
BAD_ARGUMENT. -/
def liveWrite (r : RegRow) (inst : Nat) (ix : List Nat) (v : Nat) (meas : List Int) (s : State) : Option State :=
  let i := ix.headD 0
  let tile := fun f => some (updTile inst f s)
  match r.name with
  | .TILE_SRNG => tile (fun x => { x with srng := srngLoad (BitVec.ofNat 16 v) })
  | .TILE_ARITH_FLAGS => tile (fun x => { x with flags := x.flags &&& ~~~(BitVec.ofNat 6 v) })
  | .TILE_STATUS => tile (fun x => { x with cmdRej := x.cmdRej && !bitOf v 11 })
  | .TILE_ERR => tile (fun x => { x with err := x.err &&& ~~~(BitVec.ofNat 9 v) })
  | .TILE_CTRL => some (tileCtrl inst v s)
  | .MEM_STRIP_CTRL => some (stripCtrl v meas s)
  | .MEM_RETIRE_ADDR => if ddrSize ≤ low 41 v then none else some (retireAddr (low 41 v) s)
  | .MEM_ERR_LAST => some { s with mem := { s.mem with errValid := s.mem.errValid && !bitOf v 63 } }
  | .MEM_AS_REPAIR => asRepair v s
  | .WSE_ERR_LAST => some { s with wse := { s.wse with errValid := s.wse.errValid && !bitOf v 63 } }
  | .SYNC_VALUE => some (syncSet i (BitVec.ofNat 64 v) s)
  | .SYNC_ADD => some (syncAdd i (BitVec.ofNat 64 v) s)
  | .COLL_LAST_END => some { s with coll := { s.coll with lastValid := s.coll.lastValid && !bitOf v 63 } }
  | .FAB_PLANE_CFG => some (planeCfgWrite inst i v s)
  | .FAB_MODID => some (modidWrite v s)
  | .FAB_MOD_STATUS => some { s with fab := { s.fab with cfgRej := s.fab.cfgRej && !bitOf v 27 } }
  | .FAB_ERR_LAST => some (if bitOf v 63 then regPutField s rFabErrLast inst [] 63 63 0 else s)
  | .FAB_LIGHT_CTRL => some (lightCtrl inst v s)
  | .FAB_LIGHT_STATUS => some (updChip inst (fun c => { c with cmdRej := c.cmdRej && !bitOf v 30 }) s)
  | .FAB_EYE_CTRL => some (eyeCtrl inst v s)
  | .MAR_STATUS => some (updEng inst (fun m => { m with cmdRej := m.cmdRej && !bitOf v 31 }) s)
  | .MAR_CMD => some (marCmd inst v s)
  | .MAR_STR_CFG => some (strCfgWrite inst i v s)
  | .MAR_STR_IO => some (strIoWrite inst i v s)
  | .HOST_PORT_CFG => some (portCfgWrite i v s)
  | .TIME_STATUS => some (updTime (fun t => { t with cmdRej := t.cmdRej && !bitOf v 30 }) s)
  | .TIME_CFG => some (applyTimeCfg i (plainWrite rTimeCfg 0 [i] v s))
  | .TIME_CTRL => some (timeCtrl v s)
  | .TIME_ALARM_STATUS => some (alarmClear v s)
  | .PWR_REFUSER => some (updPwr (fun p => { p with refuserValid := p.refuserValid && !bitOf v 31 }) s)
  | .PWR_WAKE_LATCH => some (updPwr (fun p => { p with wakeSeen := p.wakeSeen.filter (fun w => !bitOf v (8 + w)) }) s)
  | .PWR_PAD => some (pwrPad v s)
  | .RST_CAUSE => some (causeWrite v s)
  | .RST_RAISE => some (onceWrite r inst ix v s)
  | .RST_CTRL => some (rstCtrl v s)
  | .RED_STATUS => some (updRed (fun x => { x with cmdRej := x.cmdRej && !bitOf v 24 }) s)
  | .RED_CTRL => some (redCtrl v s)
  | .RED_ACC_ENTRY => some (accEntryWrite v s)
  | .SUP_SAVE => some (supSave v s)
  | _ => some (plainWrite r inst ix v s)

end Sys2Proof.Machine
end

