-- ==== Sys2Proof/Machine/HostRun.lean ====
section
/-!
DEFINITION. How a ZCP command is received, ordered, checked and run (R435 to R453, R458, R505,
R585).
-/

namespace Sys2Proof.Machine

/-! ### GEN_IDENTIFY and the session (R438 to R444) -/

/-- R439: the reply of GEN_IDENTIFY. -/
def identifyBytes (s : State) : List Byte :=
  let absent := maskWhere 144 (isAbsent s)
  padTo 16 ([0x49, 0x58, 0x5A, 0x2D, 0x31, 0x31, 0x35, 0x32, 0x2D, 0x57] : List Byte) ++
  ([0x41, 0x31] : List Byte) ++ leBytes 2 (ownId s) ++ leBytes 4 deviceTag ++
  leBytes 1 (present s).length ++
  leBytes 1 (b2n s.pups.bActive + 2 * b2n s.host.open_ + 4 * b2n (s.red.state = .fenced)) ++ leBytes 2 0 ++
  leBytes 4 (runningVersion s) ++ leBytes 18 absent ++ leBytes 6 Config.macBase ++ padTo 16 s.host.nonce ++
  leBytes 4 s.red.claim ++ leBytes 4 0

/-- GEN_IDENTIFY (R439). -/
def genIdentify : CmdFn := fun _ _ s => (s, .reply 0 (identifyBytes s))

/-- R441: the payload of SESSION_OPEN is well formed. -/
def openFormed (p : List Byte) : Bool := decide (leAt p 16 4 ≠ 0) && decide (leAt p 20 1 < 2) && zeros p 21 3

/-- R441: NONCE is the current nonce, and the owner's signature verifies. -/
def openSigned (p : List Byte) (s : State) : Bool :=
  decide (p.take 16 = s.host.nonce) && decide (s.fw.ownerKey ≠ []) &&
    ecdsaOk s.fw.ownerKey (p.drop 24) (p.take 24 ++ leBytes 4 deviceTag)

/-- R442: SESSION_OPEN commands of the last 10 s that have failed. -/
def openFailures (s : State) : Nat := (s.host.evals.filter (fun e => e.status ≠ 0)).length

/-- R442, R449: SESSION_OPEN evaluated: the status, and whether a session is to open. An
evaluation is kept, and draws a new nonce (R440). -/
def evalOpen (h : Header) (p : List Byte) (s : State) : State × Nat × Bool :=
  match (s.host.evals.take 8).find? (fun e => decide (e.seq = h.seq ∧ e.crc = h.crc)) with
  | some e => (s, e.status, false)
  | none =>
    if 8 ≤ openFailures s then (s, 1, false)
    else if !openFormed p then (s, 5, false)
    else
      let signed := openSigned p s
      let st := if !signed then 7 else if s.host.open_ ∧ ¬ bitOf (leAt p 20 1) 0 then 1 else 0
      let s := hostCount 0 s
      let s := if signed then s else emit 0x0807 h.port (leBytes 16 h.src) (hostCount 7 s)
      let s := drawNonce (updHost (fun x => { x with evals := ⟨h.seq, h.crc, st⟩ :: x.evals }) s)
      (s, st, decide (st = 0))

/-- R442: the old session, if one is open, closes, and the new one opens. -/
def takeSession (h : Header) (p : List Byte) (s : State) : State :=
  openSession h (leAt p 16 4) (closeSession 2 s)

/-- SESSION_OPEN sent within a session: its reply belongs to the session that it may close. -/
def sessionOpenIn : CmdFn := fun h c s =>
  let r := evalOpen h c.payload s
  if r.2.2 then (takeSession h c.payload (finishCmd (refOf h) 0 [] r.1), .wait) else (r.1, .reply r.2.1 [])

/-- SESSION_CLOSE (R444): its reply goes before the session closes. -/
def sessionClose : CmdFn := fun h _ s => (closeSession 0 (finishCmd (refOf h) 0 [] s), .wait)

/-- SESSION_KEEPALIVE (R443). -/
def sessionKeepalive : CmdFn := fun _ _ s => status 0 s

/-! ### Registers (R453, R505) -/

/-- R504, R505: the block of a register is powered off: the tile islands from DOZE on, the
chiplets and their engines in DORMANT, but for the eye-safety controller. -/
def regOff (s : State) (r : RegRow) (inst : Nat) : Bool :=
  match r.block with
  | .tile => decide (2 ≤ s.pwr.current)
  | .fab => decide (3 ≤ s.pwr.current) && decide (r.name ≠ .FAB_EYE)
  | .mar => decide (3 ≤ s.pwr.current ∧ inst < 8)
  | _ => false

/-- R585: the blocks that REG_READ serves in recovery mode. -/
def recoveryBlock (b : RegBlock) : Bool := b = .gen || b = .rst || b = .sup || b = .evt

/-- R158: a window of a tile that is RUNNING or TESTING. -/
def windowBusy (s : State) (r : RegRow) (inst : Nat) : Bool :=
  (r.name = .TILE_WIN_S || r.name = .TILE_WIN_A || r.name = .TILE_WIN_C || r.name = .TILE_WIN_V) &&
    ((tileAt s inst).code = .running || (tileAt s inst).code = .testing)

/-- R7, R453: the register that a payload names with its own width. -/
def namedReg (p : List Byte) : Option (RegRow × Nat × List Nat) :=
  if zeros p 5 3 then (findReg (leAt p 0 4)).filter (fun x => x.1.width = 8 * at1 p 4) else none

/-- REG_READ (R453). -/
def regRead : CmdFn := fun _ c s =>
  match namedReg c.payload with
  | none => status 5 s
  | some (r, inst, ix) =>
    if s.fw.recovery ∧ ¬ recoveryBlock r.block then status 0x0902 s
    else if regOff s r inst then status 0x0602 s
    else if windowBusy s r inst then status 1 s
    else
      let v := readReg r inst ix s
      (v.1, .reply 0 (leBytes 8 v.2))

/-- REG_WRITE (R453). -/
def regWrite : CmdFn := fun _ c s =>
  match namedReg c.payload with
  | none => status 5 s
  | some (r, inst, ix) =>
    let v := leAt c.payload 8 8
    if 2 ^ r.width ≤ v then status 5 s
    else if regOff s r inst then status 0x0602 s
    else match liveWrite r inst ix v c.meas s with
      | some t => status 0 t
      | none => status 5 s

/-- SYNC_SIGNAL (R224). -/
def syncSignal : CmdFn := fun _ c s =>
  let p := c.payload
  let o := leAt p 0 4
  if 16384 ≤ o ∨ 2 ≤ at1 p 4 ∨ ¬ zeros p 5 3 then status 5 s
  else
    let v := BitVec.ofNat 64 (leAt p 8 8)
    let s := if at1 p 4 = 0 then syncAdd o v s else syncSet o v s
    (s, .reply 0 (leBytes 8 (syncGet s o).toNat))

/-- CAL_RUN, by its KIND (R418). -/
def calRun : CmdFn := fun h c s =>
  match at1 c.payload 0 with
  | 1 => calRunLaser h c s
  | 2 => calRunRing h c s
  | 3 => calRunXtalk h c s
  | 4 => calRunOsum h c s
  | _ => status 5 s

/-! ### The opcode table (R452) -/

/-- A row of the opcode table: whether it is a background command, whether its class is
Required, which payload lengths its rule admits, and what it does. -/
structure CmdInfo where
  background : Bool
  required : Bool
  sized : Nat → Bool
  run : CmdFn

/-- A serial command of class Any with a payload of `n` bytes. -/
def anySerial (n : Nat) (f : CmdFn) : Option CmdInfo := some ⟨false, false, fun k => decide (k = n), f⟩

/-- A serial command of class Required. -/
def ownSerial (n : Nat) (f : CmdFn) : Option CmdInfo := some ⟨false, true, fun k => decide (k = n), f⟩

/-- A background command of class Required. -/
def ownBackground (n : Nat) (f : CmdFn) : Option CmdInfo := some ⟨true, true, fun k => decide (k = n), f⟩

/-- R452: the opcodes. -/
def cmdInfo (op : Nat) : Option CmdInfo :=
  match op with
  | 0x0101 => anySerial 0 genIdentify
  | 0x0102 => anySerial 120 sessionOpenIn
  | 0x0103 => anySerial 0 sessionClose
  | 0x0104 => anySerial 0 sessionKeepalive
  | 0x0201 => anySerial 8 regRead
  | 0x0202 => ownSerial 16 regWrite
  | 0x0301 => ownBackground 24 (bulkStart true)
  | 0x0302 => ownBackground 24 (bulkStart false)
  | 0x0401 => ownSerial 16 jobLoad
  | 0x0402 => ownSerial 8 jobLaunch
  | 0x0403 => ownSerial 0 jobAbort
  | 0x0404 => ownSerial 16 syncSignal
  | 0x0501 => ownSerial 16 planLoad
  | 0x0502 => ownSerial 32 planArmCmd
  | 0x0503 => ownSerial 24 darkWindow
  | 0x0504 => ownBackground 408 fabricDiscover
  | 0x0505 => ownSerial 4 loopRearm
  | 0x0506 => ownBackground 32 calRun
  | 0x0601 => ownBackground 4 pwrSetState
  | 0x0602 => ownSerial 4 pwrSetPlevel
  | 0x0701 => ownSerial 24 timeSetAlarm
  | 0x0801 => anySerial 16 evtRead
  | 0x0802 => anySerial 32 evtSeal
  | 0x0901 => some ⟨false, false, fun k => decide (24 ≤ k ∧ k ≤ 8200 ∧ k % 16 = 8), fwBlock⟩
  | 0x0902 => some ⟨true, false, fun k => decide (k = 4), fwVerify⟩
  | 0x0903 => anySerial 6 fwActivate
  | 0x0904 => anySerial 0 fwConfirm
  | 0x0905 => anySerial 0 fwRevert
  | 0x0906 => anySerial 36 attestQuote
  | 0x0A01 => anySerial 48 pairConfigure
  | 0x0A02 => anySerial 4 pairRejoin
  | _ => none

/-! ### Checks before a command is run -/

/-- R458, R567: the module answers RESETTING: a reset sequence is in progress, or no Puppeteer
runs firmware. After an L3 or L4, a session may be opened before stage 2 has ended. -/
def resetting (s : State) (op : Nat) : Bool :=
  (decide (s.rst.level ≠ 0) || (!s.fw.running && !s.fw.recovery)) &&
    !(op = 0x0101 || op = 0x0104 || op = 0x0201 || op = 0x0801 ||
      (op = 0x0102 && decide (3 ≤ s.rst.level)))

/-- R450, R451: the claim check of a Required command. -/
def staleClaim (h : Header) (op : Nat) (s : State) : Bool :=
  if s.red.state = .fenced then op ≠ 0x0403 else inPair s && decide (h.claim ≠ s.red.claim)

/-- R450: a command with a claim that is not the module's: a higher one supersedes it. -/
def takeStale (h : Header) (s : State) : State :=
  let s := hostCount 6 s
  if s.red.state ≠ .fenced ∧ s.red.claim < h.claim then
    enterFenced 4 h.claim (emit 0x080A h.session (leBytes 4 s.red.claim ++ leBytes 4 h.claim) s)
  else s

/-- R505: a command that needs a power state which the module is not in. -/
def notRunning (s : State) (op : Nat) : Bool :=
  (decide (s.pwr.current ≠ 0) && (op = 0x0401 || op = 0x0402)) ||
  (decide (2 ≤ s.pwr.current) && (decide (3 ≤ op / 256 ∧ op / 256 ≤ 5) || op = 0x0903))

/-- R585: the opcodes served in recovery mode. -/
def recoveryOp (op : Nat) : Bool :=
  decide (op / 256 = 1) || op = 0x0201 || op = 0x0801 || op = 0x0901 || op = 0x0902 || op = 0x0903 || op = 0x0906

/-- R446: background commands of the session in progress, other than one. -/
def backgroundOthers (r : CmdRef) (s : State) : Nat :=
  (s.host.started.filter (fun c => !c.serial && decide (c.hdr.seq ≠ r.seq))).length

/-- R446, R450 to R452, R458, R505, R585: the checks that stop a command from being executed,
in the order in which this model makes them: the state they leave, and the status. -/
def preCheck (h : Header) (c : HostCmd) (s : State) : State × (Nat ⊕ CmdInfo) :=
  if resetting s c.opcode then (s, .inl 0x000B)
  else match cmdInfo c.opcode with
    | none => (s, .inl 4)
    | some i =>
      if i.required ∧ staleClaim h c.opcode s then (takeStale h s, .inl 6)
      else if s.fw.recovery ∧ ¬ recoveryOp c.opcode then (s, .inl 0x0902)
      else if notRunning s c.opcode then (s, .inl 0x0602)
      else if i.background ∧ 4 ≤ backgroundOthers (refOf h) s then (s, .inl 1)
      else if !i.sized c.payload.length then (s, .inl 5)
      else (s, .inr i)

/-- SESSION_OPEN counts itself, since a copy of a kept evaluation is not executed (R449). -/
def countRun (op : Nat) (s : State) : State := if op = 0x0102 then s else hostCount 0 s

/-- R446: a command of the session starts. -/
def runStart (h : Header) (c : HostCmd) (copies : List ReplyTo) (s : State) : State :=
  let serial := !((cmdInfo c.opcode).map (·.background)).getD false
  let s := updHost (fun x => { x with started := x.started ++ [⟨h, c, copies, serial⟩] }) s
  let k := preCheck h c s
  match k.2 with
  | .inl st => finishCmd (refOf h) st [] k.1
  | .inr i =>
    let r := i.run h c (countRun c.opcode k.1)
    match r.2 with
    | .reply st payload => finishCmd (refOf h) st payload r.1
    | .wait => r.1

/-! ### Order (R445, R446) -/

/-- R224, R446, R459: a held command may start: nothing serial is in progress, commands are not
held for a switch-over, and SYNC_SIGNAL waits for every earlier command. -/
def mayStart (c : HostCmd) (s : State) : Bool :=
  !s.host.switching && !s.host.started.any (·.serial) &&
    (decide (c.opcode ≠ 0x0404) || s.host.started.isEmpty)

/-- R446: the command with the lowest number not yet started starts, if it has arrived. -/
def startNext (s : State) : State :=
  match s.host.held.find? (fun c => c.hdr.seq = s.host.next) with
  | none => s
  | some c =>
    if mayStart c.cmd s then
      runStart c.hdr c.cmd c.copies (updHost (fun h =>
        { h with held := h.held.filter (fun d => d.hdr.seq ≠ c.hdr.seq), next := (h.next + 1) % 2 ^ 32 }) s)
    else s

/-- Held commands start in turn, at most `n`. -/
def startSeveral : Nat → State → State
  | 0, s => s
  | n + 1, s => startSeveral n (startNext s)

/-- R447: two copies of one sequence number differ in OPCODE, LENGTH or CRC. -/
def conflicts (h : Header) (c : HostCmd) (h0 : Header) (c0 : HostCmd) : Bool :=
  decide (c.opcode ≠ c0.opcode ∨ c.payload.length ≠ c0.payload.length ∨ h.crc ≠ h0.crc)

/-- R447: the second copy is discarded. -/
def seqConflict (h : Header) (s : State) : State :=
  emit 0x0808 h.session (leBytes 4 h.seq) (hostCount 5 s)

/-- R445, R447, R448: a command of the open session. -/
def sequence (h : Header) (c : HostCmd) (s : State) : State :=
  let mine := fun (d : Header) => decide (d.seq = h.seq)
  match s.host.held.find? (fun d => mine d.hdr), s.host.started.find? (fun d => mine d.hdr),
      s.host.done.find? (fun d => mine d.hdr) with
  | some d, _, _ =>
    if conflicts h c d.hdr d.cmd then seqConflict h s
    else hostCount 1 (updHost (fun x =>
      { x with held := x.held.map (fun e => if mine e.hdr then { e with copies := e.copies ++ [sourceOf h] } else e) }) s)
  | none, some d, _ =>
    if conflicts h c d.hdr d.cmd then seqConflict h s
    else sendReply h c.opcode (sourceOf h) 0x0103 [] (updHost (fun x =>
      { x with started := x.started.map (fun e => if mine e.hdr then { e with copies := e.copies ++ [sourceOf h] } else e) }) s)
  | none, none, some d =>
    if conflicts h c d.hdr d.cmd then seqConflict h s
    else sendReply h c.opcode (sourceOf h) d.status d.payload s
  | none, none, none =>
    if (h.seq + 2 ^ 32 - s.host.next) % 2 ^ 32 < 64 then
      let s := updHost (fun x => { x with held := x.held ++ [⟨h, c, []⟩] }) s
      if h.seq = s.host.next then startNext s else s
    else sendReply h c.opcode (sourceOf h) 0x0102 [] (hostCount 4 s)

/-! ### Receiving (R435 to R438) -/

/-- R449: GEN_IDENTIFY and SESSION_OPEN with SESSION 0 are executed as they arrive. -/
def runLoose (h : Header) (c : HostCmd) (s : State) : State :=
  let answer := fun st p x => sendReply h c.opcode (sourceOf h) st p x
  if resetting s c.opcode then answer 0x000B [] s
  else if c.opcode = 0x0101 then
    if c.payload.length = 0 then answer 0 (identifyBytes s) (hostCount 0 s) else answer 5 [] s
  else if c.payload.length ≠ 120 then answer 5 [] s
  else
    let r := evalOpen h c.payload s
    answer r.2.1 [] (if r.2.2 then takeSession h c.payload r.1 else r.1)

/-- A packet of the host's reaches the module: its port's link is up, and the host interface
answers (R433 to R435). -/
def hostHears (h : Header) (s : State) : Bool := portUp s h.port && hostServes s

/-- R438, R449: a command packet that has passed R436. -/
def hostReceive (h : Header) (c : HostCmd) (s : State) : State :=
  if !hostHears h s then s
  else
    let s := bump s rHostPortCount 0 [h.port, 0]
    if h.session = 0 then
      if c.opcode = 0x0101 ∨ c.opcode = 0x0102 then runLoose h c s
      else sendReply h c.opcode (sourceOf h) 7 [] (hostCount 7 s)
    else if ¬ s.host.open_ ∨ h.session ≠ s.host.session then sendReply h c.opcode (sourceOf h) 0x0101 [] s
    else sequence h c (touchSession h s)

/-- The row of a command packet. -/
def command (op : Nat) (h : Header) (p : List Byte) (s : State) : Result := .next (hostReceive h { opcode := op, payload := p } s)

/-- The payload of REG_WRITE to a register (R453). -/
def writePayload (r : RegRow) (inst : Nat) (ix : List Nat) (v : Nat) : List Byte :=
  leBytes 4 (regAddr r inst ix) ++ leBytes 1 (r.width / 8) ++ leBytes 3 0 ++ leBytes 8 v

/-- The row of a write of a register. -/
def writeCommand (r : RegRow) (inst : Nat) (ix : List Nat) (v : Nat) (meas : List Int) (h : Header) (s : State) : Result :=
  .next (hostReceive h { opcode := 0x0202, payload := writePayload r inst ix v, meas := meas } s)

end Sys2Proof.Machine
end

