-- ==== Sys2Proof/Machine/HostRows.lean ====
section
/-!
DEFINITION. The commands of the other chapters that come as ZCP packets, and the rows that are
writes of one register.
-/

namespace Sys2Proof.Machine

/-! ### Jobs, sync objects, plans and light -/

/-- JOB_LOAD (R151). -/
def execJobLoad (h : Header) (p : LoadCmd) (s : State) : Result :=
  .next (hostReceive h { opcode := 0x0401, payload := p.payload, hits := p.hits } s)
/-- JOB_LAUNCH (R152). -/
def execJobLaunch (h : Header) (p : List Byte) (s : State) : Result := command 0x0402 h p s
/-- JOB_ABORT (R154). -/
def execJobAbort (h : Header) (p : List Byte) (s : State) : Result := command 0x0403 h p s
/-- SYNC_SIGNAL (R224). -/
def execSyncSignal (h : Header) (p : List Byte) (s : State) : Result := command 0x0404 h p s
/-- PLAN_LOAD (R288). -/
def execPlanLoad (h : Header) (p : List Byte) (s : State) : Result := command 0x0501 h p s
/-- PLAN_ARM with OP 0 (R291, R292). -/
def execPlanArm (h : Header) (p : List Byte) (s : State) : Result := command 0x0502 h p s
/-- PLAN_ARM with OP 1 (R293). -/
def execPlanDisarm (h : Header) (p : List Byte) (s : State) : Result := command 0x0502 h p s
/-- DARK_WINDOW (R305). -/
def execDarkWindow (h : Header) (p : List Byte) (s : State) : Result := command 0x0503 h p s
/-- DARK_WINDOW with DURATION_NS 0 (R305). -/
def execDarkWindowCancel (h : Header) (p : List Byte) (s : State) : Result := command 0x0503 h p s
/-- FABRIC_DISCOVER (R273). -/
def execFabricDiscover (h : Header) (p : List Byte) (s : State) : Result := command 0x0504 h p s
/-- LOOP_REARM (R400). -/
def execLoopRearm (h : Header) (p : List Byte) (s : State) : Result := command 0x0505 h p s

/-- CAL_RUN, with what it measures. -/
def calCommand (h : Header) (p : List Byte) (meas : List Int) (s : State) : Result :=
  .next (hostReceive h { opcode := 0x0506, payload := p, meas := meas } s)

/-- CAL_RUN of KIND LASER (R421). -/
def execCalRunLaser (h : Header) (p : List Byte) (meas : List Int) (s : State) : Result := calCommand h p meas s
/-- CAL_RUN of KIND RING (R422). -/
def execCalRunRing (h : Header) (p : List Byte) (meas : List Int) (s : State) : Result := calCommand h p meas s
/-- CAL_RUN of KIND XTALK (R423). -/
def execCalRunXtalk (h : Header) (p : List Byte) (meas : List Int) (s : State) : Result := calCommand h p meas s
/-- CAL_RUN of KIND OSUM (R424). -/
def execCalRunOsum (h : Header) (p : List Byte) (meas : List Int) (s : State) : Result := calCommand h p meas s

/-! ### Power, time, events, firmware and partnering -/

/-- PWR_SET_STATE (R507). -/
def execPwrSetState (h : Header) (p : List Byte) (s : State) : Result := command 0x0601 h p s
/-- PWR_SET_PLEVEL (R503). -/
def execPwrSetPlevel (h : Header) (p : List Byte) (s : State) : Result := command 0x0602 h p s
/-- TIME_SET_ALARM (R481). -/
def execTimeSetAlarm (h : Header) (p : List Byte) (s : State) : Result := command 0x0701 h p s
/-- EVT_READ (R605). -/
def execEvtRead (h : Header) (p : List Byte) (s : State) : Result := command 0x0801 h p s
/-- EVT_SEAL (R606). -/
def execEvtSeal (h : Header) (p : List Byte) (s : State) : Result := command 0x0802 h p s
/-- FW_BLOCK (R570). -/
def execFwBlock (h : Header) (p : List Byte) (s : State) : Result := command 0x0901 h p s
/-- FW_VERIFY (R571). -/
def execFwVerify (h : Header) (p : List Byte) (s : State) : Result := command 0x0902 h p s
/-- FW_ACTIVATE (R573), with the outcome of its restarts. -/
def execFwActivate (h : Header) (p : List Byte) (meas : List Int) (s : State) : Result :=
  .next (hostReceive h { opcode := 0x0903, payload := p, meas := meas } s)
/-- FW_CONFIRM (R576). -/
def execFwConfirm (h : Header) (p : List Byte) (s : State) : Result := command 0x0904 h p s
/-- FW_REVERT (R577), with the outcome of its restarts. -/
def execFwRevert (h : Header) (p : List Byte) (meas : List Int) (s : State) : Result :=
  .next (hostReceive h { opcode := 0x0905, payload := p, meas := meas } s)
/-- ATTEST_QUOTE (R589). -/
def execAttestQuote (h : Header) (p : List Byte) (s : State) : Result := command 0x0906 h p s
/-- PAIR_CONFIGURE with OP pair (R536). -/
def execPairConfigure (h : Header) (p : List Byte) (s : State) : Result := command 0x0A01 h p s
/-- PAIR_CONFIGURE with OP unpair (R540). -/
def execPairUnpair (h : Header) (p : List Byte) (s : State) : Result := command 0x0A01 h p s
/-- PAIR_REJOIN (R558). -/
def execPairRejoin (h : Header) (p : List Byte) (s : State) : Result := command 0x0A02 h p s

/-! ### Writes of one register -/

/-- TILE_CTRL.SELFTEST (R92). -/
def execTileCtrlSelftest (h : Header) (t : Nat) (s : State) : Result := writeCommand rTileCtrl t [] 1 [] h s
/-- TILE_CTRL.RETIRE (R94). -/
def execTileCtrlRetire (h : Header) (t : Nat) (s : State) : Result := writeCommand rTileCtrl t [] 2 [] h s
/-- TILE_CTRL.RESTORE (R98). -/
def execTileCtrlRestore (h : Header) (t : Nat) (s : State) : Result := writeCommand rTileCtrl t [] 4 [] h s
/-- A write of TILE_SRNG (R59). -/
def execTileSrngWrite (h : Header) (t v : Nat) (s : State) : Result := writeCommand rTileSrng t [] v [] h s
/-- A write of SYNC_VALUE (R225). -/
def execSyncValueWrite (h : Header) (i v : Nat) (s : State) : Result := writeCommand rSyncValue 0 [i] v [] h s
/-- A write of SYNC_ADD (R225). -/
def execSyncAddWrite (h : Header) (i v : Nat) (s : State) : Result := writeCommand rSyncAdd 0 [i] v [] h s
/-- FAB_LIGHT_CTRL.SWAP of a laser (R362). -/
def execFabLightSwap (h : Header) (c i : Nat) (s : State) : Result :=
  writeCommand rFabLightCtrl c [] (256 + i % 64) [] h s
/-- FAB_LIGHT_CTRL.RESTORE of a laser or a ring (R353, R367). -/
def execFabLightRestore (h : Header) (c i : Nat) (ring : Bool) (s : State) : Result :=
  writeCommand rFabLightCtrl c [] (512 + 64 * b2n ring + i % 64) [] h s
/-- FAB_EYE_CTRL.RESTORE (R372). -/
def execFabEyeCtrlRestore (h : Header) (c mask : Nat) (s : State) : Result :=
  writeCommand rFabEyeCtrl c [] (mask % 16) [] h s
/-- MAR_CMD.REARM (R400). -/
def execMarRearm (h : Header) (e i : Nat) (s : State) : Result :=
  writeCommand rMarCmd e [] (2 ^ 31 + i % 65536) [] h s
/-- MAR_CMD.COMMIT (R395). -/
def execMarCommit (h : Header) (e i mask : Nat) (s : State) : Result :=
  writeCommand rMarCmd e [] (2 ^ 30 + mask % 256 * 65536 + i % 65536) [] h s
/-- MAR_CMD.LUT_COMMIT (R395). -/
def execMarLutCommit (h : Header) (e i : Nat) (s : State) : Result :=
  writeCommand rMarCmd e [] (2 ^ 29 + i % 65536) [] h s
/-- MAR_CMD.XT_COMMIT (R395). -/
def execMarXtCommit (h : Header) (e f : Nat) (s : State) : Result :=
  writeCommand rMarCmd e [] (2 ^ 28 + f % 65536) [] h s
/-- TIME_CTRL.SET (R488). -/
def execTimeSet (h : Header) (s : State) : Result := writeCommand rTimeCtrl 0 [] 1 [] h s
/-- PWR_PAD.RELEASE (R512). -/
def execPwrPadRelease (h : Header) (s : State) : Result := writeCommand rPwrPad 0 [] 1 [] h s
/-- RST_CTRL.COLD (R531). -/
def execRstCtrlCold (h : Header) (s : State) : Result := writeCommand rRstCtrl 0 [] (0x52530000 + 2) [] h s
/-- RST_CTRL.WARM (R531). -/
def execRstCtrlWarm (h : Header) (s : State) : Result := writeCommand rRstCtrl 0 [] (0x52530000 + 1) [] h s
/-- MEM_RETIRE_ADDR (R169). -/
def execMemRetireAddr (h : Header) (dpa : Nat) (s : State) : Result := writeCommand rMemRetireAddr 0 [] dpa [] h s
/-- MEM_STRIP_CTRL.OFFLINE (R172). -/
def execMemStripOffline (h : Header) (n : Nat) (s : State) : Result :=
  writeCommand rMemStripCtrl 0 [] (16 + n % 16) [] h s
/-- MEM_STRIP_CTRL.RESTORE (R173), with what training comes to. -/
def execMemStripRestore (h : Header) (n : Nat) (r : StripTrain) (s : State) : Result :=
  writeCommand rMemStripCtrl 0 [] (32 + n % 16)
    (((b2n r.fast : Nat) : Int) :: ((b2n r.slow : Nat) : Int) :: (r.pprLeft : Int) :: r.repaired.map (fun x => (x : Int))) h s
/-- MEM_AS_REPAIR of a row (R182). -/
def execMemAsRepairRow (h : Header) (t bank row : Nat) (s : State) : Result :=
  writeCommand rMemAsRepair 0 [] (t % 256 * 2 ^ 23 + bank % 32 * 2 ^ 18 + row % 8192) [] h s
/-- MEM_AS_REPAIR of a column (R183). -/
def execMemAsRepairColumn (h : Header) (t bank col : Nat) (s : State) : Result :=
  writeCommand rMemAsRepair 0 [] (2 ^ 31 + t % 256 * 2 ^ 23 + bank % 32 * 2 ^ 18 + col % 8192) [] h s
/-- RED_CTRL.TAKEOVER (R552). -/
def execRedCtrlTakeover (h : Header) (s : State) : Result := writeCommand rRedCtrl 0 [] 2 [] h s
/-- RED_CTRL.MIRROR_NOW (R554). -/
def execRedCtrlMirrorNow (h : Header) (s : State) : Result := writeCommand rRedCtrl 0 [] 1 [] h s
/-- A write of RED_ACC_ENTRY (R547). -/
def execRedAccEntryWrite (h : Header) (v : Nat) (s : State) : Result := writeCommand rRedAccEntry 0 [] v [] h s
/-- SUP_SAVE (R579). -/
def execSupSave (h : Header) (s : State) : Result := writeCommand rSupSave 0 [] 0x53560001 [] h s

end Sys2Proof.Machine
end

