-- ==== Sys2Proof/Machine/MarRows.lean ====
section
/-!
DEFINITION. The Marionette engines' rows that are no packet.
-/

namespace Sys2Proof.Machine

/-- MAR_TICK (R385): an engine ticks: due strings sample, and the outputs computed before are
applied. -/
def execMarTick (e : Nat) (reads : List SensorRead) (parity : List Nat) (s : State) : Result :=
  .next (if engineRuns s e then marTick e reads parity s else s)

end Sys2Proof.Machine
end

