-- ==== Sys2Proof/Machine/QueueRows.lean ====
section
/-!
DEFINITION. The instructions that the scalar core hands to a queue (R115). What each entry
does stands in Machine/Units.lean and Machine/FabricQueue.lean, by its opcode.
-/

namespace Sys2Proof.Machine

/-- VADDF (R115, R120): handed to the vector queue. -/
def execVaddf (t : Nat) (s : State) : Result := .next (issueTo 0x60 .vector t s)

/-- VSUBF (R115, R120): handed to the vector queue. -/
def execVsubf (t : Nat) (s : State) : Result := .next (issueTo 0x61 .vector t s)

/-- VMULF (R115, R120): handed to the vector queue. -/
def execVmulf (t : Nat) (s : State) : Result := .next (issueTo 0x62 .vector t s)

/-- VMAXF (R115, R120): handed to the vector queue. -/
def execVmaxf (t : Nat) (s : State) : Result := .next (issueTo 0x63 .vector t s)

/-- VMINF (R115, R120): handed to the vector queue. -/
def execVminf (t : Nat) (s : State) : Result := .next (issueTo 0x64 .vector t s)

/-- VFMA (R115, R120): handed to the vector queue. -/
def execVfma (t : Nat) (s : State) : Result := .next (issueTo 0x65 .vector t s)

/-- VIADD (R115, R120): handed to the vector queue. -/
def execViadd (t : Nat) (s : State) : Result := .next (issueTo 0x66 .vector t s)

/-- VISUB (R115, R120): handed to the vector queue. -/
def execVisub (t : Nat) (s : State) : Result := .next (issueTo 0x67 .vector t s)

/-- VIMUL (R115, R120): handed to the vector queue. -/
def execVimul (t : Nat) (s : State) : Result := .next (issueTo 0x68 .vector t s)

/-- VAND (R115, R120): handed to the vector queue. -/
def execVand (t : Nat) (s : State) : Result := .next (issueTo 0x69 .vector t s)

/-- VOR (R115, R120): handed to the vector queue. -/
def execVor (t : Nat) (s : State) : Result := .next (issueTo 0x6A .vector t s)

/-- VXOR (R115, R120): handed to the vector queue. -/
def execVxor (t : Nat) (s : State) : Result := .next (issueTo 0x6B .vector t s)

/-- VSHL (R115, R120): handed to the vector queue. -/
def execVshl (t : Nat) (s : State) : Result := .next (issueTo 0x6C .vector t s)

/-- VSHR (R115, R120): handed to the vector queue. -/
def execVshr (t : Nat) (s : State) : Result := .next (issueTo 0x6D .vector t s)

/-- VSRA (R115, R120): handed to the vector queue. -/
def execVsra (t : Nat) (s : State) : Result := .next (issueTo 0x6E .vector t s)

/-- VRCP (R115, R120): handed to the vector queue. -/
def execVrcp (t : Nat) (s : State) : Result := .next (issueTo 0x70 .vector t s)

/-- VRSQRT (R115, R120): handed to the vector queue. -/
def execVrsqrt (t : Nat) (s : State) : Result := .next (issueTo 0x71 .vector t s)

/-- VEXP2 (R115, R120): handed to the vector queue. -/
def execVexp2 (t : Nat) (s : State) : Result := .next (issueTo 0x72 .vector t s)

/-- VLOG2 (R115, R120): handed to the vector queue. -/
def execVlog2 (t : Nat) (s : State) : Result := .next (issueTo 0x73 .vector t s)

/-- VCVTFI (R115, R120): handed to the vector queue. -/
def execVcvtfi (t : Nat) (s : State) : Result := .next (issueTo 0x74 .vector t s)

/-- VCVTIF (R115, R120): handed to the vector queue. -/
def execVcvtif (t : Nat) (s : State) : Result := .next (issueTo 0x75 .vector t s)

/-- VBCAST (R115, R120): handed to the vector queue. -/
def execVbcast (t : Nat) (s : State) : Result := .next (issueTo 0x76 .vector t s)

/-- VSUMF (R115, R120): handed to the vector queue. -/
def execVsumf (t : Nat) (s : State) : Result := .next (issueTo 0x77 .vector t s)

/-- VMAXR (R115, R120): handed to the vector queue. -/
def execVmaxr (t : Nat) (s : State) : Result := .next (issueTo 0x78 .vector t s)

/-- VLD (R115, R120): handed to the vector queue. -/
def execVld (t : Nat) (s : State) : Result := .next (issueTo 0x7A .vector t s)

/-- VST (R115, R120): handed to the vector queue. -/
def execVst (t : Nat) (s : State) : Result := .next (issueTo 0x7B .vector t s)

/-- VPACK (R115, R120): handed to the vector queue. -/
def execVpack (t : Nat) (s : State) : Result := .next (issueTo 0x7C .vector t s)

/-- VUNPK (R115, R120): handed to the vector queue. -/
def execVunpk (t : Nat) (s : State) : Result := .next (issueTo 0x7D .vector t s)

/-- MSHAPE (R115, R120): handed to the matrix queue. -/
def execMshape (t : Nat) (s : State) : Result := .next (issueTo 0x90 .matrix t s)

/-- MMA (R115, R120): handed to the matrix queue. -/
def execMma (t : Nat) (s : State) : Result := .next (issueTo 0x91 .matrix t s)

/-- ACCZ (R115, R120): handed to the matrix queue. -/
def execAccz (t : Nat) (s : State) : Result := .next (issueTo 0x93 .matrix t s)

/-- ACCPACK (R115, R120): handed to the matrix queue. -/
def execAccpack (t : Nat) (s : State) : Result := .next (issueTo 0x94 .matrix t s)

/-- ACCGET (R115, R120): handed to the matrix queue. -/
def execAccget (t : Nat) (s : State) : Result := .next (issueTo 0x95 .matrix t s)

/-- ACCPUT (R115, R120): handed to the matrix queue. -/
def execAccput (t : Nat) (s : State) : Result := .next (issueTo 0x96 .matrix t s)

/-- MVSHAPE (R115, R120): handed to the mover queue. -/
def execMvshape (t : Nat) (s : State) : Result := .next (issueTo 0xA0 .mover t s)

/-- MOV (R115, R120): handed to the mover queue. -/
def execMov (t : Nat) (s : State) : Result := .next (issueTo 0xA1 .mover t s)

/-- CPOST (R115, R120): handed to the fabric queue. -/
def execCpost (t : Nat) (s : State) : Result := .next (issueTo 0xD0 .fabric t s)

/-- FPUT (R115, R120): handed to the fabric queue. -/
def execFput (t : Nat) (s : State) : Result := .next (issueTo 0xD1 .fabric t s)

/-- FSIG (R115, R120): handed to the fabric queue. -/
def execFsig (t : Nat) (s : State) : Result := .next (issueTo 0xD2 .fabric t s)

end Sys2Proof.Machine
end

