-- ==== Sys2Proof/Machine/RemRows.lean ====
section
/-!
DEFINITION. The completion of queue entries, the release of fabric entries, remote operations
and the restart from a twin (R115, R230, R234, R299).
-/

namespace Sys2Proof.Machine

/-- QUEUE_ENTRY_COMPLETION (R115, R139, R141): entry `k` of a queue that has started completes;
a fabric entry is checked and handed on at the head of its queue. -/
def execQueueEntryCompletion (t : Nat) (u : TileUnit) (k : Nat) (ups : List Upset) (s : State) : Result :=
  .next (
    let x := tileAt s t
    if x.code ≠ .running ∨ s.pwr.tripped then s
    else
      let s1 := strike ups s
      let run := fun (unit : Nat) (f : Nat → Insn → State → Ran) =>
        match (queueGet x u)[k]? with
        | some e =>
          if k < startedCount x u then
            match f t (insnOf e.word) s1 with
            | .held => s
            | r => settleEntry t u unit k e s1 r
          else s
        | none => s
      match u with
      | .matrix => run 1 runMatrix
      | .vector => run 2 runVector
      | .mover => run 3 runMover
      | .fabric => if k = 0 then fabricHead t s1 else s)

/-- FABRIC_ENTRY_RELEASE (R299): a phase in force reaches the destination of the entry at the
head of a tile's fabric queue, and the entry leaves. -/
def execFabricEntryRelease (t : Nat) (s : State) : Result :=
  .next (
    let x := tileAt s t
    match x.fq with
    | e :: _ =>
      if x.code = .running ∧ ¬ e.handed ∧
          ((entryDest e).bind (openSlotTo s (x.logical.getD 0))).isSome then fabricHead t s
      else s
    | [] => s)

/-- REMOTE_OPERATION_RX (R229 to R233, R553): the first operation delivered that can be taken is
checked, and applied once or discarded. -/
def execRemoteOperationRx (s : State) : Result :=
  .next (
    match nextOpIn s [] s.fab.inbox with
    | none => s
    | some x => applyRemote x { s with fab := { s.fab with inbox := s.fab.inbox.erase x } })

/-- R234: the survivor is asked to restart the FPUT from its first byte. -/
def askRestart (failed l n : Nat) (s : State) : State :=
  let e := accOf s failed
  let key := streamKey s failed l
  let r := Cells.get {} s.sync.remote key
  let lo := min failed e.partner
  let hi := max failed e.partner
  let u : FabUnit :=
    { kind := 6, stream := l, opseq := r.next, data := leBytes 2 lo ++ leBytes 2 hi ++ List.replicate 12 0 }
  let s := placeFirst n e.partner ⟨u, .message⟩ s
  let s := { s with sync := { s.sync with
    remote := Cells.set {} s.sync.remote key { r with supplier := some e.partner, got := 0, lost := some failed } } }
  emit 0x0903 lo (leBytes 2 lo ++ leBytes 2 hi ++ leBytes 2 r.object ++ leBytes 4 r.next) (syncCount 7 s)

/-- R238: both twins have been declared failed: the FPUT is left unfinished, its add is never
applied, and collectives with the pair end with PEER_LOST. -/
def leaveFput (failed l : Nat) (s : State) : State :=
  let key := streamKey s failed l
  let partner := (accOf s failed).partner
  let s := { s with sync := { s.sync with
    remote := Cells.upd {} s.sync.remote key (fun r => { next := (r.next + 1) % 2 ^ 32 }) } }
  losePeer none failed (losePeer none partner s)

/-- SYNC_TWIN_RESTART (R234, R238): the twin whose bytes are being taken has been declared failed. -/
def execSyncTwinRestart (failed l : Nat) (s : State) : Result :=
  .next (
    let e := accOf s failed
    let r := Cells.get {} s.sync.remote (streamKey s failed l)
    if e.valid ∧ e.twin ∧ r.supplier = some failed ∧ s.red.state ≠ .fenced then
      if r.lost = some e.partner then leaveFput failed l s
      else match reachSlot s e.partner with
        | none => s
        | some n => askRestart failed l n s
    else s)

end Sys2Proof.Machine
end

