-- ==== Sys2Proof/Machine/SessRows.lean ====
section
/-!
DEFINITION. Chapter 14's own rows: sessions, registers, bulk transfers, ports and the timers of
the host interface.
-/

namespace Sys2Proof.Machine

/-! ### Packets -/

/-- GEN_IDENTIFY (R439). -/
def execGenIdentify (h : Header) (p : List Byte) (s : State) : Result := command 0x0101 h p s

/-- SESSION_OPEN (R442). -/
def execSessionOpen (h : Header) (p : List Byte) (s : State) : Result := command 0x0102 h p s

/-- SESSION_CLOSE (R444). -/
def execSessionClose (h : Header) (p : List Byte) (s : State) : Result := command 0x0103 h p s

/-- SESSION_KEEPALIVE (R443). -/
def execSessionKeepalive (h : Header) (p : List Byte) (s : State) : Result := command 0x0104 h p s

/-- REG_READ (R453). -/
def execRegRead (h : Header) (p : List Byte) (s : State) : Result := command 0x0201 h p s

/-- REG_WRITE (R453). -/
def execRegWrite (h : Header) (p : List Byte) (s : State) : Result := command 0x0202 h p s

/-- BULK_WRITE (R460). -/
def execBulkWrite (h : Header) (p : List Byte) (s : State) : Result := command 0x0301 h p s

/-- BULK_READ (R460). -/
def execBulkRead (h : Header) (p : List Byte) (s : State) : Result := command 0x0302 h p s

/-- BAD_OPCODE (R452): an opcode that is not in the table. -/
def execBadOpcode (h : Header) (op : Nat) (p : List Byte) (s : State) : Result :=
  .next (if (cmdInfo op).isNone then hostReceive h { opcode := op, payload := p } s else s)

/-- A read of TIME_NOW_S (R470). -/
def execTimeNowSRead (h : Header) (s : State) : Result :=
  command 0x0201 h (leBytes 4 (regAddr rTimeNowS 0 []) ++ leBytes 1 8 ++ leBytes 3 0) s

/-- R431: the IPv4 address of a port's network answers only where HOST_NET_CFG has it enabled. -/
def isIp4 (s : State) (port a : Nat) : Bool :=
  decide (regField s rHostNetCfg 0 [port / 4] 31 31 = 1 ∧ regGet s rHostIp4 0 [port / 4] = a)

/-- R431: a port's link-local IPv6 address, formed from its MAC address (assumption 82). -/
def linkLocal (port : Nat) : Nat :=
  let m := (Config.macBase + port) % 2 ^ 48
  let top := m / 2 ^ 24
  let flip := if bitOf top 17 then top - 2 ^ 17 else top + 2 ^ 17
  0xFE80 * 2 ^ 112 + flip * 2 ^ 40 + 0xFFFE * 2 ^ 24 + m % 2 ^ 24

/-- R431: an IPv6 address of a port: its network's configured one, or its link-local one. -/
def isIp6 (s : State) (port a : Nat) : Bool :=
  let own := (List.range 4).foldl (fun v q => v * 2 ^ 32 + regGet s rHostIp6 0 [port / 4, q]) 0
  decide (a = own ∨ a = linkLocal port)

/-- A frame has arrived at a port, and is answered below ZCP where the address is the module's. -/
def answerIp (mine : Bool) (k : IpKind) (port src target : Nat) (data : List Byte) (s : State) : State :=
  if 8 ≤ port ∨ !portUp s port then s
  else
    let s := bump s rHostPortCount 0 [port, 0]
    if mine then
      bump (updHost (fun h => { h with answers := h.answers ++ [⟨k, port, src, target, data⟩] }) s)
        rHostPortCount 0 [port, 1]
    else s

/-- A frame that is discarded at a port, and where it has no supported protocol counted (R467). -/
def dropFrame (port : Nat) (counted : Bool) (s : State) : State :=
  if 8 ≤ port ∨ !portUp s port then s
  else
    let s := bump s rHostPortCount 0 [port, 0]
    if counted then bump s rHostPortCount 0 [port, 5] else s

/-- ZCP_PACKET_DISCARD (R431, R436): a failing CRC is counted in CRC_DISCARDS, any other failure of
R436 in FORMAT_DISCARDS; other frames are discarded or answered as R429, R431 and R467 state. -/
def execZcpPacketDiscard (why : Discard) (s : State) : Result :=
  .next (if hostServes s then (match why with
    | .crc => hostCount 2 s
    | .udpLength | .format => hostCount 3 s
    | .fragment p | .options p | .udpSum p | .pause p | .tag p | .long p => dropFrame p false s
    | .noProtocol p => dropFrame p true s
    | .arp p src a => answerIp (isIp4 s p a) .arp p src a [] s
    | .neighbour p src a => answerIp (isIp6 s p a) .neighbour p src a [] s
    | .echo six p src a d => answerIp (if six then isIp6 s p a else isIp4 s p a) .echo p src a d s) else s)

/-! ### Bulk packets -/

/-- A bulk packet of the open session, whose transfer may run now (R461, R463). -/
def bulkPacket (h : Header) (f : Bulk → State → State) (s : State) : State :=
  if !hostHears h s then s
  else
    let s := bump s rHostPortCount 0 [h.port, 0]
    if ¬ s.host.open_ ∨ h.session ≠ s.host.session ∨ s.rst.level ≠ 0 then s
    else
      let s := touchSession h s
      match bulkAt s h.seq with
      | some b => if b.offline then endBulk b 0x0301 [] s else f b s
      | none => s

/-- R462: a block of a write arrives. -/
def takeBlock (k : Nat) (data : List Byte) (b : Bulk) (s : State) : State :=
  if ¬ b.write then s
  else if bulkBlocks b ≤ k ∨ data.length ≠ bulkPart b k then hostCount 3 s
  else if b.got.contains k then hostCount 11 s
  else if bulkHeld b s then s
  else
    let r := storeBlock b k data s
    let b' : Bulk := noteBad (b2n r.2.isSome) (r.2.getD 0)
      { b with got := b.got ++ [k], sinceAck := b.sinceAck + 1 }
    let s := bumpBy (updBulk b.cmd.seq (fun _ => b') r.1) rHostCount 0 [8] data.length
    if 16 ≤ b'.sinceAck then sendAck b' s else s

/-- BULK_BLOCK (R462). -/
def execBulkBlock (h : Header) (block : Nat) (data : List Byte) (s : State) : Result :=
  .next (bulkPacket h (takeBlock block data) s)

/-- R462: an acknowledgement of a read: blocks that it shows missing below a received block are
sent again, and new ones below NEXT + WINDOW. -/
def takeAck (next window mask : Nat) (b : Bulk) (s : State) : State :=
  if b.write then s
  else
    let above := ((List.range 64).filter (bitOf mask)).map (fun i => next + 1 + i)
    let got := (List.range (bulkBlocks b)).filter (fun k => decide (k < next) || b.got.contains k || above.contains k)
    let top := above.foldl max 0
    let missing := (List.range (min top b.sent)).filter (fun k => decide (next ≤ k) && !got.contains k)
    let s := updBulk b.cmd.seq (fun x => { x with got := got, window := next + window }) s
    pumpRead b.cmd.seq (bulkBlocks b) (resendBlocks b.cmd.seq missing s)

/-- BULK_ACK (R461, R462). -/
def execBulkAck (h : Header) (next window mask : Nat) (s : State) : Result :=
  .next (bulkPacket h (takeAck next window mask) s)

/-- A bulk transfer's own event: none happens while a reset sequence is in progress. -/
def bulkEvent (q : Nat) (f : Bulk → State → State) (s : State) : State :=
  match bulkAt s q with
  | some b => if s.rst.level = 0 then f b s else s
  | none => s

/-- BULK_ACK_TIMER (R462): at least every 20 microseconds while blocks remain outstanding. -/
def execBulkAckTimer (q : Nat) (s : State) : Result :=
  .next (bulkEvent q (fun b s => if b.write ∧ b.got.length < bulkBlocks b then sendAck b s else s) s)

/-- BULK_RESEND_TIMEOUT (R462): a read block has stayed unacknowledged. -/
def execBulkResendTimeout (q block : Nat) (s : State) : Result :=
  .next (bulkEvent q (fun b s =>
    if !b.write && decide (block < b.sent) && !b.got.contains block then resendBlocks q [block] s else s) s)

/-- R175, R463: the final status of a transfer and its payload. -/
def bulkStatus (b : Bulk) : Nat × List Byte :=
  if b.bad = 0 then (0, [])
  else if b.write then (0x0303, leBytes 8 b.firstBad)
  else (0x0302, leBytes 4 b.bad ++ leBytes 8 b.firstBad)

/-- BULK_DONE (R463): every block has been written, or acknowledged; or a strip of the transfer
has gone OFFLINE (R186). -/
def execBulkDone (q : Nat) (s : State) : Result :=
  .next (bulkEvent q (fun b s =>
    if b.offline then endBulk b 0x0301 [] s
    else if b.got.length = bulkBlocks b then endBulk b (bulkStatus b).1 (bulkStatus b).2 s
    else s) s)

/-- BULK_TIMEOUT (R463): no bulk packet of the transfer for BULK_IDLE_MS. -/
def execBulkTimeout (q : Nat) (s : State) : Result :=
  .next (bulkEvent q (fun b s => emit 0x0809 b.cmd.session (leBytes 4 q) (endBulk b 0x0304 [] s)) s)

/-! ### Order and timers -/

/-- HELD_COMMAND_START (R446). -/
def execHeldCommandStart (s : State) : Result := .next (startNext s)

/-- COMMAND_HOLD_EXPIRY (R459, R567): commands held for 50 ms are answered as during a reset. -/
def execCommandHoldExpiry (s : State) : Result :=
  .next (if s.host.switching then startSeveral 64 (updHost (fun h => { h with switching := false }) s) else s)

/-- SESSION_IDLE_TIMEOUT (R443): the timer stands still while both networks are lost. -/
def execSessionIdleTimeout (s : State) : Result :=
  .next (if netUp s 0 || netUp s 1 then closeSession 1 s else s)

/-- NONCE_REFRESH (R440). -/
def execNonceRefresh (s : State) : Result := .next (if hostServes s then drawNonce s else s)

/-- SESSION_OPEN_EVAL_EXPIRY (R449): the oldest kept evaluation is discarded. -/
def execSessionOpenEvalExpiry (s : State) : Result :=
  .next (updHost (fun h => { h with evals := h.evals.dropLast }) s)

/-! ### Ports (R433, R434) -/

/-- A port may come up: the host interface runs, power and recovery mode leave the port on
(R504, R585), and HOST_PORT_CFG.DISABLE is clear. -/
def portMayRise (s : State) (n : Nat) : Bool :=
  decide (n < 8) && s.pwr.applied && hostServes s && decide (s.pwr.current < 4) &&
    (decide (n % 4 = 0) || (decide (s.pwr.current < 3) && !s.fw.recovery)) &&
    decide (regField s rHostPortCfg 0 [n] 0 0 = 0) && !portUp s n

/-- PORT_LINK_UP (R429, R433). -/
def execPortLinkUp (n : Nat) (s : State) : Result :=
  .next (
    if portMayRise s n then
      let an := decide (regField s rHostPortCfg 0 [n] 1 1 = 0)
      settleNet (n / 4) (emit 0x0801 n (leBytes 1 n)
        (updPort n (fun _ => { link := true, anDone := an, trained := true, fecLock := true }) s))
    else s)

/-- PORT_LINK_DOWN (R433). -/
def execPortLinkDown (n : Nat) (s : State) : Result := .next (if n < 8 then dropPort n s else s)

end Sys2Proof.Machine
end

