-- ==== Sys2Proof/Machine/TileSync.lean ====
section
/-!
DEFINITION. The stream and sync instructions of a tile (R132 to R135, R194 to R196, R214,
R220 to R222), with the events that end their waits.
-/

namespace Sys2Proof.Machine

/-- R116: no matrix, vector or mover entry is pending. -/
def enginesIdle (x : Tile) : Bool := x.mq.isEmpty && x.vq.isEmpty && x.oq.isEmpty

/-- SSTART (R132, R196, R199): the pass waits for a context, or is held behind the one
outstanding; a further start stalls. -/
def execSstart (t : Nat) (s : State) : Result :=
  .next (runInsn 0xB0 t (fun i s1 =>
    let x := tileAt s1 t
    if !enginesIdle x then s
    else match streamDesc s1 i.imm with
      | none => raiseHere t 8 0 s1
      | some d =>
        if x.logical ≠ some d.leader then raiseHere t 8 0 s1
        else
          let st := streamAt s1 i.imm
          let p := newPass s1 d st
          let go := fun f => stepOver t (updStream i.imm (fun st => f { st with starts := st.starts + 1 })
            { s1 with wse := { s1.wse with order := s1.wse.order + 1 } })
          if st.pass.isNone then go (fun st => { st with pass := some p })
          else if st.held.isNone then go (fun st => { st with held := some p })
          else s) s)

/-- R194, R214: the next landing buffer of a tile is taken, where it is FULL; none where it
is not. -/
def takeBuffer (t dn dreg : Nat) (s : State) : Option State :=
  let x := tileAt s t
  match streamDesc s dn, x.logical with
  | some d, some l =>
    let st := streamAt s dn
    let b := Cells.get 0 st.taken l % d.nbuf
    let f := bufAt st l b
    if f.code = .full then
      match (if (wform d.format).errTrap then f.poison else none) with
      | some dpa => some (raiseHere t 12 dpa s)
      | none =>
        let s := updStream dn (fun st =>
          { setBuf l b { f with code := .taken } st with
            taken := Cells.upd 0 st.taken l (· + 1) }) s
        some (stepOver t (updTile t (fun x =>
          aSet { x with wait := .none } dreg (BitVec.ofNat 48 (d.bufAddr + b * descBufSize d))) s))
    else none
  | _, _ => none

/-- R132, R196: STAKE and SFREE raise STREAM in a tile that is no member, on a descriptor
that is not defined or is not a WEIGHT descriptor. -/
def streamBad (s : State) (t dn : Nat) : Bool :=
  match streamDesc s dn with
  | none => true
  | some d => !(decide (d.kind = 1) && memberOf s t d.group)

/-- STAKE (R132, R194, R195). -/
def execStake (t : Nat) (s : State) : Result :=
  .next (runInsn 0xB1 t (fun i s =>
    if streamBad s t i.imm then raiseHere t 8 0 s
    else match takeBuffer t i.imm i.d s with
      | some s => s
      | none => updTile t (fun x => { x with wait := .stake i.imm i.d }) s) s)

/-- STAKE_SATISFIED (R194): the buffer that a tile waits for is FULL. -/
def execStakeSatisfied (t : Nat) (s : State) : Result :=
  .next (match (tileAt s t).wait with
    | .stake dn d => (takeBuffer t dn d s).getD s
    | _ => s)

/-- SFREE (R133, R194): the oldest taken buffer is EMPTY again in this tile. -/
def execSfree (t : Nat) (s : State) : Result :=
  .next (runInsn 0xB2 t (fun i s1 =>
    let x := tileAt s1 t
    if !(x.mq.isEmpty && x.vq.isEmpty) then s
    else if streamBad s1 t i.imm then raiseHere t 8 0 s1
    else match streamDesc s1 i.imm, x.logical with
      | some d, some l =>
        let st := streamAt s1 i.imm
        let n := Cells.get 0 st.freed l
        if n < Cells.get 0 st.taken l then
          stepOver t (updStream i.imm (fun st =>
            { setBuf l (n % d.nbuf) ⟨.empty, none⟩ st with freed := Cells.upd 0 st.freed l (· + 1) }) s1)
        else raiseHere t 8 0 s1
      | _, _ => raiseHere t 8 0 s1) s)

/-- R134: the object that a sync instruction names. -/
def syncObj (x : Tile) (i : Insn) : Nat := i.imm + (sGet x i.a).toNat

/-- R134: SYADD and SYSET wait for every queue, and raise SYNC beyond the objects. -/
def syncWrite (op : Nat) (f : Nat → W64 → State → State) (t : Nat) (s : State) : State :=
  runInsn op t (fun i s1 =>
    let x := tileAt s1 t
    let o := syncObj x i
    if !queuesEmpty x then s
    else if 16384 ≤ o then raiseHere t 9 o s1
    else stepOver t (f o (BitVec.setWidth 64 (sGet x i.b)) s1)) s

/-- SYADD (R134, R220). -/
def execSyadd (t : Nat) (s : State) : Result := .next (syncWrite 0xC0 syncAdd t s)

/-- SYSET (R134, R220). -/
def execSyset (t : Nat) (s : State) : Result := .next (syncWrite 0xC1 syncSet t s)

/-- SYRD (R134, R220). -/
def execSyrd (t : Nat) (s : State) : Result :=
  .next (runInsn 0xC2 t (fun i s =>
    let x := tileAt s t
    let o := syncObj x i
    if 16384 ≤ o then raiseHere t 9 o s
    else
      let v := (syncGet s o).toNat
      stepOver t (updTile t (fun x =>
        sSet x i.d (BitVec.ofNat 32 (if bitOf i.x 0 then v / 2 ^ 32 else v))) s)) s)

/-- SYWAIT (R135, R222): the first comparison is made as the wait begins. -/
def execSywait (t : Nat) (s : State) : Result :=
  .next (runInsn 0xC3 t (fun i s =>
    let x := tileAt s t
    let o := syncObj x i
    let thr := (sGet x i.b).toNat
    if 16384 ≤ o then raiseHere t 9 o s
    else if thr ≤ (syncGet s o).toNat then stepOver t s
    else updTile t (fun x => { x with wait := .sync o thr }) s) s)

/-- SYWAIT_SATISFIED (R222): the wait has ended, and the tile goes on. -/
def execSywaitSatisfied (t : Nat) (s : State) : Result :=
  .next (if (tileAt s t).wait = .syncDone then
      stepOver t (updTile t (fun x => { x with wait := .none }) s)
    else s)

end Sys2Proof.Machine
end

