-- ==== Sys2Proof/Machine/WseRows.lean ====
section
/-!
DEFINITION. The events of the weight stream engine (R193, R197 to R199, R207 to R213).
-/

namespace Sys2Proof.Machine

/-- The state with pass `p` of stream `d`. -/
def setPass (d : Nat) (p : Pass) (s : State) : State := updStream d (fun st => { st with pass := some p }) s

/-- WSE_PASS_BEGIN (R199): the first pass of the queue takes a free context. -/
def execWsePassBegin (d : Nat) (s : State) : Result :=
  .next (
    match (streamAt s d).pass, freeCtx s with
    | some p, some c =>
      if p.ctx.isNone ∧ (waitingOrders s).all (fun o => p.order ≤ o) then
        setPass d { p with ctx := some c } s
      else s
    | _, _ => s)

/-- CHUNK_STAGED (R209): the strip reader has read chunk `n` of the pass into prefetch
staging; once the running pass has read its last chunk, a held start prefetches. -/
def execChunkStaged (d n : Nat) (s : State) : Result :=
  .next (
    let st := streamAt s d
    match streamDesc s d, st.pass with
    | some de, some p =>
      let held := decide (de.nchunk ≤ p.read)
      match (if held then st.held else some p) with
      | none => s
      | some q =>
        if p.ctx.isSome ∧ de.kind = 1 ∧ n = q.first + q.read ∧ q.read < de.nchunk ∧
            p.staged.length + ((st.held.map (·.staged.length)).getD 0) < de.prefetch ∧
            ¬ readHeld de q s then
          let r := readChunk d de q s
          let q' := { r.2.1 with staged := r.2.1.staged ++ [r.2.2] }
          if 8388608 < stagedBytes s + r.2.2.size then s
          else updStream d (fun st => if held then { st with held := some q' } else { st with pass := some q' }) r.1
        else s
    | _, _ => s)

/-- CHUNK_WRITE_START (R193, R209): the buffer is EMPTY in every member, and the chunk,
staged or read now, begins to be written. -/
def execChunkWriteStart (d : Nat) (s : State) : Result :=
  .next (
    let st := streamAt s d
    match streamDesc s d, st.pass with
    | some de, some p =>
      if p.ctx.isSome ∧ de.kind = 1 ∧ p.writing = [] ∧ p.begun < de.nchunk ∧
          bufferFree s de st (p.first + p.begun) then
        match p.staged with
        | c :: r =>
          setPass d { p with staged := r, cur := c, begun := p.begun + 1, writing := groupOf s de.group } s
        | [] =>
          if readHeld de p s then s
          else
            let r := readChunk d de p s
            setPass d { r.2.1 with
              cur := r.2.2, begun := p.begun + 1, writing := groupOf s de.group } r.1
      else s
    | _, _ => s)

/-- R192: the keys of a landing buffer of a member that another pass delivers to at the same
time. -/
def bufferOverlap (d l t : Nat) (de : StreamDesc) (b : Nat) (s : State) : List Nat :=
  s.wse.streams.flatMap (fun c =>
    match streamDesc s c.1, c.2.pass with
    | some e, some q =>
      if c.1 ≠ d ∧ q.writing.contains l then
        sharedKeys (scratchBase t + de.bufAddr + b * descBufSize de) (descBufSize de)
          (scratchBase t + e.bufAddr + (q.first + q.begun - 1) % e.nbuf * descBufSize e) (descBufSize e)
      else []
    | _, _ => [])

/-- CHUNK_FULL (R193): the last byte of the chunk is written in member `l`. -/
def execChunkFull (d l : Nat) (s : State) : Result :=
  .next (
    match streamDesc s d, (streamAt s d).pass with
    | some de, some p =>
      if p.writing.contains l then
        let b := (p.first + p.begun - 1) % de.nbuf
        let s := match physOf s l with
          | some t =>
            if serving (tileAt s t) then
              spoilKeys (bufferOverlap d l t de b s) (scratchWrite t (de.bufAddr + b * descBufSize de) p.cur.bytes s)
            else s
          | none => s
        let w := p.writing.filter (· ≠ l)
        updStream d (fun st =>
          { setBuf l b ⟨.full, p.cur.poison⟩ st with
            pass := some { p with writing := w, done := if w = [] then p.begun else p.done } }) s
      else s
    | _, _ => s)

/-- R212: marks made by the uncorrectable units of a spill or fill. -/
def markGrans (dpas : List Nat) (s : State) : State :=
  forEach dpas (fun d st => if granBlocked st (d / 64) then st else setGran (d / 64) .bad st) s

/-- R210, R212: one member of a SPILL pass: its slice bytes go to LPDDR5X; the DPAs of the
granules written poisoned. A tile that does not serve answers every read with an error (R88):
every granule is poisoned (assumption 33, DESIGN CHOICE). -/
def spillMember (de : StreamDesc) (t dpa : Nat) (s : State) : State × List Nat :=
  if !serving (tileAt s t) then
    let g := (List.range (de.len / 64)).map (fun i => dpa + 64 * i)
    (markGrans g (ddrWrite dpa (List.replicate de.len 0) s).1, g)
  else
  let r := sliceCheck t de.sliceOff de.len s
  let bs := memRead r.1.mem.cells (sliceBase t + de.sliceOff) de.len
  let s := (ddrWrite dpa bs r.1).1
  let g := (r.2.map (fun w => dpa + (w - de.sliceOff) / 64 * 64)).dedup
  (markGrans g s, g)

/-- R210, R212: one member of a FILL pass; the words of an uncorrectable granule are
written marked. -/
def fillMember (de : StreamDesc) (t dpa : Nat) (s : State) : State × List Nat :=
  let r := ddrRead dpa de.len s
  if !serving (tileAt s t) then (r.1, r.2.2.map (· * 64)) else
  let s := sliceWrite t de.sliceOff r.2.1 r.1
  let g := r.2.2.map (· * 64)
  let s := forEach g (fun d st =>
    forEach (wordRange (sliceBase t + de.sliceOff + (d - dpa)) 64) (fun w st => setWord w .bad st) st) s
  (s, g)

/-- R207: the DPA of member number `k`. -/
def spillDpa (de : StreamDesc) (k : Nat) : Nat :=
  let ms := maskStrips de.mask
  ms.getD (k % ms.length) 0 * stripSize + de.stripOff + k / ms.length * de.len

/-- R210, R212: the whole transfer of a SPILL or FILL pass. -/
def moveSpill (d : Nat) (de : StreamDesc) (s : State) : State :=
  let r := (groupOf s de.group).zipIdx.foldl (fun p m =>
    match physOf p.1 m.1 with
    | none => p
    | some t =>
      let q := if de.kind = 2 then spillMember de t (spillDpa de m.2) p.1
        else fillMember de t (spillDpa de m.2) p.1
      (bumpBy q.1 rWseCount 0 [6] de.len, p.2 ++ q.2)) (s, ([] : List Nat))
  match r.2 with
  | [] => r.1
  | g :: gs =>
    let s := wseCount true (wseErr (if de.kind = 2 then 3 else 4) d g r.1)
    emit 0x0B05 d (leBytes 2 d ++ leBytes 4 (gs.length + 1)) s

/-- A strip that the transfer touches is TRAINING. -/
def spillHeld (de : StreamDesc) (s : State) : Bool :=
  (maskStrips de.mask).any (fun n => decide ((stripAt s n).code = .training))

/-- R197: the sync add of a pass that has ended. -/
def passAdd (de : StreamDesc) (s : State) : State :=
  if bitOf de.sync 15 then syncAdd (de.sync % 16384) 1#64 s else s

/-- WSE_PASS_END (R197, R199): the last chunk is FULL in every member, or every byte of a
SPILL or FILL is written. -/
def execWsePassEnd (d : Nat) (s : State) : Result :=
  .next (
    match streamDesc s d, (streamAt s d).pass with
    | some de, some p =>
      if p.ctx.isNone then s
      else if de.kind = 1 then
        if p.done = de.nchunk then passAdd de (endPass d s) else s
      else if spillHeld de s then s
      else passAdd de (endPass d (moveSpill d de s))
    | _, _ => s)

/-- WSE_PASS_CANCEL (R198): every member is HALTED; the running pass and the held start go. -/
def execWsePassCancel (d : Nat) (s : State) : Result :=
  .next (
    let st := streamAt s d
    match streamDesc s d with
    | some de =>
      if outstanding st ∧ membersHalted s de then
        let left := fun (p : Option Pass) => (p.map (fun p => de.nchunk - p.done)).getD 0
        emit 0x0B04 d (leBytes 2 d ++ leBytes 4 (left st.pass + left st.held))
          (updStream d (fun st => { st with pass := none, held := none }) s)
      else s
    | none => s)

end Sys2Proof.Machine
end

