-- ==== Sys2Proof/Machine/Dispatch.lean ====
section
/-!
DEFINITION. Which meaning each command has: one arm for each constructor of `Instr`.
-/

namespace Sys2Proof.Machine

/-- The effect of a command on everything but the queue. -/
def exec (i : Instr) (s : State) : Host.Outcome State Fault Refusal :=
  match i with
  | .genIdentify h p => Sys2Proof.Machine.execGenIdentify h p s
  | .sessionOpen h p => Sys2Proof.Machine.execSessionOpen h p s
  | .sessionClose h p => Sys2Proof.Machine.execSessionClose h p s
  | .sessionKeepalive h p => Sys2Proof.Machine.execSessionKeepalive h p s
  | .regRead h p => Sys2Proof.Machine.execRegRead h p s
  | .regWrite h p => Sys2Proof.Machine.execRegWrite h p s
  | .bulkWrite h p => Sys2Proof.Machine.execBulkWrite h p s
  | .bulkRead h p => Sys2Proof.Machine.execBulkRead h p s
  | .bulkBlock h block data => Sys2Proof.Machine.execBulkBlock h block data s
  | .bulkAck h next window mask => Sys2Proof.Machine.execBulkAck h next window mask s
  | .bulkAckTimer q => Sys2Proof.Machine.execBulkAckTimer q s
  | .bulkResendTimeout q block => Sys2Proof.Machine.execBulkResendTimeout q block s
  | .bulkDone q => Sys2Proof.Machine.execBulkDone q s
  | .bulkTimeout q => Sys2Proof.Machine.execBulkTimeout q s
  | .zcpPacketDiscard why => Sys2Proof.Machine.execZcpPacketDiscard why s
  | .badOpcode h op p => Sys2Proof.Machine.execBadOpcode h op p s
  | .heldCommandStart => Sys2Proof.Machine.execHeldCommandStart s
  | .sessionIdleTimeout => Sys2Proof.Machine.execSessionIdleTimeout s
  | .nonceRefresh => Sys2Proof.Machine.execNonceRefresh s
  | .sessionOpenEvalExpiry => Sys2Proof.Machine.execSessionOpenEvalExpiry s
  | .portLinkUp n => Sys2Proof.Machine.execPortLinkUp n s
  | .portLinkDown n => Sys2Proof.Machine.execPortLinkDown n s
  | .jobLoad h p => Sys2Proof.Machine.execJobLoad h p s
  | .jobLaunch h p => Sys2Proof.Machine.execJobLaunch h p s
  | .jobAbort h p => Sys2Proof.Machine.execJobAbort h p s
  | .jobEnd => Sys2Proof.Machine.execJobEnd s
  | .syncSignal h p => Sys2Proof.Machine.execSyncSignal h p s
  | .planLoad h p => Sys2Proof.Machine.execPlanLoad h p s
  | .planArm h p => Sys2Proof.Machine.execPlanArm h p s
  | .planDisarm h p => Sys2Proof.Machine.execPlanDisarm h p s
  | .darkWindow h p => Sys2Proof.Machine.execDarkWindow h p s
  | .darkWindowCancel h p => Sys2Proof.Machine.execDarkWindowCancel h p s
  | .fabricDiscover h p => Sys2Proof.Machine.execFabricDiscover h p s
  | .loopRearm h p => Sys2Proof.Machine.execLoopRearm h p s
  | .calRunLaser h p meas => Sys2Proof.Machine.execCalRunLaser h p meas s
  | .calRunRing h p meas => Sys2Proof.Machine.execCalRunRing h p meas s
  | .calRunXtalk h p meas => Sys2Proof.Machine.execCalRunXtalk h p meas s
  | .calRunOsum h p meas => Sys2Proof.Machine.execCalRunOsum h p meas s
  | .pwrSetState h p => Sys2Proof.Machine.execPwrSetState h p s
  | .pwrPendingStart => Sys2Proof.Machine.execPwrPendingStart s
  | .pwrSetPlevel h p => Sys2Proof.Machine.execPwrSetPlevel h p s
  | .timeSetAlarm h p => Sys2Proof.Machine.execTimeSetAlarm h p s
  | .evtRead h p => Sys2Proof.Machine.execEvtRead h p s
  | .evtSeal h p => Sys2Proof.Machine.execEvtSeal h p s
  | .fwBlock h p => Sys2Proof.Machine.execFwBlock h p s
  | .fwVerify h p => Sys2Proof.Machine.execFwVerify h p s
  | .fwActivate h p meas => Sys2Proof.Machine.execFwActivate h p meas s
  | .fwConfirm h p => Sys2Proof.Machine.execFwConfirm h p s
  | .fwRevert h p meas => Sys2Proof.Machine.execFwRevert h p meas s
  | .attestQuote h p => Sys2Proof.Machine.execAttestQuote h p s
  | .pairConfigure h p => Sys2Proof.Machine.execPairConfigure h p s
  | .pairUnpair h p => Sys2Proof.Machine.execPairUnpair h p s
  | .pairRejoin h p => Sys2Proof.Machine.execPairRejoin h p s
  | .nop t => Sys2Proof.Machine.execNop t s
  | .halt t => Sys2Proof.Machine.execHalt t s
  | .tileHalted t => Sys2Proof.Machine.execTileHalted t s
  | .brk t => Sys2Proof.Machine.execBrk t s
  | .fence t => Sys2Proof.Machine.execFence t s
  | .getc t => Sys2Proof.Machine.execGetc t s
  | .setc t => Sys2Proof.Machine.execSetc t s
  | .seed t => Sys2Proof.Machine.execSeed t s
  | .add t => Sys2Proof.Machine.execAdd t s
  | .sub t => Sys2Proof.Machine.execSub t s
  | .and t => Sys2Proof.Machine.execAnd t s
  | .or t => Sys2Proof.Machine.execOr t s
  | .xor t => Sys2Proof.Machine.execXor t s
  | .shl t => Sys2Proof.Machine.execShl t s
  | .shr t => Sys2Proof.Machine.execShr t s
  | .sra t => Sys2Proof.Machine.execSra t s
  | .mul t => Sys2Proof.Machine.execMul t s
  | .mulhu t => Sys2Proof.Machine.execMulhu t s
  | .slt t => Sys2Proof.Machine.execSlt t s
  | .sltu t => Sys2Proof.Machine.execSltu t s
  | .min t => Sys2Proof.Machine.execMin t s
  | .max t => Sys2Proof.Machine.execMax t s
  | .addi t => Sys2Proof.Machine.execAddi t s
  | .subi t => Sys2Proof.Machine.execSubi t s
  | .andi t => Sys2Proof.Machine.execAndi t s
  | .ori t => Sys2Proof.Machine.execOri t s
  | .xori t => Sys2Proof.Machine.execXori t s
  | .shli t => Sys2Proof.Machine.execShli t s
  | .shri t => Sys2Proof.Machine.execShri t s
  | .srai t => Sys2Proof.Machine.execSrai t s
  | .muli t => Sys2Proof.Machine.execMuli t s
  | .mulhui t => Sys2Proof.Machine.execMulhui t s
  | .slti t => Sys2Proof.Machine.execSlti t s
  | .sltui t => Sys2Proof.Machine.execSltui t s
  | .mini t => Sys2Proof.Machine.execMini t s
  | .maxi t => Sys2Proof.Machine.execMaxi t s
  | .li t => Sys2Proof.Machine.execLi t s
  | .aadd t => Sys2Proof.Machine.execAadd t s
  | .aaddi t => Sys2Proof.Machine.execAaddi t s
  | .alo t => Sys2Proof.Machine.execAlo t s
  | .ahi t => Sys2Proof.Machine.execAhi t s
  | .aget t => Sys2Proof.Machine.execAget t s
  | .amov t => Sys2Proof.Machine.execAmov t s
  | .lw t ups => Sys2Proof.Machine.execLw t ups s
  | .sw t => Sys2Proof.Machine.execSw t s
  | .la t => Sys2Proof.Machine.execLa t s
  | .sa t => Sys2Proof.Machine.execSa t s
  | .tileTrapped t => Sys2Proof.Machine.execTileTrapped t s
  | .illegalWord t => Sys2Proof.Machine.execIllegalWord t s
  | .beq t => Sys2Proof.Machine.execBeq t s
  | .bne t => Sys2Proof.Machine.execBne t s
  | .blt t => Sys2Proof.Machine.execBlt t s
  | .bge t => Sys2Proof.Machine.execBge t s
  | .bltu t => Sys2Proof.Machine.execBltu t s
  | .bgeu t => Sys2Proof.Machine.execBgeu t s
  | .jmp t => Sys2Proof.Machine.execJmp t s
  | .jal t => Sys2Proof.Machine.execJal t s
  | .jr t => Sys2Proof.Machine.execJr t s
  | .vaddf t => Sys2Proof.Machine.execVaddf t s
  | .vsubf t => Sys2Proof.Machine.execVsubf t s
  | .vmulf t => Sys2Proof.Machine.execVmulf t s
  | .vmaxf t => Sys2Proof.Machine.execVmaxf t s
  | .vminf t => Sys2Proof.Machine.execVminf t s
  | .vfma t => Sys2Proof.Machine.execVfma t s
  | .viadd t => Sys2Proof.Machine.execViadd t s
  | .visub t => Sys2Proof.Machine.execVisub t s
  | .vimul t => Sys2Proof.Machine.execVimul t s
  | .vand t => Sys2Proof.Machine.execVand t s
  | .vor t => Sys2Proof.Machine.execVor t s
  | .vxor t => Sys2Proof.Machine.execVxor t s
  | .vshl t => Sys2Proof.Machine.execVshl t s
  | .vshr t => Sys2Proof.Machine.execVshr t s
  | .vsra t => Sys2Proof.Machine.execVsra t s
  | .vrcp t => Sys2Proof.Machine.execVrcp t s
  | .vrsqrt t => Sys2Proof.Machine.execVrsqrt t s
  | .vexp2 t => Sys2Proof.Machine.execVexp2 t s
  | .vlog2 t => Sys2Proof.Machine.execVlog2 t s
  | .vcvtfi t => Sys2Proof.Machine.execVcvtfi t s
  | .vcvtif t => Sys2Proof.Machine.execVcvtif t s
  | .vbcast t => Sys2Proof.Machine.execVbcast t s
  | .vsumf t => Sys2Proof.Machine.execVsumf t s
  | .vmaxr t => Sys2Proof.Machine.execVmaxr t s
  | .vld t => Sys2Proof.Machine.execVld t s
  | .vst t => Sys2Proof.Machine.execVst t s
  | .vpack t => Sys2Proof.Machine.execVpack t s
  | .vunpk t => Sys2Proof.Machine.execVunpk t s
  | .mshape t => Sys2Proof.Machine.execMshape t s
  | .mma t => Sys2Proof.Machine.execMma t s
  | .accz t => Sys2Proof.Machine.execAccz t s
  | .accpack t => Sys2Proof.Machine.execAccpack t s
  | .accget t => Sys2Proof.Machine.execAccget t s
  | .accput t => Sys2Proof.Machine.execAccput t s
  | .mvshape t => Sys2Proof.Machine.execMvshape t s
  | .mov t => Sys2Proof.Machine.execMov t s
  | .sstart t => Sys2Proof.Machine.execSstart t s
  | .stake t => Sys2Proof.Machine.execStake t s
  | .stakeSatisfied t => Sys2Proof.Machine.execStakeSatisfied t s
  | .sfree t => Sys2Proof.Machine.execSfree t s
  | .syadd t => Sys2Proof.Machine.execSyadd t s
  | .syset t => Sys2Proof.Machine.execSyset t s
  | .syrd t => Sys2Proof.Machine.execSyrd t s
  | .sywait t => Sys2Proof.Machine.execSywait t s
  | .sywaitSatisfied t => Sys2Proof.Machine.execSywaitSatisfied t s
  | .cpost t => Sys2Proof.Machine.execCpost t s
  | .fput t => Sys2Proof.Machine.execFput t s
  | .fsig t => Sys2Proof.Machine.execFsig t s
  | .fabricEntryRelease t => Sys2Proof.Machine.execFabricEntryRelease t s
  | .tileCtrlSelftest h t => Sys2Proof.Machine.execTileCtrlSelftest h t s
  | .tileCtrlRetire h t => Sys2Proof.Machine.execTileCtrlRetire h t s
  | .tileCtrlRestore h t => Sys2Proof.Machine.execTileCtrlRestore h t s
  | .tileSelftestDone t fails => Sys2Proof.Machine.execTileSelftestDone t fails s
  | .tileFault t src => Sys2Proof.Machine.execTileFault t src s
  | .spareTileSelftest t => Sys2Proof.Machine.execSpareTileSelftest t s
  | .meshStall t => Sys2Proof.Machine.execMeshStall t s
  | .tileSrngWrite h t v => Sys2Proof.Machine.execTileSrngWrite h t v s
  | .wsePassBegin d => Sys2Proof.Machine.execWsePassBegin d s
  | .chunkWriteStart d => Sys2Proof.Machine.execChunkWriteStart d s
  | .chunkFull d l => Sys2Proof.Machine.execChunkFull d l s
  | .wsePassEnd d => Sys2Proof.Machine.execWsePassEnd d s
  | .wsePassCancel d => Sys2Proof.Machine.execWsePassCancel d s
  | .syncValueWrite h idx v => Sys2Proof.Machine.execSyncValueWrite h idx v s
  | .syncAddWrite h idx v => Sys2Proof.Machine.execSyncAddWrite h idx v s
  | .remoteOperationRx => Sys2Proof.Machine.execRemoteOperationRx s
  | .syncTwinRestart failed l => Sys2Proof.Machine.execSyncTwinRestart failed l s
  | .laneFrameTx idx => Sys2Proof.Machine.execLaneFrameTx idx s
  | .laneFrameRx idx line => Sys2Proof.Machine.execLaneFrameRx idx line s
  | .markerLockLost idx => Sys2Proof.Machine.execMarkerLockLost idx s
  | .los idx => Sys2Proof.Machine.execLos idx s
  | .fecUncorrLimit idx => Sys2Proof.Machine.execFecUncorrLimit idx s
  | .fecDegraded idx => Sys2Proof.Machine.execFecDegraded idx s
  | .nakTimer n d => Sys2Proof.Machine.execNakTimer n d s
  | .replayTimeout n d => Sys2Proof.Machine.execReplayTimeout n d s
  | .laneFault idx reason => Sys2Proof.Machine.execLaneFault idx reason s
  | .laneReadmit rx idx => Sys2Proof.Machine.execLaneReadmit rx idx s
  | .lanesetDead n d => Sys2Proof.Machine.execLanesetDead n d s
  | .discoveryRound => Sys2Proof.Machine.execDiscoveryRound s
  | .discoveryEnd => Sys2Proof.Machine.execDiscoveryEnd s
  | .phaseTrigger n => Sys2Proof.Machine.execPhaseTrigger n s
  | .lanesetClosed n d => Sys2Proof.Machine.execLanesetClosed n d s
  | .laneRelease n d => Sys2Proof.Machine.execLaneRelease n d s
  | .retuneDone idx => Sys2Proof.Machine.execRetuneDone idx s
  | .phaseGapOverrun rx idx => Sys2Proof.Machine.execPhaseGapOverrun rx idx s
  | .darkWindowOpen => Sys2Proof.Machine.execDarkWindowOpen s
  | .darkWindowClose => Sys2Proof.Machine.execDarkWindowClose s
  | .collInstanceStart c => Sys2Proof.Machine.execCollInstanceStart c s
  | .collUnitRx => Sys2Proof.Machine.execCollUnitRx s
  | .collInstanceComplete c => Sys2Proof.Machine.execCollInstanceComplete c s
  | .collInstanceEnd c => Sys2Proof.Machine.execCollInstanceEnd c s
  | .collTimeout c => Sys2Proof.Machine.execCollTimeout c s
  | .osumBurstStart g => Sys2Proof.Machine.execOsumBurstStart g s
  | .osumBurstEnd g fs => Sys2Proof.Machine.execOsumBurstEnd g fs s
  | .collSegRestart c rank seg => Sys2Proof.Machine.execCollSegRestart c rank seg s
  | .refereeRead c b cal reads => Sys2Proof.Machine.execRefereeRead c b cal reads s
  | .laserAcquire c n ok => Sys2Proof.Machine.execLaserAcquire c n ok s
  | .spareLaserCheck c n ok => Sys2Proof.Machine.execSpareLaserCheck c n ok s
  | .swapThreshold c n launch => Sys2Proof.Machine.execSwapThreshold c n launch s
  | .plannedSwap c n => Sys2Proof.Machine.execPlannedSwap c n s
  | .forcedSwap c n => Sys2Proof.Machine.execForcedSwap c n s
  | .ringScan c r ok => Sys2Proof.Machine.execRingScan c r ok s
  | .fabLightSwap h c idx => Sys2Proof.Machine.execFabLightSwap h c idx s
  | .fabLightRestore h c idx ring => Sys2Proof.Machine.execFabLightRestore h c idx ring s
  | .eyeTrip c f cause => Sys2Proof.Machine.execEyeTrip c f cause s
  | .eyeRestoreStart c f => Sys2Proof.Machine.execEyeRestoreStart c f s
  | .fabEyeCtrlRestore h c mask => Sys2Proof.Machine.execFabEyeCtrlRestore h c mask s
  | .eyeRestoreDone c f => Sys2Proof.Machine.execEyeRestoreDone c f s
  | .marTick e reads parity => Sys2Proof.Machine.execMarTick e reads parity s
  | .marRearm h e idx => Sys2Proof.Machine.execMarRearm h e idx s
  | .marCommit h e idx mask => Sys2Proof.Machine.execMarCommit h e idx mask s
  | .marLutCommit h e idx => Sys2Proof.Machine.execMarLutCommit h e idx s
  | .marXtCommit h e f => Sys2Proof.Machine.execMarXtCommit h e f s
  | .timeTick => Sys2Proof.Machine.execTimeTick s
  | .timeNowSRead h => Sys2Proof.Machine.execTimeNowSRead h s
  | .ptpSyncRx port clock dom seq two origin => Sys2Proof.Machine.execPtpSyncRx port clock dom seq two origin s
  | .ptpFollowUpRx port clock dom seq origin => Sys2Proof.Machine.execPtpFollowUpRx port clock dom seq origin s
  | .ptpDelayRespRx port clock dom seq rx pred => Sys2Proof.Machine.execPtpDelayRespRx port clock dom seq rx pred s
  | .ptpAnnounceRx port clock dom key => Sys2Proof.Machine.execPtpAnnounceRx port clock dom key s
  | .delayReq m => Sys2Proof.Machine.execDelayReq m s
  | .timeLost m cause => Sys2Proof.Machine.execTimeLost m cause s
  | .timeListenReturn m => Sys2Proof.Machine.execTimeListenReturn m s
  | .timeHoldoffExpiry => Sys2Proof.Machine.execTimeHoldoffExpiry s
  | .holdoverExpiry => Sys2Proof.Machine.execHoldoverExpiry s
  | .timeSet h => Sys2Proof.Machine.execTimeSet h s
  | .alarmFire idx => Sys2Proof.Machine.execAlarmFire idx s
  | .powerApply => Sys2Proof.Machine.execPowerApply s
  | .inputLost n torn => Sys2Proof.Machine.execInputLost n torn s
  | .vinOutOfRange mv fault => Sys2Proof.Machine.execVinOutOfRange mv fault s
  | .vbusLow mv => Sys2Proof.Machine.execVbusLow mv s
  | .plevelChange late => Sys2Proof.Machine.execPlevelChange late s
  | .powerCapWindow mean => Sys2Proof.Machine.execPowerCapWindow mean s
  | .thermalTrip zone => Sys2Proof.Machine.execThermalTrip zone s
  | .memHot => Sys2Proof.Machine.execMemHot s
  | .wakePin => Sys2Proof.Machine.execWakePin s
  | .wakeReplay => Sys2Proof.Machine.execWakeReplay s
  | .pwrPadRelease h => Sys2Proof.Machine.execPwrPadRelease h s
  | .resetAssert mask => Sys2Proof.Machine.execResetAssert mask s
  | .resetL0 idx unit => Sys2Proof.Machine.execResetL0 idx unit s
  | .aonClk => Sys2Proof.Machine.execAonClk s
  | .resetSourceRelease idx => Sys2Proof.Machine.execResetSourceRelease idx s
  | .resetStage4 straps => Sys2Proof.Machine.execResetStage4 straps s
  | .resetStage3 trains bist badField badFactory => Sys2Proof.Machine.execResetStage3 trains bist badField badFactory s
  | .resetStage2 => Sys2Proof.Machine.execResetStage2 s
  | .rstHold => Sys2Proof.Machine.execRstHold s
  | .rstCtrlCold h => Sys2Proof.Machine.execRstCtrlCold h s
  | .rstCtrlWarm h => Sys2Proof.Machine.execRstCtrlWarm h s
  | .mr4Poll n answered hot => Sys2Proof.Machine.execMr4Poll n answered hot s
  | .wck2dqCheck n c drifted => Sys2Proof.Machine.execWck2dqCheck n c drifted s
  | .lpddrScrub g ups => Sys2Proof.Machine.execLpddrScrub g ups s
  | .memRetireAddr h dpa => Sys2Proof.Machine.execMemRetireAddr h dpa s
  | .memStripOffline h n => Sys2Proof.Machine.execMemStripOffline h n s
  | .memStripRestore h n r => Sys2Proof.Machine.execMemStripRestore h n r s
  | .memAsRepairRow h t bank row => Sys2Proof.Machine.execMemAsRepairRow h t bank row s
  | .memAsRepairColumn h t bank col => Sys2Proof.Machine.execMemAsRepairColumn h t bank col s
  | .asColumnRepair t => Sys2Proof.Machine.execAsColumnRepair t s
  | .sliceScrub t bank row ups => Sys2Proof.Machine.execSliceScrub t bank row ups s
  | .wispPeriod => Sys2Proof.Machine.execWispPeriod s
  | .wispRx eth => Sys2Proof.Machine.execWispRx eth s
  | .claimMsgRx eth => Sys2Proof.Machine.execClaimMsgRx eth s
  | .takeoverRepeat => Sys2Proof.Machine.execTakeoverRepeat s
  | .announceTimer => Sys2Proof.Machine.execAnnounceTimer s
  | .tableReady => Sys2Proof.Machine.execTableReady s
  | .redCtrlTakeover h => Sys2Proof.Machine.execRedCtrlTakeover h s
  | .redCtrlMirrorNow h => Sys2Proof.Machine.execRedCtrlMirrorNow h s
  | .redAccEntryWrite h v => Sys2Proof.Machine.execRedAccEntryWrite h v s
  | .mirrorPassStart => Sys2Proof.Machine.execMirrorPassStart s
  | .mirrorCommit => Sys2Proof.Machine.execMirrorCommit s
  | .mirrorCommitRx => Sys2Proof.Machine.execMirrorCommitRx s
  | .mirrorUnitRx => Sys2Proof.Machine.execMirrorUnitRx s
  | .supSwitchover pass => Sys2Proof.Machine.execSupSwitchover pass s
  | .supSwitchback => Sys2Proof.Machine.execSupSwitchback s
  | .standbySelftest pass => Sys2Proof.Machine.execStandbySelftest pass s
  | .probationRuntime => Sys2Proof.Machine.execProbationRuntime s
  | .probationExpiry => Sys2Proof.Machine.execProbationExpiry s
  | .supSave h => Sys2Proof.Machine.execSupSave h s
  | .smbusStatus => Sys2Proof.Machine.execSmbusStatus s
  | .smbusWake => Sys2Proof.Machine.execSmbusWake s
  | .smbusWarmReset data => Sys2Proof.Machine.execSmbusWarmReset data s
  | .smbusColdReset data => Sys2Proof.Machine.execSmbusColdReset data s
  | .ownerInstall data => Sys2Proof.Machine.execOwnerInstall data s
  | .ownerInstallChecked => Sys2Proof.Machine.execOwnerInstallChecked s
  | .ownerClear => Sys2Proof.Machine.execOwnerClear s
  | .recoveryReq => Sys2Proof.Machine.execRecoveryReq s
  | .eventSubmit code source payload => Sys2Proof.Machine.execEventSubmit code source payload s
  | .recordWrite => Sys2Proof.Machine.execRecordWrite s
  | .coalesceWindowEnd => Sys2Proof.Machine.execCoalesceWindowEnd s
  | .flashCopy bad => Sys2Proof.Machine.execFlashCopy bad s
  | .evtHealth => Sys2Proof.Machine.execEvtHealth s
  | .queueEntryCompletion t u k ups => Sys2Proof.Machine.execQueueEntryCompletion t u k ups s
  | .markerLockGained idx => Sys2Proof.Machine.execMarkerLockGained idx s
  | .chunkStaged d n => Sys2Proof.Machine.execChunkStaged d n s
  | .vbusRecovered mv => Sys2Proof.Machine.execVbusRecovered mv s
  | .vinInRange mv => Sys2Proof.Machine.execVinInRange mv s
  | .inletHot hot => Sys2Proof.Machine.execInletHot hot s
  | .commandHoldExpiry => Sys2Proof.Machine.execCommandHoldExpiry s

end Sys2Proof.Machine
end

