-- ==== Sys2Proof/Safety.lean ====
section
/-!
DEFINITION. What counts as a safe run, in the terms that the statements use: an outcome that
goes on, and the conditions on a state under which a tile issues an instruction, an entry of a
queue may run, and a command of the host is executed as it arrives.
-/

namespace Sys2Proof.Machine

/-- A command of the host during which no fault strikes a tile. -/
abbrev hostCmd (opcode : Nat) (payload : List Byte) (meas : List Int) : HostCmd := ⟨opcode, payload, meas, []⟩

/-- An outcome that goes on. -/
def Goes (o : Host.Outcome State Fault Refusal) : Prop := ∃ s, o = .next s

/-- The scalar core of physical tile `t` fetches the word `w` now (R113, R115): the tile is
RUNNING, waits for nothing, holds no exception, its clock is not stopped, and the word at its
program counter lies in the code region and holds no error. -/
def Fetches (s : State) (t : Nat) (w : W64) : Prop :=
  t < s.tiles.length ∧ (tileAt s t).code = .running ∧ (tileAt s t).wait = .none ∧
  (tileAt s t).trap = none ∧ s.pwr.tripped = false ∧
  (tileAt s t).pc % 8 = 0 ∧ (tileAt s t).pc + 8 ≤ (tileAt s t).codeLen ∧
  (tileAt s t).codeLen ≤ scratchSize ∧
  (∀ k ∈ wordRange (scratchBase t + (tileAt s t).pc) 8, Cells.get .clean s.mem.words k = .clean) ∧
  codeWord s t (tileAt s t).pc = w

/-- The scalar core of physical tile `t` issues instruction `i` now: the word is a valid
instruction (R112) and no pending entry holds a register of it (R116). -/
def Issues (s : State) (t : Nat) (i : Insn) : Prop :=
  ∃ w, Fetches s t w ∧ insnOf w = i ∧ insnOk i = true ∧ registersFree (tileAt s t) i = true

/-- The next instruction of a tile lies in its code region too. -/
def NextInCode (s : State) (t : Nat) : Prop := (tileAt s t).pc + 8 < (tileAt s t).codeLen

/-- Physical tile `t` holds `x`, and its program counter stands at the next instruction. -/
def advanced (t : Nat) (x : Tile) (s : State) : State := setTile t { x with pc := x.pc + 8 } s

/-- Physical tile `t` stands at the word at `a`. -/
def jumped (t : Nat) (x : Tile) (a : Nat) (s : State) : State := setTile t { x with pc := a } s

/-- R138 to R140: in state `s'` physical tile `t` has taken exception `tr`: it issues nothing
more, its unstarted entries are gone, the rest of it and every other tile, memory and the sync
objects stand, and the job, if it runs and was not ending, is to end with TRAP. -/
def TakesException (s s' : State) (t : Nat) (tr : Trap) : Prop :=
  tileAt s' t = dropUnstarted { tileAt s t with code := .running, wait := .stop, trap := some tr } ∧
  (∀ u, u ≠ t → tileAt s' u = tileAt s u) ∧ s'.mem = s.mem ∧ s'.sync = s.sync ∧
  (jobRunning s = true → s.job.ending = none →
    s'.job = { s.job with ending := some ⟨2, t, (tileAt s t).logical.getD 0, tr.cause⟩, endTick := s.time.ticks })

/-- R140 step 1, R154: a tile that has been stopped: nothing more is issued, unstarted entries are
gone, and with nothing left to complete it is HALTED; the values that its windows then show (R158)
are not said. -/
def stopped (x : Tile) : Tile :=
  if x.code = .running ∧ x.trap = none then
    let y := dropUnstarted { x with wait := .stop }
    if queuesEmpty y then { y with code := .halted, haltPc := y.pc, wait := .none } else y
  else x

/-- Tile `u` has been stopped between two states. -/
def StopsTile (s s' : State) (u : Nat) : Prop :=
  tileAt s' u = { stopped (tileAt s u) with lastC := (tileAt s' u).lastC }

/-! ### Entries of a tile's queues -/

/-- Entry `k` of a queue of physical tile `t` is `e`, and has started (R115, R116). -/
def EntryRuns (s : State) (t : Nat) (u : TileUnit) (k : Nat) (e : QEntry) : Prop :=
  t < s.tiles.length ∧ (tileAt s t).code = .running ∧ s.pwr.tripped = false ∧
  (queueGet (tileAt s t) u)[k]? = some e ∧ k < startedCount (tileAt s t) u

/-- The tile `x` with entry `k` gone from a queue. -/
def withoutEntry (u : TileUnit) (k : Nat) (x : Tile) : Tile := queuePut x u ((queueGet x u).eraseIdx k)

/-- R115, R141: the completion of entry `k` leaves tile `x` with the flags `fl` set besides, in the
state that the upsets have struck; where a flag that c0 enables is among them, ARITH is raised
after the results have been written, and names the flags. -/
def EntryLeaves (s : State) (t : Nat) (u : TileUnit) (unit k : Nat) (ups : List Upset) (e : QEntry) (x : Tile)
    (fl : Flags) : Prop :=
  (fl &&& (tileAt s t).trapEn = 0#6 → exec (.queueEntryCompletion t u k ups) s = .next (setTile t
    (withoutEntry u k { x with flags := x.flags ||| fl }) (strike ups s))) ∧
  (fl &&& (tileAt s t).trapEn ≠ 0#6 → (tileAt s t).trap = none → e.pc < 2 ^ 19 →
    ∃ s', exec (.queueEntryCompletion t u k ups) s = .next s' ∧
      tileAt s' t = withoutEntry u k (dropUnstarted { x with
        flags := x.flags ||| fl, wait := .stop, trap := some ⟨7, unit, e.pc, 0, fl.toNat⟩ }) ∧
      ∀ v, v ≠ t → tileAt s' v = tileAt s v)

/-! ### Commands of the host -/

/-- Command `c` of header `h` reaches the module and is the next in the order of the open session,
and no command that has started or is held keeps it back (R433 to R446, R459). -/
def InTurn (s : State) (h : Header) (c : HostCmd) : Prop :=
  h.port < 8 ∧ portUp s h.port = true ∧ hostServes s = true ∧
  s.host.open_ = true ∧ h.session = s.host.session ∧ h.session ≠ 0 ∧ h.seq = s.host.next ∧
  s.host.switching = false ∧
  (∀ d ∈ s.host.held, d.hdr.seq ≠ h.seq) ∧ (∀ d ∈ s.host.done, d.hdr.seq ≠ h.seq) ∧
  (∀ d ∈ s.host.started, d.hdr.seq ≠ h.seq ∧ d.serial = false) ∧
  (c.opcode = 0x0404 → s.host.started = [])

/-- The command passes every check of R446, R450 to R452, R458, R505 and R585 besides, and is
executed as it arrives. -/
def Admitted (s : State) (h : Header) (c : HostCmd) : Prop :=
  InTurn s h c ∧ s.rst.level = 0 ∧ s.fw.running = true ∧ s.fw.recovery = false ∧ notRunning s c.opcode = false ∧
  ∃ i, cmdInfo c.opcode = some i ∧ (i.required = true → staleClaim h c.opcode s = false) ∧
    i.sized c.payload.length = true ∧ (i.background = true → s.host.started.length < 4)

/-- The command in the state that its arrival leaves: counted, and in progress (R443, R446). -/
def begun (h : Header) (c : HostCmd) (s : State) : State :=
  countRun c.opcode (updHost (fun x =>
    { x with
      next := (x.next + 1) % 2 ^ 32
      started := x.started ++ [⟨h, c, [], !((cmdInfo c.opcode).map (·.background)).getD false⟩] })
    (touchSession h (bump s rHostPortCount 0 [h.port, 0])))

/-- R437, R446, R448: the command has completed with a status and a payload: one reply has left
for its source, with the claim that now stands, and it is the newest of the completions kept. -/
def Answers (s s' : State) (h : Header) (c : HostCmd) (st : Nat) (p : List Byte) : Prop :=
  s'.host.out = s.host.out ++ [⟨h.port, h.src, c.opcode, h.session, h.seq, st, s'.red.claim, p⟩] ∧
  s'.host.started = s.host.started ∧ s'.host.held = s.host.held ∧ s'.host.next = (h.seq + 1) % 2 ^ 32 ∧
  s'.host.done.head? = some ⟨h, c, st, p⟩

/-- A background command runs on (R446): no reply has left. -/
def RunsOn (s s' : State) (h : Header) (c : HostCmd) : Prop :=
  s'.host.started = s.host.started ++ [⟨h, c, [], false⟩] ∧ s'.host.held = s.host.held ∧
  s'.host.next = (h.seq + 1) % 2 ^ 32 ∧ s'.host.done = s.host.done

/-- The registers of the host interface, its counters among them. -/
def hostReg (a : Nat) : Bool := decide (a / 0x10000 = 7)

/-- Every stored register but those of the host interface stands. -/
def RegsStand (s s' : State) : Prop :=
  ∀ a d, hostReg a = false → Cells.get d s'.regs a = Cells.get d s.regs a

/-- A command is answered as it arrives, and the state that it leaves is `t` but for the host
interface and its registers. -/
def Completes (o : Host.Outcome State Fault Refusal) (s t : State) (h : Header) (c : HostCmd) (st : Nat)
    (p : List Byte) : Prop :=
  ∃ s', o = .next s' ∧ Answers s s' h c st p ∧ s' = { t with host := s'.host, regs := s'.regs } ∧ RegsStand t s'

/-! ### Memory as a tile reaches it -/

/-- No word of an SRAM range holds an error. -/
def CleanWords (s : State) (key n : Nat) : Prop :=
  ∀ k ∈ wordRange key n, Cells.get .clean s.mem.words k = .clean

/-- No granule of an LPDDR5X range holds an error, and none of its rows is out of use. -/
def CleanGrans (s : State) (dpa n : Nat) : Prop :=
  ∀ g ∈ granRange dpa n, granBlocked s g = false ∧ Cells.get .clean s.mem.gran g = .clean

/-- Tile `t` may read `n` bytes at tile-local address `a` and meets no error: the range lies in
its own scratch or slice, in those of a tile that answers (R88), or in LPDDR5X of strips that are
not TRAINING. -/
def Readable (s : State) (t a n : Nat) : Prop :=
  (∃ u o, placeOf s t a n = .scratch u o ∧ (u = t ∨ serving (tileAt s u) = true) ∧
    CleanWords s (scratchBase u + o) n) ∨
  (∃ u o, placeOf s t a n = .slice u o ∧ (u = t ∨ serving (tileAt s u) = true) ∧
    CleanWords s (sliceBase u + o) n) ∨
  (∃ d, placeOf s t a n = .ddr d ∧ ddrHeld d n s = false ∧ CleanGrans s d n)

/-- Tile `t` may write `n` bytes at tile-local address `a`, and they land: the range holds no
code of a running job (R114), and no error. -/
def Writable (s : State) (t a n : Nat) : Prop :=
  (∃ u o, placeOf s t a n = .scratch u o ∧ hitsCode s u o = false ∧ (u = t ∨ serving (tileAt s u) = true) ∧
    CleanWords s (scratchBase u + o) n) ∨
  (∃ u o, placeOf s t a n = .slice u o ∧ (u = t ∨ serving (tileAt s u) = true) ∧
    CleanWords s (sliceBase u + o) n) ∨
  (∃ d, placeOf s t a n = .ddr d ∧ ddrHeld d n s = false ∧ CleanGrans s d n)

/-- The state with bytes written at a key of memory, and nothing else changed. -/
def storedAt (k : Nat) (bs : List Byte) (s : State) : State :=
  { s with mem := { s.mem with cells := memWrite s.mem.cells k bs } }

/-- The bytes that a tile-local address of tile `t` holds. -/
def bytesAt (s : State) (t a n : Nat) : List Byte := memRead s.mem.cells ((keyOf s t a n).getD 0) n

end Sys2Proof.Machine
end

