-- ==== Sys2Proof/Certificates/Slice0/Obligations.lean ====
section
/-!
DEFINITION. The statements about the module, each a proposition that a prover is to prove. The
tables before them list the rows of the opcode table that one statement covers, with the
operation that the spec gives each.
-/

open Sys2Proof Sys2Proof.Machine

/-! ### The block -/

/-- The design of the block: a step runs the command at the front of the queue on the state with
the queue's rest, and idles on an empty queue (log entry 1). -/
def Obligations.StepRunsTheFrontCommand : Prop :=
  (∀ (c : Instr) (rest : List Instr) (s : State), s.pending = c :: rest →
    step s = exec c { s with pending := rest }) ∧
  ∀ s : State, s.pending = [] → step s = .next s

/-! ### The scalar core (chapter 4) -/

namespace Sys2Proof.Machine

/-- R121: opcode, register form, immediate form, operation on the two operands. -/
def aluTable : List (Nat × (Nat → Instr) × (Nat → Instr) × (W32 → W32 → W32)) :=
  [(0x10, .add, .addi, fun a b => BitVec.ofNat 32 (a.toNat + b.toNat)),
   (0x11, .sub, .subi, fun a b => BitVec.ofInt 32 ((a.toNat : Int) - b.toNat)),
   (0x12, .and, .andi, fun a b => BitVec.ofNat 32 (a.toNat &&& b.toNat)),
   (0x13, .or, .ori, fun a b => BitVec.ofNat 32 (a.toNat ||| b.toNat)),
   (0x14, .xor, .xori, fun a b => BitVec.ofNat 32 (a.toNat ^^^ b.toNat)),
   (0x15, .shl, .shli, fun a b => BitVec.ofNat 32 (a.toNat * 2 ^ (b.toNat % 32))),
   (0x16, .shr, .shri, fun a b => BitVec.ofNat 32 (a.toNat / 2 ^ (b.toNat % 32))),
   (0x17, .sra, .srai, fun a b => BitVec.ofInt 32 (a.toInt / 2 ^ (b.toNat % 32))),
   (0x18, .mul, .muli, fun a b => BitVec.ofNat 32 (a.toNat * b.toNat % 2 ^ 32)),
   (0x19, .mulhu, .mulhui, fun a b => BitVec.ofNat 32 (a.toNat * b.toNat / 2 ^ 32)),
   (0x1A, .slt, .slti, fun a b => if a.toInt < b.toInt then 1#32 else 0#32),
   (0x1B, .sltu, .sltui, fun a b => if a.toNat < b.toNat then 1#32 else 0#32),
   (0x1C, .min, .mini, fun a b => BitVec.ofInt 32 (min a.toInt b.toInt)),
   (0x1D, .max, .maxi, fun a b => BitVec.ofInt 32 (max a.toInt b.toInt))]

/-- Branches: opcode, command, condition on the two registers (R121, R124). -/
def branchTable : List (Nat × (Nat → Instr) × (W32 → W32 → Prop)) :=
  [(0x40, .beq, fun a b => a.toNat = b.toNat), (0x41, .bne, fun a b => a.toNat ≠ b.toNat),
   (0x42, .blt, fun a b => a.toInt < b.toInt), (0x43, .bge, fun a b => b.toInt ≤ a.toInt),
   (0x44, .bltu, fun a b => a.toNat < b.toNat), (0x45, .bgeu, fun a b => b.toNat ≤ a.toNat)]

/-- R124: where an offset leads from the address of the branch itself. -/
def branchTarget (x : Tile) (i : Insn) : Int := (x.pc : Int) + 8 * (BitVec.ofNat 32 i.imm).toInt

/-- R120: the low 32 and the high 16 bits of an address register, as a number. -/
def joinAddr (high low : Nat) : W48 := BitVec.ofNat 48 (high % 2 ^ 16 * 2 ^ 32 + low % 2 ^ 32)

end Sys2Proof.Machine

/-- R121: each scalar operation writes d, or discards it for s0, and moves to the next word;
everything else stands. -/
def Obligations.ScalarArithmetic : Prop :=
  ∀ r ∈ aluTable, ∀ (s : State) (t : Nat) (i : Insn), Issues s t i → NextInCode s t →
    (i.op = r.1 → exec (r.2.1 t) s = .next (advanced t
      (sSet (tileAt s t) i.d (r.2.2.2 (sGet (tileAt s t) i.a) (sGet (tileAt s t) i.b))) s)) ∧
    (i.op = r.1 + 0x10 → exec (r.2.2.1 t) s = .next (advanced t
      (sSet (tileAt s t) i.d (r.2.2.2 (sGet (tileAt s t) i.a) (BitVec.ofNat 32 i.imm))) s))

/-- R59, R119, R120: the instructions that move values between registers; GETC reads each control
register, where c1 is a free value (log entry 5), and drawing it is counted. -/
def Obligations.RegisterMoves : Prop :=
  (∀ (s : State) (t : Nat) (i : Insn), Issues s t i → NextInCode s t →
    (i.op = 0x01 → exec (.nop t) s = .next (advanced t (tileAt s t) s)) ∧
    (i.op = 0x2E → exec (.li t) s = .next (advanced t (sSet (tileAt s t) i.d (BitVec.ofNat 32 i.imm)) s)) ∧
    (i.op = 0x30 → exec (.aadd t) s = .next (advanced t (aSet (tileAt s t) i.d
      (BitVec.ofInt 48 ((aGet (tileAt s t) i.a).toInt + (sGet (tileAt s t) i.b).toInt))) s)) ∧
    (i.op = 0x31 → exec (.aaddi t) s = .next (advanced t (aSet (tileAt s t) i.d
      (BitVec.ofInt 48 ((aGet (tileAt s t) i.a).toInt + (BitVec.ofNat 32 i.imm).toInt))) s)) ∧
    (i.op = 0x32 → exec (.alo t) s = .next (advanced t (aSet (tileAt s t) i.d
      (joinAddr ((aGet (tileAt s t) i.d).toNat / 2 ^ 32) i.imm)) s)) ∧
    (i.op = 0x33 → exec (.ahi t) s = .next (advanced t (aSet (tileAt s t) i.d
      (joinAddr i.imm (aGet (tileAt s t) i.d).toNat)) s)) ∧
    (i.op = 0x34 → exec (.aget t) s = .next (advanced t (sSet (tileAt s t) i.d (BitVec.ofNat 32
      (if i.x = 0 then (aGet (tileAt s t) i.a).toNat % 2 ^ 32 else (aGet (tileAt s t) i.a).toNat / 2 ^ 32))) s)) ∧
    (i.op = 0x35 → exec (.amov t) s = .next (advanced t (aSet (tileAt s t) i.d (aGet (tileAt s t) i.a)) s)) ∧
    (i.op = 0x06 → i.d = 0 → exec (.setc t) s = .next (advanced t
      { tileAt s t with trapEn := BitVec.ofNat 6 (sGet (tileAt s t) i.a).toNat } s)) ∧
    (i.op = 0x06 → i.d = 5 → exec (.setc t) s = .next (advanced t
      { tileAt s t with flags := (tileAt s t).flags &&& ~~~(BitVec.ofNat 6 (sGet (tileAt s t) i.a).toNat) } s)) ∧
    (i.op = 0x07 → (∀ e ∈ allEntries (tileAt s t), stochastic (insnOf e.word) = false) →
      exec (.seed t) s = .next (advanced t { tileAt s t with
        srng := if (sGet (tileAt s t) i.a).toNat % 2 ^ 16 = 0 then 0xACE1#16
          else BitVec.ofNat 16 (sGet (tileAt s t) i.a).toNat } s))) ∧
  ∀ (s : State) (t : Nat) (i : Insn), Issues s t i → NextInCode s t → i.op = 0x05 →
    ∃ v : W32, exec (.getc t) s =
        .next (advanced t (sSet (tileAt s t) i.d v) { s with fresh := s.fresh + 1 }) ∧
      (i.a = 0 → v.toNat = (tileAt s t).trapEn.toNat) ∧
      (i.a = 2 → ∀ l < 144, (tileAt s t).logical = some l → v.toNat = l) ∧
      (i.a = 3 → v.toNat = ((List.range 144).filter (fun l => (physOf s l).isSome)).length) ∧
      (i.a = 4 → v.toNat = (s.time.sec * 1000000000 + s.time.ns) % 2 ^ 32) ∧
      (i.a = 5 → v.toNat = (tileAt s t).flags.toNat) ∧
      (i.a = 6 → v.toNat = regGet s rFabModid 0 [] % 2 ^ 16) ∧
      (i.a = 7 → v = (tileAt s t).arg)

/-- R124: offsets count instructions from the branch itself; a JR that leaves the code region or
is not a multiple of 8 raises FETCH at the target, with the address of JR in TILE_TRAP_PC. -/
def Obligations.BranchesAndJumps : Prop :=
  (∀ r ∈ branchTable, ∀ (s : State) (t : Nat) (i : Insn), Issues s t i → i.op = r.1 →
    (r.2.2 (sGet (tileAt s t) i.a) (sGet (tileAt s t) i.b) → 0 ≤ branchTarget (tileAt s t) i →
      branchTarget (tileAt s t) i < (tileAt s t).codeLen →
      exec (r.2.1 t) s = .next (jumped t (tileAt s t) (branchTarget (tileAt s t) i).toNat s)) ∧
    (¬ r.2.2 (sGet (tileAt s t) i.a) (sGet (tileAt s t) i.b) → NextInCode s t →
      exec (r.2.1 t) s = .next (advanced t (tileAt s t) s))) ∧
  ∀ (s : State) (t : Nat) (i : Insn), Issues s t i →
    (0 ≤ branchTarget (tileAt s t) i → branchTarget (tileAt s t) i < (tileAt s t).codeLen →
      (i.op = 0x46 → exec (.jmp t) s = .next (jumped t (tileAt s t) (branchTarget (tileAt s t) i).toNat s)) ∧
      (i.op = 0x47 → exec (.jal t) s = .next (jumped t
        (sSet (tileAt s t) i.d (BitVec.ofNat 32 ((tileAt s t).pc + 8))) (branchTarget (tileAt s t) i).toNat s))) ∧
    (i.op = 0x48 → ((sGet (tileAt s t) i.a).toNat % 8 = 0 ∧ (sGet (tileAt s t) i.a).toNat < (tileAt s t).codeLen →
        exec (.jr t) s = .next (jumped t (tileAt s t) (sGet (tileAt s t) i.a).toNat s)) ∧
      (¬ ((sGet (tileAt s t) i.a).toNat % 8 = 0 ∧ (sGet (tileAt s t) i.a).toNat < (tileAt s t).codeLen) →
        ∃ s', exec (.jr t) s = .next s' ∧
          TakesException s s' t ⟨2, 0, (tileAt s t).pc, (sGet (tileAt s t) i.a).toNat, 0⟩))

/-- R5, R82, R122, R123: the scalar loads and stores: the address, the value, POST, alignment and
an unmapped address; a store changes its own bytes and no other. LW meets the upsets of its
operand (log entry 6). -/
def Obligations.ScalarLoadsAndStores : Prop :=
  ∀ (s s1 : State) (t : Nat) (i : Insn) (ups : List Upset) (a : Nat),
    s1 = strike ups s → Issues s t i → Issues s1 t i → NextInCode s t →
    a = (effAddr (tileAt s t) i).toNat →
    (i.op = 0x38 → a % 4 = 0 → Readable s1 t a 4 → exec (.lw t ups) s = .next (advanced t
      (sSet (postUpdate i (tileAt s t)) i.d (BitVec.ofNat 32 (leVal (bytesAt s1 t a 4)))) s1)) ∧
    (i.op = 0x38 → a % 4 ≠ 0 → ∃ s', exec (.lw t ups) s = .next s' ∧
      TakesException s1 s' t ⟨3, 0, (tileAt s t).pc, a, 0⟩) ∧
    (i.op = 0x3A → a % 8 = 0 → Readable s t a 8 → exec (.la t) s = .next (advanced t
      (aSet (postUpdate i (tileAt s t)) i.d (BitVec.ofNat 48 (leVal (bytesAt s t a 8)))) s)) ∧
    (i.op = 0x39 → a % 4 = 0 → Writable s t a 4 → ∃ s', exec (.sw t) s = .next s' ∧
      s' = advanced t (postUpdate i (tileAt s t)) { s with mem := s'.mem } ∧
      ∀ x, (memByte s'.mem.cells x).toNat =
        if (keyOf s t a 4).getD 0 ≤ x ∧ x < (keyOf s t a 4).getD 0 + 4 then
          (sGet (tileAt s t) i.b).toNat / 256 ^ (x - (keyOf s t a 4).getD 0) % 256
        else (memByte s.mem.cells x).toNat) ∧
    (i.op = 0x3B → a % 8 = 0 → Writable s t a 8 → ∃ s', exec (.sa t) s = .next s' ∧
      s' = advanced t (postUpdate i (tileAt s t)) { s with mem := s'.mem } ∧
      ∀ x, (memByte s'.mem.cells x).toNat =
        if (keyOf s t a 8).getD 0 ≤ x ∧ x < (keyOf s t a 8).getD 0 + 8 then
          (aGet (tileAt s t) i.b).toNat / 256 ^ (x - (keyOf s t a 8).getD 0) % 256
        else (memByte s.mem.cells x).toNat) ∧
    (i.op = 0x39 → a % 4 ≠ 0 ∨ placeOf s t a 4 = .unmapped → ∃ s', exec (.sw t) s = .next s' ∧
      TakesException s s' t ⟨if a % 4 = 0 then 4 else 3, 0, (tileAt s t).pc, a, 0⟩) ∧
    (i.op = 0x3A → a % 8 ≠ 0 ∨ placeOf s t a 8 = .unmapped → ∃ s', exec (.la t) s = .next s' ∧
      TakesException s s' t ⟨if a % 8 = 0 then 4 else 3, 0, (tileAt s t).pc, a, 0⟩) ∧
    (i.op = 0x3B → a % 8 ≠ 0 ∨ placeOf s t a 8 = .unmapped → ∃ s', exec (.sa t) s = .next s' ∧
      TakesException s s' t ⟨if a % 8 = 0 then 4 else 3, 0, (tileAt s t).pc, a, 0⟩)

/-- R112, R117, R138, R140, R142: how a tile stops: HALT and TILE_HALTED, BRK and a word that is
no instruction, FENCE on queues that are empty or not, and the end of an exception, which ends the
job once no phase switch is in progress (R39). -/
def Obligations.TileStops : Prop :=
  (∀ (s : State) (t : Nat) (i : Insn), Issues s t i →
    (i.op = 0x02 → exec (.halt t) s = .next (setTile t { tileAt s t with wait := .halt } s)) ∧
    (i.op = 0x03 → ∃ s', exec (.brk t) s = .next s' ∧ TakesException s s' t ⟨11, 0, (tileAt s t).pc, i.imm, 0⟩) ∧
    (i.op = 0x04 → NextInCode s t → (bitOf i.x 0 = true → (tileAt s t).mq = []) →
      (bitOf i.x 1 = true → (tileAt s t).vq = []) → (bitOf i.x 2 = true → (tileAt s t).oq = []) →
      (bitOf i.x 3 = true → (tileAt s t).fq = []) → exec (.fence t) s = .next (advanced t (tileAt s t) s)) ∧
    (i.op = 0x04 → bitOf i.x 0 = true → (tileAt s t).mq ≠ [] → exec (.fence t) s = .next s)) ∧
  (∀ (s : State) (t : Nat) (w : W64), Fetches s t w → insnOk (insnOf w) = false →
    ∃ s', exec (.illegalWord t) s = .next s' ∧ TakesException s s' t ⟨1, 0, (tileAt s t).pc, 0, 0⟩) ∧
  (∀ (s : State) (t : Nat), t < s.tiles.length → (tileAt s t).code = .running → (tileAt s t).trap = none →
    (tileAt s t).wait = .halt ∨ (tileAt s t).wait = .stop → allEntries (tileAt s t) = [] →
    ∃ l, exec (.tileHalted t) s = .next (setTile t
      { tileAt s t with code := .halted, haltPc := (tileAt s t).pc, wait := .none, lastC := l }
      { s with fresh := s.fresh + 1 })) ∧
  (∀ (s : State) (t : Nat) (tr : Trap), t < s.tiles.length → (tileAt s t).code = .running →
    (tileAt s t).trap = some tr → allEntries (tileAt s t) = [] →
    ∃ s', exec (.tileTrapped t) s = .next s' ∧ s'.mem = s.mem ∧
      tileAt s' t = { tileAt s t with
        code := .halted, haltPc := (tileAt s t).pc, wait := .none, trap := none, trapValid := true, trapReg := tr
        lastC := (tileAt s' t).lastC } ∧
      (jobRunning s = false → s'.job = s.job) ∧
      (jobRunning s = true → switchBusy s = true → s'.job = { s.job with stopDue := true }) ∧
      (jobRunning s = true → switchBusy s = false → s'.job = s.job ∧ s'.wse.streams = [] ∧ s'.coll.insts = [] ∧
        ∀ u, u ≠ t → StopsTile s s' u))

namespace Sys2Proof.Machine

/-- R115, R120: the instructions handed to a queue: opcode, queue, its depth, command. -/
def queueTable : List (Nat × TileUnit × Nat × (Nat → Instr)) :=
  [(0x60, .vector, 16, .vaddf), (0x61, .vector, 16, .vsubf), (0x62, .vector, 16, .vmulf),
   (0x63, .vector, 16, .vmaxf), (0x64, .vector, 16, .vminf), (0x65, .vector, 16, .vfma),
   (0x66, .vector, 16, .viadd), (0x67, .vector, 16, .visub), (0x68, .vector, 16, .vimul),
   (0x69, .vector, 16, .vand), (0x6A, .vector, 16, .vor), (0x6B, .vector, 16, .vxor),
   (0x6C, .vector, 16, .vshl), (0x6D, .vector, 16, .vshr), (0x6E, .vector, 16, .vsra),
   (0x70, .vector, 16, .vrcp), (0x71, .vector, 16, .vrsqrt), (0x72, .vector, 16, .vexp2),
   (0x73, .vector, 16, .vlog2), (0x74, .vector, 16, .vcvtfi), (0x75, .vector, 16, .vcvtif),
   (0x76, .vector, 16, .vbcast), (0x77, .vector, 16, .vsumf), (0x78, .vector, 16, .vmaxr),
   (0x7A, .vector, 16, .vld), (0x7B, .vector, 16, .vst), (0x7C, .vector, 16, .vpack),
   (0x7D, .vector, 16, .vunpk), (0x90, .matrix, 8, .mshape), (0x91, .matrix, 8, .mma),
   (0x93, .matrix, 8, .accz), (0x94, .matrix, 8, .accpack), (0x95, .matrix, 8, .accget),
   (0x96, .matrix, 8, .accput), (0xA0, .mover, 32, .mvshape), (0xA1, .mover, 32, .mov),
   (0xD0, .fabric, 16, .cpost), (0xD1, .fabric, 16, .fput), (0xD2, .fabric, 16, .fsig)]

end Sys2Proof.Machine

/-- R115: every matrix, vector, mover and fabric instruction is handed to the end of its queue
with its address and its place in program order; a full queue stalls the scalar core. -/
def Obligations.QueuedInstructionsEnterTheirQueue : Prop :=
  ∀ r ∈ queueTable, ∀ (s : State) (t : Nat) (w : W64), Fetches s t w → insnOk (insnOf w) = true →
    (insnOf w).op = r.1 →
    ((queueGet (tileAt s t) r.2.1).length < r.2.2.1 → NextInCode s t →
      exec (r.2.2.2 t) s = .next (advanced t
        { queuePut (tileAt s t) r.2.1 (queueGet (tileAt s t) r.2.1 ++
            [{ word := w, pc := (tileAt s t).pc, seq := (tileAt s t).issued }]) with
          issued := (tileAt s t).issued + 1 } s)) ∧
    (r.2.2.1 ≤ (queueGet (tileAt s t) r.2.1).length → exec (r.2.2.2 t) s = .next s)

namespace Sys2Proof.Machine

/-- The lane-wise instructions on two operands (R120, R121, R125): opcode and what each lane
becomes, with the flags that it sets. -/
def laneTable : List (Nat × (W32 → W32 → W32 × Flags)) :=
  [(0x60, fpAdd), (0x61, fpSub), (0x62, fpMul), (0x63, fpMax), (0x64, fpMin),
   (0x66, fun a b => (BitVec.ofNat 32 (a.toNat + b.toNat), 0#6)),
   (0x67, fun a b => (BitVec.ofInt 32 ((a.toNat : Int) - b.toNat), 0#6)),
   (0x68, fun a b => (BitVec.ofNat 32 (a.toNat * b.toNat % 2 ^ 32), 0#6)),
   (0x69, fun a b => (BitVec.ofNat 32 (a.toNat &&& b.toNat), 0#6)),
   (0x6A, fun a b => (BitVec.ofNat 32 (a.toNat ||| b.toNat), 0#6)),
   (0x6B, fun a b => (BitVec.ofNat 32 (a.toNat ^^^ b.toNat), 0#6)),
   (0x6C, fun a b => (BitVec.ofNat 32 (a.toNat * 2 ^ (b.toNat % 32)), 0#6)),
   (0x6D, fun a b => (BitVec.ofNat 32 (a.toNat / 2 ^ (b.toNat % 32)), 0#6)),
   (0x6E, fun a b => (BitVec.ofInt 32 (a.toInt / 2 ^ (b.toNat % 32)), 0#6))]

/-- The lane-wise instructions on one operand (R68, R70, R71). -/
def laneTable1 : List (Nat × (W32 → W32 × Flags)) :=
  [(0x70, fpApprox 0), (0x71, fpApprox 1), (0x72, fpApprox 2), (0x73, fpApprox 3), (0x74, fpToInt), (0x75, fpOfInt)]

end Sys2Proof.Machine

/-- R68, R70, R71, R120, R121, R125, R141: what the completion of a vector entry on registers
leaves. -/
def Obligations.VectorRegisterResults : Prop :=
  ∀ (s : State) (t k : Nat) (e : QEntry) (ups : List Upset) (i : Insn) (x : Tile),
    EntryRuns s t .vector k e → i = insnOf e.word → x = tileAt s t →
    (∀ r ∈ laneTable, i.op = r.1 → EntryLeaves s t .vector 2 k ups e
      (vSet x i.d ((List.zipWith r.2 (vGet x i.a) (operandB x i)).map (·.1)))
      (flagsOf (List.zipWith r.2 (vGet x i.a) (operandB x i)))) ∧
    (∀ r ∈ laneTable1, i.op = r.1 → EntryLeaves s t .vector 2 k ups e
      (vSet x i.d ((vGet x i.a).map (fun a => (r.2 a).1))) (flagsOf ((vGet x i.a).map r.2))) ∧
    (i.op = 0x65 → EntryLeaves s t .vector 2 k ups e
      (vSet x i.d ((List.zipWith (fun (f : W32 → W32 × Flags) z => f z)
        (List.zipWith (fun p q => fpFma p q) (vGet x i.a) (operandB x i)) (vGet x i.d)).map (·.1)))
      (flagsOf (List.zipWith (fun (f : W32 → W32 × Flags) z => f z)
        (List.zipWith (fun p q => fpFma p q) (vGet x i.a) (operandB x i)) (vGet x i.d)))) ∧
    (i.op = 0x76 → EntryLeaves s t .vector 2 k ups e (vSet x i.d (List.replicate 64 (sGet x i.a))) 0#6) ∧
    (i.op = 0x77 → EntryLeaves s t .vector 2 k ups e (sSet x i.d (fpTree (vGet x i.a)).1) (fpTree (vGet x i.a)).2) ∧
    (i.op = 0x78 → EntryLeaves s t .vector 2 k ups e (sSet x i.d (fpMaxAll (vGet x i.a)).1) (fpMaxAll (vGet x i.a)).2)

/-- R130, R131: what the completion of a matrix or mover entry on registers leaves; a row index
above 127 raises OPERAND. -/
def Obligations.MatrixRegisterResults : Prop :=
  ∀ (s : State) (t k : Nat) (e : QEntry) (ups : List Upset) (i : Insn) (x : Tile),
    i = insnOf e.word → x = tileAt s t →
    (EntryRuns s t .matrix k e →
      (i.op = 0x90 → EntryLeaves s t .matrix 1 k ups e
        { x with rowStride := sGet x i.a, colStride := sGet x i.b } 0#6) ∧
      (i.op = 0x93 → EntryLeaves s t .matrix 1 k ups e (accSet x i.d (List.replicate 8192 0#32)) 0#6) ∧
      (i.op = 0x95 → (sGet x i.b).toNat ≤ 127 → EntryLeaves s t .matrix 1 k ups e
        (vSet x i.d (((accGet x i.a).drop (64 * (sGet x i.b).toNat)).take 64)) 0#6) ∧
      (i.op = 0x96 → (sGet x i.b).toNat ≤ 127 → EntryLeaves s t .matrix 1 k ups e
        (accSet x i.d ((accGet x i.d).take (64 * (sGet x i.b).toNat) ++ vGet x i.a ++
          (accGet x i.d).drop (64 * (sGet x i.b).toNat + 64))) 0#6) ∧
      (i.op = 0x95 ∨ i.op = 0x96 → 127 < (sGet x i.b).toNat → x.trap = none → e.pc < 2 ^ 19 →
        ∃ s', exec (.queueEntryCompletion t .matrix k ups) s = .next s' ∧
          tileAt s' t = withoutEntry .matrix k (dropUnstarted { x with
            wait := .stop, trap := some ⟨5, 1, e.pc, 0, 0⟩ }))) ∧
    (EntryRuns s t .mover k e → i.op = 0xA0 → EntryLeaves s t .mover 3 k ups e
      { x with mvRows := sGet x i.a, mvSrc := sGet x i.b, mvDst := sGet x i.d } 0#6)

/-! ### Entries that reach memory (R122, R123, R125 to R131) -/

/-- R122, R123, R126: what the completion of a vector entry on memory leaves: VLD and VUNPK write
the register, and A by POST; VST and VPACK store their bytes, and no other byte changes. -/
def Obligations.VectorMemoryResults : Prop :=
  ∀ (s s1 : State) (t k : Nat) (e : QEntry) (ups : List Upset) (i : Insn) (x : Tile) (a : Nat),
    EntryRuns s t .vector k e → s1 = strike ups s → i = insnOf e.word → x = tileAt s t → a = (effAddr x i).toNat →
    (i.op = 0x7A → a % 16 = 0 → Readable s1 t a 256 → EntryLeaves s t .vector 2 k ups e
      (vSet (postUpdate i x) i.d ((List.range 64).map (fun j => BitVec.ofNat 32 (leVal (bytesAt s1 t (a + 4 * j) 4))))) 0#6) ∧
    (i.op = 0x7D → a % 2 = 0 → i.x % 4 ≠ 0 → Readable s1 t a (2 * fmtBytes (i.x % 4)) → ∀ b0 b1,
      bytesAt s1 t a (2 * fmtBytes (i.x % 4)) = b0 ++ b1 → b0.length = fmtBytes (i.x % 4) →
      EntryLeaves s t .vector 2 k ups e
        (vSet (postUpdate i x) i.d ((decodeBlock (i.x % 4) (blockOf (i.x % 4) b0)).1 ++
          (decodeBlock (i.x % 4) (blockOf (i.x % 4) b1)).1))
        ((decodeBlock (i.x % 4) (blockOf (i.x % 4) b0)).2 ||| (decodeBlock (i.x % 4) (blockOf (i.x % 4) b1)).2)) ∧
    (i.op = 0x7B → a % 16 = 0 → (vGet x i.b).length = 64 → Writable s1 t a 256 →
      ∃ s', exec (.queueEntryCompletion t .vector k ups) s = .next s' ∧
        (∀ u, tileAt s' u = if u = t then withoutEntry .vector k (postUpdate i x) else tileAt s u) ∧
        ∀ c, (memByte s'.mem.cells c).toNat =
          if (keyOf s1 t a 256).getD 0 ≤ c ∧ c < (keyOf s1 t a 256).getD 0 + 256 then
            ((vGet x i.b).getD ((c - (keyOf s1 t a 256).getD 0) / 4) 0#32).toNat /
              256 ^ ((c - (keyOf s1 t a 256).getD 0) % 4) % 256
          else (memByte s1.mem.cells c).toNat) ∧
    (i.op = 0x7C → a % 2 = 0 → i.x % 4 ≠ 0 → ∀ bs fl g, packLanes i (vGet x i.b) x.srng = (bs, fl, g) →
      bs.length = 2 * fmtBytes (i.x % 4) → Writable s1 t a bs.length → fl &&& x.trapEn = 0#6 →
      ∃ s', exec (.queueEntryCompletion t .vector k ups) s = .next s' ∧
        (∀ u, tileAt s' u =
          if u = t then withoutEntry .vector k { postUpdate i x with srng := g, flags := x.flags ||| fl } else tileAt s u) ∧
        ∀ c, memByte s'.mem.cells c =
          if (keyOf s1 t a bs.length).getD 0 ≤ c ∧ c < (keyOf s1 t a bs.length).getD 0 + bs.length then
            bs.getD (c - (keyOf s1 t a bs.length).getD 0) 0
          else memByte s1.mem.cells c) ∧
    (i.op = 0x7A ∨ i.op = 0x7B → a % 16 ≠ 0 → x.trap = none → e.pc < 2 ^ 19 →
      ∃ s', exec (.queueEntryCompletion t .vector k ups) s = .next s' ∧
        tileAt s' t = withoutEntry .vector k (dropUnstarted { x with wait := .stop, trap := some ⟨3, 2, e.pc, a, 0⟩ }))

namespace Sys2Proof.Machine

/-- R127: block `j` of row `r` of an operand: its address. -/
def operandAddr (base stride size r j : Nat) : Nat := base + r * stride + j * size

/-- R66, R127: an accumulator element after the steps of an MMA on dense operands. -/
def mmaSum (s : State) (t fa fb sa sb a b rs cs kb r c : Nat) (z : W32) : W32 :=
  (List.range kb).foldl (fun v j => (accStep fa fb v
    (blockOf fa (bytesAt s t (operandAddr a rs sa r j) sa)) (blockOf fb (bytesAt s t (operandAddr b cs sb c j) sb))).1) z

/-- R127: a block that an MMA may read: of the tile's scratch, or of its slice where `slice`. -/
def OperandAt (s : State) (t a n : Nat) (slice : Bool) : Prop :=
  Readable s t a n ∧ ((∃ o, placeOf s t a n = .scratch t o) ∨ slice = true ∧ ∃ o, placeOf s t a n = .slice t o)

end Sys2Proof.Machine

/-- R66, R127, R128: an MMA on dense operands leaves in each of the 128 by 64 elements the sum of
the products of its row and its column, added block by block in order; the rows may lie in the
slice, the columns not. -/
def Obligations.MatrixMultiply : Prop :=
  ∀ (s s1 : State) (t k : Nat) (e : QEntry) (ups : List Upset) (i : Insn) (x : Tile) (fa fb sa sb a b rs cs : Nat),
    EntryRuns s t .matrix k e → s1 = strike ups s → i = insnOf e.word → x = tileAt s t →
    i.op = 0x91 → bitOf i.x 4 = false → fa = i.x % 4 → fb = i.x / 4 % 4 → fa ≠ 0 → fb ≠ 0 →
    sa = fmtBytes fa → sb = fmtBytes fb →
    a = (aGet x i.a).toNat → b = (aGet x i.b).toNat → rs = x.rowStride.toNat → cs = x.colStride.toNat →
    a % 2 = 0 → b % 2 = 0 → rs % 2 = 0 → cs % 2 = 0 →
    (∀ r < 128, ∀ j < i.imm, OperandAt s1 t (operandAddr a rs sa r j) sa true) →
    (∀ c < 64, ∀ j < i.imm, OperandAt s1 t (operandAddr b cs sb c j) sb false) →
    ∃ acc fl, EntryLeaves s t .matrix 1 k ups e (accSet x i.d acc) fl ∧ acc.length = 8192 ∧
      ∀ r < 128, ∀ c < 64, acc.getD (64 * r + c) 0#32 = mmaSum s1 t fa fb sa sb a b rs cs i.imm r c
        (if bitOf i.x 5 then 0#32 else (accGet x i.d).getD (64 * r + c) 0#32)

/-- R131, R134: a MOV whose rows do not overlap copies each row, changes no other byte, and adds 1
to the sync object that it names. -/
def Obligations.MoverCopies : Prop :=
  ∀ (s s1 : State) (t k : Nat) (e : QEntry) (ups : List Upset) (i : Insn) (x : Tile) (n rows fs ts : Nat) (src dst : Nat → Nat),
    EntryRuns s t .mover k e → s1 = strike ups s → i = insnOf e.word → x = tileAt s t → i.op = 0xA1 →
    n = (sGet x i.d).toNat → n % 16 = 0 → 16 ≤ n →
    rows = (if bitOf i.x 0 then x.mvRows.toNat else 1) → 1 ≤ rows → rows ≤ 65535 →
    fs = (if bitOf i.x 0 then x.mvSrc.toNat else 0) → ts = (if bitOf i.x 0 then x.mvDst.toNat else 0) →
    fs % 16 = 0 → ts % 16 = 0 → (aGet x i.a).toNat % 16 = 0 → (aGet x i.b).toNat % 16 = 0 →
    (∀ r < rows, Readable s1 t ((aGet x i.a).toNat + r * fs) n ∧ keyOf s1 t ((aGet x i.a).toNat + r * fs) n = some (src r)) →
    (∀ r < rows, Writable s1 t ((aGet x i.b).toNat + r * ts) n ∧ keyOf s1 t ((aGet x i.b).toNat + r * ts) n = some (dst r)) →
    (∀ r < rows, ∀ q < rows, (dst r + n ≤ src q ∨ src q + n ≤ dst r) ∧ (r ≠ q → dst r + n ≤ dst q ∨ dst q + n ≤ dst r)) →
    ∃ s', exec (.queueEntryCompletion t .mover k ups) s = .next s' ∧
      (∀ r < rows, ∀ j < n, memByte s'.mem.cells (dst r + j) = memByte s1.mem.cells (src r + j)) ∧
      (∀ c, (∀ r < rows, c < dst r ∨ dst r + n ≤ c) → memByte s'.mem.cells c = memByte s1.mem.cells c) ∧
      (bitOf i.x 1 = false → s'.sync = s.sync ∧ ∀ u, tileAt s' u = if u = t then withoutEntry .mover k x else tileAt s u) ∧
      (bitOf i.x 1 = true → syncGet s' i.imm = syncGet s i.imm + 1#64 ∧
        ∀ o, o ≠ i.imm → syncGet s' o = syncGet s o)

/-! ### Streams and sync objects as a tile uses them -/

namespace Sys2Proof.Machine

/-- R222: the tile after an operation has left a sync object at `v`. -/
def woken (o : Nat) (v : W64) (x : Tile) : Tile :=
  match x.wait with
  | .sync p thr => if p = o ∧ thr ≤ v.toNat then { x with wait := .syncDone } else x
  | _ => x

/-- Every tile but `t` after an operation on a sync object, which holds `v` now; the other
objects stand. -/
def SyncLeaves (s s' : State) (t o : Nat) (v : W64) : Prop :=
  syncGet s' o = v ∧ (∀ p, p ≠ o → syncGet s' p = syncGet s p) ∧
  (∀ u, u ≠ t → tileAt s' u = woken o v (tileAt s u)) ∧
  s' = { s with sync := s'.sync, tiles := s'.tiles, fab := s'.fab, regs := s'.regs }

end Sys2Proof.Machine

/-- R134, R135, R220 to R222: SYADD, SYSET, SYRD and SYWAIT on the 16,384 objects, and SYNC for a
number beyond them; a wait that an operation has ended goes on. -/
def Obligations.SyncInstructions : Prop :=
  (∀ (s : State) (t : Nat) (i : Insn) (x : Tile) (o : Nat) (v : W64),
    Issues s t i → x = tileAt s t → o = i.imm + (sGet x i.a).toNat → v = BitVec.ofNat 64 (sGet x i.b).toNat →
    (NextInCode s t → o < 16384 →
      (i.op = 0xC0 → allEntries x = [] → ∃ s', exec (.syadd t) s = .next s' ∧
        tileAt s' t = { x with pc := x.pc + 8 } ∧ SyncLeaves s s' t o (syncGet s o + v)) ∧
      (i.op = 0xC1 → allEntries x = [] → ∃ s', exec (.syset t) s = .next s' ∧
        tileAt s' t = { x with pc := x.pc + 8 } ∧ SyncLeaves s s' t o v) ∧
      (i.op = 0xC2 → exec (.syrd t) s = .next (advanced t (sSet x i.d (BitVec.ofNat 32
        (if i.x % 2 = 1 then (syncGet s o).toNat / 2 ^ 32 else (syncGet s o).toNat))) s)) ∧
      (i.op = 0xC3 → (sGet x i.b).toNat ≤ (syncGet s o).toNat → exec (.sywait t) s = .next (advanced t x s)) ∧
      (i.op = 0xC3 → (syncGet s o).toNat < (sGet x i.b).toNat →
        exec (.sywait t) s = .next (setTile t { x with wait := .sync o (sGet x i.b).toNat } s))) ∧
    (i.op = 0xC0 ∨ i.op = 0xC1 → allEntries x ≠ [] → exec (.syadd t) s = .next s ∧ exec (.syset t) s = .next s) ∧
    (16384 ≤ o →
      (i.op = 0xC0 → allEntries x = [] → ∃ s', exec (.syadd t) s = .next s' ∧ TakesException s s' t ⟨9, 0, x.pc, o, 0⟩) ∧
      (i.op = 0xC1 → allEntries x = [] → ∃ s', exec (.syset t) s = .next s' ∧ TakesException s s' t ⟨9, 0, x.pc, o, 0⟩) ∧
      (i.op = 0xC2 → ∃ s', exec (.syrd t) s = .next s' ∧ TakesException s s' t ⟨9, 0, x.pc, o, 0⟩) ∧
      (i.op = 0xC3 → ∃ s', exec (.sywait t) s = .next s' ∧ TakesException s s' t ⟨9, 0, x.pc, o, 0⟩))) ∧
  ∀ (s : State) (t : Nat) (x : Tile), t < s.tiles.length → x = tileAt s t → x.wait = .syncDone → x.pc % 8 = 0 →
    x.pc + 8 < x.codeLen → x.codeLen ≤ scratchSize →
    exec (.sywaitSatisfied t) s = .next (setTile t { x with wait := .none, pc := x.pc + 8 } s)

namespace Sys2Proof.Machine

/-- The state with stream `n` replaced. -/
def withStream (n : Nat) (st : Stream) (s : State) : State :=
  { s with wse := { s.wse with streams := Cells.set {} s.wse.streams n st } }

/-- R194: the next buffer of a member: its number. -/
def nextTaken (d : StreamDesc) (st : Stream) (l : Nat) : Nat := Cells.get 0 st.taken l % d.nbuf

/-- R194, R195: the state after a member has taken its next buffer into address register `r`. -/
def tookBuffer (t n r l : Nat) (d : StreamDesc) (s : State) : State :=
  advanced t (aSet { tileAt s t with wait := .none } r
    (BitVec.ofNat 48 (d.bufAddr + nextTaken d (streamAt s n) l * descBufSize d)))
    (withStream n { setBuf l (nextTaken d (streamAt s n) l)
      { bufAt (streamAt s n) l (nextTaken d (streamAt s n) l) with code := .taken } (streamAt s n) with
        taken := Cells.set 0 (streamAt s n).taken l (Cells.get 0 (streamAt s n).taken l + 1) } s)

end Sys2Proof.Machine

/-- R132, R133, R194 to R196, R199: SSTART hands over a pass or holds it behind the one
outstanding, and stalls on a third; STAKE takes the next buffer that is FULL or waits for it;
SFREE empties the oldest buffer taken. -/
def Obligations.StreamInstructions : Prop :=
  (∀ (s : State) (t : Nat) (i : Insn) (x : Tile) (d : StreamDesc) (st : Stream),
    Issues s t i → NextInCode s t → x = tileAt s t → streamDesc s i.imm = some d → st = streamAt s i.imm →
    (i.op = 0xB0 → x.mq = [] → x.vq = [] → x.oq = [] → x.logical = some d.leader →
      (st.pass = none → exec (.sstart t) s = .next (advanced t x (withStream i.imm
        { st with starts := st.starts + 1, pass := some { order := s.wse.order, first := st.starts * d.nchunk } }
        { s with wse := { s.wse with order := s.wse.order + 1 } }))) ∧
      (st.pass ≠ none → st.held = none → exec (.sstart t) s = .next (advanced t x (withStream i.imm
        { st with starts := st.starts + 1, held := some { order := s.wse.order, first := st.starts * d.nchunk } }
        { s with wse := { s.wse with order := s.wse.order + 1 } }))) ∧
      (st.pass ≠ none → st.held ≠ none → exec (.sstart t) s = .next s)) ∧
    (∀ l, x.logical = some l → d.kind = 1 → l ∈ groupOf s d.group →
      (i.op = 0xB1 → (bufAt st l (nextTaken d st l)).code = .full →
        (bitOf d.format 5 = true → (bufAt st l (nextTaken d st l)).poison = none) →
        exec (.stake t) s = .next (tookBuffer t i.imm i.d l d s)) ∧
      (i.op = 0xB1 → (bufAt st l (nextTaken d st l)).code ≠ .full →
        exec (.stake t) s = .next (setTile t { x with wait := .stake i.imm i.d } s)) ∧
      (i.op = 0xB2 → x.mq = [] → x.vq = [] → Cells.get 0 st.freed l < Cells.get 0 st.taken l →
        exec (.sfree t) s = .next (advanced t x (withStream i.imm
          { setBuf l (Cells.get 0 st.freed l % d.nbuf) ⟨.empty, none⟩ st with
            freed := Cells.set 0 st.freed l (Cells.get 0 st.freed l + 1) } s))) ∧
      (i.op = 0xB2 → x.mq = [] → x.vq = [] → Cells.get 0 st.taken l ≤ Cells.get 0 st.freed l →
        ∃ s', exec (.sfree t) s = .next s' ∧ TakesException s s' t ⟨8, 0, x.pc, 0, 0⟩))) ∧
  ∀ (s : State) (t n r l : Nat) (x : Tile) (d : StreamDesc) (st : Stream), t < s.tiles.length → x = tileAt s t →
    x.wait = .stake n r → x.logical = some l → streamDesc s n = some d → st = streamAt s n →
    x.pc % 8 = 0 → x.pc + 8 < x.codeLen → x.codeLen ≤ scratchSize →
    (bufAt st l (nextTaken d st l)).code = .full →
    (bitOf d.format 5 = true → (bufAt st l (nextTaken d st l)).poison = none) →
    exec (.stakeSatisfied t) s = .next (tookBuffer t n r l d s)

/-! ### The life of a tile (chapter 3) -/

/-- R92, R94, R98, R100, R107: a self-test that passes leaves a tile READY or SPARE and one that
fails retires it, handing its logical number to the nearest spare; a fault of a RUNNING tile
leaves it FAULTED; a spare is tested, one at a time, 24 h after its last test as shipped. -/
def Obligations.TileLife : Prop :=
  (∀ (s : State) (t : Nat) (x : Tile), t < s.tiles.length → x = tileAt s t → x.code = .testing → x.testStopped = false →
    (x.test ≠ .restore → s.rst.level = 0 → (sliceAt s t).bistFail = false → s.pwr.trans = none →
      ∃ s', exec (.tileSelftestDone t 0#8) s = .next s' ∧
        tileAt s' t = { x with
          code := if x.logical.isSome then .ready else .spare, stDone := true, stPass := true, stUnits := 0#8,
          lastTest := runNs s, test := .plain } ∧
        (∀ u, u ≠ t → tileAt s' u = tileAt s u) ∧ (x.logical.isSome = true → s'.mem = s.mem)) ∧
    (∀ fails, fails ≠ 0#8 → s.rst.level = 0 → s.pwr.trans = none → ∃ s', exec (.tileSelftestDone t fails) s = .next s' ∧
      (tileAt s' t).code = .retired ∧ (tileAt s' t).logical = none ∧ (tileAt s' t).stUnits = fails ∧
      (∀ l, x.logical = some l → ∀ u, nearestSpare s t = some u →
        tileAt s' u = { tileAt s u with code := .ready, logical := some l }))) ∧
  (∀ (s : State) (t : Nat) (src : FaultSrc) (x : Tile), t < 156 → s.tiles.length = 156 → x = tileAt s t →
    x.code = .running → jobRunning s = true → inJob s t = true → s.job.ending = none →
    ∃ s', exec (.tileFault t src) s = .next s' ∧ (tileAt s' t).code = .faulted ∧ (tileAt s' t).s = [] ∧
      (tileAt s' t).pc = 0 ∧ (tileAt s' t).logical = x.logical ∧
      (tileAt s' t).err = x.err ||| (1#9 <<< faultBit src) ∧
      s'.job.ending = some ⟨3, t, x.logical.getD 0, 2 ^ faultBit src⟩) ∧
  (∀ (s : State) (t : Nat), t < s.tiles.length → (tileAt s t).code = .spare →
    (tileAt s t).lastTest + max 1 s.fw.tilePolicy.spareHours * 3600000000000 ≤ runNs s →
    (∀ x ∈ s.tiles, ¬ (x.code = .testing ∧ x.test = .spare)) →
    ∃ s', exec (.spareTileSelftest t) s = .next s' ∧ (tileAt s' t).code = .testing ∧ (tileAt s' t).test = .spare ∧
      ∀ u, u ≠ t → tileAt s' u = tileAt s u) ∧
  ∀ (s : State) (t : Nat), t < 156 → s.tiles.length = 156 → regGet s rTileStallLimit t [] ≠ 0 →
    ∃ s', exec (.meshStall t) s = .next s' ∧
      tileAt s' t = { tileAt s t with err := (tileAt s t).err ||| (1#9 <<< 7) } ∧
      (∀ u, u ≠ t → tileAt s' u = tileAt s u) ∧ s'.mem = s.mem

/-! ### The weight stream engine (chapter 6) -/

/-- R193, R197 to R199, R209, R213: what the events of a WEIGHT pass do: the first pass of the queue
takes a free context; a chunk is staged, is written, becomes FULL in a member with its bytes; the
last one ends the pass, whose held start takes over; and a pass whose members have all halted is
cancelled. -/
def Obligations.WeightPass : Prop :=
  ∀ (s : State) (n : Nat) (d : StreamDesc) (st : Stream) (p : Pass),
    streamDesc s n = some d → st = streamAt s n → st.pass = some p →
    (p.ctx = none → (∀ o ∈ waitingOrders s, p.order ≤ o) → ∀ c < 32, c ∉ ctxUsed s → (∀ b < c, b ∈ ctxUsed s) →
      exec (.wsePassBegin n) s = .next (withStream n { st with pass := some { p with ctx := some c } } s)) ∧
    (p.ctx ≠ none → d.kind = 1 →
      (∀ c cs, p.staged = c :: cs → p.writing = [] → p.begun < d.nchunk →
        (∀ l ∈ groupOf s d.group, (bufAt st l ((p.first + p.begun) % d.nbuf)).code = .empty) →
        exec (.chunkWriteStart n) s = .next (withStream n { st with pass := some (
          { p with staged := cs, cur := c, begun := p.begun + 1, writing := groupOf s d.group } : Pass) } s)) ∧
      (p.done = d.nchunk → ∃ s', exec (.wsePassEnd n) s = .next s' ∧
        streamAt s' n = { st with pass := st.held.map (fun h => { h with ctx := p.ctx }), held := none } ∧
        (∀ m, m ≠ n → streamAt s' m = streamAt s m) ∧ s'.mem = s.mem ∧
        (bitOf d.sync 15 = true → syncGet s' (d.sync % 16384) = syncGet s (d.sync % 16384) + 1#64) ∧
        (bitOf d.sync 15 = false → s'.sync = s.sync))) ∧
    (∀ l t, l ∈ p.writing → physOf s l = some t → serving (tileAt s t) = true →
      bufferOverlap n l t d ((p.first + p.begun - 1) % d.nbuf) s = [] →
      CleanWords s (scratchBase t + (d.bufAddr + (p.first + p.begun - 1) % d.nbuf * descBufSize d)) p.cur.bytes.length →
      ∃ s', exec (.chunkFull n l) s = .next s' ∧
        (bufAt (streamAt s' n) l ((p.first + p.begun - 1) % d.nbuf)) = ⟨.full, p.cur.poison⟩ ∧
        (streamAt s' n).pass = some { p with
          writing := p.writing.filter (· ≠ l), done := if p.writing.filter (· ≠ l) = [] then p.begun else p.done } ∧
        ∀ x, memByte s'.mem.cells x =
          if scratchBase t + (d.bufAddr + (p.first + p.begun - 1) % d.nbuf * descBufSize d) ≤ x ∧
              x < scratchBase t + (d.bufAddr + (p.first + p.begun - 1) % d.nbuf * descBufSize d) + p.cur.bytes.length then
            p.cur.bytes.getD (x - (scratchBase t + (d.bufAddr + (p.first + p.begun - 1) % d.nbuf * descBufSize d))) 0
          else memByte s.mem.cells x) ∧
    (membersHalted s d = true → ∃ s', exec (.wsePassCancel n) s = .next s' ∧
      streamAt s' n = { st with pass := none, held := none } ∧ (∀ m, m ≠ n → streamAt s' m = streamAt s m) ∧
      s'.mem = s.mem ∧ s'.tiles = s.tiles)

/-- R200, R205, R209: CHUNK_STAGED reads the next chunk of the pass into prefetch staging; the bytes
of a raw dense chunk without an error are those of its strip. -/
def Obligations.ChunkIsStaged : Prop :=
  ∀ (s : State) (n k : Nat) (d : StreamDesc) (st : Stream) (p : Pass) (dpa : Nat),
    streamDesc s n = some d → st = streamAt s n → st.pass = some p → st.held = none →
    d.kind = 1 → p.ctx ≠ none → k = p.first + p.read → p.read < d.nchunk → p.staged.length < d.prefetch →
    stagedBytes s + 64 * d.kb * fmtBytes (d.format % 4) ≤ 8388608 → p.lost = [] → (stripAt s (nextStrip d p)).code ≠ .training →
    bitOf d.format 4 = false → bitOf d.format 2 = false → bitOf d.format 3 = false →
    d.stripOff + Cells.get 0 p.offs (nextStrip d p) + 64 * d.kb * fmtBytes (d.format % 4) ≤ stripSize →
    dpa = nextStrip d p * stripSize + (d.stripOff + Cells.get 0 p.offs (nextStrip d p)) →
    CleanGrans s dpa (64 * d.kb * fmtBytes (d.format % 4)) →
    ∃ s' c q, exec (.chunkStaged n k) s = .next s' ∧ (streamAt s' n).pass = some q ∧ q.read = p.read + 1 ∧
      q.staged = p.staged ++ [c] ∧ q.begun = p.begun ∧ q.done = p.done ∧ c.poison = none ∧
      c.bytes = memRead s.mem.cells (ddrBase + dpa) (64 * d.kb * fmtBytes (d.format % 4)) ∧
      s'.mem = s.mem ∧ s'.tiles = s.tiles

/-- R207, R210, R212: a SPILL or FILL pass without an error moves the bytes of each member between
its slice and its place in the strips, and ends. -/
def Obligations.SpillAndFill : Prop :=
  ∀ (s : State) (n : Nat) (d : StreamDesc) (p : Pass) (phys : Nat → Nat) (ls : List Nat),
    streamDesc s n = some d → (streamAt s n).pass = some p → p.ctx ≠ none → d.kind = 2 ∨ d.kind = 3 →
    spillHeld d s = false → ls = groupOf s d.group → (∀ k < ls.length, physOf s (ls.getD k 0) = some (phys k)) →
    (∀ k < ls.length, ∀ m < ls.length, k ≠ m → phys k ≠ phys m ∧
      (spillDpa d k + d.len ≤ spillDpa d m ∨ spillDpa d m + d.len ≤ spillDpa d k)) →
    d.sliceOff + d.len ≤ sliceSize → (∀ k < ls.length, serving (tileAt s (phys k)) = true) → (∀ k < ls.length, phys k < 156 ∧ spillDpa d k + d.len ≤ ddrSize) →
    (∀ k < ls.length, CleanWords s (sliceBase (phys k) + d.sliceOff) d.len ∧ CleanGrans s (spillDpa d k) d.len) →
    ∃ s', exec (.wsePassEnd n) s = .next s' ∧ (streamAt s' n).held = none ∧
      (∀ k < ls.length, ∀ j < d.len,
        (d.kind = 2 → memByte s'.mem.cells (ddrBase + spillDpa d k + j) =
          memByte s.mem.cells (sliceBase (phys k) + d.sliceOff + j)) ∧
        (d.kind = 3 → memByte s'.mem.cells (sliceBase (phys k) + d.sliceOff + j) =
          memByte s.mem.cells (ddrBase + spillDpa d k + j))) ∧
      (d.kind = 2 → ∀ x, x < ddrBase → memByte s'.mem.cells x = memByte s.mem.cells x) ∧
      (d.kind = 3 → ∀ x, ddrBase ≤ x → x < ddrBase + ddrSize → memByte s'.mem.cells x = memByte s.mem.cells x)

/-! ### Lasers, rings and eye safety (chapter 11) -/

namespace Sys2Proof.Machine

/-- Chiplet `c` exists, with its 36 lasers, 32 rings and four fibres. -/
def ChipThere (s : State) (c : Nat) : Prop :=
  c < s.light.length ∧ c < 8 ∧ (chipAt s c).lasers.length = 36 ∧ (chipAt s c).rings.length = 32 ∧
  (chipAt s c).eyes.length = 4

end Sys2Proof.Machine

namespace Sys2Proof.Machine

/-- No two lasers of a chiplet serve one slot. -/
def SlotsApart (s : State) (c : Nat) : Prop :=
  ∀ m < 36, ∀ k < 36, (laserAt s c m).slot ≠ none → (laserAt s c m).slot = (laserAt s c k).slot → m = k

/-- R359 step 4: laser `x` after reads that have passed it, its offset within the limit. -/
def Passed (s : State) (c : Nat) (x y : Laser) : Prop :=
  ∃ o, (signedOf 16 o).natAbs ≤ 100 * max 5 (min 10 (regField s rFabLightPolicy c [] 19 16)) ∧
    y = { x with refValid := true, refPass := true, refFail := 0, refIndex := x.channel % 32, refOffset := o }

end Sys2Proof.Machine

/-- R347, R355, R357: a read of a bus gives a verdict for each laser on it: exactly one tone, of the
commanded channel, within the offset limit passes it; a lit laser that fails goes dark and acquires
its channel again; the lasers of the other buses stand. -/
def Obligations.RefereeJudges : Prop :=
  ∀ (s : State) (c b : Nat) (rs : List LaserRead),
    ChipThere s c → SlotsApart s c → b < 5 → s.pwr.current < 3 →
    ∃ s', exec (.refereeRead c b none rs) s = .next s' ∧
      (∀ m, busOf (laserAt s c m) ≠ b → laserAt s' c m = laserAt s c m) ∧
      ((∀ m < 36, busOf (laserAt s c m) = b → verdict s c (laserAt s c m) (readOf rs m) = 0) → s'.fab = s.fab) ∧
      ∀ (n : Nat) (r : LaserRead) (x : Laser) (limit : Nat), n < 36 → x = laserAt s c n → busOf x = b → r = readOf rs n →
        limit = 100 * max 5 (min 10 (regField s rFabLightPolicy c [] 19 16)) →
        (r.tones = 1 → r.index = x.channel → r.offset.natAbs ≤ limit →
          laserAt s' c n = { x with
            refValid := true, refPass := true, refFail := 0, refIndex := r.index % 32,
            refOffset := (r.offset % 65536).toNat,
            passed := decide (x.code ≠ .off ∧ x.code ≠ .spare ∧ x.code ≠ .worn ∧ x.code ≠ .failed) }) ∧
        (∀ f, x.code = .lit ∨ x.code = .dim →
          (f = 1 ∧ r.tones = 1 ∧ r.index ≠ x.channel) ∨ (f = 2 ∧ r.tones = 1 ∧ r.index = x.channel ∧ limit < r.offset.natAbs) ∨
            (f = 3 ∧ r.tones = 0) ∨ (f = 4 ∧ 1 < r.tones) →
          (laserAt s' c n).code = .acquire ∧ (laserAt s' c n).isOpen = false ∧
          (laserAt s' c n).passed = false ∧ (laserAt s' c n).channel = x.channel ∧
          (laserAt s' c n).refPass = false ∧ (laserAt s' c n).refFail = f)

/-- R350 to R354, R359, R360: what ends the acquisition of a laser, the check of a spare 24 h after its
last or of a laser that is being restored, and the scan of a ring. -/
def Obligations.AcquisitionEnds : Prop :=
  (∀ (s : State) (c n : Nat) (x : Laser), ChipThere s c → n < 36 → x = laserAt s c n → x.code = .acquire → s.rst.level ≠ 2 →
    (x.slot ≠ none ∨ x.forSlot ≠ none →
      (x.slot = none → ∃ s', exec (.laserAcquire c n true) s = .next s' ∧
        Passed s c { x with code := .parked, passed := true } (laserAt s' c n)) ∧
      (∀ e, x.slot = some e → laneWants s (laneOf c e) = true → (chipAt s c).busOut = [] → x.safeOut = false →
        (eyeAt s c (e / 8)).code = .normal → dimHeld s (laneOf c e) = false →
        ∃ s', exec (.laserAcquire c n true) s = .next s' ∧
          Passed s c { x with code := .lit, isOpen := true, passed := true } (laserAt s' c n)) ∧
      (x.tries = [] → 2 ≤ regField s rFabLightPolicy c [] 15 13 → ∃ s', exec (.laserAcquire c n false) s = .next s' ∧
        laserAt s' c n = { x with isOpen := false, passed := false, tries := [runNs s] }))) ∧
  (∀ (s : State) (c n : Nat) (x : Laser), ChipThere s c → n < 36 → x = laserAt s c n →
    (x.code = .spare ∧ x.lastCheck + 24 * 3600000000000 ≤ runNs s ∧ ∀ m < 36, (laserAt s c m).prior = none) ∨
      (x.code = .acquire ∧ x.prior ≠ none) →
    (∃ s', exec (.spareLaserCheck c n true) s = .next s' ∧
      Passed s c { x with code := .spare, channel := 0, isOpen := false, passed := false, bias := 0, prior := none
                          lastCheck := runNs s } (laserAt s' c n)) ∧
    (∃ s', exec (.spareLaserCheck c n false) s = .next s' ∧
      laserAt s' c n = { x with
        code := .failed, channel := 0, isOpen := false, passed := false, bias := 0, prior := none })) ∧
  ∀ (s : State) (c r : Nat), ChipThere s c → r < 32 → (ringAt s c r).code = .scan →
    ∃ s', exec (.ringScan c r true) s = .next s' ∧
      ringAt s' c r = { ringAt s c r with code := .locked, lockedAt := runNs s } ∧
      ∀ m, m ≠ r → ringAt s' c m = ringAt s c m

/-- R345, R362 to R366: a worn laser is scheduled for a swap with the lowest spare; the planned swap
in an idle gap and the forced swap give the slot to the spare, and the old laser is WORN. -/
def Obligations.LaserSwaps : Prop :=
  ∀ (s : State) (c n e : Nat) (x : Laser), ChipThere s c → n < 36 → x = laserAt s c n → x.slot = some e →
    x.isOpen = true → x.code = .lit →
    (∀ launch m rest, x.swapDue = false → 94 ≤ x.bias → spareLasers s c = m :: rest →
      ∃ s', exec (.swapThreshold c n launch) s = .next s' ∧
        laserAt s' c n = { x with swapDue := true, swapTo := some m } ∧
        (laserAt s' c m).code = .acquire ∧ (laserAt s' c m).forSlot = some e ∧ (laserAt s' c m).slot = (laserAt s c m).slot) ∧
    (∀ m, m < 36 → m ≠ n → x.swapTo = some m → swapReady s c n (laneAt s (laneOf c e)).channel = true →
      (laneAt s (laneOf c e)).buf = [] → ∃ s', exec (.plannedSwap c n) s = .next s' ∧
        (laserAt s' c n).code = .worn ∧ (laserAt s' c n).slot = none ∧ (laserAt s' c n).isOpen = false ∧
        (laserAt s' c n).bias = 0 ∧ (laserAt s' c m).slot = some e ∧ (laserAt s' c m).forSlot = none) ∧
    (∀ m, 95 ≤ x.bias → m < 36 → m ≠ n → x.swapTo = some m ∨ x.swapTo = none ∧ (spareLasers s c).head? = some m →
      ∃ s', exec (.forcedSwap c n) s = .next s' ∧
        (laserAt s' c n).code = .worn ∧ (laserAt s' c n).slot = none ∧ (laserAt s' c n).isOpen = false ∧
        (laserAt s' c m).slot = some e ∧ (laserAt s' c m).forSlot = none)

/-- R371, R372: a reflection makes one fibre SAFE, loss on the receptacle all four; after the hold a
fibre is restored, by policy or by command, and is NORMAL once its launch has risen for 1 ms. -/
def Obligations.EyeSafety : Prop :=
  ∀ (s : State) (c f : Nat), ChipThere s c → f < 4 →
    ((eyeAt s c f).code = .normal ∨ (eyeAt s c f).code = .restoring →
      (∃ s', exec (.eyeTrip c f 1) s = .next s' ∧
        eyeAt s' c f = { eyeAt s c f with
          code := .safe, cause := 1, trips := min 65535 ((eyeAt s c f).trips + 1), last := runNs s, req := false } ∧
        ∀ g, g ≠ f → eyeAt s' c g = eyeAt s c g) ∧
      (rxLossSeen s c = true → ∃ s', exec (.eyeTrip c f 2) s = .next s' ∧
        ∀ g < 4, (eyeAt s' c g).code = .safe ∨ (eyeAt s c g).code = .tripped)) ∧
    ((eyeAt s c f).code = .safe → holdMet s c f = true →
      regField s rFabLightPolicy c [] 12 12 = 1 ∨ (eyeAt s c f).req = true →
      ∃ s', exec (.eyeRestoreStart c f) s = .next s' ∧
        eyeAt s' c f = { eyeAt s c f with code := .restoring, req := false, since := runNs s } ∧
        (∀ g, g ≠ f → eyeAt s' c g = eyeAt s c g) ∧ s'.fab = s.fab) ∧
    ((eyeAt s c f).code = .restoring → (eyeAt s c f).since + 1000000 ≤ runNs s → ∃ s', exec (.eyeRestoreDone c f) s = .next s' ∧
      eyeAt s' c f = { eyeAt s c f with code := .normal } ∧ ∀ g, g ≠ f → eyeAt s' c g = eyeAt s c g)

/-! ### The optical fabric (chapter 9) -/

namespace Sys2Proof.Machine

/-- The fabric's 256 lanes, 256 receive channels and 16 plan slots exist. -/
def FabThere (s : State) : Prop :=
  s.fab.lanes.length = 256 ∧ s.fab.rxs.length = 256 ∧ s.fab.slots.length = 16

/-- R261: the frames of a set below an ACK_LSN are gone. -/
def acked (x : LaneSet) (ack : Nat) : LaneSet :=
  { x with
    ackLsn := ack
    frames := x.frames.filter (fun f => !decide (lsnDist x.ackLsn f.lsn < lsnDist x.ackLsn ack))
    resend := x.resend.filter (fun l => !decide (lsnDist x.ackLsn l < lsnDist x.ackLsn ack)) }

end Sys2Proof.Machine

/-- R248, R253, R259 to R262: the frame that a lit lane sends: IDLE on a lane of no plan, and on the
lane whose turn it is the next DATA frame of its set, with the next LSN and the units placed. -/
def Obligations.LaneFrames : Prop :=
  ∀ (s : State) (i : Nat) (l : Lane), FabThere s → i < 256 → l = laneAt s i → laneLit s i = true →
    bitOf (osumMask s) (i / 8) = false → discovering s (i / 8) = false →
    (l.slot = none → ∃ s', exec (.laneFrameTx i) s = .next s' ∧
      laneAt s' i = { l with frame := frameLine (laneHdr s i) [], faultTurn := (l.faultTurn + 1) % 256 } ∧
      (∀ j, j ≠ i → laneAt s' j = laneAt s j) ∧ s'.fab.slots = s.fab.slots ∧ s'.mem = s.mem) ∧
    (∀ n x us, l.slot = some n → setAt s n l.dest l.rel = some x → x.closed = false → x.opened = true →
      l.code = .inSet → l.buf.length < 64 → s.fab.quar = false → laneHeld s i = false → peerHolds s n l.dest l.rel = false →
      x.resend = [] →
      turnLane s n l.dest l.rel x = some i → windowOpen s n l.dest l.rel x = true →
      us = fitUnits 1024 x.queue → us ≠ [] →
      ∃ s', exec (.laneFrameTx i) s = .next s' ∧
        setAt s' n l.dest l.rel = some { x with
          queue := x.queue.drop us.length, frames := x.frames ++ [{ lsn := x.nextLsn, lane := i, units := us }],
          nextLsn := (x.nextLsn + 1) % 65536, turn := i, nak := none } ∧
        laneAt s' i = { l with
          buf := l.buf ++ [x.nextLsn], faultTurn := (l.faultTurn + 1) % 256,
          frame := frameLine { ackHdr x (laneHdr s i) with
            type := 1, lsn := x.nextLsn, resent := false, len := (us.flatMap (fun u => unitBytes u.u)).length }
            (us.flatMap (fun u => unitBytes u.u)) } ∧ s'.mem = s.mem ∧ s'.tiles = s.tiles)

/-- R256, R261, R262: a frame that decodes and passes every check opens the set, acknowledges the
frames below its ACK_LSN, and, as the DATA frame that the set waits for, delivers its units. -/
def Obligations.FrameArrives : Prop :=
  ∀ (s : State) (i n fixed : Nat) (line body : List Byte) (h : FrameHdr) (r : RxCh) (x : LaneSet),
    FabThere s → i < 256 → r = rxAt s i → r.lock = true → r.code = .inSet → r.slot = some n → r.away = none →
    bitOf (osumMask s) (i / 8) = false → discovering s (i / 8) = false →
    takeLine (line.drop 16) = some (body, fixed) → crcOk body = true → h = readHdr body →
    h.version = 1 → h.type < 2 → h.clean = true → h.dest = ownId s → h.channel = r.channel → h.plane = i / 8 →
    h.src = r.source → h.tag = r.tag → h.nakValid = false → bitOf h.fault 15 = false → h.claim = 0 →
    isEndMark s n r h = false → setAt s n r.source r.rel = some x →
    lsnDist x.ackLsn h.ack ≤ lsnDist x.ackLsn x.nextLsn →
    (h.type = 0 → ∃ s', exec (.laneFrameRx i line) s = .next s' ∧
      setAt s' n r.source r.rel = some { acked x h.ack with opened := true } ∧
      rxAt s' i = { r with held := h.hold } ∧ s'.fab.inbox = s.fab.inbox ∧ s'.mem = s.mem) ∧
    (h.type = 1 → x.rxHeld = [] → h.lsn = x.rxNext → ∃ s', exec (.laneFrameRx i line) s = .next s' ∧
      setAt s' n r.source r.rel = some { acked x h.ack with opened := true, rxNext := (x.rxNext + 1) % 65536 } ∧
      s'.fab.inbox = s.fab.inbox ++ (payloadUnits h (body.drop 32)).1.map (fun u => ⟨h.src, h.dest, h.claim, u⟩) ∧
      s'.mem = s.mem)

/-- R250, R266: what gaining and losing marker lock, loss of signal and the limits of the decoder do
to a receive channel. -/
def Obligations.ReceiveChannelFaults : Prop :=
  ∀ (s : State) (i : Nat) (r : RxCh), FabThere s → i < 256 → r = rxAt s i →
    (r.code ≠ .off → r.lock = false → ∃ s', exec (.markerLockGained i) s = .next s' ∧
      rxAt s' i = { r with
        lock := true,
        code := if r.code = .listen ∧ r.slot ≠ none ∧ rxWaits s i = false ∧ discovering s (i / 8) = false then .inSet
          else r.code } ∧ ∀ j, j ≠ i → rxAt s' j = rxAt s j) ∧
    (r.code = .inSet → r.held = false → bitOf (osumMask s) (i / 8) = false → rxWaits s i = false → darkOpen s (i / 8) = false →
      (r.lock = true → ∃ s', exec (.markerLockLost i) s = .next s' ∧
        rxAt s' i = { r with lock := false, code := .fault, reason := 2 } ∧ ∀ j, j ≠ i → rxAt s' j = rxAt s j) ∧
      (∃ s', exec (.los i) s = .next s' ∧
        rxAt s' i = { r with lock := false, code := .fault, reason := 1 } ∧ ∀ j, j ≠ i → rxAt s' j = rxAt s j) ∧
      (fabPolicy s 7 4 ≤ (r.uncorr.filter (fun t => decide (nowNs s < t + 1000000))).length →
        ∃ s', exec (.fecUncorrLimit i) s = .next s' ∧
        rxAt s' i = { r with code := .fault, reason := 3 } ∧ ∀ j, j ≠ i → rxAt s' j = rxAt s j) ∧
      (∃ s', exec (.fecDegraded i) s = .next s' ∧
        rxAt s' i = { r with code := .fault, reason := 4 } ∧ ∀ j, j ≠ i → rxAt s' j = rxAt s j))

/-- R263, R267 to R269: the timers of a lane set ask for and resend what is missing; a lane that
fails leaves its set with its frames; it and a receive channel return; a set that has died is
closed and empty. -/
def Obligations.LaneSetRecovery : Prop :=
  ∀ (s : State) (n d i : Nat) (x : LaneSet) (new : Bool), FabThere s → n < 16 → i < 256 → setAt s n d new = some x →
    (x.rxHeld ≠ [] → ∃ s', exec (.nakTimer n d) s = .next s' ∧ setAt s' n d new = some { x with nak := some x.rxNext }) ∧
    (∀ f fs, x.frames = f :: fs → ∃ s', exec (.replayTimeout n d) s = .next s' ∧
      ∃ y, setAt s' n d new = some y ∧ f.lsn ∈ y.resend ∧ y.frames = x.frames ∧ ∀ m ∈ x.resend,
        m ∈ x.frames.map (·.lsn) → m ∈ y.resend) ∧
    (∀ reason, 8 ≤ reason → reason ≤ 13 → (laneAt s i).slot = some n → (laneAt s i).dest = d → (laneAt s i).rel = new →
      (laneAt s i).code = .inSet → laneWaits s i = false → ∃ s', exec (.laneFault i reason) s = .next s' ∧
        laneAt s' i = { laneAt s i with code := .fault, reason := reason, retune := false, buf := [] } ∧
        ∃ y, setAt s' n d new = some y ∧ y.frames = x.frames.map (fun f =>
            if (laneAt s i).buf.contains f.lsn then { f with lost := some (chipOf i) } else f) ∧
          ∀ m ∈ (laneAt s i).buf, m ∈ x.frames.map (·.lsn) → m ∈ y.resend) ∧
    ((laneAt s i).slot = some n → (laneAt s i).code = .fault → darkOpen s (i / 8) = false → laneWaits s i = false →
      ∀ m, laneLaser s i = some m → (laserAt s (chipOf i) m).code = .lit → (laserAt s (chipOf i) m).isOpen = true →
        (laserAt s (chipOf i) m).channel = (laneAt s i).channel → ∃ s', exec (.laneReadmit false i) s = .next s' ∧
          laneAt s' i = { laneAt s i with code := .inSet, retune := false }) ∧
    ((rxAt s i).slot = some n → (rxAt s i).code = .fault → (rxAt s i).lock = true → (rxAt s i).stuck = false →
      darkOpen s (i / 8) = false → rxWaits s i = false → (ringAt s (chipOf i) (elemOf i)).code ≠ .failed →
      ∃ s', exec (.laneReadmit true i) s = .next s' ∧ rxAt s' i = { rxAt s i with code := .inSet }) ∧
    (new = false → x.dead = false → waitsDark s n d false = false → ∃ s', exec (.lanesetDead n d) s = .next s' ∧
      ∃ y, setAt s' n d false = some y ∧ y.dead = true ∧ y.closed = true ∧ y.queue = [] ∧ y.frames = [] ∧ y.resend = [] ∧
        ∀ j ∈ s.coll.insts, j.fail = none → (s.job.colls[j.desc]?).map (·.slot) = some n → (∃ p ∈ j.peers, p.module = d) → { j with fail := some (1, d) } ∈ s'.coll.insts)

/-- R273, R274, R276: a discovery begins its rounds at START, 50 microseconds apart, and its end
counts the slots by what was heard on them. -/
def Obligations.DiscoveryRuns : Prop :=
  ∀ (s : State) (d : Disc), d = s.fab.disc →
    (d.code = 1 → d.start ≤ nowNs s → ∃ s', exec .discoveryRound s = .next s' ∧
      s'.fab.disc = { d with code := 2, round := 0 } ∧ s'.mem = s.mem) ∧
    (d.code = 2 → d.round < 7 → d.start + (d.round + 1) * 50000 ≤ nowNs s → ∃ s', exec .discoveryRound s = .next s' ∧
      s'.fab.disc = { d with code := 2, round := d.round + 1 } ∧ s'.mem = s.mem) ∧
    (d.code = 2 → d.round = 7 → d.start + 400000 ≤ nowNs s → ∃ s', exec .discoveryEnd s = .next s' ∧
      s'.fab.disc = { d with code := 3 } ∧
      s'.fab.summary = [NeighCode.present, .absent, .unplanned, .quarantined].map (fun c =>
        (((List.range 32).filter (bitOf d.mask)).flatMap (fun p =>
          (List.range 32).filter (fun k => (judgeSlot s p k).code = c))).length) ∧
      (quarantineWhy s ≠ none → s'.fab.quar = true))

namespace Sys2Proof.Machine

/-- What a release on another plane leaves of a set: all but the order of its resends. -/
def setKept (x : LaneSet) : Nat × List OutUnit × List DataFrame × Bool := (x.dest, x.queue, x.frames, x.closed)

end Sys2Proof.Machine

/-- R264, R296 to R298, R302: a SYNC trigger that has fired starts the switch to the next phase; a
set that has nothing unacknowledged closes; its lanes and channels are released with the tag of the
phase that they enter; a retuned lane enters its set. -/
def Obligations.PhaseSwitch : Prop :=
  ∀ (s : State) (n : Nat) (p : PlanSlot) (pl : Plan) (f : Phase), FabThere s → n < 16 → p = slotAt s n →
    p.code = .armed → p.plan = some pl → pl.phases[p.phase]? = some f →
    (p.switching = none → p.disarmDue = false → f.trig = 1 → p.fired = true → p.phase + 1 < pl.phases.length →
      (∃ i ∈ planeElems pl.mask, (laneAt s i).slot = some n ∧ (laneAt s i).rel = false ∧ setAt s n (laneAt s i).dest false ≠ none ∧
        bitOf (osumMask s) (i / 8) = false ∧ i / 8 ∉ s.fab.spineWait ∧ darkOpen s (i / 8) = false) →
      ∃ s', exec (.phaseTrigger n) s = .next s' ∧ (slotAt s' n).switching = some (.phase (p.phase + 1)) ∧
        (slotAt s' n).phase = p.phase ∧ (slotAt s' n).sets.map setKept = p.sets.map setKept) ∧
    (p.switching ≠ none → ∀ d x, setAt s n d false = some x → x.queue = [] → x.frames = [] → x.resend = [] →
      (∃ i ∈ planeElems pl.mask, (laneAt s i).slot = some n ∧ (laneAt s i).rel = false ∧ setAt s n (laneAt s i).dest false ≠ none ∧
        bitOf (osumMask s) (i / 8) = false ∧ i / 8 ∉ s.fab.spineWait ∧ darkOpen s (i / 8) = false) →
      ∃ s', exec (.lanesetClosed n d) s = .next s' ∧ setAt s' n d false = some { x with closed := true } ∧
        (∀ e, e ≠ d → (setAt s' n e false).map setKept = (setAt s n e false).map setKept) ∧ s'.mem = s.mem) ∧
    (∀ q g d x i, p.switching = some (.phase q) → pl.phases[q]? = some g → setAt s n d false = some x → x.closed = true →
      incomingEnded s n d = true → i ∈ planeElems pl.mask → (laneAt s i).slot = some n → (laneAt s i).rel = false →
      (laneAt s i).dest = d → ∃ s', exec (.laneRelease n d) s = .next s' ∧
        (laneAt s' i).slot = some n ∧ (laneAt s' i).tag = n + 16 * q ∧ (laneAt s' i).buf = []) ∧
    (∀ i m, i < 256 → (laneAt s i).retune = true → (laneAt s i).slot = some n → (laneAt s i).code = .dark →
      laneWaits s i = false → laneLaser s i = some m → (laserAt s (chipOf i) m).channel = (laneAt s i).channel →
      isLit (laserAt s (chipOf i) m) = true → ∃ s', exec (.retuneDone i) s = .next s' ∧
        laneAt s' i = { laneAt s i with retune := false, code := .inSet })

/-- R303, R306: a lane or a receive channel that is not ready 5 microseconds after its release is
recorded and faulty; a dark window takes the lanes and channels of its plane, and gives them back. -/
def Obligations.GapsAndDarkWindows : Prop :=
  ∀ (s : State) (i : Nat), FabThere s → i < 256 →
    ((laneAt s i).retune = true → (laneAt s i).slot ≠ none → (laneAt s i).relAt + 5000 ≤ nowNs s →
      (laneAt s i).code = .dark → laneWaits s i = false → ∃ s', exec (.phaseGapOverrun false i) s = .next s' ∧
        (laneAt s' i).code = .fault ∧ (laneAt s' i).reason = 8 ∧ (laneAt s' i).retune = false) ∧
    ((rxAt s i).code = .listen → (rxAt s i).slot ≠ none → (rxAt s i).lock = false → (rxAt s i).relAt + 5000 ≤ nowNs s →
      rxWaits s i = false → darkOpen s (i / 8) = false → bitOf (osumMask s) (i / 8) = false →
      ∃ s', exec (.phaseGapOverrun true i) s = .next s' ∧
        (rxAt s' i).code = .fault ∧ (rxAt s' i).reason = 2) ∧
    (∀ w ∈ s.fab.windows, w.isOpen = false → w.start ≤ nowNs s → w.plane = i / 8 → (laneAt s i).code = .inSet →
      (rxAt s i).code = .inSet → armedSlots s = [] → ∃ s', exec .darkWindowOpen s = .next s' ∧
        { w with isOpen := true } ∈ s'.fab.windows ∧ (laneAt s' i).code = .darkWindow ∧ (rxAt s' i).code = .darkWindow) ∧
    (∀ w ∈ s.fab.windows, w.isOpen = true → w.finish ≤ nowNs s → ∃ s', exec .darkWindowClose s = .next s' ∧
      (∀ v ∈ s'.fab.windows, v ∈ s.fab.windows ∧ ¬ (v.isOpen = true ∧ v.finish ≤ nowNs s)) ∧
      w.plane ∉ s'.fab.spineWait ∧ s'.fab.lanes = s.fab.lanes ∧ s'.mem = s.mem)

/-! ### Remote operations (chapter 7) -/

namespace Sys2Proof.Machine

/-- R230: the checks that a unit of another module passes here. -/
def FromPeer (s : State) (x : InUnit) : Prop :=
  x.dest = ownId s ∧ claimOk s x.src x.claim = true ∧ s.red.state ≠ .fenced

end Sys2Proof.Machine

/-- R27, R229 to R234: an FSIG that arrives adds its number once, and an FPUT of one unit writes its
bytes and adds 1, each in the order of its stream; a copy is discarded; the restart of an FPUT asks
the surviving twin for it from its first byte. -/
def Obligations.RemoteOperations : Prop :=
  (∀ (s : State) (x : InUnit) (rest : List InUnit) (key : Nat) (r : RemoteIn), s.fab.inbox = x :: rest → FromPeer s x →
    key = streamKey s x.src x.u.stream → r = Cells.get {} s.sync.remote key →
    (x.u.kind = 2 → remoteObj x.u.object = true → x.u.opseq = r.next →
      ∃ s', exec .remoteOperationRx s = .next s' ∧ s'.fab.inbox = rest ∧
        syncGet s' x.u.object = syncGet s x.u.object + BitVec.ofNat 64 x.u.addr ∧
        (∀ o, o ≠ x.u.object → syncGet s' o = syncGet s o) ∧
        (Cells.get {} s'.sync.remote key).next = (x.u.opseq + 1) % 2 ^ 32 ∧ s'.mem = s.mem) ∧
    (x.u.kind = 1 → x.u.stream ≠ 0xFF → remoteObj x.u.object = true → x.u.opseq = r.next → r.supplier = none → r.got = 0 →
      x.u.offset = 0 → x.u.data ≠ [] → x.u.total = x.u.data.length → x.u.total ≤ 992 →
      fputOk x.u.addr x.u.data.length = true → Writable s 256 x.u.addr x.u.data.length →
      ∃ s', exec .remoteOperationRx s = .next s' ∧ s'.fab.inbox = rest ∧
        syncGet s' x.u.object = syncGet s x.u.object + 1#64 ∧
        (Cells.get {} s'.sync.remote key).next = (x.u.opseq + 1) % 2 ^ 32 ∧
        ∀ a, memByte s'.mem.cells a =
          if (keyOf s 256 x.u.addr x.u.data.length).getD 0 ≤ a ∧
              a < (keyOf s 256 x.u.addr x.u.data.length).getD 0 + x.u.data.length then
            x.u.data.getD (a - (keyOf s 256 x.u.addr x.u.data.length).getD 0) 0
          else memByte s.mem.cells a) ∧
    (x.u.kind = 2 → remoteObj x.u.object = true → seqBehind r.next x.u.opseq = true → r.lost ≠ some x.src →
      ∃ s', exec .remoteOperationRx s = .next s' ∧ s'.fab.inbox = rest ∧ s'.sync = s.sync ∧ s'.mem = s.mem)) ∧
  ∀ (s : State) (failed l : Nat) (e : AccEntry) (key n : Nat) (y : LaneSet), FabThere s → e = accOf s failed →
    e.valid = true → e.twin = true → key = streamKey s failed l → (Cells.get {} s.sync.remote key).supplier = some failed →
    (Cells.get {} s.sync.remote key).lost ≠ some e.partner → s.red.state ≠ .fenced → reachSlot s e.partner = some n → setAt s n e.partner false = some y →
    ∃ s', exec (.syncTwinRestart failed l) s = .next s' ∧ (Cells.get {} s'.sync.remote key).supplier = some e.partner ∧
      (Cells.get {} s'.sync.remote key).got = 0 ∧ (Cells.get {} s'.sync.remote key).next = (Cells.get {} s.sync.remote key).next ∧
      ∃ u us, setAt s' n e.partner false = some { y with queue := u :: us } ∧ us = y.queue ∧ u.u.kind = 6 ∧ u.u.stream = l ∧
        u.u.opseq = (Cells.get {} s.sync.remote key).next

/-- R115, R136, R137, R299, R316: the head of a tile's fabric queue: CPOST gives an instance the lowest
free context; FSIG to this module adds; and once a phase reaches the destination, FSIG to another is
placed at the end of its set's queue. -/
def Obligations.FabricQueue : Prop :=
  ∀ (s : State) (t : Nat) (x : Tile) (e : QEntry) (es : List QEntry) (i : Insn), t < s.tiles.length → x = tileAt s t →
    x.code = .running → s.pwr.tripped = false → x.fq = e :: es → e.handed = false → i = insnOf e.word → entryFree x e = true →
    (i.op = 0xD0 → i.imm < s.job.colls.length → i.imm < 1024 → (∀ j ∈ s.coll.insts, j.desc ≠ i.imm) → ∀ c < 16,
      (∀ j ∈ s.coll.insts, j.ctx ≠ c) → (∀ b < c, ∃ j ∈ s.coll.insts, j.ctx = b) →
      ∃ s', exec (.queueEntryCompletion t .fabric 0 []) s = .next s' ∧ tileAt s' t = { x with fq := es } ∧
        s'.coll.insts = s.coll.insts ++ [{
          ctx := c, desc := i.imm, num := Cells.get 0 s.coll.nums i.imm,
          src := (aGet x i.a).toNat, dst := (aGet x i.b).toNat }]) ∧
    (i.op = 0xD2 → remoteObj (bits i.imm 29 16) = true → i.imm % 65536 = ownId s →
      ∃ s', exec (.queueEntryCompletion t .fabric 0 []) s = .next s' ∧
        tileAt s' t = { x with fq := es, wait := (woken (bits i.imm 29 16)
          (syncGet s (bits i.imm 29 16) + BitVec.ofNat 64 (sGet x i.b).toNat) x).wait } ∧
        syncGet s' (bits i.imm 29 16) = syncGet s (bits i.imm 29 16) + BitVec.ofNat 64 (sGet x i.b).toNat) ∧
    (i.op = 0xD2 → remoteObj (bits i.imm 29 16) = true → i.imm % 65536 ≠ ownId s → planned s (i.imm % 65536) = true →
      FabThere s → ∀ n y, openSlotTo s (x.logical.getD 0) (i.imm % 65536) = some n → setAt s n (i.imm % 65536) false = some y →
      ∃ s' u, exec (.fabricEntryRelease t) s = .next s' ∧ tileAt s' t = { x with fq := es } ∧
        setAt s' n (i.imm % 65536) false = some { y with queue := y.queue ++ [u] } ∧ u.u.kind = 2 ∧
        u.u.stream = x.logical.getD 0 ∧ u.u.addr = (sGet x i.b).toNat ∧ u.u.object = bits i.imm 29 16 ∧
        u.u.opseq = nextOp s (i.imm % 65536) (x.logical.getD 0))

/-! ### Collectives (chapter 10) -/

/-- R316 to R319, R321, R322: an instance that passes its checks begins; CREDIT raises what a peer has
granted; a complete instance leaves its context and makes its adds; one that is to fail ends with its
status, and the job with it. -/
def Obligations.CollectiveInstances : Prop :=
  ∀ (s : State) (i : Inst), i ∈ s.coll.insts → (∀ j ∈ s.coll.insts, j.ctx = i.ctx → j = i) →
    (i.begun = false → i.fail = none → startFault s i = none → streamHeld s i = false →
      ∃ s' i', exec (.collInstanceStart i.ctx) s = .next s' ∧ instAt s' i.ctx = some i' ∧ i'.begun = true ∧ i'.fail = none ∧
        i'.desc = i.desc ∧ i'.num = i.num ∧ i'.peers.map (·.module) = (peersOf s i).map (·.module)) ∧
    (∀ x rest p, s.fab.inbox = x :: rest → x.u.kind = 3 → FromPeer s x →
      seqBehind (Cells.get 0 s.coll.rxSeq x.src) x.u.opseq = false → i.begun = true → i.fail = none →
      streamHeld s i = false → x.u.addr % 1024 = i.desc → bits x.u.addr 31 16 = i.num → bits x.u.addr 35 32 = 1 →
      (∀ j ∈ s.coll.insts, j.desc = i.desc → j = i) → p ∈ i.peers → p.module = x.src →
      (∀ q ∈ i.peers, q.module = x.src → q = p) →
      ∃ s' i' q, exec .collUnitRx s = .next s' ∧ s'.fab.inbox = rest ∧
        Cells.get 0 s'.coll.rxSeq x.src = (x.u.opseq + 1) % 2 ^ 32 ∧ instAt s' i.ctx = some i' ∧
        q ∈ i'.peers ∧ q.module = x.src ∧ q.granted = max p.granted x.u.total) ∧
    (instDone s i = true → bitOf (descOf s i).degObj 15 = false →
      ∃ s', exec (.collInstanceComplete i.ctx) s = .next s' ∧ instAt s' i.ctx = none ∧
        (bitOf (descOf s i).sync 15 = true → syncGet s' ((descOf s i).sync % 16384) =
          syncGet s ((descOf s i).sync % 16384) + BitVec.ofNat 64 (descOf s i).addend) ∧
        (bitOf (descOf s i).sync 15 = false → s'.sync = s.sync)) ∧
    (∀ status peer, jobRunning s = true → s.job.ending = none → s.coll.insts = [i] →
      (i.fail = some (status, peer) → status ≠ 7 → ∃ s', exec (.collInstanceEnd i.ctx) s = .next s' ∧ s'.coll.insts = [] ∧
        s'.coll.lastValid = true ∧ s'.coll.lastDesc = i.desc ∧ s'.coll.lastStatus = status ∧ s'.coll.lastPeer = peer ∧
        s'.job.ending = some ⟨1, 0, 0, 0⟩) ∧
      (i.begun = true → i.fail = none → regField s rCollPolicy 0 [] 7 0 ≠ 0 →
        ∃ s', exec (.collTimeout i.ctx) s = .next s' ∧ s'.coll.insts = [] ∧ s'.coll.lastStatus = 5 ∧
          s'.job.ending = some ⟨1, 0, 0, 0⟩))

/-- R326, R333, R334, R340: the bursts of a group that are due begin, and the first of them ends after
its time; where every fibre that hears anything kept it, its instance has taken the elements of its
spans from each contributor heard; a segment whose twin has failed is taken again from nothing. -/
def Obligations.BurstsAndSegments : Prop :=
  (∀ (s : State) (g : Nat), ∃ s', exec (.osumBurstStart g) s = .next s' ∧
    s'.coll.bursts = s.coll.bursts.map (fun b => { b with begun := b.begun || decide (b.group = g ∧ b.start ≤ nowNs s) }) ∧
    s'.sync = s.sync) ∧
  (∀ (s : State) (g : Nat) (b : Burst) (bs : List Burst) (fs : List FibreSeen), s.coll.bursts = b :: bs → b.group = g →
    b.begun = true → b.start + burstNs ≤ nowNs s → s.coll.insts = [] → armedSlots s = [] →
    ∃ s', exec (.osumBurstEnd g fs) s = .next s' ∧ s'.coll.bursts = bs ∧ s'.mem = s.mem ∧ s'.job = s.job) ∧
  (∀ (s : State) (g k : Nat) (b : Burst) (fs : List FibreSeen) (i : Inst) (p : CollPeer) (rs : Nat → List (Nat × Nat × Nat)),
    (s.coll.bursts.find? (fun b => decide (b.group = g) && b.begun && decide (b.start + burstNs ≤ nowNs s))) = some b →
    i ∈ s.coll.insts → i.desc = b.desc → instRuns i = true → (∀ j ∈ s.coll.insts, j.ctx = i.ctx ∨ j.desc = i.desc → j = i) →
    (s.job.colls[i.desc]?).any (·.degFail) = false → (∀ n < 16, (slotAt s n).switching = none) →
    (rs = fun f => fibreRxs s (4 * g + f)) →
    (∀ f < 4, rs f ≠ [] → discardWhy (rs f) (fs.getD f ⟨0, [], []⟩) = none) →
    p ∈ i.peers → (∀ q ∈ i.peers, q.module = p.module ∨ q.rank = p.rank → q = p) →
    ∃ s' i', exec (.osumBurstEnd g fs) s = .next s' ∧ instAt s' i.ctx = some i' ∧ i'.desc = i.desc ∧ i'.fail = none ∧
      segGot i' p.rank k = segGot i p.rank k +
        ((List.range 4).flatMap rs).countP (fun r => decide (r.2.2 = p.module)) *
          ((b.spans.filter (fun x => x.1 * 128 / segSize = k)).map (fun x => spanPart (descOf s i) x.1)).sum) ∧
  ∀ (s : State) (i : Inst) (rank seg m : Nat), i ∈ s.coll.insts → (∀ j ∈ s.coll.insts, j.ctx = i.ctx → j = i) →
    i.begun = true → i.fail = none → segSupplier i rank seg = some m → twinOf s m ≠ none → (descOf s i).ring = false →
    segGot i rank seg < segPart (streamLen s (descOf s i) rank (ownRank s i)) seg →
    ∃ s' i', exec (.collSegRestart i.ctx rank seg) s = .next s' ∧ instAt s' i.ctx = some i' ∧ segGot i' rank seg = 0 ∧
      segSupplier i' rank seg = none ∧ i'.peers = i.peers ∧ s'.sync = s.sync

/-! ### The host interface (chapter 14) -/

namespace Sys2Proof.Machine

/-- The row of the table that a command packet is. -/
def packetRow (h : Header) (op : Nat) (p : List Byte) : Instr :=
  match op with
  | 0x0101 => .genIdentify h p
  | 0x0102 => .sessionOpen h p
  | 0x0103 => .sessionClose h p
  | 0x0104 => .sessionKeepalive h p
  | 0x0201 => .regRead h p
  | 0x0202 => .regWrite h p
  | 0x0301 => .bulkWrite h p
  | 0x0302 => .bulkRead h p
  | 0x0401 => .jobLoad h ⟨p, []⟩
  | 0x0402 => .jobLaunch h p
  | 0x0403 => .jobAbort h p
  | 0x0404 => .syncSignal h p
  | 0x0501 => .planLoad h p
  | 0x0502 => .planArm h p
  | 0x0503 => .darkWindow h p
  | 0x0504 => .fabricDiscover h p
  | 0x0505 => .loopRearm h p
  | 0x0506 => .calRunLaser h p []
  | 0x0601 => .pwrSetState h p
  | 0x0602 => .pwrSetPlevel h p
  | 0x0701 => .timeSetAlarm h p
  | 0x0801 => .evtRead h p
  | 0x0802 => .evtSeal h p
  | 0x0901 => .fwBlock h p
  | 0x0902 => .fwVerify h p
  | 0x0903 => .fwActivate h p []
  | 0x0904 => .fwConfirm h p
  | 0x0905 => .fwRevert h p []
  | 0x0906 => .attestQuote h p
  | 0x0A01 => .pairConfigure h p
  | 0x0A02 => .pairRejoin h p
  | _ => .badOpcode h op p

/-- R433: port `n` has changed its link, and no other port has. -/
def LinkChanged (s s' : State) (n : Nat) (up : Bool) : Prop :=
  portUp s' n = up ∧ (∀ m, m ≠ n → portUp s' m = portUp s m) ∧
  s'.host.lostA = (if n < 4 then !netUp s' 0 else s.host.lostA) ∧
  s'.host.lostB = (if n < 4 then s.host.lostB else !netUp s' 1) ∧
  s'.host.session = s.host.session ∧ s'.host.held = s.host.held ∧ s'.job = s.job

/-- R443, R444: no session is open, its held commands and its transfers are gone, and the job and
memory stand. -/
def SessionGone (s s' : State) : Prop :=
  s'.host.open_ = false ∧ s'.host.session = 0 ∧ s'.host.held = [] ∧ s'.host.started = [] ∧ s'.host.bulks = [] ∧
  s'.job = s.job ∧ s'.mem = s.mem ∧ s'.tiles = s.tiles ∧ s'.sync = s.sync

end Sys2Proof.Machine

/-- R446, R450, R452, R458, R505: a command that a check stops has no effect, and is answered with
the check's status: RESETTING, BAD_OPCODE, STALE_CLAIM, PWR_NOT_RUN, BUSY or BAD_ARGUMENT. The order
of the checks is this model's choice (assumption 20). -/
def Obligations.CommandChecks : Prop :=
  ∀ (s : State) (h : Header) (op : Nat) (p : List Byte), InTurn s h (hostCmd op p []) →
    let stops := fun (st : Nat) => Completes (exec (packetRow h op p) s) s s h (hostCmd op p []) st []
    (resetting s op = true → stops 0x000B) ∧
    (s.rst.level = 0 → s.fw.running = true → s.fw.recovery = false →
      (cmdInfo op = none → stops 4) ∧
      ∀ i, cmdInfo op = some i →
        (i.required = true → inPair s = true → s.red.state ≠ .fenced → h.claim < s.red.claim → stops 6) ∧
        (i.required = true → s.red.state = .fenced → op ≠ 0x0403 → stops 6) ∧
        ((i.required = true → staleClaim h op s = false) →
          (notRunning s op = true → stops 0x0602) ∧
          (notRunning s op = false →
            (i.background = true → 4 ≤ s.host.started.length → stops 1) ∧
            ((i.background = true → s.host.started.length < 4) → i.sized p.length = false → stops 5))))

/-- R437 to R442, R449: GEN_IDENTIFY answers with 80 bytes and changes nothing; SESSION_OPEN is
evaluated, and opens a session where the owner has signed it and none is open or TAKEOVER is set;
SESSION_KEEPALIVE answers; and an opcode of the table's gaps is BAD_OPCODE. -/
def Obligations.SessionsOpen : Prop :=
  (∀ (s : State) (h : Header), h.port < 8 → portUp s h.port = true → hostServes s = true → h.session = 0 →
    (∃ s', exec (.genIdentify h []) s = .next s' ∧ s' = { s with host := s'.host, regs := s'.regs } ∧ RegsStand s s' ∧
      s'.host = { s.host with out := s.host.out ++ [⟨h.port, h.src, 0x0101, 0, h.seq, 0, s.red.claim, identifyBytes s⟩] } ∧
      (identifyBytes s).length = 80 ∧ leAt (identifyBytes s) 18 2 = ownId s ∧
      leAt (identifyBytes s) 72 4 = s.red.claim % 2 ^ 32) ∧
    ∀ p, p.length = 120 → resetting s 0x0102 = false →
      (∀ e ∈ s.host.evals, e.seq ≠ h.seq ∨ e.crc ≠ h.crc) → openFailures s < 8 → openFormed p = true →
      (openSigned p s = true → (s.host.open_ = true → bitOf (leAt p 20 1) 0 = true) →
        ∃ s', exec (.sessionOpen h p) s = .next s' ∧ s'.host.open_ = true ∧ s'.host.session = leAt p 16 4 ∧
          s'.host.next = 1 ∧ s'.host.evals.head? = some ⟨h.seq, h.crc, 0⟩ ∧ s'.job = s.job ∧
          s'.mem = s.mem ∧ s'.host.out.getLast? = some ⟨h.port, h.src, 0x0102, 0, h.seq, 0, s.red.claim, []⟩) ∧
      (openSigned p s = false →
        ∃ s', exec (.sessionOpen h p) s = .next s' ∧ s'.host.open_ = s.host.open_ ∧ s'.host.session = s.host.session ∧
          s'.host.evals.head? = some ⟨h.seq, h.crc, 7⟩ ∧ s'.host.held = s.host.held ∧ s'.job = s.job ∧
          s'.host.out = s.host.out ++ [⟨h.port, h.src, 0x0102, 0, h.seq, 7, s.red.claim, []⟩])) ∧
  (∀ (s : State) (h : Header), Admitted s h (hostCmd 0x0104 [] []) →
    Completes (exec (.sessionKeepalive h []) s) s s h (hostCmd 0x0104 [] []) 0 []) ∧
  ∀ (s : State) (h : Header) (op : Nat) (p : List Byte), InTurn s h (hostCmd op p []) → cmdInfo op = none → s.rst.level = 0 →
    s.fw.running = true → Completes (exec (.badOpcode h op p) s) s s h (hostCmd op p []) 4 []

/-- R433, R436, R440, R443, R444, R446, R449, R459: how sessions close; the nonce and the kept
evaluations in time; discards; ports; and commands that have been held. -/
def Obligations.SessionsAndPorts : Prop :=
  (∀ (s : State) (h : Header), Admitted s h (hostCmd 0x0103 [] []) → ∃ s', exec (.sessionClose h []) s = .next s' ∧
    SessionGone s s' ∧ (s.host.bulks = [] →
      s'.host.out = s.host.out ++ [⟨h.port, h.src, 0x0103, h.session, h.seq, 0, s.red.claim, []⟩])) ∧
  ∀ (s : State),
    (s.host.open_ = true →
      ((netUp s 0 = true ∨ netUp s 1 = true) → ∃ s', exec .sessionIdleTimeout s = .next s' ∧ SessionGone s s') ∧
      (netUp s 0 = false → netUp s 1 = false → exec .sessionIdleTimeout s = .next s)) ∧
    (hostServes s = true → ∃ s', exec .nonceRefresh s = .next s' ∧
      s' = { s with fresh := s.fresh + 1, host := { s.host with nonce := s'.host.nonce } } ∧ s'.host.nonce.length = 16) ∧
    exec .sessionOpenEvalExpiry s = .next { s with host := { s.host with evals := s.host.evals.dropLast } } ∧
    (hostServes s = true →
      (∀ w, w = .crc ∨ w = .udpLength ∨ w = .format → ∃ s', exec (.zcpPacketDiscard w) s = .next s' ∧ s' = { s with regs := s'.regs } ∧
        regGet s' rHostCount 0 [if w = .crc then 2 else 3] =
          satAdd 64 (regGet s rHostCount 0 [if w = .crc then 2 else 3]) 1 ∧
        ∀ a d, a ≠ regAddr rHostCount 0 [if w = .crc then 2 else 3] → Cells.get d s'.regs a = Cells.get d s.regs a) ∧
      ∀ n, n < 8 → portUp s n = true →
        (∀ w, w = .fragment n ∨ w = .options n ∨ w = .udpSum n ∨ w = .noProtocol n ∨ w = .pause n ∨ w = .tag n ∨ w = .long n →
          ∃ s', exec (.zcpPacketDiscard w) s = .next s' ∧ s' = { s with regs := s'.regs } ∧
            regGet s' rHostPortCount 0 [n, 0] = satAdd 64 (regGet s rHostPortCount 0 [n, 0]) 1 ∧
            (w = .noProtocol n → regGet s' rHostPortCount 0 [n, 5] = satAdd 64 (regGet s rHostPortCount 0 [n, 5]) 1)) ∧
        (∀ src a, isIp4 s n a = true → ∃ s', exec (.zcpPacketDiscard (.arp n src a)) s = .next s' ∧
          s'.host = { s.host with answers := s.host.answers ++ [⟨.arp, n, src, a, []⟩] } ∧ s'.mem = s.mem) ∧
        (∀ src a, isIp6 s n a = true → ∃ s', exec (.zcpPacketDiscard (.neighbour n src a)) s = .next s' ∧
          s'.host = { s.host with answers := s.host.answers ++ [⟨.neighbour, n, src, a, []⟩] } ∧ s'.mem = s.mem) ∧
        (∀ six src a data, (if six then isIp6 s n a else isIp4 s n a) = true →
          ∃ s', exec (.zcpPacketDiscard (.echo six n src a data)) s = .next s' ∧
          s'.host = { s.host with answers := s.host.answers ++ [⟨.echo, n, src, a, data⟩] } ∧ s'.mem = s.mem) ∧
        (∀ six src a data, (if six then isIp6 s n a else isIp4 s n a) = false →
          ∃ s', exec (.zcpPacketDiscard (.echo six n src a data)) s = .next s' ∧ s' = { s with regs := s'.regs })) ∧
    (s.host.ports.length = 8 → ∀ n, n < 8 →
      (portMayRise s n = true → ∃ s', exec (.portLinkUp n) s = .next s' ∧ LinkChanged s s' n true) ∧
      (portUp s n = true → ∃ s', exec (.portLinkDown n) s = .next s' ∧ LinkChanged s s' n false)) ∧
    (∀ d ∈ s.host.held, d.hdr.seq = s.host.next → (∀ e ∈ s.host.held, e.hdr.seq = d.hdr.seq → e = d) →
      mayStart d.cmd s = true → exec .heldCommandStart s = .next (runStart d.hdr d.cmd d.copies
        { s with host := { s.host with
          held := s.host.held.filter (fun e => e.hdr.seq ≠ d.hdr.seq), next := (s.host.next + 1) % 2 ^ 32 } })) ∧
    (s.host.switching = true →
      (s.host.held = [] → exec .commandHoldExpiry s = .next { s with host := { s.host with switching := false } }) ∧
      ∀ d, s.host.held = [d] → d.hdr.seq = s.host.next → s.host.started = [] → d.copies = [] →
        portUp s d.hdr.port = true → resetting s d.cmd.opcode = true →
        ∃ s', exec .commandHoldExpiry s = .next s' ∧ s'.host.held = [] ∧ s'.host.switching = false ∧
          s'.host.out = s.host.out ++ [⟨d.hdr.port, d.hdr.src, d.cmd.opcode, d.hdr.session, d.hdr.seq, 0x000B, s.red.claim, []⟩])

/-- R8, R453, R470, R505: REG_READ answers with the register's value in 8 bytes, a read of TIME_NOW_S
keeps the nanoseconds for TIME_NOW_NS, and a read that cannot be served changes nothing. -/
def Obligations.RegisterReads : Prop :=
  (∀ (s : State) (h : Header) (p : List Byte) (r : RegRow) (inst : Nat) (ix : List Nat), Admitted s h (hostCmd 0x0201 p []) →
    (namedReg p = none → Completes (exec (.regRead h p) s) s s h (hostCmd 0x0201 p []) 5 []) ∧
    (namedReg p = some (r, inst, ix) →
      (regOff s r inst = true → Completes (exec (.regRead h p) s) s s h (hostCmd 0x0201 p []) 0x0602 []) ∧
      (regOff s r inst = false →
        (windowBusy s r inst = true → Completes (exec (.regRead h p) s) s s h (hostCmd 0x0201 p []) 1 []) ∧
        (windowBusy s r inst = false → Completes (exec (.regRead h p) s) s
          { s with
            time := { s.time with latch := if r.name = .TIME_NOW_S then s.time.ns else s.time.latch }
            fresh := s.fresh + if readsFree r ix then 1 else 0 }
          h (hostCmd 0x0201 p []) 0 (leBytes 8 (regValue (begun h (hostCmd 0x0201 p []) s) r inst ix)))))) ∧
  (∀ (s : State) (h : Header), Admitted s h (hostCmd 0x0201 (leBytes 4 (regAddr rTimeNowS 0 []) ++ leBytes 1 8 ++ leBytes 3 0) []) →
    Completes (exec (.timeNowSRead h) s) s { s with time := { s.time with latch := s.time.ns } } h
      (hostCmd 0x0201 (leBytes 4 (regAddr rTimeNowS 0 []) ++ leBytes 1 8 ++ leBytes 3 0) []) 0 (leBytes 8 (s.time.sec % 2 ^ 48))) ∧
  ∀ (s : State) (i : Nat), i < 16384 → regValue s rSyncValue 0 [i] = (syncGet s i).toNat

/-! ### Writes of registers that act (R8, R453 and the maps of each chapter) -/

namespace Sys2Proof.Machine

/-- The command that writes a register. -/
def writeOf (r : RegRow) (inst : Nat) (ix : List Nat) (v : Nat) (meas : List Int) : HostCmd :=
  (hostCmd 0x0202 (writePayload r inst ix v) meas)

/-- A write of a register is executed as it arrives, is answered with OK, and leaves `s'`. -/
def Written (o : Host.Outcome State Fault Refusal) (s : State) (h : Header) (c : HostCmd) (P : State → Prop) : Prop :=
  ∃ s', o = .next s' ∧ Answers s s' h c 0 [] ∧ P s'

/-- R220 to R222: an operation on a sync object has left `v` in it, and ended the waits it meets. -/
def ObjectSet (s s' : State) (o : Nat) (v : W64) : Prop :=
  syncGet s' o = v ∧ (∀ p, p ≠ o → syncGet s' p = syncGet s p) ∧ (∀ u, tileAt s' u = woken o v (tileAt s u)) ∧
  s'.mem = s.mem ∧ s'.job = s.job

/-- R92, R104: tile `t` is TESTING, with its island reset and its scratch lost; the rest stands. -/
def TestStarts (s s' : State) (t : Nat) (k : TestKind) : Prop :=
  (tileAt s' t).code = .testing ∧ (tileAt s' t).test = k ∧ (tileAt s' t).logical = (tileAt s t).logical ∧
  (tileAt s' t).pc = 0 ∧ (tileAt s' t).srng = 0xACE1#16 ∧ (∀ u, u ≠ t → tileAt s' u = tileAt s u) ∧
  ∀ a, memByte s'.mem.cells a =
    if scratchBase t ≤ a ∧ a < scratchBase t + scratchSize then 0 else memByte s.mem.cells a

end Sys2Proof.Machine

/-- R59, R74, R92, R94, R96, R98, R106: TILE_CTRL starts a self-test, retires a tile in favour of the
nearest spare, or tests a retired tile to restore it, each only from the states it admits, and
otherwise sets CMD_REJ; TILE_SRNG takes a seed, and 0xACE1 for 0. -/
def Obligations.TileRegisterWrites : Prop :=
  ∀ (s : State) (h : Header) (t : Nat), s.tiles.length = 156 → t < 156 → s.pwr.current < 2 →
    (Admitted s h (writeOf rTileCtrl t [] 1 []) →
      ((tileAt s t).code = .spare ∨ (tileAt s t).code = .ready ∨ (tileAt s t).code = .faulted →
        Written (exec (.tileCtrlSelftest h t) s) s h (writeOf rTileCtrl t [] 1 []) (fun s' => TestStarts s s' t .plain)) ∧
      ((tileAt s t).code = .running ∨ (tileAt s t).code = .halted ∨ (tileAt s t).code = .testing ∨
          (tileAt s t).code = .retired →
        Completes (exec (.tileCtrlSelftest h t) s) s (setTile t { tileAt s t with cmdRej := true } s) h
          (writeOf rTileCtrl t [] 1 []) 0 [])) ∧
    (Admitted s h (writeOf rTileCtrl t [] 2 []) →
      (∀ l, (tileAt s t).code = .ready ∨ (tileAt s t).code = .faulted → (tileAt s t).logical = some l →
        Written (exec (.tileCtrlRetire h t) s) s h (writeOf rTileCtrl t [] 2 []) (fun s' =>
          (tileAt s' t).code = .retired ∧ (tileAt s' t).logical = none ∧
          ((∀ q ∈ s.mem.migrate, q.2 ≠ l) → s'.mem.cells = s.mem.cells) ∧
          (nearestSpare s t = none → ∀ v, v ≠ t → tileAt s' v = tileAt s v) ∧
          ∀ u, nearestSpare s t = some u → tileAt s' u = { tileAt s u with code := .ready, logical := some l } ∧
            ∀ v, v ≠ t → v ≠ u → tileAt s' v = tileAt s v)) ∧
      ((tileAt s t).code ≠ .ready → (tileAt s t).code ≠ .faulted →
        Completes (exec (.tileCtrlRetire h t) s) s (setTile t { tileAt s t with cmdRej := true } s) h
          (writeOf rTileCtrl t [] 2 []) 0 [])) ∧
    (Admitted s h (writeOf rTileCtrl t [] 4 []) →
      ((tileAt s t).code = .retired →
        Written (exec (.tileCtrlRestore h t) s) s h (writeOf rTileCtrl t [] 4 []) (fun s' => TestStarts s s' t .restore)) ∧
      ((tileAt s t).code ≠ .retired →
        Completes (exec (.tileCtrlRestore h t) s) s (setTile t { tileAt s t with cmdRej := true } s) h
          (writeOf rTileCtrl t [] 4 []) 0 [])) ∧
    ∀ v, v < 2 ^ 32 → Admitted s h (writeOf rTileSrng t [] v []) →
      Completes (exec (.tileSrngWrite h t v) s) s
        (setTile t { tileAt s t with srng := if v % 65536 = 0 then 0xACE1#16 else BitVec.ofNat 16 v } s) h
        (writeOf rTileSrng t [] v []) 0 []

/-- R220 to R222, R224, R225: SYNC_SIGNAL and writes of SYNC_VALUE and SYNC_ADD set an object or add to
it, modulo 2^64, and end the waits that are met; SYNC_SIGNAL answers with the value. -/
def Obligations.SyncWrites : Prop :=
  (∀ (s : State) (h : Header) (p : List Byte), Admitted s h (hostCmd 0x0404 p []) →
    (leAt p 0 4 < 16384 → at1 p 4 < 2 → zeros p 5 3 = true →
      ∀ v, v = (if at1 p 4 = 0 then syncGet s (leAt p 0 4) + BitVec.ofNat 64 (leAt p 8 8) else BitVec.ofNat 64 (leAt p 8 8)) →
        ∃ s', exec (.syncSignal h p) s = .next s' ∧ Answers s s' h (hostCmd 0x0404 p []) 0 (leBytes 8 v.toNat) ∧
          ObjectSet s s' (leAt p 0 4) v) ∧
    (16384 ≤ leAt p 0 4 ∨ 2 ≤ at1 p 4 ∨ zeros p 5 3 = false →
      Completes (exec (.syncSignal h p) s) s s h (hostCmd 0x0404 p []) 5 [])) ∧
  ∀ (s : State) (h : Header) (i v : Nat), i < 16384 → v < 2 ^ 64 →
    (Admitted s h (writeOf rSyncValue 0 [i] v []) → Written (exec (.syncValueWrite h i v) s) s h
      (writeOf rSyncValue 0 [i] v []) (fun s' => ObjectSet s s' i (BitVec.ofNat 64 v))) ∧
    (Admitted s h (writeOf rSyncAdd 0 [i] v []) → Written (exec (.syncAddWrite h i v) s) s h
      (writeOf rSyncAdd 0 [i] v []) (fun s' => ObjectSet s s' i (syncGet s i + BitVec.ofNat 64 v)))

/-- R165, R169 to R173, R182, R183, R189: MEM_RETIRE_ADDR retires a row to a patch entry, or loses it
where none is free; MEM_STRIP_CTRL takes a strip out of service and trains it again to zeros; and
MEM_AS_REPAIR takes a spare row at once and asks for a spare column. -/
def Obligations.MemoryRegisterWrites : Prop :=
  (∀ (s : State) (h : Header) (a n row : Nat), s.mem.strips.length = 16 → a < 2 ^ 41 → n = stripOf a → row = rowOf a →
    Admitted s h (writeOf rMemRetireAddr 0 [] a []) →
    (ddrSize ≤ a → Completes (exec (.memRetireAddr h a) s) s s h (writeOf rMemRetireAddr 0 [] a []) 5 []) ∧
    (a < ddrSize → (stripAt s n).code ≠ .offline → row ∉ (stripAt s n).patch → row ∉ (stripAt s n).lost →
      Written (exec (.memRetireAddr h a) s) s h (writeOf rMemRetireAddr 0 [] a []) (fun s' =>
        s'.mem.cells = s.mem.cells ∧ (∀ m, m ≠ n → stripAt s' m = stripAt s m) ∧
        ((stripAt s n).patch.length < 16 → (stripAt s' n).patch = (stripAt s n).patch ++ [row] ∧
          (stripAt s' n).lost = (stripAt s n).lost) ∧
        (16 ≤ (stripAt s n).patch.length → (stripAt s' n).lost = (stripAt s n).lost ++ [row] ∧
          (stripAt s' n).patch = (stripAt s n).patch)))) ∧
  (∀ (s : State) (h : Header) (n : Nat) (r : StripTrain), s.mem.strips.length = 16 → n < 16 →
    (Admitted s h (writeOf rMemStripCtrl 0 [] (16 + n) []) → (stripAt s n).code ≠ .offline →
      Written (exec (.memStripOffline h n) s) s h (writeOf rMemStripCtrl 0 [] (16 + n) []) (fun s' =>
        (stripAt s' n).code = .offline ∧ (stripAt s' n).cause = 5 ∧ (∀ m, m ≠ n → stripAt s' m = stripAt s m) ∧
        s'.mem.cells = s.mem.cells)) ∧
    ∀ m : List Int, m = ((b2n r.fast : Nat) : Int) :: ((b2n r.slow : Nat) : Int) :: (r.pprLeft : Int) ::
        r.repaired.map (fun x => (x : Int)) → Admitted s h (writeOf rMemStripCtrl 0 [] (32 + n) m) →
      (stripAt s n).code = .offline →
      ((r.fast = true ∨ r.slow = true) → ((stripAt s n).lost.filter (fun x => !r.repaired.contains x)).length ≤ 16 →
        Written (exec (.memStripRestore h n r) s) s h (writeOf rMemStripCtrl 0 [] (32 + n) m) (fun s' =>
          ((stripAt s' n).code = .online ∨ (stripAt s' n).code = .degraded) ∧ (stripAt s' n).slow = !r.fast ∧
          (stripAt s' n).lost = (stripAt s n).lost.filter (fun x => !r.repaired.contains x) ∧
          (∀ k, k ≠ n → stripAt s' k = stripAt s k) ∧
          ∀ a, memByte s'.mem.cells a =
            if ddrBase + n * stripSize ≤ a ∧ a < ddrBase + n * stripSize + stripSize then 0
            else memByte s.mem.cells a)) ∧
      (r.fast = false → r.slow = false →
        Written (exec (.memStripRestore h n r) s) s h (writeOf rMemStripCtrl 0 [] (32 + n) m) (fun s' =>
          (stripAt s' n).code = .offline ∧ (stripAt s' n).cause = 1 ∧ s'.mem.cells = s.mem.cells))) ∧
  ∀ (s : State) (h : Header) (t bank i : Nat), t < 156 → bank < 32 → i < 8192 →
    (Admitted s h (writeOf rMemAsRepair 0 [] (t * 2 ^ 23 + bank * 2 ^ 18 + i) []) →
      (2048 ≤ i → Completes (exec (.memAsRepairRow h t bank i) s) s s h
        (writeOf rMemAsRepair 0 [] (t * 2 ^ 23 + bank * 2 ^ 18 + i) []) 5 []) ∧
      (i < 2048 → Cells.get 0 (sliceAt s t).rows bank < 16 →
        Written (exec (.memAsRepairRow h t bank i) s) s h (writeOf rMemAsRepair 0 [] (t * 2 ^ 23 + bank * 2 ^ 18 + i) [])
          (fun s' => Cells.get 0 (sliceAt s' t).rows bank = Cells.get 0 (sliceAt s t).rows bank + 1 ∧
            (sliceAt s' t).repaired = (sliceAt s t).repaired ++ [bank * 2048 + i] ∧ s'.mem.cells = s.mem.cells ∧
            s'.peat.totals.sliceRepairs = s.peat.totals.sliceRepairs + 1))) ∧
    (Admitted s h (writeOf rMemAsRepair 0 [] (2 ^ 31 + t * 2 ^ 23 + bank * 2 ^ 18 + i) []) →
      (4384 ≤ i → Completes (exec (.memAsRepairColumn h t bank i) s) s s h
        (writeOf rMemAsRepair 0 [] (2 ^ 31 + t * 2 ^ 23 + bank * 2 ^ 18 + i) []) 5 []) ∧
      (i < 4384 → bank * 4384 + i ∉ (sliceAt s t).colDue →
        Cells.get 0 (sliceAt s t).cols bank + ((sliceAt s t).colDue.filter (fun c => c / 4384 = bank)).length < 8 →
        Written (exec (.memAsRepairColumn h t bank i) s) s h
          (writeOf rMemAsRepair 0 [] (2 ^ 31 + t * 2 ^ 23 + bank * 2 ^ 18 + i) [])
          (fun s' => (sliceAt s' t).colDue = (sliceAt s t).colDue ++ [bank * 4384 + i] ∧ s'.mem.cells = s.mem.cells)))

/-- R353, R362, R363, R367, R372: FAB_LIGHT_CTRL schedules a swap with the first spare, and takes a worn
or failed laser, or a failed ring, back; what the element's state does not admit sets CMD_REJ.
FAB_EYE_CTRL restores the SAFE fibres of its mask once their hold is met, or then. -/
def Obligations.LightRegisterWrites : Prop :=
  ∀ (s : State) (h : Header) (c : Nat), ChipThere s c → s.pwr.current < 3 →
    (∀ i x, i < 36 → x = laserAt s c i → Admitted s h (writeOf rFabLightCtrl c [] (256 + i) []) →
      (∀ e m ms, x.slot = some e → x.swapDue = false → (x.code = .lit ∨ x.code = .dim ∨ x.code = .parked ∨ x.code = .acquire) →
        spareLasers s c = m :: ms →
        Written (exec (.fabLightSwap h c i) s) s h (writeOf rFabLightCtrl c [] (256 + i) []) (fun s' =>
          laserAt s' c i = { x with swapDue := true, swapTo := some m } ∧
          laserAt s' c m = { laserAt s c m with
            forSlot := some e, code := .acquire, isOpen := false, passed := false
            channel := swapTarget s (laneOf c e) })) ∧
      (x.slot = none ∨ x.swapDue = true ∨ x.code = .off ∨ x.code = .worn ∨ x.code = .failed →
        Written (exec (.fabLightSwap h c i) s) s h (writeOf rFabLightCtrl c [] (256 + i) []) (fun s' =>
          (chipAt s' c) = { chipAt s c with cmdRej := true }))) ∧
    (∀ i x, i < 36 → x = laserAt s c i → Admitted s h (writeOf rFabLightCtrl c [] (512 + i) []) →
      ((x.code = .worn ∨ x.code = .failed) →
        Written (exec (.fabLightRestore h c i false) s) s h (writeOf rFabLightCtrl c [] (512 + i) []) (fun s' =>
          laserAt s' c i = { x with
            slot := none, forSlot := none, tries := [], prior := some x.code
            code := .acquire, isOpen := false, channel := 0, passed := false })) ∧
      (x.code ≠ .worn → x.code ≠ .failed →
        Written (exec (.fabLightRestore h c i false) s) s h (writeOf rFabLightCtrl c [] (512 + i) []) (fun s' =>
          (chipAt s' c) = { chipAt s c with cmdRej := true }))) ∧
    (∀ r, r < 32 → Admitted s h (writeOf rFabLightCtrl c [] (512 + 64 + r) []) →
      ((ringAt s c r).code = .failed →
        Written (exec (.fabLightRestore h c r true) s) s h (writeOf rFabLightCtrl c [] (512 + 64 + r) []) (fun s' =>
          ringAt s' c r = { ringAt s c r with code := .prebias, wrong := [] })) ∧
      ((ringAt s c r).code ≠ .failed →
        Written (exec (.fabLightRestore h c r true) s) s h (writeOf rFabLightCtrl c [] (512 + 64 + r) []) (fun s' =>
          (chipAt s' c) = { chipAt s c with cmdRej := true }))) ∧
    ∀ mask, mask < 16 → Admitted s h (writeOf rFabEyeCtrl c [] mask []) →
      Written (exec (.fabEyeCtrlRestore h c mask) s) s h (writeOf rFabEyeCtrl c [] mask []) (fun s' => ∀ f < 4,
        eyeAt s' c f =
          if bitOf mask f = true ∧ (eyeAt s c f).code = .safe then
            (if holdMet s c f then { eyeAt s c f with code := .restoring, req := false, since := runNs s }
             else { eyeAt s c f with req := true })
          else eyeAt s c f)

namespace Sys2Proof.Machine

/-- The policy registers that have no machinery of their own. -/
def policyRegs : List RegRow := [rMemPolicy, rCollPolicy, rFabPolicy, rTimePolicy, rPwrPolicy, rRedPolicy, rSupPolicy, rEvtPolicy]

/-- A register after a write: its RW fields take the value, and its other bits stay (R8, R11). -/
def mergedWrite (mask old v : Nat) : Nat := (old &&& (2 ^ 64 - 1 - mask)) ||| (v &&& mask)

end Sys2Proof.Machine

/-- R391, R395, R399 to R401, R404, R407: a re-arm closes the loop of a held string whose sensor is
good, with its integrator preset, and refuses another; COMMIT takes a chain's shadows into use
together where the chain is valid, and otherwise sets CMD_REJ; LUT_COMMIT and XT_COMMIT take a table's
or a fibre's. -/
def Obligations.MarionetteCommands : Prop :=
  ∀ (s : State) (h : Header) (e : Nat), s.mar.length = 9 → e < 9 → s.pwr.current < 3 →
    (∀ i x, i < 256 → x = strAt s e i → x.code = .hold ∨ x.code = .safe → Admitted s h (writeOf rMarCmd e [] (2 ^ 31 + i) []) →
      (x.valid = true → x.atEnd = false → x.parity = false →
        Written (exec (.marRearm h e i) s) s h (writeOf rMarCmd e [] (2 ^ 31 + i) []) (fun s' =>
          (strAt s' e i).code = .closed ∧ (strAt s' e i).cause = 0 ∧ (strAt s' e i).u = x.u ∧ (strAt s' e i).count = 0 ∧
          (e = 8 ∨ 72 ≤ i → (strAt s' e i).acc = rearmAcc s e i ∧ ∀ k, k ≠ i → strAt s' e k = strAt s e k))) ∧
      (x.valid = false ∨ x.atEnd = true ∨ x.parity = true →
        Written (exec (.marRearm h e i) s) s h (writeOf rMarCmd e [] (2 ^ 31 + i) []) (fun s' => ∀ k, strAt s' e k = strAt s e k))) ∧
    (∀ i mask m, i < 256 → mask < 256 → m = (if mask = 0 then 255 else mask) →
      Admitted s h (writeOf rMarCmd e [] (2 ^ 30 + mask * 65536 + i) []) →
      (chainOk ((List.range 8).map (fun j => if bitOf m j then stageShadow s e i j else stageOf s e i j)) = true →
        Written (exec (.marCommit h e i mask) s) s h (writeOf rMarCmd e [] (2 ^ 30 + mask * 65536 + i) []) (fun s' => ∀ j < 8,
          stageOf s' e i j = if bitOf m j then stageShadow s e i j else stageOf s e i j)) ∧
      (chainOk ((List.range 8).map (fun j => if bitOf m j then stageShadow s e i j else stageOf s e i j)) = false →
        Written (exec (.marCommit h e i mask) s) s h (writeOf rMarCmd e [] (2 ^ 30 + mask * 65536 + i) []) (fun s' =>
          engAt s' e = { engAt s e with cmdRej := true }))) ∧
    (∀ t, t < 64 → Admitted s h (writeOf rMarCmd e [] (2 ^ 29 + t) []) →
      Written (exec (.marLutCommit h e t) s) s h (writeOf rMarCmd e [] (2 ^ 29 + t) []) (fun s' =>
        ∀ q < 9, activeReg s' rMarLut e [t, q] = regGet s rMarLut e [t, q])) ∧
    (∀ f, f < 4 → Admitted s h (writeOf rMarCmd e [] (2 ^ 28 + f) []) →
      (e < 8 → Written (exec (.marXtCommit h e f) s) s h (writeOf rMarCmd e [] (2 ^ 28 + f) []) (fun s' =>
        (∀ r < 8, ∀ q < 4, activeReg s' rMarXt e [f, r, q] = regGet s rMarXt e [f, r, q]) ∧
        activeReg s' rMarXtExp e [f] = regGet s rMarXtExp e [f])) ∧
      (e = 8 → Written (exec (.marXtCommit h e f) s) s h (writeOf rMarCmd e [] (2 ^ 28 + f) []) (fun s' =>
        engAt s' e = { engAt s e with cmdRej := true }))) ∧
    ∀ p i x, leAt p 0 1 = e → leAt p 1 1 = 0 → leAt p 2 2 = i → i < 256 → x = strAt s e i → Admitted s h (hostCmd 0x0505 p []) →
      (x.code = .hold ∨ x.code = .safe → x.valid = true → x.atEnd = false → x.parity = false →
        ∃ s', exec (.loopRearm h p) s = .next s' ∧ Answers s s' h (hostCmd 0x0505 p []) 0 (leBytes 2 1 ++ leBytes 2 0xFFFF) ∧
          (strAt s' e i).code = .closed) ∧
      (x.code = .hold ∨ x.code = .safe → x.valid = false →
        ∃ s', exec (.loopRearm h p) s = .next s' ∧ Answers s s' h (hostCmd 0x0505 p []) 3 (leBytes 2 0 ++ leBytes 2 i) ∧
          strAt s' e i = x) ∧
      (x.code = .closed → Completes (exec (.loopRearm h p) s) s s h (hostCmd 0x0505 p []) 0 (leBytes 2 0 ++ leBytes 2 0xFFFF))

/-- R8, R11, R453, R479, R485, R488, R505, R512, R531, R547, R552, R554, R566, R579: what the other
registers that act do when they are written, and what a write of a plain register and one that is
refused do. -/
def Obligations.OtherRegisterWrites : Prop :=
  ∀ (s : State) (h : Header),
    (∀ (p : List Byte) (r : RegRow) (inst : Nat) (ix : List Nat), Admitted s h (hostCmd 0x0202 p []) →
      (namedReg p = none → Completes (exec (.regWrite h p) s) s s h (hostCmd 0x0202 p []) 5 []) ∧
      (namedReg p = some (r, inst, ix) →
        (2 ^ r.width ≤ leAt p 8 8 → Completes (exec (.regWrite h p) s) s s h (hostCmd 0x0202 p []) 5 []) ∧
        (leAt p 8 8 < 2 ^ r.width → regOff s r inst = true →
          Completes (exec (.regWrite h p) s) s s h (hostCmd 0x0202 p []) 0x0602 []) ∧
        (leAt p 8 8 < 2 ^ r.width → regOff s r inst = false → r ∈ policyRegs →
          Completes (exec (.regWrite h p) s) s (regPut s r inst ix (mergedWrite r.rw (regGet s r inst ix) (leAt p 8 8))) h
            (hostCmd 0x0202 p []) 0 []))) ∧
    (Admitted s h (writeOf rTimeCtrl 0 [] 1 []) →
      (locked s 0 = false → locked s 1 = false → regField s rTimeSetNs 0 [] 29 0 < 1000000000 →
        Written (exec (.timeSet h) s) s h (writeOf rTimeCtrl 0 [] 1 []) (fun s' =>
          s'.time.sec = regField s rTimeSetS 0 [] 47 0 ∧ s'.time.ns = regField s rTimeSetNs 0 [] 29 0 ∧ s'.time.frac = 0 ∧
          s'.time.valid = true ∧ s'.time.ticks = s.time.ticks ∧ s'.time.alarms = s.time.alarms)) ∧
      (locked s 0 = true ∨ locked s 1 = true →
        Completes (exec (.timeSet h) s) s { s with time := { s.time with cmdRej := true } } h (writeOf rTimeCtrl 0 [] 1 []) 0 [])) ∧
    (Admitted s h (writeOf rPwrPad 0 [] 1 []) → Written (exec (.pwrPadRelease h) s) s h (writeOf rPwrPad 0 [] 1 []) (fun s' =>
      s'.pwr = { s.pwr with padHeld := false } ∧ s'.tiles = s.tiles)) ∧
    (Admitted s h (writeOf rRstCtrl 0 [] 0x52530002 []) → Completes (exec (.rstCtrlCold h) s) s
      { s with rst := { s.rst with raised := s.rst.raised ||| (1#20 <<< 8) } } h (writeOf rRstCtrl 0 [] 0x52530002 []) 0 []) ∧
    (Admitted s h (writeOf rRstCtrl 0 [] 0x52530001 []) → Completes (exec (.rstCtrlWarm h) s) s
      { s with rst := { s.rst with raised := s.rst.raised ||| (1#20 <<< 15) } } h (writeOf rRstCtrl 0 [] 0x52530001 []) 0 []) ∧
    (∀ claim, claim = (max (s.red.claim / 256) (s.red.highest / 256) + 1) * 256 + s.red.prioOwn →
      Admitted s h (writeOf rRedCtrl 0 [] 2 []) →
      (s.red.lost = true → s.red.state = .active → regField s rRedCfg 0 [] 31 31 = 0 →
        max (s.red.claim / 256) (s.red.highest / 256) < 0xFFFFFF →
        Written (exec (.redCtrlTakeover h) s) s h (writeOf rRedCtrl 0 [] 2 []) (fun s' =>
          s'.red.claim = claim ∧ s'.red.highest = claim ∧ s'.red.repeats = 100 ∧ (accOf s' (ownId s)).claim = claim ∧
          (accOf s' s.red.partner).claim = claim ∧ s'.job = s.job)) ∧
      (s.red.lost = false ∨ s.red.state ≠ .active ∨ regField s rRedCfg 0 [] 31 31 = 1 →
        Completes (exec (.redCtrlTakeover h) s) s { s with red := { s.red with cmdRej := true } } h
          (writeOf rRedCtrl 0 [] 2 []) 0 [])) ∧
    (Admitted s h (writeOf rRedCtrl 0 [] 1 []) →
      (canMirror s = true → Written (exec (.redCtrlMirrorNow h) s) s h (writeOf rRedCtrl 0 [] 1 []) (fun s' =>
        s'.red = { s.red with pass := some { gen := s.red.committed + 1, length := 0 } } ∧ s'.mem = s.mem)) ∧
      (canMirror s = false → s.red.mode = 1 → s.red.state ≠ .fenced → s.red.lost = false → Completes (exec (.redCtrlMirrorNow h) s) s
        { s with red := { s.red with pendingStart := true } } h (writeOf rRedCtrl 0 [] 1 []) 0 [])) ∧
    (∀ v src, v < 2 ^ 64 → src = regGet s rRedAccIndex 0 [] → Admitted s h (writeOf rRedAccEntry 0 [] v []) →
      (v / 2 ^ 32 < (accOf s src).claim → Completes (exec (.redAccEntryWrite h v) s) s
        { s with red := { s.red with cmdRej := true } } h (writeOf rRedAccEntry 0 [] v []) 0 []) ∧
      ((accOf s src).claim ≤ v / 2 ^ 32 → Written (exec (.redAccEntryWrite h v) s) s h (writeOf rRedAccEntry 0 [] v []) (fun s' =>
        accOf s' src = { claim := v / 2 ^ 32, partner := v / 65536 % 65536, prio := v / 256 % 256,
                         valid := bitOf v 7, twin := bitOf v 6 } ∧
        (∀ m, m ≠ src → accOf s' m = accOf s m) ∧ s'.red.claim = s.red.claim))) ∧
    (Admitted s h (writeOf rSupSave 0 [] 0x53560001 []) → s.fw.area < s.fw.areas.length →
      Written (exec (.supSave h) s) s h (writeOf rSupSave 0 [] 0x53560001 []) (fun s' =>
        (∀ a d, settingAddr a = true → Cells.get d (areaOf s').regs a = Cells.get d s.regs a) ∧
        s'.fw.area = s.fw.area ∧ ∀ k, k ≠ s.fw.area → s'.fw.areas[k]? = s.fw.areas[k]?))

/-! ### Jobs (chapter 4) -/

/-- R59, R60, R75, R143, R151 to R153, R508, R644: JOB_LOAD takes an image that passes its checks, and answers
with the first check that fails, or with TILE_UNAVAILABLE where a tile of the image has left READY by
the end of it; JOB_LAUNCH starts every tile of the loaded job at its entry point, with
its registers at zero, and changes nothing where it may not. -/
def Obligations.JobsStart : Prop :=
  (∀ (s s1 : State) (h : Header) (p bs : List Byte) (hits : List (Nat × FaultSrc)) (c : HostCmd) (all : List Sect),
    c = ⟨0x0401, p, [], hits⟩ → Admitted s h c →
    (jobBusy s = true → Completes (exec (.jobLoad h ⟨p, hits⟩) s) s s h c 1 []) ∧
    (jobBusy s = false →
      (leAt p 0 8 % 8 ≠ 0 ∨ 67108864 < leAt p 8 4 ∨ ddrSize < leAt p 0 8 + leAt p 8 4 ∨ zeros p 12 4 = false →
        Completes (exec (.jobLoad h ⟨p, hits⟩) s) s s h c 5 []) ∧
      (leAt p 0 8 % 8 = 0 → leAt p 8 4 ≤ 67108864 → leAt p 0 8 + leAt p 8 4 ≤ ddrSize → zeros p 12 4 = true →
        readStaged (leAt p 0 8) (leAt p 8 4) (begun h c s) = (s1, .inr bs) → all = sections bs →
        (∀ f, imageFault s1 bs (leAt p 8 4) = some f → ∃ s', exec (.jobLoad h ⟨p, hits⟩) s = .next s' ∧
          Answers s s' h c f.1 (leBytes 2 f.2.1 ++ leBytes 4 f.2.2) ∧ s'.job = s.job ∧ s'.tiles = s.tiles ∧
          s'.mem.cells = s.mem.cells ∧ s'.sync = s.sync) ∧
        (imageFault s1 bs (leAt p 8 4) = none → imageRoute s1 bs = none →
          (leftReady (readyTiles bs all s1) (loadTiles bs all hits s1) = none →
            ∃ s', exec (.jobLoad h ⟨p, hits⟩) s = .next s' ∧ Answers s s' h c 0 [] ∧ s'.wse.streams = [] ∧
            s'.job = {
              loaded := true, launched := false, ending := none, jobId := leAt bs 16 8
              tiles := (recsOf bs all 1 32).map (fun r => readJobTile r.2)
              groups := (recsOf bs all 2 24).map (fun r => (at1 r.2 0, groupMembers r.2))
              streams := (recsOf bs all 4 64).map (fun r => readStream r.2)
              colls := (recsOf bs all 6 64).map (fun r => readColl r.2) }) ∧
          (∀ o, leftReady (readyTiles bs all s1) (loadTiles bs all hits s1) = some o →
            ∃ s', exec (.jobLoad h ⟨p, hits⟩) s = .next s' ∧ s'.job.loaded = false ∧
              Answers s s' h c 0x0401 (leBytes 2 (((sectOf all 1).map (·.index)).getD 0xFFFF) ++ leBytes 4 o)))))) ∧
  ∀ (s : State) (h : Header) (p : List Byte), Admitted s h (hostCmd 0x0402 p []) →
    (jobBusy s = true → Completes (exec (.jobLaunch h p) s) s s h (hostCmd 0x0402 p []) 1 []) ∧
    (jobBusy s = false → s.job.loaded = false → Completes (exec (.jobLaunch h p) s) s s h (hostCmd 0x0402 p []) 3 []) ∧
    (jobBusy s = false → s.job.loaded = true →
      (leAt p 0 8 ≠ s.job.jobId → Completes (exec (.jobLaunch h p) s) s s h (hostCmd 0x0402 p []) 5 []) ∧
      (leAt p 0 8 = s.job.jobId →
        ((∃ t ∈ jobTiles s, (tileAt s t).code ≠ .ready) →
          Completes (exec (.jobLaunch h p) s) s s h (hostCmd 0x0402 p []) 1 []) ∧
        ((∀ t ∈ jobTiles s, (tileAt s t).code = .ready) → ∃ s', exec (.jobLaunch h p) s = .next s' ∧
          Answers s s' h (hostCmd 0x0402 p []) 0 [] ∧ s'.job = { s.job with launched := true, ending := none, stopDue := false } ∧
          s'.mem = s.mem ∧ s'.sync = { s.sync with puts := [] } ∧ s'.wse.streams = [] ∧
          (∀ u, u ∉ jobTiles s → tileAt s' u = tileAt s u) ∧
          ∀ j ∈ s.job.tiles, (∀ k ∈ s.job.tiles, k.ltile = j.ltile → k = j) → ∀ t, physOf s j.ltile = some t →
            tileAt s' t = { tileAt s t with
              code := .running, pc := j.entry, codeLen := j.codeLen, arg := BitVec.ofNat 32 j.arg
              s := [], a := [], v := [], acc := [], trapEn := 0#6, flags := 0#6, rowStride := 0#32, colStride := 0#32
              mvRows := 0#32, mvSrc := 0#32, mvDst := 0#32, mq := [], vq := [], oq := [], fq := [], issued := 0
              wait := .none, trap := none, lastC := [], trapValid := false, trapReg := ⟨0, 0, 0, 0, 0⟩, haltPc := 0
              srng := if j.seed % 65536 ≠ 0 then BitVec.ofNat 16 j.seed
                else if 0xACE1#16 ^^^ BitVec.ofNat 16 (j.ltile * 16) = 0#16 then 0xACE1#16
                else 0xACE1#16 ^^^ BitVec.ofNat 16 (j.ltile * 16) })))

/-- R20, R39, R92, R100, R140, R154 to R157, R184: JOB_ABORT stops every tile and every collective
instance, once a phase switch in progress has completed, unless an exception is ending the job; and a
job whose tiles have all stopped ends: it is no longer loaded, and its tiles are READY. -/
def Obligations.JobsEnd : Prop :=
  (∀ (s : State) (h : Header), Admitted s h (hostCmd 0x0403 [] []) →
    (jobRunning s = false → Completes (exec (.jobAbort h []) s) s s h (hostCmd 0x0403 [] []) 0 []) ∧
    (jobRunning s = true →
      (jobTrapping s = true → Completes (exec (.jobAbort h []) s) s s h (hostCmd 0x0403 [] []) 0x0405 []) ∧
      (jobTrapping s = false → s.job.ending = none →
        (switchBusy s = false → ∃ s', exec (.jobAbort h []) s = .next s' ∧ Answers s s' h (hostCmd 0x0403 [] []) 0 [] ∧
          s'.job = { s.job with ending := some ⟨1, 0, 0, 0⟩, endTick := s.time.ticks } ∧
          (∀ u, StopsTile s s' u) ∧ s'.coll.insts = [] ∧ s'.wse.streams = [] ∧ s'.mem = s.mem ∧ s'.sync = s.sync) ∧
        (switchBusy s = true → ∃ s', exec (.jobAbort h []) s = .next s' ∧ Answers s s' h (hostCmd 0x0403 [] []) 0 [] ∧
          s'.job = { s.job with ending := some ⟨1, 0, 0, 0⟩, endTick := s.time.ticks, stopDue := true } ∧
          s'.tiles = s.tiles ∧ s'.coll.insts = s.coll.insts)))) ∧
  ∀ (s : State), (jobDone s = false → exec .jobEnd s = .next s) ∧
    (jobDone s = true → ∃ s', exec .jobEnd s = .next s' ∧
      s'.job = { s.job with loaded := false, launched := false, ending := none } ∧ s'.wse.streams = [] ∧
      ((∀ t < 156, (tileAt s t).retireDue = false ∧ (tileAt s t).code ≠ .faulted) → s'.mem.cells = s.mem.cells) ∧
      s'.sync = s.sync ∧ s'.coll = s.coll ∧
      ∀ t ∈ jobTiles s, t < s.tiles.length → (tileAt s t).code = .halted → (tileAt s t).retireDue = false →
        tileAt s' t = { tileAt s t with code := .ready })

/-! ### Colour plans, dark windows and discovery (chapters 9 and 10) -/

/-- R288, R289, R291 to R293: PLAN_LOAD takes a plan that passes its checks into a slot that is not
ARMED, and answers with the offset of the first fault; PLAN_ARM brings phase 0 of a LOADED plan into
force, or answers with the first check of R291 and R329 that fails; a disarm leaves the plan through
an empty phase. R272, R273, R305: DARK_WINDOW keeps a window for each masked plane, or cancels those
that are pending; FABRIC_DISCOVER writes the spine roles and runs its rounds from START. -/
def Obligations.PlansWindowsAndDiscovery : Prop :=
  (∀ (s s1 : State) (h : Header) (p bs : List Byte), FabThere s → Admitted s h (hostCmd 0x0501 p []) →
    (16 ≤ at1 p 0 ∨ zeros p 1 3 = false ∨ leAt p 8 8 % 8 ≠ 0 ∨ ddrSize < leAt p 8 8 + leAt p 4 4 →
      Completes (exec (.planLoad h p) s) s s h (hostCmd 0x0501 p []) 5 []) ∧
    (at1 p 0 < 16 → zeros p 1 3 = true → leAt p 8 8 % 8 = 0 → leAt p 8 8 + leAt p 4 4 ≤ ddrSize →
      ((slotAt s (at1 p 0)).code = .armed → Completes (exec (.planLoad h p) s) s s h (hostCmd 0x0501 p []) 1 []) ∧
      ((slotAt s (at1 p 0)).code ≠ .armed → readStaged (leAt p 8 8) (leAt p 4 4) s = (s1, .inr bs) →
        (∀ o, planFault bs (leAt p 4 4) = some o → ∃ s', exec (.planLoad h p) s = .next s' ∧
          Answers s s' h (hostCmd 0x0501 p []) 0x0504 (leBytes 4 o) ∧ s'.fab = s.fab ∧ s'.mem.cells = s.mem.cells) ∧
        (planFault bs (leAt p 4 4) = none → ∃ s', exec (.planLoad h p) s = .next s' ∧
          Answers s s' h (hostCmd 0x0501 p []) 0 [] ∧ slotAt s' (at1 p 0) = { code := .loaded, plan := some (readPlan bs) } ∧
          (∀ n, n ≠ at1 p 0 → slotAt s' n = slotAt s n) ∧ s'.fab.lanes = s.fab.lanes ∧ s'.fab.rxs = s.fab.rxs ∧
          s'.mem.cells = s.mem.cells ∧ s'.job = s.job)))) ∧
  (∀ (s : State) (h : Header) (p : List Byte) (n : Nat), FabThere s → Admitted s h (hostCmd 0x0502 p []) → n = at1 p 0 →
    (16 ≤ n ∨ 2 ≤ at1 p 1 ∨ zeros p 2 6 = false ∨ zeros p 14 2 = false ∨ 1000000000 ≤ leAt p 16 4 ∨ zeros p 20 4 = false →
      Completes (exec (.planArm h p) s) s s h (hostCmd 0x0502 p []) 5 []) ∧
    (n < 16 → zeros p 2 6 = true → zeros p 14 2 = true → leAt p 16 4 < 1000000000 → zeros p 20 4 = true →
      (at1 p 1 = 0 →
        ((slotAt s n).code = .armed → Completes (exec (.planArm h p) s) s s h (hostCmd 0x0502 p []) 1 []) ∧
        ((slotAt s n).code = .empty → Completes (exec (.planArm h p) s) s s h (hostCmd 0x0502 p []) 3 []) ∧
        (∀ pl, (slotAt s n).code = .loaded → (slotAt s n).plan = some pl →
          (∀ e, armFault s pl = some e → Completes (exec (.planArm h p) s) s s h (hostCmd 0x0502 p []) e []) ∧
          (armFault s pl = none → pl.phases ≠ [] → ∃ s', exec (.planArm h p) s = .next s' ∧
            Answers s s' h (hostCmd 0x0502 p []) 0 [] ∧ (slotAt s' n).code = .armed ∧ (slotAt s' n).plan = some pl ∧
            (slotAt s' n).phase = 0 ∧ (slotAt s' n).loops = 0 ∧
            (slotAt s' n).t0 = leAt p 8 8 * 1000000000 + leAt p 16 4 ∧ (slotAt s' n).bias = leAt p 24 8 ∧
            (∀ m, m ≠ n → (slotAt s' m).code = (slotAt s m).code) ∧
            ∀ i ∈ planeElems pl.mask, (laneAt s' i).slot = some n ∧ (rxAt s' i).slot = some n))) ∧
      (at1 p 1 = 1 →
        ((slotAt s n).code ≠ .armed → Completes (exec (.planDisarm h p) s) s s h (hostCmd 0x0502 p []) 0 []) ∧
        ((slotAt s n).code = .armed → steered s n = true →
          Completes (exec (.planDisarm h p) s) s s h (hostCmd 0x0502 p []) 1 []) ∧
        ((slotAt s n).code = .armed → steered s n = false → (slotAt s n).switching ≠ none →
          Completes (exec (.planDisarm h p) s) s (updSlot n (fun x => { x with disarmDue := true }) s) h
            (hostCmd 0x0502 p []) 0 []) ∧
        ((slotAt s n).code = .armed → steered s n = false → (slotAt s n).switching = none →
          unreleased s n = ([], []) → (slotAt s n).sets.all (·.closed) = true → ∃ s', exec (.planDisarm h p) s = .next s' ∧
          Answers s s' h (hostCmd 0x0502 p []) 0 [] ∧ (slotAt s' n).code = .loaded ∧ (slotAt s' n).plan = (slotAt s n).plan ∧
          (slotAt s' n).sets = [] ∧ s'.fab.lanes = s.fab.lanes) ∧
        ((slotAt s n).code = .armed → steered s n = false → (slotAt s n).switching = none →
          (∃ i ∈ (unreleased s n).1, setAt s n (laneAt s i).dest false ≠ none ∧
            bitOf (osumMask s) (i / 8) = false ∧ i / 8 ∉ s.fab.spineWait ∧ darkOpen s (i / 8) = false) →
          ∃ s', exec (.planDisarm h p) s = .next s' ∧ Answers s s' h (hostCmd 0x0502 p []) 0 [] ∧
          (slotAt s' n).switching = some (.leave 0) ∧ (slotAt s' n).code = .armed ∧ (slotAt s' n).phase = (slotAt s n).phase ∧
          (slotAt s' n).sets.map setKept = (slotAt s n).sets.map setKept)))) ∧
  ∀ (s : State) (h : Header) (p : List Byte) (mask start : Nat),
    (Admitted s h (hostCmd 0x0503 p []) → mask = leAt p 0 4 → start = leAt p 8 8 * 1000000000 + leAt p 16 4 →
      zeros p 4 4 = true → zeros p 14 2 = true → (∀ k < 32, bitOf mask k = true → isSpine s k = true) →
      nowNs s + 100000 ≤ start → start ≤ nowNs s + 10000000000 →
      (leAt p 20 4 ≠ 0 → leAt p 20 4 < 1000000 ∨ 100000000 < leAt p 20 4 →
        Completes (exec (.darkWindow h p) s) s s h (hostCmd 0x0503 p []) 5 []) ∧
      (1000000 ≤ leAt p 20 4 → leAt p 20 4 ≤ 100000000 → (∃ w ∈ s.fab.windows, bitOf mask w.plane = true) →
        Completes (exec (.darkWindow h p) s) s s h (hostCmd 0x0503 p []) 1 []) ∧
      (1000000 ≤ leAt p 20 4 → leAt p 20 4 ≤ 100000000 → (∀ w ∈ s.fab.windows, bitOf mask w.plane = false) →
        Completes (exec (.darkWindow h p) s) s { s with fab := { s.fab with
          windows := s.fab.windows ++ ((List.range 32).filter (bitOf mask)).map (fun k =>
            { plane := k, start := start, finish := start + leAt p 20 4 }) } } h (hostCmd 0x0503 p []) 0 []) ∧
      (leAt p 20 4 = 0 → (∃ w ∈ s.fab.windows, bitOf mask w.plane = true ∧ w.isOpen = true) →
        Completes (exec (.darkWindowCancel h p) s) s s h (hostCmd 0x0503 p []) 3 []) ∧
      (leAt p 20 4 = 0 → (∀ w ∈ s.fab.windows, bitOf mask w.plane = true → w.isOpen = false) →
        Completes (exec (.darkWindowCancel h p) s) s
          { s with fab := { s.fab with windows := s.fab.windows.filter (fun w => !bitOf mask w.plane) } } h
          (hostCmd 0x0503 p []) 0 [])) ∧
    (Admitted s h (hostCmd 0x0504 p []) → mask = leAt p 12 4 → start = leAt p 0 8 * 1000000000 + leAt p 8 4 →
      (armedMask s &&& mask ≠ 0 ∨ s.fab.disc.code = 1 ∨ s.fab.disc.code = 2 →
        Completes (exec (.fabricDiscover h p) s) s s h (hostCmd 0x0504 p []) 1 []) ∧
      (armedMask s &&& mask = 0 → s.fab.disc.code = 0 ∨ s.fab.disc.code = 3 →
        (start < nowNs s + 1000000 ∨ nowNs s + 10000000000 < start →
          Completes (exec (.fabricDiscover h p) s) s s h (hostCmd 0x0504 p []) 5 []) ∧
        (nowNs s + 1000000 ≤ start → start ≤ nowNs s + 10000000000 → leAt p 6 2 = 0 → leAt p 8 4 < 1000000000 →
          leAt p 20 4 = 0 → (∀ k < 32, bits (leAt p (152 + 4 * k) 4) 30 27 = 0 ∧ bits (leAt p (152 + 4 * k) 4) 15 11 = 0 ∧
            (bitOf mask k = true → bitOf (leAt p (152 + 4 * k) 4) 31 = true →
              leAt p (152 + 4 * k) 4 % 2048 = bits (leAt p (152 + 4 * k) 4) 26 16)) →
          ∃ s', exec (.fabricDiscover h p) s = .next s' ∧ RunsOn s s' h (hostCmd 0x0504 p []) ∧ s'.host.out = s.host.out ∧
            s'.fab.disc = {
              code := 1, round := 0, start := start, mask := mask, pods := leAt p 16 4
              tags := (List.range 32).map (fun i => leAt p (24 + 4 * i) 4)
              remote := (List.range 32).map (fun i => leAt p (280 + 4 * i) 4)
              heard := [], cmd := ⟨h.session, h.seq⟩ } ∧
            s'.fab.lanes = s.fab.lanes ∧ s'.mem = s.mem ∧
            ∀ k < 32, regGet s' rFabPlaneCfg (k % 8) [k / 8] =
              if bitOf mask k then leAt p (152 + 4 * k) 4 else regGet s rFabPlaneCfg (k % 8) [k / 8])))

/-! ### Bulk transfers (chapter 14) -/

namespace Sys2Proof.Machine

/-- A bulk packet of the open session reaches transfer `b` (R461, R463). -/
def BulkComes (s : State) (h : Header) (b : Bulk) : Prop :=
  hostHears h s = true ∧ s.host.open_ = true ∧ h.session = s.host.session ∧ s.rst.level = 0 ∧
  bulkAt s h.seq = some b ∧ b.offline = false

/-- The key of memory at which block `k` of a transfer starts. -/
def blockKey (b : Bulk) (k : Nat) : Nat :=
  (if b.space = 0 then ddrBase else if b.space = 1 then sliceBase b.tile else scratchBase b.tile) +
    (b.addr + k * blockLen)

/-- Block `k` of a write can be stored: its tile serves, no word of SRAM holds an error, no row is out
of use, and no other write in progress covers a byte of it. -/
def BlockLands (s : State) (b : Bulk) (k n : Nat) : Prop :=
  bulkHeld b s = false ∧ bulkOverlap b (b.addr + k * blockLen) n s = [] ∧ (b.space ≠ 0 → serving (tileAt s b.tile) = true) ∧
  (if b.space = 0 then ∀ g ∈ granRange (b.addr + k * blockLen) n, granBlocked s g = false
   else CleanWords s (blockKey b k) n)

/-- R448, R463: transfer `b` is over, and its command has been answered. -/
def TransferEnds (s s' : State) (b : Bulk) (st : Nat) (p : List Byte) : Prop :=
  s'.host.bulks = s.host.bulks.filter (fun x => x.cmd.seq ≠ b.cmd.seq) ∧ s'.mem = s.mem ∧
  ∀ d, s.host.started.find? (fun c => decide (c.hdr.session = b.cmd.session ∧ c.hdr.seq = b.cmd.seq)) = some d →
    d.copies = [] → portUp s d.hdr.port = true →
    s'.host.out = s.host.out ++ [⟨d.hdr.port, d.hdr.src, d.cmd.opcode, b.cmd.session, b.cmd.seq, st, s.red.claim, p⟩] ∧
    s'.host.done.head? = some ⟨d.hdr, d.cmd, st, p⟩

end Sys2Proof.Machine

/-- R174, R175, R460 to R463: BULK_WRITE and BULK_READ start a transfer or answer with the check that
fails; a block of a write is stored and noted; an acknowledgement opens the window of a read; a
transfer ends with the status of what it met, or after its time with BULK_TIMEOUT. -/
def Obligations.BulkTransfers : Prop :=
  (∀ (s : State) (h : Header) (p : List Byte) (b : Bulk),
    b = { cmd := ⟨h.session, h.seq⟩, write := true, space := at1 p 0, tile := (physOf s (leAt p 2 2)).getD 0
          addr := leAt p 8 8, len := leAt p 16 8, window := bulkWindow s } →
    (Admitted s h (hostCmd 0x0301 p []) →
      (∀ e, bulkFault p s = some e → Completes (exec (.bulkWrite h p) s) s s h (hostCmd 0x0301 p []) e []) ∧
      (bulkFault p s = none → (∀ x ∈ s.host.bulks, x.cmd.seq ≠ h.seq) → ∃ s' n d, exec (.bulkWrite h p) s = .next s' ∧
        RunsOn s s' h (hostCmd 0x0301 p []) ∧ s'.host.bulks = s.host.bulks ++ [b] ∧ s'.mem = s.mem ∧
        s'.host.out = s.host.out ++ [⟨n, d, 0x0303, h.session, h.seq, 0, s.red.claim,
          leBytes 4 0 ++ leBytes 4 (bulkWindow s) ++ leBytes 8 0⟩])) ∧
    (Admitted s h (hostCmd 0x0302 p []) →
      (∀ e, bulkFault p s = some e → Completes (exec (.bulkRead h p) s) s s h (hostCmd 0x0302 p []) e []) ∧
      (bulkFault p s = none → (∀ x ∈ s.host.bulks, x.cmd.seq ≠ h.seq) → bulkHeld { b with write := false } s = false →
        (b.space = 0 → CleanGrans s b.addr b.len) → ∃ s' c, exec (.bulkRead h p) s = .next s' ∧ RunsOn s s' h (hostCmd 0x0302 p []) ∧ bulkAt s' h.seq = some c ∧
          c = { b with write := false, sent := min (bulkBlocks b) (bulkWindow s), bad := c.bad, firstBad := c.firstBad, lastBad := c.lastBad } ∧
          (b.space = 2 → serving (tileAt s b.tile) = true → b.len ≤ 8192 → CleanWords s (scratchBase b.tile + b.addr) b.len → c.bad = 0 ∧ s'.mem = s.mem ∧
            ∃ n d, s'.host.out = s.host.out ++ [⟨n, d, 0x0302, h.session, h.seq, 0, s.red.claim,
              leBytes 4 0 ++ leBytes 4 0 ++ memRead s.mem.cells (scratchBase b.tile + b.addr) b.len⟩])))) ∧
  (∀ (s : State) (h : Header) (b : Bulk) (k : Nat) (data : List Byte), BulkComes s h b → b.write = true →
    k < bulkBlocks b → data.length = bulkPart b k →
    (k ∉ b.got → BlockLands s b k data.length → ∃ s', exec (.bulkBlock h k data) s = .next s' ∧
      bulkAt s' h.seq = some { b with got := b.got ++ [k], sinceAck := if b.sinceAck < 15 then b.sinceAck + 1 else 0 } ∧
      s'.mem.cells = memWrite s.mem.cells (blockKey b k) data) ∧
    (k ∈ b.got → ∃ s', exec (.bulkBlock h k data) s = .next s' ∧ bulkAt s' h.seq = some b ∧ s'.mem = s.mem)) ∧
  (∀ (s : State) (h : Header) (b : Bulk) (next window mask : Nat), BulkComes s h b → b.write = false →
    ∃ s' c, exec (.bulkAck h next window mask) s = .next s' ∧ bulkAt s' h.seq = some c ∧ c.window = next + window ∧
      b.sent ≤ c.sent ∧ s'.mem.cells = s.mem.cells ∧
      ∀ k, k ∈ c.got ↔ k < bulkBlocks b ∧ (k < next ∨ k ∈ b.got ∨ ∃ i < 64, bitOf mask i = true ∧ k = next + 1 + i)) ∧
  ∀ (s : State) (q : Nat) (b : Bulk), s.rst.level = 0 → bulkAt s q = some b →
    (b.write = true → b.got.length < bulkBlocks b → ∀ n d, ackPort s = some n → seenOn s n = some d →
      ∃ s', exec (.bulkAckTimer q) s = .next s' ∧ s'.mem = s.mem ∧ bulkAt s' q = some { b with sinceAck := 0 } ∧
        s'.host.out = s.host.out ++ [⟨n, d.src, 0x0303, b.cmd.session, q, 0, s.red.claim,
          leBytes 4 (nextBlock b) ++ leBytes 4 (bulkWindow s) ++ leBytes 8 ((List.range 64).foldl (fun m i =>
            if b.got.contains (nextBlock b + 1 + i) then m + 2 ^ i else m) 0)⟩]) ∧
    (b.write = false → ∀ k n, k < b.sent → k ∉ b.got → readPort s = some n →
      (b.space = 0 → CleanGrans s (b.addr + k * blockLen) (bulkPart b k)) → ∃ s', exec (.bulkResendTimeout q k) s = .next s' ∧ bulkAt s' q = some b ∧ s'.host.robin = n ∧
        s'.mem.cells = s.mem.cells) ∧
    (b.offline = true → ∃ s', exec (.bulkDone q) s = .next s' ∧ TransferEnds s s' b 0x0301 []) ∧
    (b.offline = false → b.got.length = bulkBlocks b → ∃ s', exec (.bulkDone q) s = .next s' ∧
      (b.bad = 0 → TransferEnds s s' b 0 []) ∧
      (b.bad ≠ 0 → b.write = true → TransferEnds s s' b 0x0303 (leBytes 8 b.firstBad)) ∧
      (b.bad ≠ 0 → b.write = false → TransferEnds s s' b 0x0302 (leBytes 4 b.bad ++ leBytes 8 b.firstBad))) ∧
    ∃ s', exec (.bulkTimeout q) s = .next s' ∧ TransferEnds s s' b 0x0304 []

/-! ### Calibration and the Marionette engines (chapters 12 and 13) -/

namespace Sys2Proof.Machine

/-- R419: a run has ended with a result, and its reply carries the result and a GEN. -/
def RunAnswers (s s' : State) (h : Header) (c : HostCmd) (kind result gen : Nat) : Prop :=
  Answers s s' h c 0 (leBytes 1 result ++ leBytes 4 gen) ∧ s'.cal.result = result ∧ s'.cal.kind = kind ∧
  s'.mem = s.mem ∧ s'.job = s.job

/-- R411, R414, R417: a record of an element is in the store, with the next GEN, and the element
uses its values. -/
def Recorded (s s' : State) (kind index : Nat) (data : List Int) : Prop :=
  s'.cal.recs = s.cal.recs ++ [{ kind := kind, index := index, gen := calGen s.cal + 1, data := data }] ∧
  s'.cal.used = s.cal.used + calSize kind

end Sys2Proof.Machine

/-- R385, R417 to R424: CAL_RUN answers BAD_ARGUMENT or REFUSED before it begins, a result that ends
it early, or its values, which it records with STORE; a tick of an engine applies the outputs computed
in the tick before, and takes a string that is due through its chain, or holds it. -/
def Obligations.CalibrationRuns : Prop :=
  (∀ (s : State) (h : Header) (p : List Byte) (m : List Int) (c n : Nat) (x : Laser), c = leAt p 1 1 → n = leAt p 2 2 →
    x = laserAt s c n → Admitted s h (hostCmd 0x0506 p m) → leAt p 0 1 = 1 →
    (calArgsOk 1 35 p = false → Completes (exec (.calRunLaser h p m) s) s s h (hostCmd 0x0506 p m) 5 []) ∧
    (calArgsOk 1 35 p = true →
      (∀ e, x.slot = some e → (eyeAt s c (e / 8)).code ≠ .normal →
        Completes (exec (.calRunLaser h p m) s) s s h (hostCmd 0x0506 p m) 3 []) ∧
      (∀ e, x.slot = some e → (eyeAt s c (e / 8)).code = .normal → mayLeave s (laneOf c e) = false →
        ∃ s', exec (.calRunLaser h p m) s = .next s' ∧ RunAnswers s s' h (hostCmd 0x0506 p m) 1 3 0 ∧ s'.fab = s.fab ∧
          s'.light = s.light) ∧
      (x.slot = none → ∀ k : Nat, m.headD 0 = (k : Int) → 0 < k → k < 256 → ∃ s', exec (.calRunLaser h p m) s = .next s' ∧
        RunAnswers s s' h (hostCmd 0x0506 p m) 1 k 0 ∧ s'.cal.recs = s.cal.recs ∧ s'.light = s.light) ∧
      (x.slot = none → m.headD 0 = 0 → calStore p = true → s.cal.used + calSize 1 ≤ calBank →
        ∃ s', exec (.calRunLaser h p m) s = .next s' ∧ RunAnswers s s' h (hostCmd 0x0506 p m) 1 0 (calGen s.cal + 1) ∧
          Recorded s s' 1 (36 * c + n) (tuneData (calValue s 1 (36 * c + n) 33) (m.drop 1)) ∧ s'.light = s.light))) ∧
  (∀ (s : State) (h : Header) (p : List Byte) (m : List Int) (c r : Nat), c = leAt p 1 1 → r = leAt p 2 2 →
    Admitted s h (hostCmd 0x0506 p m) → leAt p 0 1 = 2 →
    (calArgsOk 2 31 p = false → Completes (exec (.calRunRing h p m) s) s s h (hostCmd 0x0506 p m) 5 []) ∧
    (calArgsOk 2 31 p = true →
      ((eyeAt s c (r / 8)).code ≠ .normal ∨ (ringAt s c r).code ≠ .locked ∨ runNs s < (ringAt s c r).lockedAt + 10000000 →
        Completes (exec (.calRunRing h p m) s) s s h (hostCmd 0x0506 p m) 3 []) ∧
      ((eyeAt s c (r / 8)).code = .normal → (ringAt s c r).code = .locked →
        (ringAt s c r).lockedAt + 10000000 ≤ runNs s → m.headD 0 = 0 → calStore p = true →
        s.cal.used + calSize 3 ≤ calBank → ∃ s', exec (.calRunRing h p m) s = .next s' ∧
          RunAnswers s s' h (hostCmd 0x0506 p m) 2 0 (calGen s.cal + 1) ∧
          (∀ d, calData s 3 (32 * c + r) = some d → 34 ≤ d.length →
            Recorded s s' 3 (32 * c + r) (d.take 34 ++ [m.getD 1 0 - ringDrive s c r])) ∧ s'.light = s.light))) ∧
  (∀ (s : State) (h : Header) (p : List Byte) (m : List Int) (c f : Nat) (locked : List Nat), c = leAt p 1 1 →
    f = leAt p 2 2 → s.mar.length = 9 → Admitted s h (hostCmd 0x0506 p m) → leAt p 0 1 = 3 →
    locked = (List.range 8).filter (fun r => decide ((ringAt s c (8 * f + r)).code = .locked)) →
    (calArgsOk 3 3 p = false → Completes (exec (.calRunXtalk h p m) s) s s h (hostCmd 0x0506 p m) 5 []) ∧
    (calArgsOk 3 3 p = true →
      ((eyeAt s c f).code ≠ .normal ∨ locked.length < 2 →
        Completes (exec (.calRunXtalk h p m) s) s s h (hostCmd 0x0506 p m) 3 []) ∧
      ((eyeAt s c f).code = .normal → 2 ≤ locked.length → (∃ r ∈ locked, mayLeaveRx s (laneOf c (8 * f + r)) = false) →
        ∃ s', exec (.calRunXtalk h p m) s = .next s' ∧ RunAnswers s s' h (hostCmd 0x0506 p m) 3 3 0 ∧ s'.fab = s.fab) ∧
      ((eyeAt s c f).code = .normal → 2 ≤ locked.length → (∀ r ∈ locked, mayLeaveRx s (laneOf c (8 * f + r)) = true) →
        m.headD 0 = 0 → calStore p = true → s.cal.used + calSize 4 ≤ calBank → ∃ s', exec (.calRunXtalk h p m) s = .next s' ∧
          RunAnswers s s' h (hostCmd 0x0506 p m) 3 0 (calGen s.cal + 1) ∧
          Recorded s s' 4 (4 * c + f) (mixColumns s c f locked (m.drop 1) ++ [m.getD 65 31 % 64]) ∧
          activeReg s' rMarXtExp c [f] = ((m.getD 65 31) % 64).toNat))) ∧
  (∀ (s : State) (h : Header) (p : List Byte) (m : List Int) (g slot start : Nat), g = leAt p 2 2 → slot = leAt p 5 1 →
    start = leAt p 8 8 * 1000000000 + leAt p 16 4 → Admitted s h (hostCmd 0x0506 p m) → leAt p 0 1 = 4 →
    (calArgsOk 4 7 p = false → Completes (exec (.calRunOsum h p m) s) s s h (hostCmd 0x0506 p m) 5 []) ∧
    (calArgsOk 4 7 p = true →
      (start < nowNs s + 1000000 ∨ nowNs s + 10000000000 < start →
        Completes (exec (.calRunOsum h p m) s) s s h (hostCmd 0x0506 p m) 5 []) ∧
      (nowNs s + 1000000 ≤ start → start ≤ nowNs s + 10000000000 → (slotAt s slot).code ≠ .armed ∨
          osumPathsOk s slot (leAt p 20 4) = false ∨
          (∃ q < 4, isSpine s (4 * g + q) = true ∨ bitOf (armedMask s) (4 * g + q) = true ∨
            (eyeAt s ((4 * g + q) % 8) ((4 * g + q) / 8)).code ≠ .normal) →
        Completes (exec (.calRunOsum h p m) s) s s h (hostCmd 0x0506 p m) 3 []) ∧
      (nowNs s + 1000000 ≤ start → start ≤ nowNs s + 10000000000 → (slotAt s slot).code = .armed →
        osumPathsOk s slot (leAt p 20 4) = true →
        (∀ q < 4, isSpine s (4 * g + q) = false ∧ bitOf (armedMask s) (4 * g + q) = false ∧
          (eyeAt s ((4 * g + q) % 8) ((4 * g + q) / 8)).code = .normal) →
        (∀ k : Nat, m.headD 0 = (k : Int) → 0 < k → k < 256 → ∃ s', exec (.calRunOsum h p m) s = .next s' ∧
          RunAnswers s s' h (hostCmd 0x0506 p m) 4 k 0 ∧ s'.cal.recs = s.cal.recs) ∧
        ∀ trims : Nat → Option (Nat × Int), m.headD 0 = 0 → calStore p = false →
          (trims = fun k => pathTrim ((splitReports 32 (m.drop 1)).1.getD k [])) →
          (∀ k ∈ memberChannels s (leAt p 20 4), trims k ≠ none) → ∃ s', exec (.calRunOsum h p m) s = .next s' ∧
            RunAnswers s s' h (hostCmd 0x0506 p m) 4 0 0 ∧ s'.cal.recs = s.cal.recs ∧
            ∀ k ∈ memberChannels s (leAt p 20 4), ∀ t, trims k = some t →
              regGet s' rCollOsumTrim 0 [groupPlane g k, k] = 2 ^ 31 + t.1 * 2 ^ 16 + t.2.toNat))) ∧
  ∀ (s : State) (e : Nat) (reads : List SensorRead) (parity : List Nat), s.mar.length = 9 → e < 9 →
    (engineRuns s e = false → exec (.marTick e reads parity) s = .next s) ∧
    (engineRuns s e = true → liveStrs s e = [] → ∃ s', exec (.marTick e reads parity) s = .next s' ∧
      (engAt s' e).ticks = (engAt s e).ticks + 1 ∧ (∀ i, (strAt s' e i).u = (strAt s e i).u ∧ (strAt s' e i).code = (strAt s e i).code) ∧
      s'.mem = s.mem) ∧
    (∀ i x, engineRuns s e = true → e < 8 → 136 ≤ i → i < 256 → x = strAt s e i → (∀ k, k ∈ liveStrs s e ↔ k = i) →
      reads = [] → regField s rMarStrIo e [i] 31 16 / 4096 ≠ 0 → regField s rMarStrIo e [i] 31 16 / 4096 ≠ 8 →
      strDiv s e i ≠ 0 → (engAt s e).ticks % strDiv s e i = 0 → strRuns s e i = true → regField s rMarStrCfg e [i] 30 30 = 0 →
      (x.code = .hold → ∃ s', exec (.marTick e reads parity) s = .next s' ∧ (strAt s' e i).u = x.next.getD x.u ∧
        (strAt s' e i).next = some x.good ∧ (strAt s' e i).acc = x.acc) ∧
      (x.code = .closed → x.next = none → x.parity = false → i ∉ parity →
        (supervise s e i false { x with ys := (x.y :: x.ys).take (frozenN s e i + 1) }).1 = 0 →
        ∃ s', exec (.marTick e reads parity) s = .next s' ∧ (strAt s' e i).u = x.u ∧ (strAt s' e i).code = .closed ∧
          (strAt s' e i).next = some (chainOf s e i).x ∧ (strAt s' e i).st = (chainOf s e i).st ∧
          (strAt s' e i).count = x.count + 1))

/-! ### The time base (chapter 15) -/

/-- R468, R472 to R476, R478, R479, R481, R482: a tick adds 20 ns and the correction; the messages of a
domain's master give its offset and its path; a domain acquires, locks, is lost and listens again;
alarms are set and fire. The counters of waits (R217, R344, R517) take their 20 ns with a tick. -/
def Obligations.TimeBaseRuns : Prop :=
  (∀ (s : State) (u : Nat), (u : Int) = ((nowNs s + 20) * 2 ^ 32 + s.time.frac : Nat) + s.time.corr →
    (aonHeld s = true → exec .timeTick s = .next s) ∧
    (aonHeld s = false → exec .timeTick s = .next { s with
      regs := (countWaits s).regs
      time := { s.time with
        ticks := s.time.ticks + 1, frac := u % 2 ^ 32, ns := u / 2 ^ 32 % 1000000000
        sec := u / 2 ^ 32 / 1000000000 % 2 ^ 48 } })) ∧
  (∀ (s : State) (port m clock dom seq : Nat) (origin : Int), s.time.domains.length = 2 → port < 8 → m = port / 4 →
    (fromMaster s m clock dom = true →
      (∃ s', exec (.ptpSyncRx port clock dom seq true origin) s = .next s' ∧
        domainAt s' m = { domainAt s m with port := port, waiting := some (seq, (nowNs s : Int)) } ∧
        domainAt s' (1 - m) = domainAt s (1 - m)) ∧
      (∃ s', exec (.ptpSyncRx port clock dom seq false origin) s = .next s' ∧
        domainAt s' m = { domainAt s m with port := port, waiting := none, down := some ((nowNs s : Int) - origin) } ∧
        domainAt s' (1 - m) = domainAt s (1 - m)) ∧
      (∀ t, (domainAt s m).waiting = some (seq, t) → ∃ s', exec (.ptpFollowUpRx port clock dom seq origin) s = .next s' ∧
        domainAt s' m = { domainAt s m with waiting := none, down := some (t - origin) } ∧
        domainAt s' (1 - m) = domainAt s (1 - m))) ∧
    (fromMaster s m clock dom = false → ∀ two, ∃ s', exec (.ptpSyncRx port clock dom seq two origin) s = .next s' ∧
      s'.time = s.time) ∧
    (fromMaster s m clock dom = true → ∀ t down pred off path far, (domainAt s m).req = some (seq, t) →
      (domainAt s m).down = some down → off = (down - (origin - t)) / 2 → path = (down + (origin - t)) / 2 →
      far = (if 10000 < (off - pred).natAbs then (domainAt s m).far + 1 else 0) →
      ((domainAt s m).code = .acquiring → (domainAt s m).est.length < 15 →
        ∃ s', exec (.ptpDelayRespRx port clock dom seq origin pred) s = .next s' ∧
          domainAt s' m = { domainAt s m with
            req := none, offset := off, path := path, est := off :: (domainAt s m).est, far := far } ∧
          domainAt s' (1 - m) = domainAt s (1 - m)) ∧
      ((domainAt s m).code = .acquiring → spanOk ((off :: (domainAt s m).est).take 16) = true →
        ∃ s', exec (.ptpDelayRespRx port clock dom seq origin pred) s = .next s' ∧ (domainAt s' m).code = .locked ∧
          (domainAt s' m).path = path) ∧
      ((domainAt s m).code = .locked → 4 ≤ far → ∃ s', exec (.ptpDelayRespRx port clock dom seq origin pred) s = .next s' ∧
        (domainAt s' m).code = .lost ∧ (domainAt s' m).est = [])) ∧
    ∀ key n k, (domainAt s m).code = .listening → dom = cfgDomain s m → (domainAt s m).master ≠ some clock →
      (domainAt s m).masters = [(clock, k, n)] → 1 ≤ n →
      ∃ s', exec (.ptpAnnounceRx port clock dom key) s = .next s' ∧ (domainAt s' m).code = .acquiring ∧
        (domainAt s' m).master = some clock ∧ (domainAt s' m).est = []) ∧
  (∀ (s : State) (m : Nat), s.time.domains.length = 2 → m < 2 →
    ((domainAt s m).code = .acquiring ∨ (domainAt s m).code = .locked → (domainAt s m).down ≠ none →
      portUp s (domainAt s m).port = true → (∀ t, (domainAt s m).reqAt = some t → t + 62500000 ≤ runNs s) →
      ∃ s', exec (.delayReq m) s = .next s' ∧
        domainAt s' m = { domainAt s m with
          req := some ((domainAt s m).reqSeq, (nowNs s : Int)), reqSeq := ((domainAt s m).reqSeq + 1) % 65536
          reqAt := some (runNs s) }) ∧
    (∀ cause, (domainAt s m).code = .locked → ∃ s', exec (.timeLost m cause) s = .next s' ∧
      (domainAt s' m).code = .lost ∧ (domainAt s' m).est = [] ∧ (s.time.source = m + 1 → s'.time.source ≠ m + 1)) ∧
    (∀ cause, (domainAt s m).code = .acquiring → ∃ s', exec (.timeLost m cause) s = .next s' ∧
      (domainAt s' m).code = .listening ∧ (domainAt s' m).master = none ∧ (domainAt s' m).masters = []) ∧
    ((domainAt s m).code = .lost → ∃ s', exec (.timeListenReturn m) s = .next s' ∧
      (domainAt s' m).code = .listening ∧ (domainAt s' m).master = none ∧ (domainAt s' m).masters = []) ∧
    (locked s 0 = true → ∃ s', exec .timeHoldoffExpiry s = .next s' ∧ (domainAt s' 0).held = true ∧ s'.time.source = 1) ∧
    (s.time.source = 0 → exec .holdoverExpiry s = .next { s with time := { s.time with valid := false } }) ∧
    (s.time.source ≠ 0 → exec .holdoverExpiry s = .next s)) ∧
  (∀ (s : State) (h : Header) (p : List Byte) (i f : Nat), i = leAt p 0 1 → f = leAt p 1 1 → Admitted s h (hostCmd 0x0701 p []) →
    (8 ≤ i ∨ 8 ≤ f ∨ leAt p 2 6 ≠ 0 ∨ 2 ^ 48 ≤ leAt p 8 8 ∨ 1000000000 ≤ leAt p 16 4 ∨ (bitOf f 2 = true ∧ leAt p 20 4 = 0) →
      Completes (exec (.timeSetAlarm h p) s) s s h (hostCmd 0x0701 p []) 5 []) ∧
    (i < 8 → f < 8 → leAt p 2 6 = 0 → leAt p 8 8 < 2 ^ 48 → leAt p 16 4 < 1000000000 →
      (bitOf f 2 = true → leAt p 20 4 ≠ 0) →
      (bitOf f 0 = true → s.time.valid = false → Completes (exec (.timeSetAlarm h p) s) s s h (hostCmd 0x0701 p []) 0x0701 []) ∧
      (bitOf f 0 = false ∨ s.time.valid = true → Completes (exec (.timeSetAlarm h p) s) s
        { s with
          time := { s.time with alarms := s.time.alarms.set i ⟨bitOf f 0, bitOf f 1, bitOf f 2, leAt p 8 8, leAt p 16 4, leAt p 20 4, false⟩ } } h (hostCmd 0x0701 p []) 0 []))) ∧
  ∀ (s : State) (i : Nat) (a : Alarm), s.time.alarms.length = 8 → i < 8 → a = alarmAt s i →
    (a.enable = true → alarmNs a ≤ nowNs s → aonHeld s = false → ∃ s', exec (.alarmFire i) s = .next s' ∧
      i ∈ s'.time.fired ∧ (∀ k, k ≠ i → alarmAt s' k = alarmAt s k) ∧
      (a.periodic = false → alarmAt s' i = { a with enable := false, passed := false }) ∧
      (a.passed = true → i ∈ s'.time.late) ∧
      (a.periodic = true → a.passed = false → nowNs s < alarmNs a + a.period * 1000000 →
        alarmNs (alarmAt s' i) = alarmNs a + a.period * 1000000 ∧ (alarmAt s' i).enable = true ∧ s'.time.late = s.time.late)) ∧
    (a.enable = false ∨ nowNs s < alarmNs a → exec (.alarmFire i) s = .next s)

/-! ### Power (chapter 16) -/

/-- R497 to R503, R506 to R511, R515: a request for a power state is met, refused with the block that
refuses, kept while another is in progress, or wakes replace it; requests of P-levels set the limiter,
and the sequencer follows them. -/
def Obligations.PowerStates : Prop :=
  (∀ (s : State) (h : Header) (p : List Byte) (t : Nat), t = leAt p 0 1 → Admitted s h (hostCmd 0x0601 p []) →
    (5 ≤ t ∨ leAt p 1 3 ≠ 0 → Completes (exec (.pwrSetState h p) s) s s h (hostCmd 0x0601 p []) 5 []) ∧
    (t < 5 → leAt p 1 3 = 0 →
      (s.pwr.trans ≠ none → s.pwr.pend ≠ none → Completes (exec (.pwrSetState h p) s) s s h (hostCmd 0x0601 p []) 1 []) ∧
      (s.pwr.trans ≠ none → s.pwr.pend = none → Completes (exec (.pwrSetState h p) s) s
        { s with pwr := { s.pwr with pend := some t } } h (hostCmd 0x0601 p []) 2 []) ∧
      (s.pwr.trans = none →
        (t = s.pwr.current → Completes (exec (.pwrSetState h p) s) s s h (hostCmd 0x0601 p []) 0 []) ∧
        (s.pwr.current = 0 → t ≠ 0 → jobRunning s = true → ∃ s', exec (.pwrSetState h p) s = .next s' ∧
          Answers s s' h (hostCmd 0x0601 p []) 3 [1, 1, 0, 0] ∧ s'.pwr = { s.pwr with
            lastResult := 1, refuserValid := true, refuser := 257 } ∧ s'.job = s.job) ∧
        (s.pwr.current = 0 → jobRunning s = false → testRuns s = false → t = 1 → ∃ s', exec (.pwrSetState h p) s = .next s' ∧
          Answers s s' h (hostCmd 0x0601 p []) 0 [] ∧ s'.pwr = { s.pwr with current := 1, lastResult := 0 } ∧ s'.tiles = s.tiles) ∧
        (s.pwr.current = 0 → jobRunning s = false → testRuns s = false → t = 2 → armedSlots s = [] → s.fab.windows = [] →
          s.fab.disc.code ≠ 1 → s.fab.disc.code ≠ 2 → (∀ c ∈ s.light, ∀ e ∈ c.eyes, e.code ≠ .restoring) →
          s.host.bulks = [] → (∀ x ∈ s.mem.strips, x.code ≠ .training) → s.pwr.wakePending = [] →
          ∃ s', exec (.pwrSetState h p) s = .next s' ∧ Answers s s' h (hostCmd 0x0601 p []) 0 [] ∧
            s'.pwr = { s.pwr with current := 2, lastResult := 0 } ∧ s'.tiles = s.tiles.map islandReset ∧ s'.job.loaded = false ∧
            s'.sync = s.sync) ∧
        (1 ≤ s.pwr.current → s.pwr.current ≤ 3 → t = 0 → ∃ s', exec (.pwrSetState h p) s = .next s' ∧
          Answers s s' h (hostCmd 0x0601 p []) 0 [] ∧ s'.pwr = { s.pwr with current := 0, lastResult := 0 } ∧ s'.tiles = s.tiles)))) ∧
  (∀ (s : State) (h : Header) (p : List Byte), Admitted s h (hostCmd 0x0602 p []) →
    (8 ≤ leAt p 0 1 ∨ leAt p 1 3 ≠ 0 → Completes (exec (.pwrSetPlevel h p) s) s s h (hostCmd 0x0602 p []) 5 []) ∧
    (leAt p 0 1 < 8 → leAt p 1 3 = 0 → ∃ s', exec (.pwrSetPlevel h p) s = .next s' ∧ Answers s s' h (hostCmd 0x0602 p []) 0 [] ∧
      s'.pwr = { s.pwr with ceiling := leAt p 0 1, limiter := pLimiter { s.pwr with ceiling := leAt p 0 1 } } ∧
      s'.tiles = s.tiles)) ∧
  ∀ (s : State),
    (s.pwr.pend = some 1 → s.pwr.trans = none → s.pwr.wakePending = [] → s.rst.level = 0 → s.pwr.current = 0 →
      (jobRunning s = false → testRuns s = false → ∃ s', exec .pwrPendingStart s = .next s' ∧
        s'.pwr = { s.pwr with pend := none, current := 1, lastResult := 0 } ∧ s'.host = s.host) ∧
      (jobRunning s = true → ∃ s', exec .pwrPendingStart s = .next s' ∧
        s'.pwr = { s.pwr with pend := none, lastResult := 1, refuserValid := true, refuser := 257 } ∧ s'.host = s.host)) ∧
    (s.pwr.pend = none ∨ s.pwr.trans ≠ none ∨ s.pwr.wakePending ≠ [] → exec .pwrPendingStart s = .next s) ∧
    (∀ late, pTarget s.pwr ≠ s.pwr.effective → (pTarget s.pwr < s.pwr.effective → s.pwr.raiseHeld = false) →
      s.pwr.current < 4 → s.rst.level = 0 → ∃ s', exec (.plevelChange late) s = .next s' ∧
        s'.pwr.effective = pTarget s.pwr ∧ (late = [] → s'.pwr = { s.pwr with effective := pTarget s.pwr } ∧ s'.tiles = s.tiles)) ∧
    (pTarget s.pwr < s.pwr.effective → s.pwr.raiseHeld = true → ∀ late, exec (.plevelChange late) s = .next s) ∧
    (∀ mean, exec (.powerCapWindow mean) s = .next { s with pwr := { s.pwr with pinDw := mean % 65536 } }) ∧
    (∀ b, b = decide (s.pwr.hotDevs ≠ []) → ∃ s', exec .memHot s = .next s' ∧ s'.mem = s.mem ∧ s'.pwr.memHot = b ∧
      (b ≠ s.pwr.memHot → s'.pwr.limiter = pLimiter { s.pwr with memHot := b })) ∧
    (bitOf (regGet s rPwrWakeCfg 0 []) 1 = true → 1 ∉ s.pwr.wakeSeen → 1 ∉ s.pwr.wakePending → exec .wakePin s = .next { s with
      pwr := { s.pwr with
        wakeSeen := s.pwr.wakeSeen ++ [1]
        wakePending := if s.pwr.current = 0 ∧ s.pwr.trans = none ∧ s.rst.level < 3 then s.pwr.wakePending else s.pwr.wakePending ++ [1] } }) ∧
    (bitOf (regGet s rPwrWakeCfg 0 []) 1 = false → exec .wakePin s = .next s) ∧
    (∀ w ws, s.pwr.wakePending = w :: ws → s.pwr.trans = none → s.rst.level = 0 →
      (s.pwr.current = 0 → exec .wakeReplay s = .next { s with pwr := { s.pwr with wakePending := [] } }) ∧
      (1 ≤ s.pwr.current → s.pwr.current ≤ 3 → ∃ s', exec .wakeReplay s = .next s' ∧
        s'.pwr = { s.pwr with wakePending := [], current := 0, lastResult := 0 } ∧ s'.tiles = s.tiles ∧ s'.job = s.job))

/-- R491 to R493, R495, R502, R604: what the input, VBUS and the temperatures do: flags and sources
follow their thresholds; without power, only flash and fuses keep what they hold; with it, the log goes
on after the highest number in flash. -/
def Obligations.PowerSupply : Prop :=
  ∀ (s : State),
    (∀ mv fault, mv < 38000 ∨ 42000 < mv → ∃ s', exec (.vinOutOfRange mv fault) s = .next s' ∧
      s'.pwr = { s.pwr with vinRange := true } ∧
      s'.rst = (if fault then { s.rst with raised := s.rst.raised ||| (1#20 <<< 3) } else s.rst) ∧ s'.tiles = s.tiles) ∧
    (∀ mv fault, 38000 ≤ mv → mv ≤ 42000 → exec (.vinOutOfRange mv fault) s = .next s ∧
      exec (.vinInRange mv) s = .next { s with pwr := { s.pwr with vinRange := false } }) ∧
    (∀ mv, mv < 11500 → exec (.vbusLow mv) s = .next { s with
      pwr := { s.pwr with busLow := decide (mv < 11000), raiseHeld := true, stretch := decide (mv < 10500) } }) ∧
    (∀ mv, 10500 ≤ mv → exec (.vbusRecovered mv) s = .next { s with
      pwr := { s.pwr with busLow := decide (mv < 11000), raiseHeld := decide (mv < 11500), stretch := false } }) ∧
    (∀ hot, ∃ s', exec (.inletHot hot) s = .next s' ∧ s'.pwr = { s.pwr with inletHot := hot } ∧ s'.rst = s.rst ∧
      s'.tiles = s.tiles) ∧
    (∀ zone, zone < 16 → ∃ s', exec (.thermalTrip zone) s = .next s' ∧ s'.pwr = { s.pwr with tripped := true } ∧
      s'.rst = { s.rst with raised := s.rst.raised ||| (1#20 <<< 4) } ∧ s'.tiles = s.tiles) ∧
    (s.pwr.applied = true → exec .powerApply s = .next s) ∧
    (s.pwr.applied = false → ∃ s', exec .powerApply s = .next s' ∧ s'.pwr = { s.pwr with applied := true } ∧
      s'.rst = s.rst ∧ s'.peat.flash = s.peat.flash ∧
      (∀ q, flashHighest s.peat = some q → s'.peat.next = q + 16401) ∧ (flashHighest s.peat = none → s'.peat.next = 0) ∧
      s'.peat.boot = max (flashBoot s.peat) s.fw.bootSaved + 1) ∧
    (s.pwr.applied = false → ∀ n torn, exec (.inputLost n torn) s = .next s) ∧
    (s.pwr.applied = true → ∀ n torn, ∃ s', exec (.inputLost n torn) s = .next s' ∧ s'.pwr = State.reset.pwr ∧
      s'.rst = State.reset.rst ∧ s'.regs = [] ∧ s'.mem.cells = [] ∧ s'.job.loaded = false ∧ s'.host.open_ = false ∧
      s'.host.out = s.host.out ∧ s'.cal.recs = s.cal.recs ∧ s'.red.claim = s.red.claim ∧ s'.fw.journal = s.fw.journal ∧
      s'.fw.areas = s.fw.areas ∧ s'.peat.queue = [] ∧ s'.peat.ring = [])

/-! ### Resets (chapter 17) -/

/-- R518 to R526, R531, R532: sources that are seen assert their highest level: the job ends, plans are
disarmed, and L3 and L4 bring the module to its reset state but for what is kept; recovery passes the
hold points in turn; an L0 reset restarts one unit alone. -/
def Obligations.Resets : Prop :=
  (∀ (s : State) (mask : Nat), s.rst.raised = 0#20 → (∀ i ∈ [2, 6, 10, 11, 12, 13, 16], bitOf mask i = false) →
    exec (.resetAssert mask) s = .next s) ∧
  (∀ (s : State) (i level : Nat), i < 20 → s.rst.raised = 1#20 <<< i → level = sourceLevel s i → s.rst.level = 0 →
    s.rst.point = 0 → 2 ≤ level → ∃ s', exec (.resetAssert 0) s = .next s' ∧
      s'.rst.level = level ∧ s'.rst.point = level ∧ s'.rst.raised = 0#20 ∧ s'.rst.cause = s.rst.cause ||| (1#20 <<< i) ∧
      s'.rst.ready = false ∧ s'.job.loaded = false ∧ s'.pending = s.pending ∧
      (level = 2 → s'.tiles = s.tiles.map warmTile ∧ s'.sync = s.sync ∧ s'.host.open_ = s.host.open_ ∧ s'.coll.insts = [] ∧
        (∀ k, ddrBase ≤ k → s'.mem.cells.find? (fun c => c.1 = k) = s.mem.cells.find? (fun c => c.1 = k)) ∧
        s'.red.claim = s.red.claim ∧ s'.peat.boot = s.peat.boot) ∧
      (3 ≤ level → s'.tiles = s.tiles.map coldTile ∧ s'.sync = coldSync s.sync ∧ s'.host.open_ = false ∧
        s'.host.out = s.host.out ∧ s'.mem.cells = [] ∧ s'.fw.running = false ∧ s'.fw.journal = s.fw.journal ∧
        s'.red.claim = s.red.claim ∧ s'.cal.recs = s.cal.recs ∧ s'.peat.boot = s.peat.boot + 1 ∧
        s'.rst.rstOut = true ∧ s'.rst.pwrGood = false ∧ s'.time.valid = (if level = 4 then false else s.time.valid) ∧
        ∀ n, (slotAt s' n).code = .empty)) ∧
  (∀ (s : State),
    (∀ straps, (s.pwr.applied = true → s.rst.level = 4 → s.rst.point = 4 → mayPass s 4 = true →
      exec (.resetStage4 straps) s = .next { s with
        rst := { s.rst with point := 3, hold := 0 }, fw := { s.fw with smbAddr := 0x48 + straps % 8 } }) ∧
      (s.pwr.applied = false ∨ s.rst.level ≠ 4 ∨ s.rst.point ≠ 4 ∨ mayPass s 4 = false →
        exec (.resetStage4 straps) s = .next s)) ∧
    (∀ trains bist bf bx, (s.rst.level ≠ 0 → s.rst.point = 3 → mayPass s 3 = true →
      ∃ s', exec (.resetStage3 trains bist bf bx) s = .next s' ∧ s'.rst.level = s.rst.level ∧ s'.rst.point = 2 ∧
        s'.rst.hold = 0 ∧ (s.fw.recovery = false → (s'.fw.running = true ↔ s'.fw.recovery = false))) ∧
      (s.rst.level = 0 ∨ s.rst.point ≠ 3 ∨ mayPass s 3 = false → exec (.resetStage3 trains bist bf bx) s = .next s)) ∧
    (s.rst.level ≠ 0 → s.rst.point = 2 → mayPass s 2 = true →
      ((∃ x ∈ s.tiles, x.code = .testing ∧ x.testStopped = false) → exec .resetStage2 s = .next s) ∧
      ((∀ x ∈ s.tiles, x.code = .testing → x.testStopped = true) → ∃ s', exec .resetStage2 s = .next s' ∧
        s'.rst.level = 0 ∧ s'.rst.point = 0 ∧ s'.rst.last = s.rst.level ∧ s'.rst.ready = true ∧
        (s.rst.level ≠ 2 → s.fw.running = true → s'.rst.rstOut = false ∧ s'.rst.pwrGood = true))) ∧
    (s.rst.level ≠ 0 → mayPass s s.rst.point = false → s.rst.hold ≠ s.rst.point → ∃ s', exec .rstHold s = .next s' ∧
      s'.rst = { s.rst with hold := s.rst.point } ∧ s'.mem = s.mem ∧ s'.tiles = s.tiles) ∧
    (s.rst.level = 0 ∨ mayPass s s.rst.point = true → exec .rstHold s = .next s) ∧
    exec .aonClk s = .next { s with rst := { s.rst with rcClock := true, raised := s.rst.raised ||| (1#20 <<< 1) } } ∧
    ∀ i, (mayRelease s i = true → exec (.resetSourceRelease i) s = .next { s with rst := { s.rst with
        active := s.rst.active &&& ~~~(1#20 <<< i), rcClock := s.rst.rcClock && decide (i ≠ 1) } }) ∧
      (mayRelease s i = false → exec (.resetSourceRelease i) s = .next s)) ∧
  ∀ (s : State) (unit : Nat),
    (unit < 64 → sourceLevel s 19 = 0 → s.rst.level = 0 → ∃ s', exec (.resetL0 19 unit) s = .next s' ∧
      s'.rst = { s.rst with cause := s.rst.cause ||| (1#20 <<< 19) } ∧ s'.mem = s.mem ∧ s'.tiles = s.tiles ∧ s'.light = s.light) ∧
    (unit < 64 → 2 ≤ sourceLevel s 19 → exec (.resetL0 19 unit) s = .next { s with
      rst := { s.rst with raised := s.rst.raised ||| (1#20 <<< 19) } }) ∧
    (∀ c r, ChipThere s c → r < 32 → unit = 288 + 32 * c + r → sourceLevel s 18 = 0 → s.rst.level = 0 →
      (ringAt s c r).code = .locked → ∃ s', exec (.resetL0 18 unit) s = .next s' ∧ (ringAt s' c r).code = .scan ∧
        (ringAt s' c r).channel = (ringAt s c r).channel ∧ (∀ q, q ≠ r → ringAt s' c q = ringAt s c q) ∧ s'.tiles = s.tiles) ∧
    (unit < 544 → 2 ≤ sourceLevel s 18 → unit ∉ s.rst.absorbed → exec (.resetL0 18 unit) s = .next { s with
      rst := { s.rst with raised := s.rst.raised ||| (1#20 <<< 18), absorbed := s.rst.absorbed ++ [unit] } }) ∧
    ∀ c n x, ChipThere s c → n < 36 → x = laserAt s c n → unit = 36 * c + n → sourceLevel s 18 = 0 → s.rst.level = 0 →
      x.slot = none →
      (x.code ≠ .parked → x.code ≠ .acquire → ∃ s', exec (.resetL0 18 unit) s = .next s' ∧ s'.light = s.light ∧ s'.fab = s.fab ∧
        s'.rst.cause = s.rst.cause ||| (1#20 <<< 18)) ∧
      (x.code = .parked ∨ x.code = .acquire → ∃ s', exec (.resetL0 18 unit) s = .next s' ∧
        laserAt s' c n = { x with code := .acquire, isOpen := false, passed := false } ∧ s'.fab = s.fab ∧
        s'.rst.cause = s.rst.cause ||| (1#20 <<< 18))

/-! ### The memories' own events (chapter 5) -/

/-- R162, R163, R167, R168, R172, R178, R180 to R183: temperature polls, patrol scrubs of LPDDR5X and
of the slices, and the column repairs that wait for a tile to stop: errors of one bit are corrected and
counted, others marked, and no byte of memory changes. -/
def Obligations.MemoryMaintenance : Prop :=
  ∀ (s : State),
    (∀ n x, s.mem.strips.length = 16 → n < 16 → x = stripAt s n →
      (x.code = .training → ∀ answered hot, exec (.mr4Poll n answered hot) s = .next s) ∧
      (x.code ≠ .training →
        (∀ hot, ∃ s', exec (.mr4Poll n true hot) s = .next s' ∧ stripAt s' n = { x with mrMiss := 0 } ∧
          (∀ d, d ∈ s'.pwr.hotDevs ↔ (d ∈ s.pwr.hotDevs ∧ d ≠ n) ∨ (d = n ∧ hot = true)) ∧ s'.mem.cells = s.mem.cells) ∧
        (∀ hot, x.mrMiss + 1 < 3 → ∃ s', exec (.mr4Poll n false hot) s = .next s' ∧
          stripAt s' n = { x with mrMiss := x.mrMiss + 1 } ∧ s'.pwr = s.pwr ∧ s'.mem.cells = s.mem.cells) ∧
        (∀ hot, 3 ≤ x.mrMiss + 1 → x.code ≠ .offline → ∃ s', exec (.mr4Poll n false hot) s = .next s' ∧
          stripAt s' n = { x with mrMiss := x.mrMiss + 1, code := .offline, cause := 2 } ∧ s'.mem.cells = s.mem.cells))) ∧
    (∀ n c drifted, exec (.wck2dqCheck n c drifted) s = .next s) ∧
    (∀ g x, s.mem.strips.length = 16 → x = stripAt s (stripOf (g * 64)) → regField s rMemPolicy 0 [] 31 24 ≠ 0 →
      s.pwr.current < 2 → g * 64 < ddrSize → x.code = .online ∨ x.code = .degraded →
      (∀ k ∈ rowGrans (stripOf (g * 64)) (rowOf (g * 64)), k ≠ g → Cells.get .clean s.mem.gran k = .clean) →
      (granBlocked s g = false → Cells.get .clean s.mem.gran g = .clean → exec (.lpddrScrub g []) s = .next s) ∧
      (∀ b, granBlocked s g = false → Cells.get .clean s.mem.gran g = .single b →
        ∃ s', exec (.lpddrScrub g []) s = .next s' ∧ Cells.get .clean s'.mem.gran g = .clean ∧
          (stripAt s' (stripOf (g * 64))).ceCount = satAdd 16 x.ceCount 1 ∧ s'.mem.errValid = true ∧ s'.mem.errType = 0 ∧
          s'.mem.errWhere = g * 64 ∧ s'.mem.cells = s.mem.cells) ∧
      (granBlocked s g = false → Cells.get .clean s.mem.gran g = .double →
        ∃ s', exec (.lpddrScrub g []) s = .next s' ∧ Cells.get .clean s'.mem.gran g = .bad ∧
          (stripAt s' (stripOf (g * 64))).ueCount = satAdd 16 x.ueCount 1 ∧ s'.mem.errType = 1 ∧ s'.mem.errWhere = g * 64 ∧
          s'.mem.cells = s.mem.cells)) ∧
    (∀ g ups, regField s rMemPolicy 0 [] 31 24 = 0 ∨ 2 ≤ s.pwr.current → exec (.lpddrScrub g ups) s = .next s) ∧
    (∀ t bank row w i, t < 156 → s.tiles.length = 156 → bank < 32 → row < 2048 → slicePowered s t = true → i < 32 →
      w = (sliceBase t + sliceRowOff bank row) / 16 + i →
      (∀ k ∈ wordRange (sliceBase t + sliceRowOff bank row) 512, k ≠ w → Cells.get .clean s.mem.words k = .clean) →
      (Cells.get .clean s.mem.words w = .clean → exec (.sliceScrub t bank row []) s = .next s) ∧
      (∀ b, Cells.get .clean s.mem.words w = .single b → ∃ s', exec (.sliceScrub t bank row []) s = .next s' ∧
        Cells.get .clean s'.mem.words w = .clean ∧ (sliceAt s' t).ce = satAdd 8 (sliceAt s t).ce 1 ∧ s'.mem.errType = 3 ∧
        (jobRunning s = true ∨ (∃ l, (tileAt s t).logical = some l ∧ ∀ q ∈ s.mem.migrate, q.2 ≠ l) →
          s'.mem.cells = s.mem.cells)) ∧
      (Cells.get .clean s.mem.words w = .double → Cells.get 0 (sliceAt s t).rows bank < 16 → ∃ s', exec (.sliceScrub t bank row []) s = .next s' ∧
        Cells.get .clean s'.mem.words w = .bad ∧ (sliceAt s' t).repaired = (sliceAt s t).repaired ++ [bank * 2048 + row] ∧
        Cells.get 0 (sliceAt s' t).rows bank = Cells.get 0 (sliceAt s t).rows bank + 1 ∧ s'.mem.errType = 4 ∧
        s'.mem.cells = s.mem.cells)) ∧
    ∀ t c, (tileInRun s t = true → exec (.asColumnRepair t) s = .next s) ∧
      ((sliceAt s t).colDue = [] → exec (.asColumnRepair t) s = .next s) ∧
      (tileInRun s t = false → (sliceAt s t).colDue = [c] → ∃ s', exec (.asColumnRepair t) s = .next s' ∧
        (sliceAt s' t).colDue = [] ∧ (sliceAt s' t).repairedCols = (sliceAt s t).repairedCols ++ [c] ∧
        Cells.get 0 (sliceAt s' t).cols (c / 4384) = Cells.get 0 (sliceAt s t).cols (c / 4384) + 1 ∧
        s'.mem.cells = s.mem.cells ∧ s'.tiles = s.tiles)

/-! ### Partner pairs (chapter 18) -/

/-- R535 to R540, R541 to R558: PAIR_CONFIGURE, unpairing and PAIR_REJOIN; Wisp frames, missed periods
and what a higher claim does; claim messages and their repeats; mirror passes from their start to the
partner's record of them. -/
def Obligations.PartnerPairs : Prop :=
  (∀ (s : State) (h : Header) (p : List Byte), Admitted s h (hostCmd 0x0A01 p []) →
    (∀ e, pairFault s p = some e → Completes (exec (.pairConfigure h p) s) s s h (hostCmd 0x0A01 p []) e []) ∧
    (pairFault s p = none → leAt p 0 1 = 0 → ∃ s', exec (.pairConfigure h p) s = .next s' ∧
      Answers s s' h (hostCmd 0x0A01 p []) 0 [] ∧ s'.red.state = .standbyPartner ∧ s'.red.mode = leAt p 1 1 ∧
      s'.red.partner = leAt p 2 2 ∧ s'.red.prioOwn = leAt p 4 1 ∧ s'.red.prioPartner = leAt p 5 1 ∧
      s'.red.claim = leAt p 8 4 * 256 + leAt p 4 1 ∧ s'.red.highest = max s.red.highest s'.red.claim ∧
      s'.red.holdGen = 0 ∧ s'.red.pass = none ∧ s'.red.lost = false ∧ s'.mem = s.mem) ∧
    (pairFault s p = none → leAt p 0 1 = 1 → s.red.state ≠ .unpaired → ∃ s', exec (.pairUnpair h p) s = .next s' ∧
      Answers s s' h (hostCmd 0x0A01 p []) 0 [] ∧ s'.red.state = .unpaired ∧ s'.red.mode = 0 ∧ s'.red.partner = 0 ∧
      s'.red.claim = s.red.claim ∧ s'.red.holdGen = 0 ∧ s'.red.lost = false ∧ s'.mem = s.mem) ∧
    (pairFault s p = none → leAt p 0 1 = 1 → s.red.state = .unpaired →
      Completes (exec (.pairUnpair h p) s) s s h (hostCmd 0x0A01 p []) 0 [])) ∧
  (∀ (s : State) (h : Header) (p : List Byte), Admitted s h (hostCmd 0x0A02 p []) →
    (s.red.state ≠ .fenced → Completes (exec (.pairRejoin h p) s) s s h (hostCmd 0x0A02 p []) 3 []) ∧
    (s.red.state = .fenced → leAt p 0 4 < s.red.highest →
      Completes (exec (.pairRejoin h p) s) s s h (hostCmd 0x0A02 p []) 0x0A02 []) ∧
    (s.red.state = .fenced → s.red.highest ≤ leAt p 0 4 → ∃ s', exec (.pairRejoin h p) s = .next s' ∧
      Answers s s' h (hostCmd 0x0A02 p []) 0 [] ∧ s'.red.state = .unpaired ∧ s'.red.claim = s.red.claim ∧
      s'.red.holdGen = 0 ∧ s'.mem = s.mem)) ∧
  (∀ (s : State),
    (wispRuns s = false → exec .wispPeriod s = .next s ∧ exec .announceTimer s = .next s) ∧
    (wispRuns s = true → s.red.stopped = false → ∃ s', exec .wispPeriod s = .next s' ∧
      s'.red.missFab = (if s.red.heardFab then 0 else min (s.red.missFab + 1) 15) ∧
      s'.red.missEth = (if s.red.heardEth then 0 else min (s.red.missEth + 1) 15) ∧
      s'.red.heardFab = s.red.nextFab ∧ s'.red.heardEth = s.red.nextEth ∧ s'.mem = s.mem ∧
      (s.red.state = .active → s.red.lost = false → s.red.heardFab = false → s.red.heardEth = false →
        4 ≤ s.red.missFab → 4 ≤ s.red.missEth → s'.red.lost = true ∧
        (regField s rRedCfg 0 [] 31 31 = 1 → max (epochOf s.red.claim) (epochOf s.red.highest) < 0xFFFFFF →
          s'.red.claim = (max (epochOf s.red.claim) (epochOf s.red.highest) + 1) * 256 + s.red.prioOwn) ∧
        (regField s rRedCfg 0 [] 31 31 = 0 → s'.red.claim = s.red.claim) ∧
        (s.red.mode = 1 → s'.red.frozen = true)) ∧
      (s.red.heardFab = true ∨ s.red.heardEth = true → s'.red.lost = s.red.lost ∧ s'.red.claim = s.red.claim)) ∧
    (∀ d b claim, datagramBody d = some b → leAt b 0 1 = 1 → claim = leAt b 12 4 → inPair s = true →
      leAt b 2 2 = s.red.partner → bodyOfPair s b = true → bodyAgrees s b = true → periodNo s ≤ s.red.period →
      (claim ≤ s.red.claim → ∃ s', exec (.wispRx (some d)) s = .next s' ∧ s'.red.heardEth = true ∧
        s'.red.claim = s.red.claim ∧ s'.red.highest = max s.red.highest claim ∧
        (s.red.state = .standbyPartner → s.red.heardGood = true ∨ epochOf claim = epochOf s.red.claim →
          4 ≤ s.red.goodPeriods → s.red.mode = 2 ∨ leAt b 24 4 ≠ 0 → s'.red.state = .active) ∧
        (s.red.state ≠ .standbyPartner ∨ s.red.goodPeriods < (if s.red.nextGood then 3 else 4) → s'.red.state = s.red.state)) ∧
      (s.red.claim < claim → s.red.state ≠ .fenced → ∃ s', exec (.wispRx (some d)) s = .next s' ∧
        s'.red.state = .fenced ∧ s'.red.fenceCause = 2 ∧ s'.red.pass = none ∧ s'.red.claim = s.red.claim ∧
        (∀ t, (tileAt s' t).fq = []) ∧ s'.mem = s.mem)) ∧
    (∀ d b src partner claim, datagramBody d = some b → src = leAt b 2 2 → src = leAt b 4 2 → partner = leAt b 6 2 →
      claim = leAt b 12 4 → src ≠ partner → ownPair s src partner = false → leAt b 0 1 = 3 →
      ((accOf s src).claim < claim → (accOf s partner).claim < claim → ∃ s', exec (.claimMsgRx (some d)) s = .next s' ∧
        (accOf s' src).claim = claim ∧ (accOf s' partner).claim = claim ∧
        (∀ m, m ≠ src → m ≠ partner → accOf s' m = accOf s m) ∧ s'.red.state = s.red.state ∧ s'.mem = s.mem) ∧
      (claim ≤ (accOf s src).claim ∨ claim ≤ (accOf s partner).claim → exec (.claimMsgRx (some d)) s = .next s)) ∧
    (s.red.repeats ≠ 0 → s.red.state = .active → ∃ s', exec .takeoverRepeat s = .next s' ∧
      s'.red.repeats = s.red.repeats - 1 ∧ s'.red.claim = s.red.claim ∧ s'.red.out = s.red.out ++
        ((List.range 2).filter (netUp s)).map (fun m => ⟨m, none, msgBody 3 s.red.claim 0 0 s⟩)) ∧
    (s.red.repeats = 0 ∨ s.red.state ≠ .active → exec .takeoverRepeat s = .next s) ∧
    (wispRuns s = true → ∃ s', exec .announceTimer s = .next s' ∧ s'.red.out = s.red.out ++
        ((List.range 2).filter (netUp s)).map (fun m => ⟨m, none, msgBody 2 s.red.claim 0 0 s⟩) ∧
      s'.red.claim = s.red.claim ∧ s'.red.acc = s.red.acc) ∧
    (s.rst.level < 3 → exec .tableReady s = .next { s with red := { s.red with tableReady := true } })) ∧
  ∀ (s : State) (thr : Nat), thr = regGet s rRedMirrorThresh 0 [] →
    (canMirror s = false → s.red.pass = none ∨ s.red.pendingStart = true ∨ mirrorDue s = false →
      exec .mirrorPassStart s = .next s) ∧
    (s.red.pass ≠ none → s.red.pendingStart = false → mirrorDue s = true → ∃ s', exec .mirrorPassStart s = .next s' ∧
      s'.red = { s.red with pendingStart := true } ∧ regGet s' rRedMirrorThresh 0 [] = (thr + regGet s rRedMirrorStep 0 []) % 2 ^ 64) ∧
    (canMirror s = true → s.red.pendingStart = true → ∃ s', exec .mirrorPassStart s = .next s' ∧ s'.mem = s.mem ∧
      s'.red = { s.red with pendingStart := false, pass := some { gen := s.red.committed + 1, length := 0 } }) ∧
    (canMirror s = true → s.red.pendingStart = false → mirrorDue s = true → ∃ s', exec .mirrorPassStart s = .next s' ∧
        s'.red = { s.red with pass := some { gen := s.red.committed + 1, length := 0 } } ∧
        regGet s' rRedMirrorThresh 0 [] = (thr + regGet s rRedMirrorStep 0 []) % 2 ^ 64) ∧
    (∀ p n, s.red.pass = some p → p.committed = false → p.length = mirrorLength s →
      (∀ u ∈ openUnits s, u.2.own ≠ .mirror) → reachSlot s s.red.partner = some n →
      ∃ s', exec .mirrorCommit s = .next s' ∧ s'.red = { s.red with pass := some { p with committed := true } } ∧
        s'.mem = s.mem) ∧
    (∀ x r, s.fab.inbox.find? (fun x => x.u.kind = 5 && leAt x.u.data 0 1 = 6) = some x → s.red.rx = some r →
      x.src = s.red.partner → leAt x.u.data 24 4 = r.gen → r.got = r.length → ∃ s', exec .mirrorCommitRx s = .next s' ∧
        s'.red = { s.red with
          holdBank := if s.red.holdGen = 0 then 0 else 1 - s.red.holdBank
          holdGen := r.gen, holdDir := r.regions, rx := none } ∧ s'.mem = s.mem) ∧
    ∀ x b size, s.fab.inbox.find? (fun x => isMirror x.u) = some x → x.src = s.red.partner → s.red.mode = 1 →
      s.red.state = .active ∨ s.red.state = .standbyPartner → redArea s 0 = some (b, size) →
      (x.u.kind = 5 → leAt x.u.data 32 8 ≤ size → s.red.frozen = false → ∃ s' r, exec .mirrorUnitRx s = .next s' ∧
        s'.red.rx = some r ∧ r.gen = leAt x.u.data 24 4 ∧ r.length = leAt x.u.data 32 8 ∧ r.got = 0 ∧
        s'.red.holdRefused = false ∧ s'.mem = s.mem) ∧
      (x.u.kind = 5 → size < leAt x.u.data 32 8 → ∃ s', exec .mirrorUnitRx s = .next s' ∧
        s'.red = { s.red with holdRefused := true, rx := none } ∧ s'.mem = s.mem) ∧
      (∀ r k, x.u.kind = 1 → claimOk s x.src x.claim = true → s.red.rx = some r →
        x.u.addr + x.u.data.length ≤ r.length →
        k = b + (if s.red.holdGen = 0 then 0 else 1 - s.red.holdBank) * size + x.u.addr →
        (∀ g ∈ granRange k x.u.data.length, granBlocked s g = false) → ∃ s', exec .mirrorUnitRx s = .next s' ∧
        s'.red = { s.red with rx := some { r with got := r.got + x.u.data.length } } ∧
        s'.mem.cells = memWrite s.mem.cells (ddrBase + k) x.u.data)

/-! ### Firmware, the Puppeteers and the board management port (chapters 19 and 21) -/

namespace Sys2Proof.Machine

/-- R577, R578: the FALLBACK image runs again, and the trial image waits as VERIFIED. -/
def Reverted (s s' : State) : Prop :=
  s'.fw.activeSlot = s.fw.standbySlot ∧ s'.fw.standbySlot = s.fw.standbySlot ∧ s'.fw.probation = none ∧
  s'.fw.area = 1 - s.fw.area ∧ (slotOf s' s.fw.standbySlot).state = .active ∧
  (slotOf s' s.fw.activeSlot).state = .verified ∧ s'.mem = s.mem ∧ s'.job = s.job

/-- R588: the owner key is `k`, no check of a key is in progress, and no session is open. -/
def OwnerIs (s s' : State) (k : List Byte) : Prop :=
  s'.fw.ownerKey = k ∧ s'.fw.install = none ∧ s'.fw.smbResult = 1 ∧ s'.host.open_ = false ∧ s'.mem = s.mem ∧
  s'.fw.slots = s.fw.slots

end Sys2Proof.Machine

/-- R570 to R578, R589: the blocks of an image, its verification, activation, confirmation and revert,
the quote, and what probation does. -/
def Obligations.Firmware : Prop :=
  (∀ (s : State) (h : Header) (p data : List Byte) (n off : Nat) (x : FwSlot), s.fw.slots.length = 2 → n = leAt p 0 1 →
    off = leAt p 4 4 → data = p.drop 8 → x = slotOf s n → Admitted s h (hostCmd 0x0901 p []) →
    (2 ≤ n ∨ 2 ≤ leAt p 1 1 ∨ leAt p 2 2 ≠ 0 ∨ off % 8192 ≠ 0 → Completes (exec (.fwBlock h p) s) s s h (hostCmd 0x0901 p []) 5 []) ∧
    (n < 2 → leAt p 1 1 < 2 → leAt p 2 2 = 0 → off % 8192 = 0 →
      (x.state = .active ∨ x.state = .trial ∨ x.state = .fallback ∨ (leAt p 1 1 = 0 ∧ x.started = false) →
        Completes (exec (.fwBlock h p) s) s s h (hostCmd 0x0901 p []) 3 []) ∧
      (x.state ≠ .active → x.state ≠ .trial → x.state ≠ .fallback → off + data.length ≤ 8388608 →
        (leAt p 1 1 = 1 → ∃ s', exec (.fwBlock h p) s = .next s' ∧ Answers s s' h (hostCmd 0x0901 p []) 0 [] ∧
          (slotOf s' n).blocks = [(off, data)] ∧ (slotOf s' n).started = true ∧
          ((slotOf s' n).state = .partly ∨ (slotOf s' n).state = .unverified) ∧ slotOf s' (1 - n) = slotOf s (1 - n)) ∧
        (leAt p 1 1 = 0 → x.started = true →
          (blockAt x off = none → ∃ s', exec (.fwBlock h p) s = .next s' ∧ Answers s s' h (hostCmd 0x0901 p []) 0 [] ∧
            (slotOf s' n).blocks = x.blocks ++ [(off, data)] ∧ slotOf s' (1 - n) = slotOf s (1 - n)) ∧
          (blockAt x off = some data → Completes (exec (.fwBlock h p) s) s s h (hostCmd 0x0901 p []) 0 []) ∧
          (∀ b, blockAt x off = some b → b ≠ data → Completes (exec (.fwBlock h p) s) s s h (hostCmd 0x0901 p []) 5 []))))) ∧
  (∀ (s : State) (h : Header) (p : List Byte) (n : Nat) (x : FwSlot), s.fw.slots.length = 2 → n = leAt p 0 1 →
    x = slotOf s n → Admitted s h (hostCmd 0x0902 p []) →
    (2 ≤ n ∨ leAt p 1 3 ≠ 0 → Completes (exec (.fwVerify h p) s) s s h (hostCmd 0x0902 p []) 5 []) ∧
    (n < 2 → leAt p 1 3 = 0 →
      (x.state ≠ .unverified → x.state ≠ .verified → Completes (exec (.fwVerify h p) s) s s h (hostCmd 0x0902 p []) 3 []) ∧
      (x.state = .unverified ∨ x.state = .verified →
        (∀ r, imageFails s x = some r → ∃ s', exec (.fwVerify h p) s = .next s' ∧
          Answers s s' h (hostCmd 0x0902 p []) 0x000C (leBytes 1 r) ∧ slotOf s' n = { x with state := .unverified }) ∧
        (imageFails s x = none → ∃ s', exec (.fwVerify h p) s = .next s' ∧
          Answers s s' h (hostCmd 0x0902 p []) 0 (leBytes 4 (imageVersion x) ++ leBytes 1 (imageSvn x)) ∧
          slotOf s' n = { x with state := .verified })))) ∧
  (∀ (s : State) (h : Header) (p : List Byte) (m : List Int) (n old limit : Nat), s.fw.slots.length = 2 → n = leAt p 0 1 →
    old = s.fw.activeSlot → Admitted s h (hostCmd 0x0903 p m) → s.fw.recovery = false →
    (2 ≤ n ∨ leAt p 1 3 ≠ 0 ∨ 1440 < leAt p 4 2 → Completes (exec (.fwActivate h p m) s) s s h (hostCmd 0x0903 p m) 5 []) ∧
    (n < 2 → leAt p 1 3 = 0 → leAt p 4 2 ≤ 1440 →
      ((slotOf s n).state ≠ .verified → Completes (exec (.fwActivate h p m) s) s s h (hostCmd 0x0903 p m) 3 []) ∧
      ((slotOf s n).state = .verified →
        (s.fw.probation ≠ none ∨ standby s ≠ .ready → Completes (exec (.fwActivate h p m) s) s s h (hostCmd 0x0903 p m) 1 []) ∧
        (s.fw.probation = none → standby s = .ready → (areaOf s).format < imageMin (slotOf s n) →
          Completes (exec (.fwActivate h p m) s) s s h (hostCmd 0x0903 p m) 8 []) ∧
        (s.fw.probation = none → standby s = .ready → imageMin (slotOf s n) ≤ (areaOf s).format → m.headD 0 = 0 →
          imageTrust s (slotOf s n) = none → old = 1 - n → limit = probationLimit s (leAt p 4 2) →
          ∃ s', exec (.fwActivate h p m) s = .next s' ∧ Answers s s' h (hostCmd 0x0903 p m) 0 [] ∧ s'.fw.activeSlot = n ∧
            s'.fw.standbySlot = old ∧ s'.fw.probation = some (0, limit) ∧ s'.fw.area = 1 - s.fw.area ∧
            (slotOf s' n).state = .trial ∧ (slotOf s' old).state = .fallback ∧ s'.pups.bActive = !s.pups.bActive)))) ∧
  (∀ (s : State) (h : Header), Admitted s h (hostCmd 0x0904 [] []) →
    (s.fw.probation = none → Completes (exec (.fwConfirm h []) s) s s h (hostCmd 0x0904 [] []) 3 []) ∧
    (s.fw.probation ≠ none → s.fw.slots.length = 2 → s.fw.activeSlot < 2 → s.fw.standbySlot = 1 - s.fw.activeSlot →
      ∃ s', exec (.fwConfirm h []) s = .next s' ∧ Answers s s' h (hostCmd 0x0904 [] []) 0 [] ∧ s'.fw.probation = none ∧
        s'.fw.activeSlot = s.fw.activeSlot ∧ s'.fw.standbySlot = s.fw.activeSlot ∧
        (slotOf s' s.fw.activeSlot).state = .active ∧ (slotOf s' s.fw.standbySlot).state = .verified ∧
        s'.fw.svn = max s.fw.svn (imageSvn (slotOf s s.fw.activeSlot)))) ∧
  (∀ (s : State) (h : Header) (m : List Int) (n : Nat), Admitted s h (hostCmd 0x0905 [] m) → n = 1 - s.fw.activeSlot →
    (s.fw.probation ≠ none → standby s ≠ .ready → Completes (exec (.fwRevert h [] m) s) s s h (hostCmd 0x0905 [] m) 1 []) ∧
    (s.fw.probation ≠ none → standby s = .ready → s.fw.slots.length = 2 → s.fw.activeSlot < 2 → s.fw.standbySlot = 1 - s.fw.activeSlot →
      ∃ s', exec (.fwRevert h [] m) s = .next s' ∧ Answers s s' h (hostCmd 0x0905 [] m) 0 [] ∧ Reverted s s' ∧
        s'.pups.bActive = !s.pups.bActive) ∧
    (s.fw.probation = none → (slotOf s n).state ≠ .verified →
      Completes (exec (.fwRevert h [] m) s) s s h (hostCmd 0x0905 [] m) 3 []) ∧
    (s.fw.probation = none → (slotOf s n).state = .verified → imageSvn (slotOf s n) < s.fw.svn →
      Completes (exec (.fwRevert h [] m) s) s s h (hostCmd 0x0905 [] m) 0x0901 [])) ∧
  (∀ (s : State) (h : Header) (p : List Byte), Admitted s h (hostCmd 0x0906 p []) →
    (2 ≤ leAt p 32 1 ∨ leAt p 33 3 ≠ 0 → Completes (exec (.attestQuote h p) s) s s h (hostCmd 0x0906 p []) 5 []) ∧
    (leAt p 32 1 = 1 → leAt p 33 3 = 0 →
      Completes (exec (.attestQuote h p) s) s s h (hostCmd 0x0906 p []) 0 Config.certificate) ∧
    (leAt p 32 1 = 0 → leAt p 33 3 = 0 → Completes (exec (.attestQuote h p) s) s s h (hostCmd 0x0906 p []) 0
      (quoteBody (p.take 32) s ++ padTo 96 (Config.sign (quoteBody (p.take 32) s))))) ∧
  ∀ (s : State) (e l : Nat), s.fw.probation = some (e, l) →
    (s.fw.running = true → ∃ s', exec .probationRuntime s = .next s' ∧ s'.fw.probation = some (e + 60, l) ∧
      s'.fw.journal.length = s.fw.journal.length + 1 ∧ s'.fw.slots = s.fw.slots ∧ s'.mem = s.mem) ∧
    (s.fw.running = false → exec .probationRuntime s = .next s ∧ exec .probationExpiry s = .next s) ∧
    (e < l * 60 → exec .probationExpiry s = .next s) ∧
    (s.fw.running = true → l * 60 ≤ e → standby s = .ready → s.fw.slots.length = 2 → s.fw.activeSlot < 2 →
      s.fw.standbySlot = 1 - s.fw.activeSlot → ∃ s', exec .probationExpiry s = .next s' ∧ Reverted s s' ∧ s'.pups.bActive = !s.pups.bActive)

/-- R559 to R561, R567, R585, R588, R627, R628: the standby Puppeteer takes over, hands back and is
tested; the board management port answers STATUS and takes its writes, among them the owner's key. -/
def Obligations.PuppeteersAndBoardPort : Prop :=
  (∀ (s : State) (pass : Bool),
    (s.fw.running = true → s.fw.recovery = false → standby s ≠ .unavailable → s.fw.probation = none →
      ∃ s', exec (.supSwitchover pass) s = .next s' ∧ s'.pups.bActive = !s.pups.bActive ∧
        s'.pups.switchovers = satAdd 16 s.pups.switchovers 1 ∧ s'.pups.aTested = false ∧
        (if s.pups.bActive then s'.pups.a else s'.pups.b) = .active ∧ (pass = false → standby s' = .unavailable) ∧
        s'.fw = s.fw ∧ s'.tiles = s.tiles ∧ s'.mem = s.mem) ∧
    (s.fw.running = true → s.fw.recovery = false → standby s ≠ .unavailable → s.fw.probation ≠ none → s.fw.slots.length = 2 →
      s.fw.activeSlot < 2 → s.fw.standbySlot = 1 - s.fw.activeSlot →
      ∃ s', exec (.supSwitchover pass) s = .next s' ∧ Reverted s s' ∧ s'.pups.bActive = !s.pups.bActive) ∧
    (s.fw.running = true → s.fw.recovery = false → standby s = .unavailable → exec (.supSwitchover pass) s = .next { s with
      fw := { s.fw with running := false }, host := { s.host with switching := true }
      rst := { s.rst with raised := s.rst.raised ||| (1#20 <<< 9) } }) ∧
    (s.fw.running = false ∨ s.fw.recovery = true → exec (.supSwitchover pass) s = .next s) ∧
    (s.fw.running = true → s.pups.bActive = true → s.pups.a = .ready → s.pups.aTested = true → heldOff s = true → s.fw.probation = none →
      ∃ s', exec .supSwitchback s = .next s' ∧ s'.pups = { s.pups with bActive := false, a := .active, b := .ready, aTested := false } ∧
        s'.fw = s.fw ∧ s'.mem = s.mem) ∧
    (s.pups.bActive = false ∨ s.pups.aTested = false ∨ heldOff s = false → exec .supSwitchback s = .next s) ∧
    (s.fw.running = true → standby s = .ready →
      (s.pups.bActive = true → exec (.standbySelftest true) s = .next { s with pups := { s.pups with aTested := true } }) ∧
      (s.pups.bActive = false → exec (.standbySelftest true) s = .next s) ∧
      ∃ s', exec (.standbySelftest false) s = .next s' ∧ standby s' = .unavailable ∧ s'.pups.bActive = s.pups.bActive ∧
        s'.mem = s.mem)) ∧
  ∀ (s : State),
    (smbServes s = false → exec .smbusStatus s = .next s ∧ exec .smbusWake s = .next s ∧ exec .recoveryReq s = .next s ∧
      exec .ownerClear s = .next s ∧ ∀ d k, exec (.smbusWarmReset k) s = .next s ∧ exec (.smbusColdReset k) s = .next s ∧
        exec (.ownerInstall d) s = .next s) ∧
    (smbServes s = true →
      exec .smbusStatus s = .next { s with fw := { s.fw with smbOut := s.fw.smbOut ++ [smbStatus s] } } ∧
      (bitOf (regGet s rPwrWakeCfg 0 []) 2 = false → exec .smbusWake s = .next { s with fw := { s.fw with smbResult := 1 } }) ∧
      (bitOf (regGet s rPwrWakeCfg 0 []) 2 = true → ∃ s', exec .smbusWake s = .next s' ∧ 2 ∈ s'.pwr.wakeSeen ∧
        s'.fw = { s.fw with smbResult := 1 } ∧ (s.pwr.current ≠ 0 → 2 ∈ s'.pwr.wakePending)) ∧
      exec (.smbusWarmReset 0x57) s = .next { s with
        fw := { s.fw with smbResult := 1 }, rst := { s.rst with raised := s.rst.raised ||| (1#20 <<< 14) } } ∧
      exec (.smbusColdReset 0x43) s = .next { s with
        fw := { s.fw with smbResult := 1 }, rst := { s.rst with raised := s.rst.raised ||| (1#20 <<< 7) } } ∧
      (∀ k, k ≠ 0x57 → exec (.smbusWarmReset k) s = .next { s with fw := { s.fw with smbResult := 3 } }) ∧
      (∀ k, k ≠ 0x43 → exec (.smbusColdReset k) s = .next { s with fw := { s.fw with smbResult := 3 } }) ∧
      exec .recoveryReq s = .next { s with fw := { s.fw with smbResult := 1, recoveryReq := true } } ∧
      (ownerServes s = false ∨ s.fw.install ≠ none → exec .ownerClear s = .next { s with fw := { s.fw with smbResult := 4 } } ∧
        ∀ d, exec (.ownerInstall d) s = .next { s with fw := { s.fw with smbResult := 4 } }) ∧
      (ownerServes s = true → s.fw.install = none →
        (∀ d, s.fw.ownerKey = [] → d.length = 96 → ∃ s', exec (.ownerInstall d) s = .next s' ∧ OwnerIs s s' d) ∧
        (∀ d, s.fw.ownerKey ≠ [] → d.length = 192 →
          exec (.ownerInstall d) s = .next { s with fw := { s.fw with install := some d, smbResult := 2 } }) ∧
        (∀ d, d.length ≠ 96 → d.length ≠ 192 → exec (.ownerInstall d) s = .next { s with fw := { s.fw with smbResult := 3 } }) ∧
        (∀ t, s.fw.l4End = some t → runNs s < t + 10000000000 → ∃ s', exec .ownerClear s = .next s' ∧ OwnerIs s s' []) ∧
        (∀ t, s.fw.l4End = some t → t + 10000000000 ≤ runNs s →
          exec .ownerClear s = .next { s with fw := { s.fw with smbResult := 3 } }))) ∧
    (s.fw.install = none → exec .ownerInstallChecked s = .next s) ∧
    ∀ d, s.fw.install = some d →
      (ecdsaOk s.fw.ownerKey (d.drop 96) (d.take 96 ++ leBytes 4 deviceTag) = true →
        ∃ s', exec .ownerInstallChecked s = .next s' ∧ OwnerIs s s' (d.take 96)) ∧
      (ecdsaOk s.fw.ownerKey (d.drop 96) (d.take 96 ++ leBytes 4 deviceTag) = false →
        exec .ownerInstallChecked s = .next { s with fw := { s.fw with install := none, smbResult := 3 } })

/-! ### The Peat log (chapter 20) -/

/-- R596 to R602, R605, R606, R609: an event repeats the last record, takes a place in the queue or is
lost and counted; records go to the ring in order under rising numbers, and to flash in a chain; EVT_HEALTH
is written once its interval has passed or a margin has become LOW or OUT; EVT_READ returns the records from a number on, and EVT_SEAL waits for its record to be in flash. -/
def Obligations.PeatLog : Prop :=
  (∀ (s : State) (code source : Nat) (payload : List Byte), code < 65536 →
    (∀ r, lastRec s.peat = some r → coalesces s code (source % 65536) r = true →
      ∃ s', exec (.eventSubmit code source payload) s = .next s' ∧ lastRec s'.peat = some { r with
        reps := min (r.reps + 1) 65535, sat := r.sat || decide (65535 ≤ r.reps + 1), last := nowNs s % 2 ^ 32 } ∧
        s'.peat.queue.length = s.peat.queue.length ∧ s'.peat.next = s.peat.next ∧ s'.mem = s.mem) ∧
    ((∀ r, lastRec s.peat = some r → coalesces s code (source % 65536) r = false) →
      (s.peat.queue.length < 16 → ∃ s', exec (.eventSubmit code source payload) s = .next s' ∧
        s'.peat.queue.length = s.peat.queue.length + 1 ∧ s'.peat.queue.getLast? = some {
          code := code, source := source % 65536, time := nowNs s, valid := s.time.valid, last := nowNs s % 2 ^ 32
          boot := s.peat.boot, payload := padTo 28 payload } ∧ s'.peat.lost = s.peat.lost ∧ s'.regs = s.regs ∧ s'.mem = s.mem) ∧
      (16 ≤ s.peat.queue.length → ∃ s', exec (.eventSubmit code source payload) s = .next s' ∧
        s'.peat.queue = s.peat.queue ∧ s'.peat.lost = s.peat.lost + 1 ∧
        s'.peat.lostTime = (if s.peat.lost = 0 then nowNs s else s.peat.lostTime) ∧ s'.mem = s.mem))) ∧
  (∀ (s : State),
    (s.peat.queue = [] → exec .recordWrite s = .next s) ∧
    (∀ r q, s.peat.queue = r :: q → q ≠ [] ∨ s.peat.lost = 0 → ∃ s', exec .recordWrite s = .next s' ∧
      s'.peat.queue = q ∧ s'.peat.next = s.peat.next + 1 ∧ s'.peat.ring.getLast? = some (s.peat.next, r) ∧
      (s.peat.ring.length < 16384 → s'.peat.ring = s.peat.ring ++ [(s.peat.next, r)]) ∧
      (s.peat.ring.length = 16384 → s'.peat.ring = s.peat.ring.drop 1 ++ [(s.peat.next, r)]) ∧ s'.peat.flash = s.peat.flash) ∧
    (∀ r, s.peat.queue = [r] → s.peat.lost ≠ 0 → ∃ s' l, exec .recordWrite s = .next s' ∧ s'.peat.queue = [] ∧
      s'.peat.lost = 0 ∧ s'.peat.next = s.peat.next + 2 ∧ s'.peat.ring.getLast? = some (s.peat.next + 1, l) ∧
      l.code = 0x0501 ∧ l.time = s.peat.lostTime ∧ l.payload = padTo 28 (leBytes 4 s.peat.lost)) ∧
    (∀ r, lastRec s.peat = some r → (nowNs s < r.time ∨ r.time + coalesceNs s ≤ nowNs s) → ∃ s',
      exec .coalesceWindowEnd s = .next s' ∧ lastRec s'.peat = some { r with closed := true } ∧ s'.peat.next = s.peat.next ∧
      s'.mem = s.mem) ∧
    (∀ r, lastRec s.peat = some r → r.time ≤ nowNs s → nowNs s < r.time + coalesceNs s →
      exec .coalesceWindowEnd s = .next s) ∧
    (toCopy s.peat = none → ∀ bad, exec (.flashCopy bad) s = .next s) ∧
    (∀ q r g p, toCopy s.peat = some (q, r) → r.closed = true → takeSeg s.peat q = some (g, p) →
      (s.peat.copyNext = q → s.peat.seals = [] → ∃ s', exec (.flashCopy false) s = .next s' ∧
        s'.peat.flash = p.flash ++ [{ seg := g, seq := q, bytes := recBytes q r, torn := false }] ∧
        s'.peat.chain = sha384 (p.chain ++ recBytes q r) ∧ s'.peat.copyNext = q + 1 ∧ s'.peat.ring = s.peat.ring) ∧
      ∃ s', exec (.flashCopy true) s = .next s' ∧ s'.peat.badSegs = s.peat.badSegs ++ [g] ∧ s'.peat.flash = s.peat.flash ∧
        s'.peat.copyNext = s.peat.copyNext) ∧
    (healthDue s = false → exec .evtHealth s = .next { s with peat := { s.peat with levels := marginLevels s } }) ∧
    (healthDue s = true → s.peat.queue.length < 16 → (∀ r, lastRec s.peat = some r → r.code ≠ 0x0504) →
      ∃ s', exec .evtHealth s = .next s' ∧ s'.peat.levels = marginLevels s ∧ s'.peat.healthAt = runNs s ∧
      s'.peat.queue.getLast? = some {
        code := 0x0504, source := 0, time := nowNs s, valid := s.time.valid, last := nowNs s % 2 ^ 32
        boot := s.peat.boot, payload := padTo 28 (healthBytes s) })) ∧
  (∀ (s : State) (h : Header) (p : List Byte) (rs : List (Nat × List Byte)), Admitted s h (hostCmd 0x0801 p []) →
    (leAt p 8 2 < 1 ∨ 128 < leAt p 8 2 ∨ 1 < leAt p 10 1 ∨ leAt p 11 5 ≠ 0 →
      Completes (exec (.evtRead h p) s) s s h (hostCmd 0x0801 p []) 5 []) ∧
    (1 ≤ leAt p 8 2 → leAt p 8 2 ≤ 128 → leAt p 10 1 ≤ 1 → leAt p 11 5 = 0 →
      rs = ((readable s (leAt p 10 1)).filter (fun x => decide (leAt p 0 8 ≤ x.1))).take (leAt p 8 2) →
      (rs = [] → ∃ s', exec (.evtRead h p) s = .next s' ∧ Answers s s' h (hostCmd 0x0801 p []) 0 (leBytes 8 0) ∧ s'.mem = s.mem) ∧
      (∀ r t, rs = r :: t → r.1 = leAt p 0 8 → ∃ s', exec (.evtRead h p) s = .next s' ∧
        Answers s s' h (hostCmd 0x0801 p []) 0 (leBytes 2 rs.length ++ leBytes 6 0 ++ rs.flatMap (·.2)) ∧ s'.mem = s.mem) ∧
      (∀ r t, rs = r :: t → leAt p 0 8 < r.1 → ∃ s', exec (.evtRead h p) s = .next s' ∧
        Answers s s' h (hostCmd 0x0801 p []) 0 (leBytes 2 rs.length ++ leBytes 2 1 ++
          leBytes 4 (min (r.1 - leAt p 0 8) (2 ^ 32 - 1)) ++ rs.flatMap (·.2)) ∧ s'.mem = s.mem))) ∧
  ∀ (s : State) (h : Header) (p : List Byte), Admitted s h (hostCmd 0x0802 p []) → ∃ s', exec (.evtSeal h p) s = .next s' ∧
    s'.host.started = s.host.started ++ [⟨h, (hostCmd 0x0802 p []), [], true⟩] ∧ s'.host.out = s.host.out ∧
    s'.peat.queue.length = s.peat.queue.length + 1 ∧
    s'.peat.seals = s.peat.seals ++ [(s.peat.next + s.peat.queue.length, p.take 32, ⟨h.session, h.seq⟩)] ∧
    s'.peat.queue.getLast? = some {
      code := 0x0503, source := 0, time := nowNs s, valid := s.time.valid, last := nowNs s % 2 ^ 32, closed := true
      boot := s.peat.boot, payload := padTo 28 (leBytes 8 (s.peat.next + s.peat.queue.length - 1)) }

/-! ### The state after reset -/

/-- R5, R12, R91, R242, R345, R404, R441, R468, R498, R559, R604: what reset leaves. Every register stores
its Reset value; tile 13y + x is logical tile 12y + x and the tiles of column 12 are spares; laser
8f + s serves slot s of fibre f; no session, job, plan, stream or instance stands; every sync object is 0;
the time in force is not VALID; the module asks for P7 and is unpaired. The pending L4 is this model's
choice of the point after reset (assumption 2); the bytes of memory, the log, the pair and the Puppeteers
are its choice where the spec states none (assumptions 3 and 9). -/
def Obligations.StateAfterReset : Prop :=
  State.reset.pending = [] ∧ State.reset.rst.level = 4 ∧ State.reset.rst.point = 4 ∧ State.reset.rst.cause = 1#20 ∧
  (∀ r inst ix, regGet State.reset r inst ix = regReset r inst ix % 2 ^ 64) ∧
  State.reset.tiles.length = 156 ∧
  (∀ y < 12, ∀ x < 12, (tileAt State.reset (13 * y + x)).logical = some (12 * y + x)) ∧
  (∀ y < 12, (tileAt State.reset (13 * y + 12)).logical = none) ∧
  (∀ t < 156, (tileAt State.reset t).code = .testing ∧ (tileAt State.reset t).srng = 0xACE1#16) ∧
  (∀ a, memByte State.reset.mem.cells a = 0) ∧ memWf State.reset.mem.cells = true ∧
  (∀ i, syncGet State.reset i = 0#64) ∧ State.reset.wse.streams = [] ∧ State.reset.coll.insts = [] ∧
  State.reset.job.loaded = false ∧ (∀ n, (slotAt State.reset n).code = .empty) ∧
  (∀ i < 256, (laneAt State.reset i).slot = none ∧ (rxAt State.reset i).slot = none) ∧
  (∀ c < 8, ∀ f < 4, ∀ k < 8, (laserAt State.reset c (8 * f + k)).slot = some (8 * f + k)) ∧
  (∀ c < 8, ∀ n < 36, 32 ≤ n → (laserAt State.reset c n).code = .spare) ∧
  State.reset.host.open_ = false ∧ State.reset.host.next = 1 ∧ (∀ n, portUp State.reset n = false) ∧
  State.reset.time.valid = false ∧ State.reset.time.sec = 0 ∧ State.reset.time.ns = 0 ∧ State.reset.time.source = 0 ∧
  State.reset.pwr.current = 0 ∧ State.reset.pwr.effective = 7 ∧ pTarget State.reset.pwr = 7 ∧
  State.reset.red.state = .unpaired ∧ State.reset.pups.bActive = false ∧ State.reset.pups.a = .active ∧
  State.reset.peat.queue = [] ∧ State.reset.peat.ring = [] ∧ State.reset.peat.next = 0

/-! ### Headline results -/

/-- Every step goes on: it takes the command at the front of the queue and no other, and leaves the
bytes of every memory in their canonical form. -/
def Obligations.EveryStepKeepsMemoryCanonical : Prop :=
  ∀ (s : State), memWf s.mem.cells = true → ∃ s', step s = .next s' ∧ memWf s'.mem.cells = true ∧
    s'.pending = s.pending.tail

/-- R111, R251, R252, R255, R454: what is written in the module's encodings is read back: the address
of every register names that register, with its instance and indexes; an instruction word holds each
of its fields; a frame header and a payload of units hold theirs. -/
def Obligations.EncodingsReadBack : Prop :=
  (∀ (b : RegBlock) (r : RegRow) (inst : Nat) (ix : List Nat), r ∈ blockRows b → inst < blockCount b →
    ix.length = r.dims.length → (∀ p ∈ r.dims.zip ix, p.2 < p.1.1) → rowExists r inst = true →
    findReg (regAddr r inst ix) = some (r, inst, ix)) ∧
  (∀ op d a b x imm, op < 256 → d < 32 → a < 32 → b < 32 → x < 512 → imm < 2 ^ 32 →
    insnOf (BitVec.ofNat 64 (op * 2 ^ 56 + d * 2 ^ 51 + a * 2 ^ 46 + b * 2 ^ 41 + x * 2 ^ 32 + imm)) = ⟨op, d, a, b, x, imm⟩) ∧
  (∀ (h : FrameHdr) (bs : List Byte), h.type < 16 → h.version < 16 → h.dest < 65536 → h.src < 65536 → h.plane < 32 →
    h.slot < 8 → h.channel < 32 → h.tag < 1024 → h.lsn < 65536 → h.ack < 65536 → h.nak < 65536 → h.fault < 65536 →
    bitOf h.fault 14 = false → h.len ≤ 1024 → h.claim < 2 ^ 32 → h.clean = true → readHdr (hdrBytes h ++ bs) = h) ∧
  ∀ (us : List FabUnit) (k : Nat),
    (∀ u ∈ us, unitOk u = true ∧ u.stream < 256 ∧ u.opseq < 2 ^ 32 ∧ u.addr < 2 ^ 64 ∧ u.offset < 2 ^ 32 ∧
      u.total < 2 ^ 32 ∧ u.object < 65536 ∧ u.data.length % 16 = 0 ∧ u.data.length ≤ 992) →
    (us.flatMap unitBytes).length ≤ 1024 →
    readUnits 32 (us.flatMap unitBytes ++ List.replicate k 0) = (us, false)
end

