-- ==== Sys2Proof/Laws/Alu.lean ====
section
/-!
SUPPORT. The scalar operations of R121 as exact arithmetic on numbers, narrowed at the end.
-/

namespace Sys2Proof.Machine

theorem add_exact (a b : W32) : a + b = BitVec.ofNat 32 (a.toNat + b.toNat) := by
  apply BitVec.eq_of_toNat_eq; simp

theorem sub_exact (a b : W32) : a - b = BitVec.ofInt 32 ((a.toNat : Int) - b.toNat) := by
  apply BitVec.eq_of_toNat_eq
  rw [BitVec.toNat_sub, BitVec.toNat_ofInt]
  have := a.isLt; have := b.isLt; omega

theorem and_exact (a b : W32) : a &&& b = BitVec.ofNat 32 (a.toNat &&& b.toNat) := by
  rw [← BitVec.toNat_and]; simp

theorem or_exact (a b : W32) : a ||| b = BitVec.ofNat 32 (a.toNat ||| b.toNat) := by
  rw [← BitVec.toNat_or]; simp

theorem xor_exact (a b : W32) : a ^^^ b = BitVec.ofNat 32 (a.toNat ^^^ b.toNat) := by
  rw [← BitVec.toNat_xor]; simp

theorem shl_exact (a b : W32) : a <<< shamt b = BitVec.ofNat 32 (a.toNat * 2 ^ (b.toNat % 32)) := by
  apply BitVec.eq_of_toNat_eq
  simp [shamt, Nat.shiftLeft_eq]

theorem shr_exact (a b : W32) : a >>> shamt b = BitVec.ofNat 32 (a.toNat / 2 ^ (b.toNat % 32)) := by
  apply BitVec.eq_of_toNat_eq
  rw [BitVec.toNat_ushiftRight, Nat.shiftRight_eq_div_pow, BitVec.toNat_ofNat, Nat.mod_eq_of_lt]
  · rfl
  · exact lt_of_le_of_lt (Nat.div_le_self _ _) a.isLt

theorem sra_exact (a b : W32) : a.sshiftRight (shamt b) = BitVec.ofInt 32 (a.toInt / 2 ^ (b.toNat % 32)) := by
  unfold BitVec.sshiftRight shamt
  rw [Int.shiftRight_eq_div_pow]
  simp

theorem mul_exact (a b : W32) : a * b = BitVec.ofNat 32 (a.toNat * b.toNat % 2 ^ 32) := by
  apply BitVec.eq_of_toNat_eq; simp

theorem mulHigh_exact (a b : W32) : mulHigh a b = BitVec.ofNat 32 (a.toNat * b.toNat / 2 ^ 32) := rfl

theorem sltVal_exact (a b : W32) : sltVal a b = if a.toInt < b.toInt then 1#32 else 0#32 := by
  unfold sltVal; simp [BitVec.slt]

theorem sltuVal_exact (a b : W32) : sltuVal a b = if a.toNat < b.toNat then 1#32 else 0#32 := by
  unfold sltuVal; simp [BitVec.ult]

theorem minVal_exact (a b : W32) : minVal a b = BitVec.ofInt 32 (min a.toInt b.toInt) := by
  unfold minVal
  by_cases h : b.toInt < a.toInt
  · rw [if_pos (by simpa [BitVec.slt] using h), min_eq_right (le_of_lt h), BitVec.ofInt_toInt]
  · rw [if_neg (by simpa [BitVec.slt] using h), min_eq_left (not_lt.1 h), BitVec.ofInt_toInt]

theorem maxVal_exact (a b : W32) : maxVal a b = BitVec.ofInt 32 (max a.toInt b.toInt) := by
  unfold maxVal
  by_cases h : a.toInt < b.toInt
  · rw [if_pos (by simpa [BitVec.slt] using h), max_eq_right (le_of_lt h), BitVec.ofInt_toInt]
  · rw [if_neg (by simpa [BitVec.slt] using h), max_eq_left (not_lt.1 h), BitVec.ofInt_toInt]

/-- R120: the addition of a sign-extended 32-bit number to an address. -/
theorem sext48_add (a : W48) (v : W32) : a + sext48 v = BitVec.ofInt 48 (a.toInt + v.toInt) := by
  apply BitVec.eq_of_toInt_eq
  rw [BitVec.toInt_add, sext48, BitVec.toInt_signExtend_of_le (by decide), BitVec.toInt_ofInt]

end Sys2Proof.Machine
end

