-- ==== Sys2Proof/Laws/Cells.lean ====
section
/-!
SUPPORT. Laws of sparse tables and of byte memory: a read after a write, and the canonical
form, which every operation on them keeps.
-/

namespace Sys2Proof.Machine

variable {α : Type}

/-! ### Reads of sparse tables -/

@[simp] theorem Cells.get_nil (d : α) (i : Nat) : Cells.get d [] i = d := rfl

theorem Cells.get_cons (d : α) (c : Nat × α) (m : Cells α) (i : Nat) :
    Cells.get d (c :: m) i = if c.1 = i then c.2 else Cells.get d m i := rfl

/-- A key that no entry lists reads the default. -/
theorem Cells.get_absent (d : α) {m : Cells α} {i : Nat} (h : ∀ c ∈ m, c.1 ≠ i) :
    Cells.get d m i = d := by
  induction m with
  | nil => rfl
  | cons c m ih =>
    have hc : c.1 ≠ i := h c (by simp)
    rw [Cells.get_cons, if_neg hc]
    exact ih (fun c' h' => h c' (by simp [h']))

/-- A first part that does not list the key is passed over. -/
theorem Cells.get_append_absent (d : α) {m : Cells α} (m' : Cells α) {i : Nat} (h : ∀ c ∈ m, c.1 ≠ i) :
    Cells.get d (m ++ m') i = Cells.get d m' i := by
  induction m with
  | nil => rfl
  | cons c m ih =>
    have hc : c.1 ≠ i := h c (by simp)
    rw [List.cons_append, Cells.get_cons, if_neg hc]
    exact ih (fun c' h' => h c' (by simp [h']))

/-- A last part that does not list the key changes nothing. -/
theorem Cells.get_append_left (d : α) (m : Cells α) {m' : Cells α} {i : Nat} (h : ∀ c ∈ m', c.1 ≠ i) :
    Cells.get d (m ++ m') i = Cells.get d m i := by
  induction m with
  | nil => simpa using Cells.get_absent d h
  | cons c m ih => rw [List.cons_append, Cells.get_cons, Cells.get_cons, ih]

/-- A filter that keeps every entry of the key keeps what the key reads. -/
theorem Cells.get_filter (d : α) (m : Cells α) (p : Nat × α → Bool) {i : Nat}
    (h : ∀ c ∈ m, c.1 = i → p c = true) : Cells.get d (m.filter p) i = Cells.get d m i := by
  induction m with
  | nil => rfl
  | cons c m ih =>
    have ih' := ih (fun c' h' => h c' (by simp [h']))
    rw [Cells.get_cons]
    by_cases hc : c.1 = i
    · rw [List.filter_cons_of_pos (h c (by simp) hc), Cells.get_cons, if_pos hc, if_pos hc]
    · by_cases hp : p c = true
      · rw [List.filter_cons_of_pos hp, Cells.get_cons, if_neg hc, if_neg hc, ih']
      · rw [List.filter_cons_of_neg hp, if_neg hc, ih']

/-- A read after a write of a sparse table. -/
theorem Cells.get_set [DecidableEq α] (d : α) (m : Cells α) (i : Nat) (v : α) (j : Nat) :
    Cells.get d (Cells.set d m i v) j = if j = i then v else Cells.get d m j := by
  have mid : ∀ c ∈ (if v = d then [] else [(i, v)] : Cells α), c.1 = i := by
    intro c hc
    by_cases hv : v = d
    · simp [hv] at hc
    · simp [hv] at hc; simp [hc]
  have lo : ∀ c ∈ m.filter (fun c => c.1 < i), c.1 < i := fun c hc => by
    simpa using (List.mem_filter.1 hc).2
  have hi : ∀ c ∈ m.filter (fun c => i < c.1), i < c.1 := fun c hc => by
    simpa using (List.mem_filter.1 hc).2
  unfold Cells.set
  rw [List.append_assoc]
  rcases lt_trichotomy j i with h | h | h
  · have hj : j ≠ i := by omega
    rw [Cells.get_append_left d _ (by
      intro c hc
      rcases List.mem_append.1 hc with hc | hc
      · have := mid c hc; omega
      · have := hi c hc; omega), Cells.get_filter _ _ _ (by intro c _ hc; simp [hc, h])]
    simp [hj]
  · subst h
    rw [Cells.get_append_absent d _ (by intro c hc; have := lo c hc; omega)]
    by_cases hv : v = d
    · simp only [hv, if_true, List.nil_append]
      exact Cells.get_absent d (by intro c hc; have := hi c hc; omega)
    · simp [hv, Cells.get_cons]
  · have hj : j ≠ i := by omega
    rw [Cells.get_append_absent d _ (by intro c hc; have := lo c hc; omega),
      Cells.get_append_absent d _ (by intro c hc; have := mid c hc; omega),
      Cells.get_filter _ _ _ (by intro c _ hc; simp [hc, h])]
    simp [hj]

@[simp] theorem Cells.get_set_self [DecidableEq α] (d : α) (m : Cells α) (i : Nat) (v : α) :
    Cells.get d (Cells.set d m i v) i = v := by rw [Cells.get_set, if_pos rfl]

theorem Cells.get_set_ne [DecidableEq α] (d : α) (m : Cells α) {i j : Nat} (v : α) (h : j ≠ i) :
    Cells.get d (Cells.set d m i v) j = Cells.get d m j := by rw [Cells.get_set, if_neg h]

/-- A write leaves what every other key reads, whatever the default of the read. -/
theorem Cells.get_set_other [DecidableEq α] (d e : α) (m : Cells α) {i j : Nat} (v : α) (h : j ≠ i) :
    Cells.get d (Cells.set e m i v) j = Cells.get d m j := by
  have mid : ∀ c ∈ (if v = e then [] else [(i, v)] : Cells α), c.1 ≠ j := by
    intro c hc
    by_cases hv : v = e
    · simp [hv] at hc
    · simp only [hv, if_false, List.mem_singleton] at hc; subst hc; exact Ne.symm h
  unfold Cells.set
  rcases Nat.lt_or_gt_of_ne h with h | h
  · rw [Cells.get_append_left d _ (by
        intro c hc
        have := (List.mem_filter.1 hc).2
        simp only [decide_eq_true_eq] at this; omega), Cells.get_append_left d _ mid,
      Cells.get_filter _ _ _ (by intro c _ hc; simp [hc, h])]
  · rw [List.append_assoc, Cells.get_append_absent d _ (by
        intro c hc
        have := (List.mem_filter.1 hc).2
        simp only [decide_eq_true_eq] at this; omega), Cells.get_append_absent d _ mid,
      Cells.get_filter _ _ _ (by intro c _ hc; simp [hc, h])]

/-! ### The canonical form -/

theorem Cells.wf_iff [DecidableEq α] (d : α) (m : Cells α) :
    Cells.wf d m = true ↔ m.Pairwise (fun a b => a.1 < b.1) ∧ ∀ c ∈ m, c.2 ≠ d := by
  simp [Cells.wf]

theorem Cells.wf_filter [DecidableEq α] (d : α) (m : Cells α) (p : Nat × α → Bool)
    (h : Cells.wf d m = true) : Cells.wf d (m.filter p) = true := by
  rw [Cells.wf_iff] at *
  exact ⟨h.1.filter p, fun c hc => h.2 c (List.mem_of_mem_filter hc)⟩

/-- Three parts whose keys lie below, in and above a range make a canonical table. -/
theorem Cells.wf_splice [DecidableEq α] (d : α) (lo mid hi : Cells α) (a b : Nat)
    (h1 : Cells.wf d lo = true) (h2 : Cells.wf d mid = true) (h3 : Cells.wf d hi = true)
    (k1 : ∀ c ∈ lo, c.1 < a) (k2 : ∀ c ∈ mid, a ≤ c.1 ∧ c.1 < b) (k3 : ∀ c ∈ hi, b ≤ c.1 ∧ a ≤ c.1) :
    Cells.wf d (lo ++ mid ++ hi) = true := by
  rw [Cells.wf_iff] at *
  refine ⟨List.pairwise_append.2 ⟨List.pairwise_append.2 ⟨h1.1, h2.1, ?_⟩, h3.1, ?_⟩, ?_⟩
  · intro x hx y hy; have := k1 x hx; have := k2 y hy; omega
  · intro x hx y hy
    have hy' := k3 y hy
    rcases List.mem_append.1 hx with hx | hx
    · have := k1 x hx; omega
    · have := k2 x hx; omega
  · intro c hc
    rcases List.mem_append.1 hc with hc | hc
    · rcases List.mem_append.1 hc with hc | hc
      · exact h1.2 c hc
      · exact h2.2 c hc
    · exact h3.2 c hc

/-- A write keeps the canonical form. -/
theorem Cells.wf_set [DecidableEq α] (d : α) (m : Cells α) (i : Nat) (v : α)
    (h : Cells.wf d m = true) : Cells.wf d (Cells.set d m i v) = true := by
  unfold Cells.set
  refine Cells.wf_splice d _ _ _ i (i + 1) (Cells.wf_filter d m _ h) ?_ (Cells.wf_filter d m _ h) ?_ ?_ ?_
  · by_cases hv : v = d
    · simp [hv, Cells.wf]
    · simp [hv, Cells.wf]
  · intro c hc; simpa using (List.mem_filter.1 hc).2
  · intro c hc
    by_cases hv : v = d
    · simp [hv] at hc
    · simp [hv] at hc; subst hc; simp
  · intro c hc; have := (List.mem_filter.1 hc).2; simp at this; omega

/-! ### Byte memory -/

/-- The keys that laid-down bytes list. -/
theorem memCells_keys (a : Nat) (bs : List Byte) : ∀ c ∈ memCells a bs, a ≤ c.1 ∧ c.1 < a + bs.length := by
  induction bs generalizing a with
  | nil => simp [memCells]
  | cons b bs ih =>
    intro c hc
    have step : c ∈ memCells (a + 1) bs → a ≤ c.1 ∧ c.1 < a + (b :: bs).length := by
      intro h; have := ih (a + 1) c h; simp only [List.length_cons]; omega
    unfold memCells at hc
    split at hc
    · exact step hc
    · rcases List.mem_cons.1 hc with hc | hc
      · subst hc; simp
      · exact step hc

theorem memCells_wf (a : Nat) (bs : List Byte) : Cells.wf 0 (memCells a bs) = true := by
  induction bs generalizing a with
  | nil => rfl
  | cons b bs ih =>
    unfold memCells
    split
    · exact ih (a + 1)
    · next hb =>
      have h := ih (a + 1)
      rw [Cells.wf_iff] at *
      refine ⟨List.pairwise_cons.2 ⟨?_, h.1⟩, ?_⟩
      · intro c hc; have := memCells_keys (a + 1) bs c hc; simp; omega
      · intro c hc
        rcases List.mem_cons.1 hc with hc | hc
        · subst hc; exact hb
        · exact h.2 c hc

/-- What laid-down bytes read, wherever they lie. -/
theorem memCells_get (a : Nat) (bs : List Byte) (x : Nat) :
    Cells.get 0 (memCells a bs) x = if a ≤ x ∧ x < a + bs.length then bs.getD (x - a) 0 else 0 := by
  induction bs generalizing a with
  | nil => simp [memCells]
  | cons b bs ih =>
    by_cases hx : x = a
    · subst hx
      unfold memCells
      split
      · next hb =>
        rw [Cells.get_absent 0 (fun c hc => by have := memCells_keys (x + 1) bs c hc; omega)]
        simp [hb]
      · rw [Cells.get_cons]; simp
    · have key : Cells.get 0 (memCells a (b :: bs)) x = Cells.get 0 (memCells (a + 1) bs) x := by
        conv_lhs => unfold memCells
        split
        · rfl
        · rw [Cells.get_cons, if_neg (by simp; omega)]
      rw [key, ih]
      by_cases hr : a + 1 ≤ x ∧ x < a + 1 + bs.length
      · rw [if_pos hr, if_pos (by simp only [List.length_cons]; omega)]
        have : x - a = (x - (a + 1)) + 1 := by omega
        rw [this, List.getD_cons_succ]
      · rw [if_neg hr, if_neg (by simp only [List.length_cons]; omega)]

/-- A read of one byte after a write of bytes. -/
theorem memByte_memWrite (m : List Host.Cell) (a : Nat) (bs : List Byte) (x : Nat) :
    memByte (memWrite m a bs) x = if a ≤ x ∧ x < a + bs.length then bs.getD (x - a) 0 else memByte m x := by
  unfold memByte memWrite
  rw [List.append_assoc]
  by_cases hlo : x < a
  · rw [if_neg (by omega), Cells.get_append_left 0 _ (by
      intro c hc
      rcases List.mem_append.1 hc with hc | hc
      · have := memCells_keys a bs c hc; omega
      · have := (List.mem_filter.1 hc).2; simp at this; omega), Cells.get_filter]
    intro c _ hc; simp [hc, hlo]
  · rw [Cells.get_append_absent 0 _ (by
      intro c hc; have := (List.mem_filter.1 hc).2; simp at this; omega)]
    by_cases hin : x < a + bs.length
    · rw [if_pos (by omega), Cells.get_append_left 0 _ (by
        intro c hc; have := (List.mem_filter.1 hc).2; simp at this; omega), memCells_get, if_pos (by omega)]
    · rw [if_neg (by omega), Cells.get_append_absent 0 _ (by
        intro c hc; have := memCells_keys a bs c hc; omega), Cells.get_filter]
      intro c _ hc; simp [hc]; omega

/-- A read of one byte after a range has been cleared. -/
theorem memByte_memClear (m : List Host.Cell) (a n x : Nat) :
    memByte (memClear m a n) x = if a ≤ x ∧ x < a + n then 0 else memByte m x := by
  unfold memByte memClear
  by_cases hlo : x < a
  · rw [if_neg (by omega), Cells.get_append_left 0 _ (by
      intro c hc; have := (List.mem_filter.1 hc).2; simp at this; omega), Cells.get_filter]
    intro c _ hc; simp [hc, hlo]
  · rw [Cells.get_append_absent 0 _ (by
      intro c hc; have := (List.mem_filter.1 hc).2; simp at this; omega)]
    by_cases hin : x < a + n
    · rw [if_pos (by omega)]
      exact Cells.get_absent 0 (by intro c hc; have := (List.mem_filter.1 hc).2; simp at this; omega)
    · rw [if_neg (by omega), Cells.get_filter]
      intro c _ hc; simp [hc]; omega

/-- A write keeps the canonical form of byte memory. -/
theorem memWf_memWrite (m : List Host.Cell) (a : Nat) (bs : List Byte) (h : memWf m = true) :
    memWf (memWrite m a bs) = true := by
  unfold memWf memWrite at *
  refine Cells.wf_splice 0 _ _ _ a (a + bs.length) (Cells.wf_filter 0 m _ h) (memCells_wf a bs)
    (Cells.wf_filter 0 m _ h) ?_ (memCells_keys a bs) ?_
  · intro c hc; simpa using (List.mem_filter.1 hc).2
  · intro c hc; have := (List.mem_filter.1 hc).2; simp at this; omega

/-- Clearing a range keeps the canonical form of byte memory. -/
theorem memWf_memClear (m : List Host.Cell) (a n : Nat) (h : memWf m = true) :
    memWf (memClear m a n) = true := by
  unfold memWf memClear at *
  have := Cells.wf_splice 0 _ [] _ a (a + n) (Cells.wf_filter 0 m (fun c => c.1 < a) h) rfl
    (Cells.wf_filter 0 m (fun c => a + n ≤ c.1) h)
    (by intro c hc; simpa using (List.mem_filter.1 hc).2) (by simp)
    (by intro c hc; have := (List.mem_filter.1 hc).2; simp at this; omega)
  simpa using this

/-- The length of what a read gives. -/
@[simp] theorem memRead_length (m : List Host.Cell) (a n : Nat) : (memRead m a n).length = n := by
  induction n generalizing a with
  | zero => rfl
  | succ n ih => simp [memRead, ih]

/-- One byte of what a read gives. -/
theorem memRead_getD (m : List Host.Cell) (a n i : Nat) (h : i < n) :
    (memRead m a n).getD i 0 = memByte m (a + i) := by
  induction n generalizing a i with
  | zero => omega
  | succ n ih =>
    cases i with
    | zero => simp [memRead]
    | succ i =>
      rw [memRead, List.getD_cons_succ, ih (a + 1) i (by omega)]
      congr 1; omega

end Sys2Proof.Machine
end

