-- ==== Sys2Proof/Laws/State.lean ====
section
/-!
SUPPORT. What each named update of the state leaves unchanged: one lemma for each update and
field, true by `rfl`, so that no proof unfolds a record update.
-/

namespace Sys2Proof.Machine

@[simp] theorem setTile_pending (t : Nat) (x : Tile) (s : State) : (setTile t x s).pending = s.pending := rfl
@[simp] theorem setTile_fresh (t : Nat) (x : Tile) (s : State) : (setTile t x s).fresh = s.fresh := rfl
@[simp] theorem setTile_regs (t : Nat) (x : Tile) (s : State) : (setTile t x s).regs = s.regs := rfl
@[simp] theorem setTile_rwo (t : Nat) (x : Tile) (s : State) : (setTile t x s).rwo = s.rwo := rfl
@[simp] theorem setTile_peat (t : Nat) (x : Tile) (s : State) : (setTile t x s).peat = s.peat := rfl
@[simp] theorem setTile_job (t : Nat) (x : Tile) (s : State) : (setTile t x s).job = s.job := rfl
@[simp] theorem setTile_mem (t : Nat) (x : Tile) (s : State) : (setTile t x s).mem = s.mem := rfl
@[simp] theorem setTile_wse (t : Nat) (x : Tile) (s : State) : (setTile t x s).wse = s.wse := rfl
@[simp] theorem setTile_sync (t : Nat) (x : Tile) (s : State) : (setTile t x s).sync = s.sync := rfl
@[simp] theorem setTile_fab (t : Nat) (x : Tile) (s : State) : (setTile t x s).fab = s.fab := rfl
@[simp] theorem setTile_coll (t : Nat) (x : Tile) (s : State) : (setTile t x s).coll = s.coll := rfl
@[simp] theorem setTile_red (t : Nat) (x : Tile) (s : State) : (setTile t x s).red = s.red := rfl
@[simp] theorem setTile_pups (t : Nat) (x : Tile) (s : State) : (setTile t x s).pups = s.pups := rfl
@[simp] theorem setTile_host (t : Nat) (x : Tile) (s : State) : (setTile t x s).host = s.host := rfl
@[simp] theorem setTile_time (t : Nat) (x : Tile) (s : State) : (setTile t x s).time = s.time := rfl
@[simp] theorem setTile_pwr (t : Nat) (x : Tile) (s : State) : (setTile t x s).pwr = s.pwr := rfl
@[simp] theorem setTile_light (t : Nat) (x : Tile) (s : State) : (setTile t x s).light = s.light := rfl
@[simp] theorem setTile_mar (t : Nat) (x : Tile) (s : State) : (setTile t x s).mar = s.mar := rfl
@[simp] theorem setTile_cal (t : Nat) (x : Tile) (s : State) : (setTile t x s).cal = s.cal := rfl
@[simp] theorem setTile_fw (t : Nat) (x : Tile) (s : State) : (setTile t x s).fw = s.fw := rfl
@[simp] theorem setTile_rst (t : Nat) (x : Tile) (s : State) : (setTile t x s).rst = s.rst := rfl

@[simp] theorem updTile_pending (t : Nat) (f : Tile → Tile) (s : State) : (updTile t f s).pending = s.pending := rfl
@[simp] theorem updTile_fresh (t : Nat) (f : Tile → Tile) (s : State) : (updTile t f s).fresh = s.fresh := rfl
@[simp] theorem updTile_regs (t : Nat) (f : Tile → Tile) (s : State) : (updTile t f s).regs = s.regs := rfl
@[simp] theorem updTile_rwo (t : Nat) (f : Tile → Tile) (s : State) : (updTile t f s).rwo = s.rwo := rfl
@[simp] theorem updTile_peat (t : Nat) (f : Tile → Tile) (s : State) : (updTile t f s).peat = s.peat := rfl
@[simp] theorem updTile_job (t : Nat) (f : Tile → Tile) (s : State) : (updTile t f s).job = s.job := rfl
@[simp] theorem updTile_mem (t : Nat) (f : Tile → Tile) (s : State) : (updTile t f s).mem = s.mem := rfl
@[simp] theorem updTile_wse (t : Nat) (f : Tile → Tile) (s : State) : (updTile t f s).wse = s.wse := rfl
@[simp] theorem updTile_sync (t : Nat) (f : Tile → Tile) (s : State) : (updTile t f s).sync = s.sync := rfl
@[simp] theorem updTile_fab (t : Nat) (f : Tile → Tile) (s : State) : (updTile t f s).fab = s.fab := rfl
@[simp] theorem updTile_coll (t : Nat) (f : Tile → Tile) (s : State) : (updTile t f s).coll = s.coll := rfl
@[simp] theorem updTile_red (t : Nat) (f : Tile → Tile) (s : State) : (updTile t f s).red = s.red := rfl
@[simp] theorem updTile_pups (t : Nat) (f : Tile → Tile) (s : State) : (updTile t f s).pups = s.pups := rfl
@[simp] theorem updTile_host (t : Nat) (f : Tile → Tile) (s : State) : (updTile t f s).host = s.host := rfl
@[simp] theorem updTile_time (t : Nat) (f : Tile → Tile) (s : State) : (updTile t f s).time = s.time := rfl
@[simp] theorem updTile_pwr (t : Nat) (f : Tile → Tile) (s : State) : (updTile t f s).pwr = s.pwr := rfl
@[simp] theorem updTile_light (t : Nat) (f : Tile → Tile) (s : State) : (updTile t f s).light = s.light := rfl
@[simp] theorem updTile_mar (t : Nat) (f : Tile → Tile) (s : State) : (updTile t f s).mar = s.mar := rfl
@[simp] theorem updTile_cal (t : Nat) (f : Tile → Tile) (s : State) : (updTile t f s).cal = s.cal := rfl
@[simp] theorem updTile_fw (t : Nat) (f : Tile → Tile) (s : State) : (updTile t f s).fw = s.fw := rfl
@[simp] theorem updTile_rst (t : Nat) (f : Tile → Tile) (s : State) : (updTile t f s).rst = s.rst := rfl

@[simp] theorem updStrip_pending (n : Nat) (f : Strip → Strip) (s : State) : (updStrip n f s).pending = s.pending := rfl
@[simp] theorem updStrip_fresh (n : Nat) (f : Strip → Strip) (s : State) : (updStrip n f s).fresh = s.fresh := rfl
@[simp] theorem updStrip_regs (n : Nat) (f : Strip → Strip) (s : State) : (updStrip n f s).regs = s.regs := rfl
@[simp] theorem updStrip_rwo (n : Nat) (f : Strip → Strip) (s : State) : (updStrip n f s).rwo = s.rwo := rfl
@[simp] theorem updStrip_peat (n : Nat) (f : Strip → Strip) (s : State) : (updStrip n f s).peat = s.peat := rfl
@[simp] theorem updStrip_tiles (n : Nat) (f : Strip → Strip) (s : State) : (updStrip n f s).tiles = s.tiles := rfl
@[simp] theorem updStrip_job (n : Nat) (f : Strip → Strip) (s : State) : (updStrip n f s).job = s.job := rfl
@[simp] theorem updStrip_wse (n : Nat) (f : Strip → Strip) (s : State) : (updStrip n f s).wse = s.wse := rfl
@[simp] theorem updStrip_sync (n : Nat) (f : Strip → Strip) (s : State) : (updStrip n f s).sync = s.sync := rfl
@[simp] theorem updStrip_fab (n : Nat) (f : Strip → Strip) (s : State) : (updStrip n f s).fab = s.fab := rfl
@[simp] theorem updStrip_coll (n : Nat) (f : Strip → Strip) (s : State) : (updStrip n f s).coll = s.coll := rfl
@[simp] theorem updStrip_red (n : Nat) (f : Strip → Strip) (s : State) : (updStrip n f s).red = s.red := rfl
@[simp] theorem updStrip_pups (n : Nat) (f : Strip → Strip) (s : State) : (updStrip n f s).pups = s.pups := rfl
@[simp] theorem updStrip_host (n : Nat) (f : Strip → Strip) (s : State) : (updStrip n f s).host = s.host := rfl
@[simp] theorem updStrip_time (n : Nat) (f : Strip → Strip) (s : State) : (updStrip n f s).time = s.time := rfl
@[simp] theorem updStrip_pwr (n : Nat) (f : Strip → Strip) (s : State) : (updStrip n f s).pwr = s.pwr := rfl
@[simp] theorem updStrip_light (n : Nat) (f : Strip → Strip) (s : State) : (updStrip n f s).light = s.light := rfl
@[simp] theorem updStrip_mar (n : Nat) (f : Strip → Strip) (s : State) : (updStrip n f s).mar = s.mar := rfl
@[simp] theorem updStrip_cal (n : Nat) (f : Strip → Strip) (s : State) : (updStrip n f s).cal = s.cal := rfl
@[simp] theorem updStrip_fw (n : Nat) (f : Strip → Strip) (s : State) : (updStrip n f s).fw = s.fw := rfl
@[simp] theorem updStrip_rst (n : Nat) (f : Strip → Strip) (s : State) : (updStrip n f s).rst = s.rst := rfl

@[simp] theorem noteErr_pending (a b : Nat) (s : State) : (noteErr a b s).pending = s.pending := rfl
@[simp] theorem noteErr_fresh (a b : Nat) (s : State) : (noteErr a b s).fresh = s.fresh := rfl
@[simp] theorem noteErr_regs (a b : Nat) (s : State) : (noteErr a b s).regs = s.regs := rfl
@[simp] theorem noteErr_rwo (a b : Nat) (s : State) : (noteErr a b s).rwo = s.rwo := rfl
@[simp] theorem noteErr_peat (a b : Nat) (s : State) : (noteErr a b s).peat = s.peat := rfl
@[simp] theorem noteErr_tiles (a b : Nat) (s : State) : (noteErr a b s).tiles = s.tiles := rfl
@[simp] theorem noteErr_job (a b : Nat) (s : State) : (noteErr a b s).job = s.job := rfl
@[simp] theorem noteErr_wse (a b : Nat) (s : State) : (noteErr a b s).wse = s.wse := rfl
@[simp] theorem noteErr_sync (a b : Nat) (s : State) : (noteErr a b s).sync = s.sync := rfl
@[simp] theorem noteErr_fab (a b : Nat) (s : State) : (noteErr a b s).fab = s.fab := rfl
@[simp] theorem noteErr_coll (a b : Nat) (s : State) : (noteErr a b s).coll = s.coll := rfl
@[simp] theorem noteErr_red (a b : Nat) (s : State) : (noteErr a b s).red = s.red := rfl
@[simp] theorem noteErr_pups (a b : Nat) (s : State) : (noteErr a b s).pups = s.pups := rfl
@[simp] theorem noteErr_host (a b : Nat) (s : State) : (noteErr a b s).host = s.host := rfl
@[simp] theorem noteErr_time (a b : Nat) (s : State) : (noteErr a b s).time = s.time := rfl
@[simp] theorem noteErr_pwr (a b : Nat) (s : State) : (noteErr a b s).pwr = s.pwr := rfl
@[simp] theorem noteErr_light (a b : Nat) (s : State) : (noteErr a b s).light = s.light := rfl
@[simp] theorem noteErr_mar (a b : Nat) (s : State) : (noteErr a b s).mar = s.mar := rfl
@[simp] theorem noteErr_cal (a b : Nat) (s : State) : (noteErr a b s).cal = s.cal := rfl
@[simp] theorem noteErr_fw (a b : Nat) (s : State) : (noteErr a b s).fw = s.fw := rfl
@[simp] theorem noteErr_rst (a b : Nat) (s : State) : (noteErr a b s).rst = s.rst := rfl

@[simp] theorem setGran_pending (g : Nat) (m : Mark) (s : State) : (setGran g m s).pending = s.pending := rfl
@[simp] theorem setGran_fresh (g : Nat) (m : Mark) (s : State) : (setGran g m s).fresh = s.fresh := rfl
@[simp] theorem setGran_regs (g : Nat) (m : Mark) (s : State) : (setGran g m s).regs = s.regs := rfl
@[simp] theorem setGran_rwo (g : Nat) (m : Mark) (s : State) : (setGran g m s).rwo = s.rwo := rfl
@[simp] theorem setGran_peat (g : Nat) (m : Mark) (s : State) : (setGran g m s).peat = s.peat := rfl
@[simp] theorem setGran_tiles (g : Nat) (m : Mark) (s : State) : (setGran g m s).tiles = s.tiles := rfl
@[simp] theorem setGran_job (g : Nat) (m : Mark) (s : State) : (setGran g m s).job = s.job := rfl
@[simp] theorem setGran_wse (g : Nat) (m : Mark) (s : State) : (setGran g m s).wse = s.wse := rfl
@[simp] theorem setGran_sync (g : Nat) (m : Mark) (s : State) : (setGran g m s).sync = s.sync := rfl
@[simp] theorem setGran_fab (g : Nat) (m : Mark) (s : State) : (setGran g m s).fab = s.fab := rfl
@[simp] theorem setGran_coll (g : Nat) (m : Mark) (s : State) : (setGran g m s).coll = s.coll := rfl
@[simp] theorem setGran_red (g : Nat) (m : Mark) (s : State) : (setGran g m s).red = s.red := rfl
@[simp] theorem setGran_pups (g : Nat) (m : Mark) (s : State) : (setGran g m s).pups = s.pups := rfl
@[simp] theorem setGran_host (g : Nat) (m : Mark) (s : State) : (setGran g m s).host = s.host := rfl
@[simp] theorem setGran_time (g : Nat) (m : Mark) (s : State) : (setGran g m s).time = s.time := rfl
@[simp] theorem setGran_pwr (g : Nat) (m : Mark) (s : State) : (setGran g m s).pwr = s.pwr := rfl
@[simp] theorem setGran_light (g : Nat) (m : Mark) (s : State) : (setGran g m s).light = s.light := rfl
@[simp] theorem setGran_mar (g : Nat) (m : Mark) (s : State) : (setGran g m s).mar = s.mar := rfl
@[simp] theorem setGran_cal (g : Nat) (m : Mark) (s : State) : (setGran g m s).cal = s.cal := rfl
@[simp] theorem setGran_fw (g : Nat) (m : Mark) (s : State) : (setGran g m s).fw = s.fw := rfl
@[simp] theorem setGran_rst (g : Nat) (m : Mark) (s : State) : (setGran g m s).rst = s.rst := rfl

@[simp] theorem clearGrans_pending (a n : Nat) (s : State) : (clearGrans a n s).pending = s.pending := rfl
@[simp] theorem clearGrans_fresh (a n : Nat) (s : State) : (clearGrans a n s).fresh = s.fresh := rfl
@[simp] theorem clearGrans_regs (a n : Nat) (s : State) : (clearGrans a n s).regs = s.regs := rfl
@[simp] theorem clearGrans_rwo (a n : Nat) (s : State) : (clearGrans a n s).rwo = s.rwo := rfl
@[simp] theorem clearGrans_peat (a n : Nat) (s : State) : (clearGrans a n s).peat = s.peat := rfl
@[simp] theorem clearGrans_tiles (a n : Nat) (s : State) : (clearGrans a n s).tiles = s.tiles := rfl
@[simp] theorem clearGrans_job (a n : Nat) (s : State) : (clearGrans a n s).job = s.job := rfl
@[simp] theorem clearGrans_wse (a n : Nat) (s : State) : (clearGrans a n s).wse = s.wse := rfl
@[simp] theorem clearGrans_sync (a n : Nat) (s : State) : (clearGrans a n s).sync = s.sync := rfl
@[simp] theorem clearGrans_fab (a n : Nat) (s : State) : (clearGrans a n s).fab = s.fab := rfl
@[simp] theorem clearGrans_coll (a n : Nat) (s : State) : (clearGrans a n s).coll = s.coll := rfl
@[simp] theorem clearGrans_red (a n : Nat) (s : State) : (clearGrans a n s).red = s.red := rfl
@[simp] theorem clearGrans_pups (a n : Nat) (s : State) : (clearGrans a n s).pups = s.pups := rfl
@[simp] theorem clearGrans_host (a n : Nat) (s : State) : (clearGrans a n s).host = s.host := rfl
@[simp] theorem clearGrans_time (a n : Nat) (s : State) : (clearGrans a n s).time = s.time := rfl
@[simp] theorem clearGrans_pwr (a n : Nat) (s : State) : (clearGrans a n s).pwr = s.pwr := rfl
@[simp] theorem clearGrans_light (a n : Nat) (s : State) : (clearGrans a n s).light = s.light := rfl
@[simp] theorem clearGrans_mar (a n : Nat) (s : State) : (clearGrans a n s).mar = s.mar := rfl
@[simp] theorem clearGrans_cal (a n : Nat) (s : State) : (clearGrans a n s).cal = s.cal := rfl
@[simp] theorem clearGrans_fw (a n : Nat) (s : State) : (clearGrans a n s).fw = s.fw := rfl
@[simp] theorem clearGrans_rst (a n : Nat) (s : State) : (clearGrans a n s).rst = s.rst := rfl

@[simp] theorem setWord_pending (w : Nat) (m : Mark) (s : State) : (setWord w m s).pending = s.pending := rfl
@[simp] theorem setWord_fresh (w : Nat) (m : Mark) (s : State) : (setWord w m s).fresh = s.fresh := rfl
@[simp] theorem setWord_regs (w : Nat) (m : Mark) (s : State) : (setWord w m s).regs = s.regs := rfl
@[simp] theorem setWord_rwo (w : Nat) (m : Mark) (s : State) : (setWord w m s).rwo = s.rwo := rfl
@[simp] theorem setWord_peat (w : Nat) (m : Mark) (s : State) : (setWord w m s).peat = s.peat := rfl
@[simp] theorem setWord_tiles (w : Nat) (m : Mark) (s : State) : (setWord w m s).tiles = s.tiles := rfl
@[simp] theorem setWord_job (w : Nat) (m : Mark) (s : State) : (setWord w m s).job = s.job := rfl
@[simp] theorem setWord_wse (w : Nat) (m : Mark) (s : State) : (setWord w m s).wse = s.wse := rfl
@[simp] theorem setWord_sync (w : Nat) (m : Mark) (s : State) : (setWord w m s).sync = s.sync := rfl
@[simp] theorem setWord_fab (w : Nat) (m : Mark) (s : State) : (setWord w m s).fab = s.fab := rfl
@[simp] theorem setWord_coll (w : Nat) (m : Mark) (s : State) : (setWord w m s).coll = s.coll := rfl
@[simp] theorem setWord_red (w : Nat) (m : Mark) (s : State) : (setWord w m s).red = s.red := rfl
@[simp] theorem setWord_pups (w : Nat) (m : Mark) (s : State) : (setWord w m s).pups = s.pups := rfl
@[simp] theorem setWord_host (w : Nat) (m : Mark) (s : State) : (setWord w m s).host = s.host := rfl
@[simp] theorem setWord_time (w : Nat) (m : Mark) (s : State) : (setWord w m s).time = s.time := rfl
@[simp] theorem setWord_pwr (w : Nat) (m : Mark) (s : State) : (setWord w m s).pwr = s.pwr := rfl
@[simp] theorem setWord_light (w : Nat) (m : Mark) (s : State) : (setWord w m s).light = s.light := rfl
@[simp] theorem setWord_mar (w : Nat) (m : Mark) (s : State) : (setWord w m s).mar = s.mar := rfl
@[simp] theorem setWord_cal (w : Nat) (m : Mark) (s : State) : (setWord w m s).cal = s.cal := rfl
@[simp] theorem setWord_fw (w : Nat) (m : Mark) (s : State) : (setWord w m s).fw = s.fw := rfl
@[simp] theorem setWord_rst (w : Nat) (m : Mark) (s : State) : (setWord w m s).rst = s.rst := rfl

@[simp] theorem clearWords_pending (a n : Nat) (s : State) : (clearWords a n s).pending = s.pending := rfl
@[simp] theorem clearWords_fresh (a n : Nat) (s : State) : (clearWords a n s).fresh = s.fresh := rfl
@[simp] theorem clearWords_regs (a n : Nat) (s : State) : (clearWords a n s).regs = s.regs := rfl
@[simp] theorem clearWords_rwo (a n : Nat) (s : State) : (clearWords a n s).rwo = s.rwo := rfl
@[simp] theorem clearWords_peat (a n : Nat) (s : State) : (clearWords a n s).peat = s.peat := rfl
@[simp] theorem clearWords_tiles (a n : Nat) (s : State) : (clearWords a n s).tiles = s.tiles := rfl
@[simp] theorem clearWords_job (a n : Nat) (s : State) : (clearWords a n s).job = s.job := rfl
@[simp] theorem clearWords_wse (a n : Nat) (s : State) : (clearWords a n s).wse = s.wse := rfl
@[simp] theorem clearWords_sync (a n : Nat) (s : State) : (clearWords a n s).sync = s.sync := rfl
@[simp] theorem clearWords_fab (a n : Nat) (s : State) : (clearWords a n s).fab = s.fab := rfl
@[simp] theorem clearWords_coll (a n : Nat) (s : State) : (clearWords a n s).coll = s.coll := rfl
@[simp] theorem clearWords_red (a n : Nat) (s : State) : (clearWords a n s).red = s.red := rfl
@[simp] theorem clearWords_pups (a n : Nat) (s : State) : (clearWords a n s).pups = s.pups := rfl
@[simp] theorem clearWords_host (a n : Nat) (s : State) : (clearWords a n s).host = s.host := rfl
@[simp] theorem clearWords_time (a n : Nat) (s : State) : (clearWords a n s).time = s.time := rfl
@[simp] theorem clearWords_pwr (a n : Nat) (s : State) : (clearWords a n s).pwr = s.pwr := rfl
@[simp] theorem clearWords_light (a n : Nat) (s : State) : (clearWords a n s).light = s.light := rfl
@[simp] theorem clearWords_mar (a n : Nat) (s : State) : (clearWords a n s).mar = s.mar := rfl
@[simp] theorem clearWords_cal (a n : Nat) (s : State) : (clearWords a n s).cal = s.cal := rfl
@[simp] theorem clearWords_fw (a n : Nat) (s : State) : (clearWords a n s).fw = s.fw := rfl
@[simp] theorem clearWords_rst (a n : Nat) (s : State) : (clearWords a n s).rst = s.rst := rfl

@[simp] theorem wipeScratch_pending (t : Nat) (s : State) : (wipeScratch t s).pending = s.pending := rfl
@[simp] theorem wipeScratch_fresh (t : Nat) (s : State) : (wipeScratch t s).fresh = s.fresh := rfl
@[simp] theorem wipeScratch_regs (t : Nat) (s : State) : (wipeScratch t s).regs = s.regs := rfl
@[simp] theorem wipeScratch_rwo (t : Nat) (s : State) : (wipeScratch t s).rwo = s.rwo := rfl
@[simp] theorem wipeScratch_peat (t : Nat) (s : State) : (wipeScratch t s).peat = s.peat := rfl
@[simp] theorem wipeScratch_tiles (t : Nat) (s : State) : (wipeScratch t s).tiles = s.tiles := rfl
@[simp] theorem wipeScratch_job (t : Nat) (s : State) : (wipeScratch t s).job = s.job := rfl
@[simp] theorem wipeScratch_wse (t : Nat) (s : State) : (wipeScratch t s).wse = s.wse := rfl
@[simp] theorem wipeScratch_sync (t : Nat) (s : State) : (wipeScratch t s).sync = s.sync := rfl
@[simp] theorem wipeScratch_fab (t : Nat) (s : State) : (wipeScratch t s).fab = s.fab := rfl
@[simp] theorem wipeScratch_coll (t : Nat) (s : State) : (wipeScratch t s).coll = s.coll := rfl
@[simp] theorem wipeScratch_red (t : Nat) (s : State) : (wipeScratch t s).red = s.red := rfl
@[simp] theorem wipeScratch_pups (t : Nat) (s : State) : (wipeScratch t s).pups = s.pups := rfl
@[simp] theorem wipeScratch_host (t : Nat) (s : State) : (wipeScratch t s).host = s.host := rfl
@[simp] theorem wipeScratch_time (t : Nat) (s : State) : (wipeScratch t s).time = s.time := rfl
@[simp] theorem wipeScratch_pwr (t : Nat) (s : State) : (wipeScratch t s).pwr = s.pwr := rfl
@[simp] theorem wipeScratch_light (t : Nat) (s : State) : (wipeScratch t s).light = s.light := rfl
@[simp] theorem wipeScratch_mar (t : Nat) (s : State) : (wipeScratch t s).mar = s.mar := rfl
@[simp] theorem wipeScratch_cal (t : Nat) (s : State) : (wipeScratch t s).cal = s.cal := rfl
@[simp] theorem wipeScratch_fw (t : Nat) (s : State) : (wipeScratch t s).fw = s.fw := rfl
@[simp] theorem wipeScratch_rst (t : Nat) (s : State) : (wipeScratch t s).rst = s.rst := rfl

@[simp] theorem updSlice_pending (t : Nat) (f : SliceRep → SliceRep) (s : State) : (updSlice t f s).pending = s.pending := rfl
@[simp] theorem updSlice_fresh (t : Nat) (f : SliceRep → SliceRep) (s : State) : (updSlice t f s).fresh = s.fresh := rfl
@[simp] theorem updSlice_regs (t : Nat) (f : SliceRep → SliceRep) (s : State) : (updSlice t f s).regs = s.regs := rfl
@[simp] theorem updSlice_rwo (t : Nat) (f : SliceRep → SliceRep) (s : State) : (updSlice t f s).rwo = s.rwo := rfl
@[simp] theorem updSlice_peat (t : Nat) (f : SliceRep → SliceRep) (s : State) : (updSlice t f s).peat = s.peat := rfl
@[simp] theorem updSlice_tiles (t : Nat) (f : SliceRep → SliceRep) (s : State) : (updSlice t f s).tiles = s.tiles := rfl
@[simp] theorem updSlice_job (t : Nat) (f : SliceRep → SliceRep) (s : State) : (updSlice t f s).job = s.job := rfl
@[simp] theorem updSlice_wse (t : Nat) (f : SliceRep → SliceRep) (s : State) : (updSlice t f s).wse = s.wse := rfl
@[simp] theorem updSlice_sync (t : Nat) (f : SliceRep → SliceRep) (s : State) : (updSlice t f s).sync = s.sync := rfl
@[simp] theorem updSlice_fab (t : Nat) (f : SliceRep → SliceRep) (s : State) : (updSlice t f s).fab = s.fab := rfl
@[simp] theorem updSlice_coll (t : Nat) (f : SliceRep → SliceRep) (s : State) : (updSlice t f s).coll = s.coll := rfl
@[simp] theorem updSlice_red (t : Nat) (f : SliceRep → SliceRep) (s : State) : (updSlice t f s).red = s.red := rfl
@[simp] theorem updSlice_pups (t : Nat) (f : SliceRep → SliceRep) (s : State) : (updSlice t f s).pups = s.pups := rfl
@[simp] theorem updSlice_host (t : Nat) (f : SliceRep → SliceRep) (s : State) : (updSlice t f s).host = s.host := rfl
@[simp] theorem updSlice_time (t : Nat) (f : SliceRep → SliceRep) (s : State) : (updSlice t f s).time = s.time := rfl
@[simp] theorem updSlice_pwr (t : Nat) (f : SliceRep → SliceRep) (s : State) : (updSlice t f s).pwr = s.pwr := rfl
@[simp] theorem updSlice_light (t : Nat) (f : SliceRep → SliceRep) (s : State) : (updSlice t f s).light = s.light := rfl
@[simp] theorem updSlice_mar (t : Nat) (f : SliceRep → SliceRep) (s : State) : (updSlice t f s).mar = s.mar := rfl
@[simp] theorem updSlice_cal (t : Nat) (f : SliceRep → SliceRep) (s : State) : (updSlice t f s).cal = s.cal := rfl
@[simp] theorem updSlice_fw (t : Nat) (f : SliceRep → SliceRep) (s : State) : (updSlice t f s).fw = s.fw := rfl
@[simp] theorem updSlice_rst (t : Nat) (f : SliceRep → SliceRep) (s : State) : (updSlice t f s).rst = s.rst := rfl

@[simp] theorem updColl_pending (f : Coll → Coll) (s : State) : (updColl f s).pending = s.pending := rfl
@[simp] theorem updColl_fresh (f : Coll → Coll) (s : State) : (updColl f s).fresh = s.fresh := rfl
@[simp] theorem updColl_regs (f : Coll → Coll) (s : State) : (updColl f s).regs = s.regs := rfl
@[simp] theorem updColl_rwo (f : Coll → Coll) (s : State) : (updColl f s).rwo = s.rwo := rfl
@[simp] theorem updColl_peat (f : Coll → Coll) (s : State) : (updColl f s).peat = s.peat := rfl
@[simp] theorem updColl_tiles (f : Coll → Coll) (s : State) : (updColl f s).tiles = s.tiles := rfl
@[simp] theorem updColl_job (f : Coll → Coll) (s : State) : (updColl f s).job = s.job := rfl
@[simp] theorem updColl_mem (f : Coll → Coll) (s : State) : (updColl f s).mem = s.mem := rfl
@[simp] theorem updColl_wse (f : Coll → Coll) (s : State) : (updColl f s).wse = s.wse := rfl
@[simp] theorem updColl_sync (f : Coll → Coll) (s : State) : (updColl f s).sync = s.sync := rfl
@[simp] theorem updColl_fab (f : Coll → Coll) (s : State) : (updColl f s).fab = s.fab := rfl
@[simp] theorem updColl_red (f : Coll → Coll) (s : State) : (updColl f s).red = s.red := rfl
@[simp] theorem updColl_pups (f : Coll → Coll) (s : State) : (updColl f s).pups = s.pups := rfl
@[simp] theorem updColl_host (f : Coll → Coll) (s : State) : (updColl f s).host = s.host := rfl
@[simp] theorem updColl_time (f : Coll → Coll) (s : State) : (updColl f s).time = s.time := rfl
@[simp] theorem updColl_pwr (f : Coll → Coll) (s : State) : (updColl f s).pwr = s.pwr := rfl
@[simp] theorem updColl_light (f : Coll → Coll) (s : State) : (updColl f s).light = s.light := rfl
@[simp] theorem updColl_mar (f : Coll → Coll) (s : State) : (updColl f s).mar = s.mar := rfl
@[simp] theorem updColl_cal (f : Coll → Coll) (s : State) : (updColl f s).cal = s.cal := rfl
@[simp] theorem updColl_fw (f : Coll → Coll) (s : State) : (updColl f s).fw = s.fw := rfl
@[simp] theorem updColl_rst (f : Coll → Coll) (s : State) : (updColl f s).rst = s.rst := rfl

@[simp] theorem updLane_pending (i : Nat) (f : Lane → Lane) (s : State) : (updLane i f s).pending = s.pending := rfl
@[simp] theorem updLane_fresh (i : Nat) (f : Lane → Lane) (s : State) : (updLane i f s).fresh = s.fresh := rfl
@[simp] theorem updLane_regs (i : Nat) (f : Lane → Lane) (s : State) : (updLane i f s).regs = s.regs := rfl
@[simp] theorem updLane_rwo (i : Nat) (f : Lane → Lane) (s : State) : (updLane i f s).rwo = s.rwo := rfl
@[simp] theorem updLane_peat (i : Nat) (f : Lane → Lane) (s : State) : (updLane i f s).peat = s.peat := rfl
@[simp] theorem updLane_tiles (i : Nat) (f : Lane → Lane) (s : State) : (updLane i f s).tiles = s.tiles := rfl
@[simp] theorem updLane_job (i : Nat) (f : Lane → Lane) (s : State) : (updLane i f s).job = s.job := rfl
@[simp] theorem updLane_mem (i : Nat) (f : Lane → Lane) (s : State) : (updLane i f s).mem = s.mem := rfl
@[simp] theorem updLane_wse (i : Nat) (f : Lane → Lane) (s : State) : (updLane i f s).wse = s.wse := rfl
@[simp] theorem updLane_sync (i : Nat) (f : Lane → Lane) (s : State) : (updLane i f s).sync = s.sync := rfl
@[simp] theorem updLane_coll (i : Nat) (f : Lane → Lane) (s : State) : (updLane i f s).coll = s.coll := rfl
@[simp] theorem updLane_red (i : Nat) (f : Lane → Lane) (s : State) : (updLane i f s).red = s.red := rfl
@[simp] theorem updLane_pups (i : Nat) (f : Lane → Lane) (s : State) : (updLane i f s).pups = s.pups := rfl
@[simp] theorem updLane_host (i : Nat) (f : Lane → Lane) (s : State) : (updLane i f s).host = s.host := rfl
@[simp] theorem updLane_time (i : Nat) (f : Lane → Lane) (s : State) : (updLane i f s).time = s.time := rfl
@[simp] theorem updLane_pwr (i : Nat) (f : Lane → Lane) (s : State) : (updLane i f s).pwr = s.pwr := rfl
@[simp] theorem updLane_light (i : Nat) (f : Lane → Lane) (s : State) : (updLane i f s).light = s.light := rfl
@[simp] theorem updLane_mar (i : Nat) (f : Lane → Lane) (s : State) : (updLane i f s).mar = s.mar := rfl
@[simp] theorem updLane_cal (i : Nat) (f : Lane → Lane) (s : State) : (updLane i f s).cal = s.cal := rfl
@[simp] theorem updLane_fw (i : Nat) (f : Lane → Lane) (s : State) : (updLane i f s).fw = s.fw := rfl
@[simp] theorem updLane_rst (i : Nat) (f : Lane → Lane) (s : State) : (updLane i f s).rst = s.rst := rfl

@[simp] theorem updRx_pending (i : Nat) (f : RxCh → RxCh) (s : State) : (updRx i f s).pending = s.pending := rfl
@[simp] theorem updRx_fresh (i : Nat) (f : RxCh → RxCh) (s : State) : (updRx i f s).fresh = s.fresh := rfl
@[simp] theorem updRx_regs (i : Nat) (f : RxCh → RxCh) (s : State) : (updRx i f s).regs = s.regs := rfl
@[simp] theorem updRx_rwo (i : Nat) (f : RxCh → RxCh) (s : State) : (updRx i f s).rwo = s.rwo := rfl
@[simp] theorem updRx_peat (i : Nat) (f : RxCh → RxCh) (s : State) : (updRx i f s).peat = s.peat := rfl
@[simp] theorem updRx_tiles (i : Nat) (f : RxCh → RxCh) (s : State) : (updRx i f s).tiles = s.tiles := rfl
@[simp] theorem updRx_job (i : Nat) (f : RxCh → RxCh) (s : State) : (updRx i f s).job = s.job := rfl
@[simp] theorem updRx_mem (i : Nat) (f : RxCh → RxCh) (s : State) : (updRx i f s).mem = s.mem := rfl
@[simp] theorem updRx_wse (i : Nat) (f : RxCh → RxCh) (s : State) : (updRx i f s).wse = s.wse := rfl
@[simp] theorem updRx_sync (i : Nat) (f : RxCh → RxCh) (s : State) : (updRx i f s).sync = s.sync := rfl
@[simp] theorem updRx_coll (i : Nat) (f : RxCh → RxCh) (s : State) : (updRx i f s).coll = s.coll := rfl
@[simp] theorem updRx_red (i : Nat) (f : RxCh → RxCh) (s : State) : (updRx i f s).red = s.red := rfl
@[simp] theorem updRx_pups (i : Nat) (f : RxCh → RxCh) (s : State) : (updRx i f s).pups = s.pups := rfl
@[simp] theorem updRx_host (i : Nat) (f : RxCh → RxCh) (s : State) : (updRx i f s).host = s.host := rfl
@[simp] theorem updRx_time (i : Nat) (f : RxCh → RxCh) (s : State) : (updRx i f s).time = s.time := rfl
@[simp] theorem updRx_pwr (i : Nat) (f : RxCh → RxCh) (s : State) : (updRx i f s).pwr = s.pwr := rfl
@[simp] theorem updRx_light (i : Nat) (f : RxCh → RxCh) (s : State) : (updRx i f s).light = s.light := rfl
@[simp] theorem updRx_mar (i : Nat) (f : RxCh → RxCh) (s : State) : (updRx i f s).mar = s.mar := rfl
@[simp] theorem updRx_cal (i : Nat) (f : RxCh → RxCh) (s : State) : (updRx i f s).cal = s.cal := rfl
@[simp] theorem updRx_fw (i : Nat) (f : RxCh → RxCh) (s : State) : (updRx i f s).fw = s.fw := rfl
@[simp] theorem updRx_rst (i : Nat) (f : RxCh → RxCh) (s : State) : (updRx i f s).rst = s.rst := rfl

@[simp] theorem updSlot_pending (n : Nat) (f : PlanSlot → PlanSlot) (s : State) : (updSlot n f s).pending = s.pending := rfl
@[simp] theorem updSlot_fresh (n : Nat) (f : PlanSlot → PlanSlot) (s : State) : (updSlot n f s).fresh = s.fresh := rfl
@[simp] theorem updSlot_regs (n : Nat) (f : PlanSlot → PlanSlot) (s : State) : (updSlot n f s).regs = s.regs := rfl
@[simp] theorem updSlot_rwo (n : Nat) (f : PlanSlot → PlanSlot) (s : State) : (updSlot n f s).rwo = s.rwo := rfl
@[simp] theorem updSlot_peat (n : Nat) (f : PlanSlot → PlanSlot) (s : State) : (updSlot n f s).peat = s.peat := rfl
@[simp] theorem updSlot_tiles (n : Nat) (f : PlanSlot → PlanSlot) (s : State) : (updSlot n f s).tiles = s.tiles := rfl
@[simp] theorem updSlot_job (n : Nat) (f : PlanSlot → PlanSlot) (s : State) : (updSlot n f s).job = s.job := rfl
@[simp] theorem updSlot_mem (n : Nat) (f : PlanSlot → PlanSlot) (s : State) : (updSlot n f s).mem = s.mem := rfl
@[simp] theorem updSlot_wse (n : Nat) (f : PlanSlot → PlanSlot) (s : State) : (updSlot n f s).wse = s.wse := rfl
@[simp] theorem updSlot_sync (n : Nat) (f : PlanSlot → PlanSlot) (s : State) : (updSlot n f s).sync = s.sync := rfl
@[simp] theorem updSlot_coll (n : Nat) (f : PlanSlot → PlanSlot) (s : State) : (updSlot n f s).coll = s.coll := rfl
@[simp] theorem updSlot_red (n : Nat) (f : PlanSlot → PlanSlot) (s : State) : (updSlot n f s).red = s.red := rfl
@[simp] theorem updSlot_pups (n : Nat) (f : PlanSlot → PlanSlot) (s : State) : (updSlot n f s).pups = s.pups := rfl
@[simp] theorem updSlot_host (n : Nat) (f : PlanSlot → PlanSlot) (s : State) : (updSlot n f s).host = s.host := rfl
@[simp] theorem updSlot_time (n : Nat) (f : PlanSlot → PlanSlot) (s : State) : (updSlot n f s).time = s.time := rfl
@[simp] theorem updSlot_pwr (n : Nat) (f : PlanSlot → PlanSlot) (s : State) : (updSlot n f s).pwr = s.pwr := rfl
@[simp] theorem updSlot_light (n : Nat) (f : PlanSlot → PlanSlot) (s : State) : (updSlot n f s).light = s.light := rfl
@[simp] theorem updSlot_mar (n : Nat) (f : PlanSlot → PlanSlot) (s : State) : (updSlot n f s).mar = s.mar := rfl
@[simp] theorem updSlot_cal (n : Nat) (f : PlanSlot → PlanSlot) (s : State) : (updSlot n f s).cal = s.cal := rfl
@[simp] theorem updSlot_fw (n : Nat) (f : PlanSlot → PlanSlot) (s : State) : (updSlot n f s).fw = s.fw := rfl
@[simp] theorem updSlot_rst (n : Nat) (f : PlanSlot → PlanSlot) (s : State) : (updSlot n f s).rst = s.rst := rfl

@[simp] theorem updFw_pending (f : Fw → Fw) (s : State) : (updFw f s).pending = s.pending := rfl
@[simp] theorem updFw_fresh (f : Fw → Fw) (s : State) : (updFw f s).fresh = s.fresh := rfl
@[simp] theorem updFw_regs (f : Fw → Fw) (s : State) : (updFw f s).regs = s.regs := rfl
@[simp] theorem updFw_rwo (f : Fw → Fw) (s : State) : (updFw f s).rwo = s.rwo := rfl
@[simp] theorem updFw_peat (f : Fw → Fw) (s : State) : (updFw f s).peat = s.peat := rfl
@[simp] theorem updFw_tiles (f : Fw → Fw) (s : State) : (updFw f s).tiles = s.tiles := rfl
@[simp] theorem updFw_job (f : Fw → Fw) (s : State) : (updFw f s).job = s.job := rfl
@[simp] theorem updFw_mem (f : Fw → Fw) (s : State) : (updFw f s).mem = s.mem := rfl
@[simp] theorem updFw_wse (f : Fw → Fw) (s : State) : (updFw f s).wse = s.wse := rfl
@[simp] theorem updFw_sync (f : Fw → Fw) (s : State) : (updFw f s).sync = s.sync := rfl
@[simp] theorem updFw_fab (f : Fw → Fw) (s : State) : (updFw f s).fab = s.fab := rfl
@[simp] theorem updFw_coll (f : Fw → Fw) (s : State) : (updFw f s).coll = s.coll := rfl
@[simp] theorem updFw_red (f : Fw → Fw) (s : State) : (updFw f s).red = s.red := rfl
@[simp] theorem updFw_pups (f : Fw → Fw) (s : State) : (updFw f s).pups = s.pups := rfl
@[simp] theorem updFw_host (f : Fw → Fw) (s : State) : (updFw f s).host = s.host := rfl
@[simp] theorem updFw_time (f : Fw → Fw) (s : State) : (updFw f s).time = s.time := rfl
@[simp] theorem updFw_pwr (f : Fw → Fw) (s : State) : (updFw f s).pwr = s.pwr := rfl
@[simp] theorem updFw_light (f : Fw → Fw) (s : State) : (updFw f s).light = s.light := rfl
@[simp] theorem updFw_mar (f : Fw → Fw) (s : State) : (updFw f s).mar = s.mar := rfl
@[simp] theorem updFw_cal (f : Fw → Fw) (s : State) : (updFw f s).cal = s.cal := rfl
@[simp] theorem updFw_rst (f : Fw → Fw) (s : State) : (updFw f s).rst = s.rst := rfl

@[simp] theorem updHost_pending (f : HostIf → HostIf) (s : State) : (updHost f s).pending = s.pending := rfl
@[simp] theorem updHost_fresh (f : HostIf → HostIf) (s : State) : (updHost f s).fresh = s.fresh := rfl
@[simp] theorem updHost_regs (f : HostIf → HostIf) (s : State) : (updHost f s).regs = s.regs := rfl
@[simp] theorem updHost_rwo (f : HostIf → HostIf) (s : State) : (updHost f s).rwo = s.rwo := rfl
@[simp] theorem updHost_peat (f : HostIf → HostIf) (s : State) : (updHost f s).peat = s.peat := rfl
@[simp] theorem updHost_tiles (f : HostIf → HostIf) (s : State) : (updHost f s).tiles = s.tiles := rfl
@[simp] theorem updHost_job (f : HostIf → HostIf) (s : State) : (updHost f s).job = s.job := rfl
@[simp] theorem updHost_mem (f : HostIf → HostIf) (s : State) : (updHost f s).mem = s.mem := rfl
@[simp] theorem updHost_wse (f : HostIf → HostIf) (s : State) : (updHost f s).wse = s.wse := rfl
@[simp] theorem updHost_sync (f : HostIf → HostIf) (s : State) : (updHost f s).sync = s.sync := rfl
@[simp] theorem updHost_fab (f : HostIf → HostIf) (s : State) : (updHost f s).fab = s.fab := rfl
@[simp] theorem updHost_coll (f : HostIf → HostIf) (s : State) : (updHost f s).coll = s.coll := rfl
@[simp] theorem updHost_red (f : HostIf → HostIf) (s : State) : (updHost f s).red = s.red := rfl
@[simp] theorem updHost_pups (f : HostIf → HostIf) (s : State) : (updHost f s).pups = s.pups := rfl
@[simp] theorem updHost_time (f : HostIf → HostIf) (s : State) : (updHost f s).time = s.time := rfl
@[simp] theorem updHost_pwr (f : HostIf → HostIf) (s : State) : (updHost f s).pwr = s.pwr := rfl
@[simp] theorem updHost_light (f : HostIf → HostIf) (s : State) : (updHost f s).light = s.light := rfl
@[simp] theorem updHost_mar (f : HostIf → HostIf) (s : State) : (updHost f s).mar = s.mar := rfl
@[simp] theorem updHost_cal (f : HostIf → HostIf) (s : State) : (updHost f s).cal = s.cal := rfl
@[simp] theorem updHost_fw (f : HostIf → HostIf) (s : State) : (updHost f s).fw = s.fw := rfl
@[simp] theorem updHost_rst (f : HostIf → HostIf) (s : State) : (updHost f s).rst = s.rst := rfl

@[simp] theorem updPeat_pending (f : Peat → Peat) (s : State) : (updPeat f s).pending = s.pending := rfl
@[simp] theorem updPeat_fresh (f : Peat → Peat) (s : State) : (updPeat f s).fresh = s.fresh := rfl
@[simp] theorem updPeat_regs (f : Peat → Peat) (s : State) : (updPeat f s).regs = s.regs := rfl
@[simp] theorem updPeat_rwo (f : Peat → Peat) (s : State) : (updPeat f s).rwo = s.rwo := rfl
@[simp] theorem updPeat_tiles (f : Peat → Peat) (s : State) : (updPeat f s).tiles = s.tiles := rfl
@[simp] theorem updPeat_job (f : Peat → Peat) (s : State) : (updPeat f s).job = s.job := rfl
@[simp] theorem updPeat_mem (f : Peat → Peat) (s : State) : (updPeat f s).mem = s.mem := rfl
@[simp] theorem updPeat_wse (f : Peat → Peat) (s : State) : (updPeat f s).wse = s.wse := rfl
@[simp] theorem updPeat_sync (f : Peat → Peat) (s : State) : (updPeat f s).sync = s.sync := rfl
@[simp] theorem updPeat_fab (f : Peat → Peat) (s : State) : (updPeat f s).fab = s.fab := rfl
@[simp] theorem updPeat_coll (f : Peat → Peat) (s : State) : (updPeat f s).coll = s.coll := rfl
@[simp] theorem updPeat_red (f : Peat → Peat) (s : State) : (updPeat f s).red = s.red := rfl
@[simp] theorem updPeat_pups (f : Peat → Peat) (s : State) : (updPeat f s).pups = s.pups := rfl
@[simp] theorem updPeat_host (f : Peat → Peat) (s : State) : (updPeat f s).host = s.host := rfl
@[simp] theorem updPeat_time (f : Peat → Peat) (s : State) : (updPeat f s).time = s.time := rfl
@[simp] theorem updPeat_pwr (f : Peat → Peat) (s : State) : (updPeat f s).pwr = s.pwr := rfl
@[simp] theorem updPeat_light (f : Peat → Peat) (s : State) : (updPeat f s).light = s.light := rfl
@[simp] theorem updPeat_mar (f : Peat → Peat) (s : State) : (updPeat f s).mar = s.mar := rfl
@[simp] theorem updPeat_cal (f : Peat → Peat) (s : State) : (updPeat f s).cal = s.cal := rfl
@[simp] theorem updPeat_fw (f : Peat → Peat) (s : State) : (updPeat f s).fw = s.fw := rfl
@[simp] theorem updPeat_rst (f : Peat → Peat) (s : State) : (updPeat f s).rst = s.rst := rfl

@[simp] theorem updChip_pending (c : Nat) (f : Chiplet → Chiplet) (s : State) : (updChip c f s).pending = s.pending := rfl
@[simp] theorem updChip_fresh (c : Nat) (f : Chiplet → Chiplet) (s : State) : (updChip c f s).fresh = s.fresh := rfl
@[simp] theorem updChip_regs (c : Nat) (f : Chiplet → Chiplet) (s : State) : (updChip c f s).regs = s.regs := rfl
@[simp] theorem updChip_rwo (c : Nat) (f : Chiplet → Chiplet) (s : State) : (updChip c f s).rwo = s.rwo := rfl
@[simp] theorem updChip_peat (c : Nat) (f : Chiplet → Chiplet) (s : State) : (updChip c f s).peat = s.peat := rfl
@[simp] theorem updChip_tiles (c : Nat) (f : Chiplet → Chiplet) (s : State) : (updChip c f s).tiles = s.tiles := rfl
@[simp] theorem updChip_job (c : Nat) (f : Chiplet → Chiplet) (s : State) : (updChip c f s).job = s.job := rfl
@[simp] theorem updChip_mem (c : Nat) (f : Chiplet → Chiplet) (s : State) : (updChip c f s).mem = s.mem := rfl
@[simp] theorem updChip_wse (c : Nat) (f : Chiplet → Chiplet) (s : State) : (updChip c f s).wse = s.wse := rfl
@[simp] theorem updChip_sync (c : Nat) (f : Chiplet → Chiplet) (s : State) : (updChip c f s).sync = s.sync := rfl
@[simp] theorem updChip_fab (c : Nat) (f : Chiplet → Chiplet) (s : State) : (updChip c f s).fab = s.fab := rfl
@[simp] theorem updChip_coll (c : Nat) (f : Chiplet → Chiplet) (s : State) : (updChip c f s).coll = s.coll := rfl
@[simp] theorem updChip_red (c : Nat) (f : Chiplet → Chiplet) (s : State) : (updChip c f s).red = s.red := rfl
@[simp] theorem updChip_pups (c : Nat) (f : Chiplet → Chiplet) (s : State) : (updChip c f s).pups = s.pups := rfl
@[simp] theorem updChip_host (c : Nat) (f : Chiplet → Chiplet) (s : State) : (updChip c f s).host = s.host := rfl
@[simp] theorem updChip_time (c : Nat) (f : Chiplet → Chiplet) (s : State) : (updChip c f s).time = s.time := rfl
@[simp] theorem updChip_pwr (c : Nat) (f : Chiplet → Chiplet) (s : State) : (updChip c f s).pwr = s.pwr := rfl
@[simp] theorem updChip_mar (c : Nat) (f : Chiplet → Chiplet) (s : State) : (updChip c f s).mar = s.mar := rfl
@[simp] theorem updChip_cal (c : Nat) (f : Chiplet → Chiplet) (s : State) : (updChip c f s).cal = s.cal := rfl
@[simp] theorem updChip_fw (c : Nat) (f : Chiplet → Chiplet) (s : State) : (updChip c f s).fw = s.fw := rfl
@[simp] theorem updChip_rst (c : Nat) (f : Chiplet → Chiplet) (s : State) : (updChip c f s).rst = s.rst := rfl

@[simp] theorem updEng_pending (e : Nat) (f : MarEngine → MarEngine) (s : State) : (updEng e f s).pending = s.pending := rfl
@[simp] theorem updEng_fresh (e : Nat) (f : MarEngine → MarEngine) (s : State) : (updEng e f s).fresh = s.fresh := rfl
@[simp] theorem updEng_regs (e : Nat) (f : MarEngine → MarEngine) (s : State) : (updEng e f s).regs = s.regs := rfl
@[simp] theorem updEng_rwo (e : Nat) (f : MarEngine → MarEngine) (s : State) : (updEng e f s).rwo = s.rwo := rfl
@[simp] theorem updEng_peat (e : Nat) (f : MarEngine → MarEngine) (s : State) : (updEng e f s).peat = s.peat := rfl
@[simp] theorem updEng_tiles (e : Nat) (f : MarEngine → MarEngine) (s : State) : (updEng e f s).tiles = s.tiles := rfl
@[simp] theorem updEng_job (e : Nat) (f : MarEngine → MarEngine) (s : State) : (updEng e f s).job = s.job := rfl
@[simp] theorem updEng_mem (e : Nat) (f : MarEngine → MarEngine) (s : State) : (updEng e f s).mem = s.mem := rfl
@[simp] theorem updEng_wse (e : Nat) (f : MarEngine → MarEngine) (s : State) : (updEng e f s).wse = s.wse := rfl
@[simp] theorem updEng_sync (e : Nat) (f : MarEngine → MarEngine) (s : State) : (updEng e f s).sync = s.sync := rfl
@[simp] theorem updEng_fab (e : Nat) (f : MarEngine → MarEngine) (s : State) : (updEng e f s).fab = s.fab := rfl
@[simp] theorem updEng_coll (e : Nat) (f : MarEngine → MarEngine) (s : State) : (updEng e f s).coll = s.coll := rfl
@[simp] theorem updEng_red (e : Nat) (f : MarEngine → MarEngine) (s : State) : (updEng e f s).red = s.red := rfl
@[simp] theorem updEng_pups (e : Nat) (f : MarEngine → MarEngine) (s : State) : (updEng e f s).pups = s.pups := rfl
@[simp] theorem updEng_host (e : Nat) (f : MarEngine → MarEngine) (s : State) : (updEng e f s).host = s.host := rfl
@[simp] theorem updEng_time (e : Nat) (f : MarEngine → MarEngine) (s : State) : (updEng e f s).time = s.time := rfl
@[simp] theorem updEng_pwr (e : Nat) (f : MarEngine → MarEngine) (s : State) : (updEng e f s).pwr = s.pwr := rfl
@[simp] theorem updEng_light (e : Nat) (f : MarEngine → MarEngine) (s : State) : (updEng e f s).light = s.light := rfl
@[simp] theorem updEng_cal (e : Nat) (f : MarEngine → MarEngine) (s : State) : (updEng e f s).cal = s.cal := rfl
@[simp] theorem updEng_fw (e : Nat) (f : MarEngine → MarEngine) (s : State) : (updEng e f s).fw = s.fw := rfl
@[simp] theorem updEng_rst (e : Nat) (f : MarEngine → MarEngine) (s : State) : (updEng e f s).rst = s.rst := rfl

@[simp] theorem raiseSource_pending (i : Nat) (s : State) : (raiseSource i s).pending = s.pending := rfl
@[simp] theorem raiseSource_fresh (i : Nat) (s : State) : (raiseSource i s).fresh = s.fresh := rfl
@[simp] theorem raiseSource_regs (i : Nat) (s : State) : (raiseSource i s).regs = s.regs := rfl
@[simp] theorem raiseSource_rwo (i : Nat) (s : State) : (raiseSource i s).rwo = s.rwo := rfl
@[simp] theorem raiseSource_peat (i : Nat) (s : State) : (raiseSource i s).peat = s.peat := rfl
@[simp] theorem raiseSource_tiles (i : Nat) (s : State) : (raiseSource i s).tiles = s.tiles := rfl
@[simp] theorem raiseSource_job (i : Nat) (s : State) : (raiseSource i s).job = s.job := rfl
@[simp] theorem raiseSource_mem (i : Nat) (s : State) : (raiseSource i s).mem = s.mem := rfl
@[simp] theorem raiseSource_wse (i : Nat) (s : State) : (raiseSource i s).wse = s.wse := rfl
@[simp] theorem raiseSource_sync (i : Nat) (s : State) : (raiseSource i s).sync = s.sync := rfl
@[simp] theorem raiseSource_fab (i : Nat) (s : State) : (raiseSource i s).fab = s.fab := rfl
@[simp] theorem raiseSource_coll (i : Nat) (s : State) : (raiseSource i s).coll = s.coll := rfl
@[simp] theorem raiseSource_red (i : Nat) (s : State) : (raiseSource i s).red = s.red := rfl
@[simp] theorem raiseSource_pups (i : Nat) (s : State) : (raiseSource i s).pups = s.pups := rfl
@[simp] theorem raiseSource_host (i : Nat) (s : State) : (raiseSource i s).host = s.host := rfl
@[simp] theorem raiseSource_time (i : Nat) (s : State) : (raiseSource i s).time = s.time := rfl
@[simp] theorem raiseSource_pwr (i : Nat) (s : State) : (raiseSource i s).pwr = s.pwr := rfl
@[simp] theorem raiseSource_light (i : Nat) (s : State) : (raiseSource i s).light = s.light := rfl
@[simp] theorem raiseSource_mar (i : Nat) (s : State) : (raiseSource i s).mar = s.mar := rfl
@[simp] theorem raiseSource_cal (i : Nat) (s : State) : (raiseSource i s).cal = s.cal := rfl
@[simp] theorem raiseSource_fw (i : Nat) (s : State) : (raiseSource i s).fw = s.fw := rfl

@[simp] theorem updRst_pending (f : Rst → Rst) (s : State) : (updRst f s).pending = s.pending := rfl
@[simp] theorem updRst_fresh (f : Rst → Rst) (s : State) : (updRst f s).fresh = s.fresh := rfl
@[simp] theorem updRst_regs (f : Rst → Rst) (s : State) : (updRst f s).regs = s.regs := rfl
@[simp] theorem updRst_rwo (f : Rst → Rst) (s : State) : (updRst f s).rwo = s.rwo := rfl
@[simp] theorem updRst_peat (f : Rst → Rst) (s : State) : (updRst f s).peat = s.peat := rfl
@[simp] theorem updRst_tiles (f : Rst → Rst) (s : State) : (updRst f s).tiles = s.tiles := rfl
@[simp] theorem updRst_job (f : Rst → Rst) (s : State) : (updRst f s).job = s.job := rfl
@[simp] theorem updRst_mem (f : Rst → Rst) (s : State) : (updRst f s).mem = s.mem := rfl
@[simp] theorem updRst_wse (f : Rst → Rst) (s : State) : (updRst f s).wse = s.wse := rfl
@[simp] theorem updRst_sync (f : Rst → Rst) (s : State) : (updRst f s).sync = s.sync := rfl
@[simp] theorem updRst_fab (f : Rst → Rst) (s : State) : (updRst f s).fab = s.fab := rfl
@[simp] theorem updRst_coll (f : Rst → Rst) (s : State) : (updRst f s).coll = s.coll := rfl
@[simp] theorem updRst_red (f : Rst → Rst) (s : State) : (updRst f s).red = s.red := rfl
@[simp] theorem updRst_pups (f : Rst → Rst) (s : State) : (updRst f s).pups = s.pups := rfl
@[simp] theorem updRst_host (f : Rst → Rst) (s : State) : (updRst f s).host = s.host := rfl
@[simp] theorem updRst_time (f : Rst → Rst) (s : State) : (updRst f s).time = s.time := rfl
@[simp] theorem updRst_pwr (f : Rst → Rst) (s : State) : (updRst f s).pwr = s.pwr := rfl
@[simp] theorem updRst_light (f : Rst → Rst) (s : State) : (updRst f s).light = s.light := rfl
@[simp] theorem updRst_mar (f : Rst → Rst) (s : State) : (updRst f s).mar = s.mar := rfl
@[simp] theorem updRst_cal (f : Rst → Rst) (s : State) : (updRst f s).cal = s.cal := rfl
@[simp] theorem updRst_fw (f : Rst → Rst) (s : State) : (updRst f s).fw = s.fw := rfl

@[simp] theorem updPwr_pending (f : Pwr → Pwr) (s : State) : (updPwr f s).pending = s.pending := rfl
@[simp] theorem updPwr_fresh (f : Pwr → Pwr) (s : State) : (updPwr f s).fresh = s.fresh := rfl
@[simp] theorem updPwr_regs (f : Pwr → Pwr) (s : State) : (updPwr f s).regs = s.regs := rfl
@[simp] theorem updPwr_rwo (f : Pwr → Pwr) (s : State) : (updPwr f s).rwo = s.rwo := rfl
@[simp] theorem updPwr_peat (f : Pwr → Pwr) (s : State) : (updPwr f s).peat = s.peat := rfl
@[simp] theorem updPwr_tiles (f : Pwr → Pwr) (s : State) : (updPwr f s).tiles = s.tiles := rfl
@[simp] theorem updPwr_job (f : Pwr → Pwr) (s : State) : (updPwr f s).job = s.job := rfl
@[simp] theorem updPwr_mem (f : Pwr → Pwr) (s : State) : (updPwr f s).mem = s.mem := rfl
@[simp] theorem updPwr_wse (f : Pwr → Pwr) (s : State) : (updPwr f s).wse = s.wse := rfl
@[simp] theorem updPwr_sync (f : Pwr → Pwr) (s : State) : (updPwr f s).sync = s.sync := rfl
@[simp] theorem updPwr_fab (f : Pwr → Pwr) (s : State) : (updPwr f s).fab = s.fab := rfl
@[simp] theorem updPwr_coll (f : Pwr → Pwr) (s : State) : (updPwr f s).coll = s.coll := rfl
@[simp] theorem updPwr_red (f : Pwr → Pwr) (s : State) : (updPwr f s).red = s.red := rfl
@[simp] theorem updPwr_pups (f : Pwr → Pwr) (s : State) : (updPwr f s).pups = s.pups := rfl
@[simp] theorem updPwr_host (f : Pwr → Pwr) (s : State) : (updPwr f s).host = s.host := rfl
@[simp] theorem updPwr_time (f : Pwr → Pwr) (s : State) : (updPwr f s).time = s.time := rfl
@[simp] theorem updPwr_light (f : Pwr → Pwr) (s : State) : (updPwr f s).light = s.light := rfl
@[simp] theorem updPwr_mar (f : Pwr → Pwr) (s : State) : (updPwr f s).mar = s.mar := rfl
@[simp] theorem updPwr_cal (f : Pwr → Pwr) (s : State) : (updPwr f s).cal = s.cal := rfl
@[simp] theorem updPwr_fw (f : Pwr → Pwr) (s : State) : (updPwr f s).fw = s.fw := rfl
@[simp] theorem updPwr_rst (f : Pwr → Pwr) (s : State) : (updPwr f s).rst = s.rst := rfl

@[simp] theorem updRed_pending (f : Red → Red) (s : State) : (updRed f s).pending = s.pending := rfl
@[simp] theorem updRed_fresh (f : Red → Red) (s : State) : (updRed f s).fresh = s.fresh := rfl
@[simp] theorem updRed_regs (f : Red → Red) (s : State) : (updRed f s).regs = s.regs := rfl
@[simp] theorem updRed_rwo (f : Red → Red) (s : State) : (updRed f s).rwo = s.rwo := rfl
@[simp] theorem updRed_peat (f : Red → Red) (s : State) : (updRed f s).peat = s.peat := rfl
@[simp] theorem updRed_tiles (f : Red → Red) (s : State) : (updRed f s).tiles = s.tiles := rfl
@[simp] theorem updRed_job (f : Red → Red) (s : State) : (updRed f s).job = s.job := rfl
@[simp] theorem updRed_mem (f : Red → Red) (s : State) : (updRed f s).mem = s.mem := rfl
@[simp] theorem updRed_wse (f : Red → Red) (s : State) : (updRed f s).wse = s.wse := rfl
@[simp] theorem updRed_sync (f : Red → Red) (s : State) : (updRed f s).sync = s.sync := rfl
@[simp] theorem updRed_fab (f : Red → Red) (s : State) : (updRed f s).fab = s.fab := rfl
@[simp] theorem updRed_coll (f : Red → Red) (s : State) : (updRed f s).coll = s.coll := rfl
@[simp] theorem updRed_pups (f : Red → Red) (s : State) : (updRed f s).pups = s.pups := rfl
@[simp] theorem updRed_host (f : Red → Red) (s : State) : (updRed f s).host = s.host := rfl
@[simp] theorem updRed_time (f : Red → Red) (s : State) : (updRed f s).time = s.time := rfl
@[simp] theorem updRed_pwr (f : Red → Red) (s : State) : (updRed f s).pwr = s.pwr := rfl
@[simp] theorem updRed_light (f : Red → Red) (s : State) : (updRed f s).light = s.light := rfl
@[simp] theorem updRed_mar (f : Red → Red) (s : State) : (updRed f s).mar = s.mar := rfl
@[simp] theorem updRed_cal (f : Red → Red) (s : State) : (updRed f s).cal = s.cal := rfl
@[simp] theorem updRed_fw (f : Red → Red) (s : State) : (updRed f s).fw = s.fw := rfl
@[simp] theorem updRed_rst (f : Red → Red) (s : State) : (updRed f s).rst = s.rst := rfl

@[simp] theorem updAcc_pending (i : Nat) (f : AccEntry → AccEntry) (s : State) : (updAcc i f s).pending = s.pending := rfl
@[simp] theorem updAcc_fresh (i : Nat) (f : AccEntry → AccEntry) (s : State) : (updAcc i f s).fresh = s.fresh := rfl
@[simp] theorem updAcc_regs (i : Nat) (f : AccEntry → AccEntry) (s : State) : (updAcc i f s).regs = s.regs := rfl
@[simp] theorem updAcc_rwo (i : Nat) (f : AccEntry → AccEntry) (s : State) : (updAcc i f s).rwo = s.rwo := rfl
@[simp] theorem updAcc_peat (i : Nat) (f : AccEntry → AccEntry) (s : State) : (updAcc i f s).peat = s.peat := rfl
@[simp] theorem updAcc_tiles (i : Nat) (f : AccEntry → AccEntry) (s : State) : (updAcc i f s).tiles = s.tiles := rfl
@[simp] theorem updAcc_job (i : Nat) (f : AccEntry → AccEntry) (s : State) : (updAcc i f s).job = s.job := rfl
@[simp] theorem updAcc_mem (i : Nat) (f : AccEntry → AccEntry) (s : State) : (updAcc i f s).mem = s.mem := rfl
@[simp] theorem updAcc_wse (i : Nat) (f : AccEntry → AccEntry) (s : State) : (updAcc i f s).wse = s.wse := rfl
@[simp] theorem updAcc_sync (i : Nat) (f : AccEntry → AccEntry) (s : State) : (updAcc i f s).sync = s.sync := rfl
@[simp] theorem updAcc_fab (i : Nat) (f : AccEntry → AccEntry) (s : State) : (updAcc i f s).fab = s.fab := rfl
@[simp] theorem updAcc_coll (i : Nat) (f : AccEntry → AccEntry) (s : State) : (updAcc i f s).coll = s.coll := rfl
@[simp] theorem updAcc_pups (i : Nat) (f : AccEntry → AccEntry) (s : State) : (updAcc i f s).pups = s.pups := rfl
@[simp] theorem updAcc_host (i : Nat) (f : AccEntry → AccEntry) (s : State) : (updAcc i f s).host = s.host := rfl
@[simp] theorem updAcc_time (i : Nat) (f : AccEntry → AccEntry) (s : State) : (updAcc i f s).time = s.time := rfl
@[simp] theorem updAcc_pwr (i : Nat) (f : AccEntry → AccEntry) (s : State) : (updAcc i f s).pwr = s.pwr := rfl
@[simp] theorem updAcc_light (i : Nat) (f : AccEntry → AccEntry) (s : State) : (updAcc i f s).light = s.light := rfl
@[simp] theorem updAcc_mar (i : Nat) (f : AccEntry → AccEntry) (s : State) : (updAcc i f s).mar = s.mar := rfl
@[simp] theorem updAcc_cal (i : Nat) (f : AccEntry → AccEntry) (s : State) : (updAcc i f s).cal = s.cal := rfl
@[simp] theorem updAcc_fw (i : Nat) (f : AccEntry → AccEntry) (s : State) : (updAcc i f s).fw = s.fw := rfl
@[simp] theorem updAcc_rst (i : Nat) (f : AccEntry → AccEntry) (s : State) : (updAcc i f s).rst = s.rst := rfl

@[simp] theorem updStream_pending (d : Nat) (f : Stream → Stream) (s : State) : (updStream d f s).pending = s.pending := rfl
@[simp] theorem updStream_fresh (d : Nat) (f : Stream → Stream) (s : State) : (updStream d f s).fresh = s.fresh := rfl
@[simp] theorem updStream_regs (d : Nat) (f : Stream → Stream) (s : State) : (updStream d f s).regs = s.regs := rfl
@[simp] theorem updStream_rwo (d : Nat) (f : Stream → Stream) (s : State) : (updStream d f s).rwo = s.rwo := rfl
@[simp] theorem updStream_peat (d : Nat) (f : Stream → Stream) (s : State) : (updStream d f s).peat = s.peat := rfl
@[simp] theorem updStream_tiles (d : Nat) (f : Stream → Stream) (s : State) : (updStream d f s).tiles = s.tiles := rfl
@[simp] theorem updStream_job (d : Nat) (f : Stream → Stream) (s : State) : (updStream d f s).job = s.job := rfl
@[simp] theorem updStream_mem (d : Nat) (f : Stream → Stream) (s : State) : (updStream d f s).mem = s.mem := rfl
@[simp] theorem updStream_sync (d : Nat) (f : Stream → Stream) (s : State) : (updStream d f s).sync = s.sync := rfl
@[simp] theorem updStream_fab (d : Nat) (f : Stream → Stream) (s : State) : (updStream d f s).fab = s.fab := rfl
@[simp] theorem updStream_coll (d : Nat) (f : Stream → Stream) (s : State) : (updStream d f s).coll = s.coll := rfl
@[simp] theorem updStream_red (d : Nat) (f : Stream → Stream) (s : State) : (updStream d f s).red = s.red := rfl
@[simp] theorem updStream_pups (d : Nat) (f : Stream → Stream) (s : State) : (updStream d f s).pups = s.pups := rfl
@[simp] theorem updStream_host (d : Nat) (f : Stream → Stream) (s : State) : (updStream d f s).host = s.host := rfl
@[simp] theorem updStream_time (d : Nat) (f : Stream → Stream) (s : State) : (updStream d f s).time = s.time := rfl
@[simp] theorem updStream_pwr (d : Nat) (f : Stream → Stream) (s : State) : (updStream d f s).pwr = s.pwr := rfl
@[simp] theorem updStream_light (d : Nat) (f : Stream → Stream) (s : State) : (updStream d f s).light = s.light := rfl
@[simp] theorem updStream_mar (d : Nat) (f : Stream → Stream) (s : State) : (updStream d f s).mar = s.mar := rfl
@[simp] theorem updStream_cal (d : Nat) (f : Stream → Stream) (s : State) : (updStream d f s).cal = s.cal := rfl
@[simp] theorem updStream_fw (d : Nat) (f : Stream → Stream) (s : State) : (updStream d f s).fw = s.fw := rfl
@[simp] theorem updStream_rst (d : Nat) (f : Stream → Stream) (s : State) : (updStream d f s).rst = s.rst := rfl

@[simp] theorem wseErr_pending (a b c : Nat) (s : State) : (wseErr a b c s).pending = s.pending := rfl
@[simp] theorem wseErr_fresh (a b c : Nat) (s : State) : (wseErr a b c s).fresh = s.fresh := rfl
@[simp] theorem wseErr_regs (a b c : Nat) (s : State) : (wseErr a b c s).regs = s.regs := rfl
@[simp] theorem wseErr_rwo (a b c : Nat) (s : State) : (wseErr a b c s).rwo = s.rwo := rfl
@[simp] theorem wseErr_peat (a b c : Nat) (s : State) : (wseErr a b c s).peat = s.peat := rfl
@[simp] theorem wseErr_tiles (a b c : Nat) (s : State) : (wseErr a b c s).tiles = s.tiles := rfl
@[simp] theorem wseErr_job (a b c : Nat) (s : State) : (wseErr a b c s).job = s.job := rfl
@[simp] theorem wseErr_mem (a b c : Nat) (s : State) : (wseErr a b c s).mem = s.mem := rfl
@[simp] theorem wseErr_sync (a b c : Nat) (s : State) : (wseErr a b c s).sync = s.sync := rfl
@[simp] theorem wseErr_fab (a b c : Nat) (s : State) : (wseErr a b c s).fab = s.fab := rfl
@[simp] theorem wseErr_coll (a b c : Nat) (s : State) : (wseErr a b c s).coll = s.coll := rfl
@[simp] theorem wseErr_red (a b c : Nat) (s : State) : (wseErr a b c s).red = s.red := rfl
@[simp] theorem wseErr_pups (a b c : Nat) (s : State) : (wseErr a b c s).pups = s.pups := rfl
@[simp] theorem wseErr_host (a b c : Nat) (s : State) : (wseErr a b c s).host = s.host := rfl
@[simp] theorem wseErr_time (a b c : Nat) (s : State) : (wseErr a b c s).time = s.time := rfl
@[simp] theorem wseErr_pwr (a b c : Nat) (s : State) : (wseErr a b c s).pwr = s.pwr := rfl
@[simp] theorem wseErr_light (a b c : Nat) (s : State) : (wseErr a b c s).light = s.light := rfl
@[simp] theorem wseErr_mar (a b c : Nat) (s : State) : (wseErr a b c s).mar = s.mar := rfl
@[simp] theorem wseErr_cal (a b c : Nat) (s : State) : (wseErr a b c s).cal = s.cal := rfl
@[simp] theorem wseErr_fw (a b c : Nat) (s : State) : (wseErr a b c s).fw = s.fw := rfl
@[simp] theorem wseErr_rst (a b c : Nat) (s : State) : (wseErr a b c s).rst = s.rst := rfl

@[simp] theorem wseCount_pending (u : Bool) (s : State) : (wseCount u s).pending = s.pending := rfl
@[simp] theorem wseCount_fresh (u : Bool) (s : State) : (wseCount u s).fresh = s.fresh := rfl
@[simp] theorem wseCount_regs (u : Bool) (s : State) : (wseCount u s).regs = s.regs := rfl
@[simp] theorem wseCount_rwo (u : Bool) (s : State) : (wseCount u s).rwo = s.rwo := rfl
@[simp] theorem wseCount_peat (u : Bool) (s : State) : (wseCount u s).peat = s.peat := rfl
@[simp] theorem wseCount_tiles (u : Bool) (s : State) : (wseCount u s).tiles = s.tiles := rfl
@[simp] theorem wseCount_job (u : Bool) (s : State) : (wseCount u s).job = s.job := rfl
@[simp] theorem wseCount_mem (u : Bool) (s : State) : (wseCount u s).mem = s.mem := rfl
@[simp] theorem wseCount_sync (u : Bool) (s : State) : (wseCount u s).sync = s.sync := rfl
@[simp] theorem wseCount_fab (u : Bool) (s : State) : (wseCount u s).fab = s.fab := rfl
@[simp] theorem wseCount_coll (u : Bool) (s : State) : (wseCount u s).coll = s.coll := rfl
@[simp] theorem wseCount_red (u : Bool) (s : State) : (wseCount u s).red = s.red := rfl
@[simp] theorem wseCount_pups (u : Bool) (s : State) : (wseCount u s).pups = s.pups := rfl
@[simp] theorem wseCount_host (u : Bool) (s : State) : (wseCount u s).host = s.host := rfl
@[simp] theorem wseCount_time (u : Bool) (s : State) : (wseCount u s).time = s.time := rfl
@[simp] theorem wseCount_pwr (u : Bool) (s : State) : (wseCount u s).pwr = s.pwr := rfl
@[simp] theorem wseCount_light (u : Bool) (s : State) : (wseCount u s).light = s.light := rfl
@[simp] theorem wseCount_mar (u : Bool) (s : State) : (wseCount u s).mar = s.mar := rfl
@[simp] theorem wseCount_cal (u : Bool) (s : State) : (wseCount u s).cal = s.cal := rfl
@[simp] theorem wseCount_fw (u : Bool) (s : State) : (wseCount u s).fw = s.fw := rfl
@[simp] theorem wseCount_rst (u : Bool) (s : State) : (wseCount u s).rst = s.rst := rfl

@[simp] theorem updTime_pending (f : TimeB → TimeB) (s : State) : (updTime f s).pending = s.pending := rfl
@[simp] theorem updTime_fresh (f : TimeB → TimeB) (s : State) : (updTime f s).fresh = s.fresh := rfl
@[simp] theorem updTime_regs (f : TimeB → TimeB) (s : State) : (updTime f s).regs = s.regs := rfl
@[simp] theorem updTime_rwo (f : TimeB → TimeB) (s : State) : (updTime f s).rwo = s.rwo := rfl
@[simp] theorem updTime_peat (f : TimeB → TimeB) (s : State) : (updTime f s).peat = s.peat := rfl
@[simp] theorem updTime_tiles (f : TimeB → TimeB) (s : State) : (updTime f s).tiles = s.tiles := rfl
@[simp] theorem updTime_job (f : TimeB → TimeB) (s : State) : (updTime f s).job = s.job := rfl
@[simp] theorem updTime_mem (f : TimeB → TimeB) (s : State) : (updTime f s).mem = s.mem := rfl
@[simp] theorem updTime_wse (f : TimeB → TimeB) (s : State) : (updTime f s).wse = s.wse := rfl
@[simp] theorem updTime_sync (f : TimeB → TimeB) (s : State) : (updTime f s).sync = s.sync := rfl
@[simp] theorem updTime_fab (f : TimeB → TimeB) (s : State) : (updTime f s).fab = s.fab := rfl
@[simp] theorem updTime_coll (f : TimeB → TimeB) (s : State) : (updTime f s).coll = s.coll := rfl
@[simp] theorem updTime_red (f : TimeB → TimeB) (s : State) : (updTime f s).red = s.red := rfl
@[simp] theorem updTime_pups (f : TimeB → TimeB) (s : State) : (updTime f s).pups = s.pups := rfl
@[simp] theorem updTime_host (f : TimeB → TimeB) (s : State) : (updTime f s).host = s.host := rfl
@[simp] theorem updTime_pwr (f : TimeB → TimeB) (s : State) : (updTime f s).pwr = s.pwr := rfl
@[simp] theorem updTime_light (f : TimeB → TimeB) (s : State) : (updTime f s).light = s.light := rfl
@[simp] theorem updTime_mar (f : TimeB → TimeB) (s : State) : (updTime f s).mar = s.mar := rfl
@[simp] theorem updTime_cal (f : TimeB → TimeB) (s : State) : (updTime f s).cal = s.cal := rfl
@[simp] theorem updTime_fw (f : TimeB → TimeB) (s : State) : (updTime f s).fw = s.fw := rfl
@[simp] theorem updTime_rst (f : TimeB → TimeB) (s : State) : (updTime f s).rst = s.rst := rfl

@[simp] theorem regPut_pending (s : State) (r : RegRow) (i : Nat) (ix : List Nat) (v : Nat) : (regPut s r i ix v).pending = s.pending := rfl
@[simp] theorem regPut_fresh (s : State) (r : RegRow) (i : Nat) (ix : List Nat) (v : Nat) : (regPut s r i ix v).fresh = s.fresh := rfl
@[simp] theorem regPut_rwo (s : State) (r : RegRow) (i : Nat) (ix : List Nat) (v : Nat) : (regPut s r i ix v).rwo = s.rwo := rfl
@[simp] theorem regPut_peat (s : State) (r : RegRow) (i : Nat) (ix : List Nat) (v : Nat) : (regPut s r i ix v).peat = s.peat := rfl
@[simp] theorem regPut_tiles (s : State) (r : RegRow) (i : Nat) (ix : List Nat) (v : Nat) : (regPut s r i ix v).tiles = s.tiles := rfl
@[simp] theorem regPut_job (s : State) (r : RegRow) (i : Nat) (ix : List Nat) (v : Nat) : (regPut s r i ix v).job = s.job := rfl
@[simp] theorem regPut_mem (s : State) (r : RegRow) (i : Nat) (ix : List Nat) (v : Nat) : (regPut s r i ix v).mem = s.mem := rfl
@[simp] theorem regPut_wse (s : State) (r : RegRow) (i : Nat) (ix : List Nat) (v : Nat) : (regPut s r i ix v).wse = s.wse := rfl
@[simp] theorem regPut_sync (s : State) (r : RegRow) (i : Nat) (ix : List Nat) (v : Nat) : (regPut s r i ix v).sync = s.sync := rfl
@[simp] theorem regPut_fab (s : State) (r : RegRow) (i : Nat) (ix : List Nat) (v : Nat) : (regPut s r i ix v).fab = s.fab := rfl
@[simp] theorem regPut_coll (s : State) (r : RegRow) (i : Nat) (ix : List Nat) (v : Nat) : (regPut s r i ix v).coll = s.coll := rfl
@[simp] theorem regPut_red (s : State) (r : RegRow) (i : Nat) (ix : List Nat) (v : Nat) : (regPut s r i ix v).red = s.red := rfl
@[simp] theorem regPut_pups (s : State) (r : RegRow) (i : Nat) (ix : List Nat) (v : Nat) : (regPut s r i ix v).pups = s.pups := rfl
@[simp] theorem regPut_host (s : State) (r : RegRow) (i : Nat) (ix : List Nat) (v : Nat) : (regPut s r i ix v).host = s.host := rfl
@[simp] theorem regPut_time (s : State) (r : RegRow) (i : Nat) (ix : List Nat) (v : Nat) : (regPut s r i ix v).time = s.time := rfl
@[simp] theorem regPut_pwr (s : State) (r : RegRow) (i : Nat) (ix : List Nat) (v : Nat) : (regPut s r i ix v).pwr = s.pwr := rfl
@[simp] theorem regPut_light (s : State) (r : RegRow) (i : Nat) (ix : List Nat) (v : Nat) : (regPut s r i ix v).light = s.light := rfl
@[simp] theorem regPut_mar (s : State) (r : RegRow) (i : Nat) (ix : List Nat) (v : Nat) : (regPut s r i ix v).mar = s.mar := rfl
@[simp] theorem regPut_cal (s : State) (r : RegRow) (i : Nat) (ix : List Nat) (v : Nat) : (regPut s r i ix v).cal = s.cal := rfl
@[simp] theorem regPut_fw (s : State) (r : RegRow) (i : Nat) (ix : List Nat) (v : Nat) : (regPut s r i ix v).fw = s.fw := rfl
@[simp] theorem regPut_rst (s : State) (r : RegRow) (i : Nat) (ix : List Nat) (v : Nat) : (regPut s r i ix v).rst = s.rst := rfl

@[simp] theorem bumpBy_pending (s : State) (r : RegRow) (i : Nat) (ix : List Nat) (n : Nat) : (bumpBy s r i ix n).pending = s.pending := rfl
@[simp] theorem bumpBy_fresh (s : State) (r : RegRow) (i : Nat) (ix : List Nat) (n : Nat) : (bumpBy s r i ix n).fresh = s.fresh := rfl
@[simp] theorem bumpBy_rwo (s : State) (r : RegRow) (i : Nat) (ix : List Nat) (n : Nat) : (bumpBy s r i ix n).rwo = s.rwo := rfl
@[simp] theorem bumpBy_peat (s : State) (r : RegRow) (i : Nat) (ix : List Nat) (n : Nat) : (bumpBy s r i ix n).peat = s.peat := rfl
@[simp] theorem bumpBy_tiles (s : State) (r : RegRow) (i : Nat) (ix : List Nat) (n : Nat) : (bumpBy s r i ix n).tiles = s.tiles := rfl
@[simp] theorem bumpBy_job (s : State) (r : RegRow) (i : Nat) (ix : List Nat) (n : Nat) : (bumpBy s r i ix n).job = s.job := rfl
@[simp] theorem bumpBy_mem (s : State) (r : RegRow) (i : Nat) (ix : List Nat) (n : Nat) : (bumpBy s r i ix n).mem = s.mem := rfl
@[simp] theorem bumpBy_wse (s : State) (r : RegRow) (i : Nat) (ix : List Nat) (n : Nat) : (bumpBy s r i ix n).wse = s.wse := rfl
@[simp] theorem bumpBy_sync (s : State) (r : RegRow) (i : Nat) (ix : List Nat) (n : Nat) : (bumpBy s r i ix n).sync = s.sync := rfl
@[simp] theorem bumpBy_fab (s : State) (r : RegRow) (i : Nat) (ix : List Nat) (n : Nat) : (bumpBy s r i ix n).fab = s.fab := rfl
@[simp] theorem bumpBy_coll (s : State) (r : RegRow) (i : Nat) (ix : List Nat) (n : Nat) : (bumpBy s r i ix n).coll = s.coll := rfl
@[simp] theorem bumpBy_red (s : State) (r : RegRow) (i : Nat) (ix : List Nat) (n : Nat) : (bumpBy s r i ix n).red = s.red := rfl
@[simp] theorem bumpBy_pups (s : State) (r : RegRow) (i : Nat) (ix : List Nat) (n : Nat) : (bumpBy s r i ix n).pups = s.pups := rfl
@[simp] theorem bumpBy_host (s : State) (r : RegRow) (i : Nat) (ix : List Nat) (n : Nat) : (bumpBy s r i ix n).host = s.host := rfl
@[simp] theorem bumpBy_time (s : State) (r : RegRow) (i : Nat) (ix : List Nat) (n : Nat) : (bumpBy s r i ix n).time = s.time := rfl
@[simp] theorem bumpBy_pwr (s : State) (r : RegRow) (i : Nat) (ix : List Nat) (n : Nat) : (bumpBy s r i ix n).pwr = s.pwr := rfl
@[simp] theorem bumpBy_light (s : State) (r : RegRow) (i : Nat) (ix : List Nat) (n : Nat) : (bumpBy s r i ix n).light = s.light := rfl
@[simp] theorem bumpBy_mar (s : State) (r : RegRow) (i : Nat) (ix : List Nat) (n : Nat) : (bumpBy s r i ix n).mar = s.mar := rfl
@[simp] theorem bumpBy_cal (s : State) (r : RegRow) (i : Nat) (ix : List Nat) (n : Nat) : (bumpBy s r i ix n).cal = s.cal := rfl
@[simp] theorem bumpBy_fw (s : State) (r : RegRow) (i : Nat) (ix : List Nat) (n : Nat) : (bumpBy s r i ix n).fw = s.fw := rfl
@[simp] theorem bumpBy_rst (s : State) (r : RegRow) (i : Nat) (ix : List Nat) (n : Nat) : (bumpBy s r i ix n).rst = s.rst := rfl

@[simp] theorem bump_pending (s : State) (r : RegRow) (i : Nat) (ix : List Nat) : (bump s r i ix).pending = s.pending := rfl
@[simp] theorem bump_fresh (s : State) (r : RegRow) (i : Nat) (ix : List Nat) : (bump s r i ix).fresh = s.fresh := rfl
@[simp] theorem bump_rwo (s : State) (r : RegRow) (i : Nat) (ix : List Nat) : (bump s r i ix).rwo = s.rwo := rfl
@[simp] theorem bump_peat (s : State) (r : RegRow) (i : Nat) (ix : List Nat) : (bump s r i ix).peat = s.peat := rfl
@[simp] theorem bump_tiles (s : State) (r : RegRow) (i : Nat) (ix : List Nat) : (bump s r i ix).tiles = s.tiles := rfl
@[simp] theorem bump_job (s : State) (r : RegRow) (i : Nat) (ix : List Nat) : (bump s r i ix).job = s.job := rfl
@[simp] theorem bump_mem (s : State) (r : RegRow) (i : Nat) (ix : List Nat) : (bump s r i ix).mem = s.mem := rfl
@[simp] theorem bump_wse (s : State) (r : RegRow) (i : Nat) (ix : List Nat) : (bump s r i ix).wse = s.wse := rfl
@[simp] theorem bump_sync (s : State) (r : RegRow) (i : Nat) (ix : List Nat) : (bump s r i ix).sync = s.sync := rfl
@[simp] theorem bump_fab (s : State) (r : RegRow) (i : Nat) (ix : List Nat) : (bump s r i ix).fab = s.fab := rfl
@[simp] theorem bump_coll (s : State) (r : RegRow) (i : Nat) (ix : List Nat) : (bump s r i ix).coll = s.coll := rfl
@[simp] theorem bump_red (s : State) (r : RegRow) (i : Nat) (ix : List Nat) : (bump s r i ix).red = s.red := rfl
@[simp] theorem bump_pups (s : State) (r : RegRow) (i : Nat) (ix : List Nat) : (bump s r i ix).pups = s.pups := rfl
@[simp] theorem bump_host (s : State) (r : RegRow) (i : Nat) (ix : List Nat) : (bump s r i ix).host = s.host := rfl
@[simp] theorem bump_time (s : State) (r : RegRow) (i : Nat) (ix : List Nat) : (bump s r i ix).time = s.time := rfl
@[simp] theorem bump_pwr (s : State) (r : RegRow) (i : Nat) (ix : List Nat) : (bump s r i ix).pwr = s.pwr := rfl
@[simp] theorem bump_light (s : State) (r : RegRow) (i : Nat) (ix : List Nat) : (bump s r i ix).light = s.light := rfl
@[simp] theorem bump_mar (s : State) (r : RegRow) (i : Nat) (ix : List Nat) : (bump s r i ix).mar = s.mar := rfl
@[simp] theorem bump_cal (s : State) (r : RegRow) (i : Nat) (ix : List Nat) : (bump s r i ix).cal = s.cal := rfl
@[simp] theorem bump_fw (s : State) (r : RegRow) (i : Nat) (ix : List Nat) : (bump s r i ix).fw = s.fw := rfl
@[simp] theorem bump_rst (s : State) (r : RegRow) (i : Nat) (ix : List Nat) : (bump s r i ix).rst = s.rst := rfl

@[simp] theorem wakeWaits_pending (i : Nat) (v : W64) (s : State) : (wakeWaits i v s).pending = s.pending := rfl
@[simp] theorem wakeWaits_fresh (i : Nat) (v : W64) (s : State) : (wakeWaits i v s).fresh = s.fresh := rfl
@[simp] theorem wakeWaits_regs (i : Nat) (v : W64) (s : State) : (wakeWaits i v s).regs = s.regs := rfl
@[simp] theorem wakeWaits_rwo (i : Nat) (v : W64) (s : State) : (wakeWaits i v s).rwo = s.rwo := rfl
@[simp] theorem wakeWaits_peat (i : Nat) (v : W64) (s : State) : (wakeWaits i v s).peat = s.peat := rfl
@[simp] theorem wakeWaits_job (i : Nat) (v : W64) (s : State) : (wakeWaits i v s).job = s.job := rfl
@[simp] theorem wakeWaits_mem (i : Nat) (v : W64) (s : State) : (wakeWaits i v s).mem = s.mem := rfl
@[simp] theorem wakeWaits_wse (i : Nat) (v : W64) (s : State) : (wakeWaits i v s).wse = s.wse := rfl
@[simp] theorem wakeWaits_sync (i : Nat) (v : W64) (s : State) : (wakeWaits i v s).sync = s.sync := rfl
@[simp] theorem wakeWaits_coll (i : Nat) (v : W64) (s : State) : (wakeWaits i v s).coll = s.coll := rfl
@[simp] theorem wakeWaits_red (i : Nat) (v : W64) (s : State) : (wakeWaits i v s).red = s.red := rfl
@[simp] theorem wakeWaits_pups (i : Nat) (v : W64) (s : State) : (wakeWaits i v s).pups = s.pups := rfl
@[simp] theorem wakeWaits_host (i : Nat) (v : W64) (s : State) : (wakeWaits i v s).host = s.host := rfl
@[simp] theorem wakeWaits_time (i : Nat) (v : W64) (s : State) : (wakeWaits i v s).time = s.time := rfl
@[simp] theorem wakeWaits_pwr (i : Nat) (v : W64) (s : State) : (wakeWaits i v s).pwr = s.pwr := rfl
@[simp] theorem wakeWaits_light (i : Nat) (v : W64) (s : State) : (wakeWaits i v s).light = s.light := rfl
@[simp] theorem wakeWaits_mar (i : Nat) (v : W64) (s : State) : (wakeWaits i v s).mar = s.mar := rfl
@[simp] theorem wakeWaits_cal (i : Nat) (v : W64) (s : State) : (wakeWaits i v s).cal = s.cal := rfl
@[simp] theorem wakeWaits_fw (i : Nat) (v : W64) (s : State) : (wakeWaits i v s).fw = s.fw := rfl
@[simp] theorem wakeWaits_rst (i : Nat) (v : W64) (s : State) : (wakeWaits i v s).rst = s.rst := rfl

@[simp] theorem syncPut_pending (i : Nat) (v : W64) (s : State) : (syncPut i v s).pending = s.pending := rfl
@[simp] theorem syncPut_fresh (i : Nat) (v : W64) (s : State) : (syncPut i v s).fresh = s.fresh := rfl
@[simp] theorem syncPut_regs (i : Nat) (v : W64) (s : State) : (syncPut i v s).regs = s.regs := rfl
@[simp] theorem syncPut_rwo (i : Nat) (v : W64) (s : State) : (syncPut i v s).rwo = s.rwo := rfl
@[simp] theorem syncPut_peat (i : Nat) (v : W64) (s : State) : (syncPut i v s).peat = s.peat := rfl
@[simp] theorem syncPut_job (i : Nat) (v : W64) (s : State) : (syncPut i v s).job = s.job := rfl
@[simp] theorem syncPut_mem (i : Nat) (v : W64) (s : State) : (syncPut i v s).mem = s.mem := rfl
@[simp] theorem syncPut_wse (i : Nat) (v : W64) (s : State) : (syncPut i v s).wse = s.wse := rfl
@[simp] theorem syncPut_coll (i : Nat) (v : W64) (s : State) : (syncPut i v s).coll = s.coll := rfl
@[simp] theorem syncPut_red (i : Nat) (v : W64) (s : State) : (syncPut i v s).red = s.red := rfl
@[simp] theorem syncPut_pups (i : Nat) (v : W64) (s : State) : (syncPut i v s).pups = s.pups := rfl
@[simp] theorem syncPut_host (i : Nat) (v : W64) (s : State) : (syncPut i v s).host = s.host := rfl
@[simp] theorem syncPut_time (i : Nat) (v : W64) (s : State) : (syncPut i v s).time = s.time := rfl
@[simp] theorem syncPut_pwr (i : Nat) (v : W64) (s : State) : (syncPut i v s).pwr = s.pwr := rfl
@[simp] theorem syncPut_light (i : Nat) (v : W64) (s : State) : (syncPut i v s).light = s.light := rfl
@[simp] theorem syncPut_mar (i : Nat) (v : W64) (s : State) : (syncPut i v s).mar = s.mar := rfl
@[simp] theorem syncPut_cal (i : Nat) (v : W64) (s : State) : (syncPut i v s).cal = s.cal := rfl
@[simp] theorem syncPut_fw (i : Nat) (v : W64) (s : State) : (syncPut i v s).fw = s.fw := rfl
@[simp] theorem syncPut_rst (i : Nat) (v : W64) (s : State) : (syncPut i v s).rst = s.rst := rfl

@[simp] theorem syncAdd_pending (i : Nat) (n : W64) (s : State) : (syncAdd i n s).pending = s.pending := rfl
@[simp] theorem syncAdd_fresh (i : Nat) (n : W64) (s : State) : (syncAdd i n s).fresh = s.fresh := rfl
@[simp] theorem syncAdd_rwo (i : Nat) (n : W64) (s : State) : (syncAdd i n s).rwo = s.rwo := rfl
@[simp] theorem syncAdd_peat (i : Nat) (n : W64) (s : State) : (syncAdd i n s).peat = s.peat := rfl
@[simp] theorem syncAdd_job (i : Nat) (n : W64) (s : State) : (syncAdd i n s).job = s.job := rfl
@[simp] theorem syncAdd_mem (i : Nat) (n : W64) (s : State) : (syncAdd i n s).mem = s.mem := rfl
@[simp] theorem syncAdd_wse (i : Nat) (n : W64) (s : State) : (syncAdd i n s).wse = s.wse := rfl
@[simp] theorem syncAdd_coll (i : Nat) (n : W64) (s : State) : (syncAdd i n s).coll = s.coll := rfl
@[simp] theorem syncAdd_red (i : Nat) (n : W64) (s : State) : (syncAdd i n s).red = s.red := rfl
@[simp] theorem syncAdd_pups (i : Nat) (n : W64) (s : State) : (syncAdd i n s).pups = s.pups := rfl
@[simp] theorem syncAdd_host (i : Nat) (n : W64) (s : State) : (syncAdd i n s).host = s.host := rfl
@[simp] theorem syncAdd_time (i : Nat) (n : W64) (s : State) : (syncAdd i n s).time = s.time := rfl
@[simp] theorem syncAdd_pwr (i : Nat) (n : W64) (s : State) : (syncAdd i n s).pwr = s.pwr := rfl
@[simp] theorem syncAdd_light (i : Nat) (n : W64) (s : State) : (syncAdd i n s).light = s.light := rfl
@[simp] theorem syncAdd_mar (i : Nat) (n : W64) (s : State) : (syncAdd i n s).mar = s.mar := rfl
@[simp] theorem syncAdd_cal (i : Nat) (n : W64) (s : State) : (syncAdd i n s).cal = s.cal := rfl
@[simp] theorem syncAdd_fw (i : Nat) (n : W64) (s : State) : (syncAdd i n s).fw = s.fw := rfl
@[simp] theorem syncAdd_rst (i : Nat) (n : W64) (s : State) : (syncAdd i n s).rst = s.rst := rfl

@[simp] theorem syncSet_pending (i : Nat) (v : W64) (s : State) : (syncSet i v s).pending = s.pending := rfl
@[simp] theorem syncSet_fresh (i : Nat) (v : W64) (s : State) : (syncSet i v s).fresh = s.fresh := rfl
@[simp] theorem syncSet_rwo (i : Nat) (v : W64) (s : State) : (syncSet i v s).rwo = s.rwo := rfl
@[simp] theorem syncSet_peat (i : Nat) (v : W64) (s : State) : (syncSet i v s).peat = s.peat := rfl
@[simp] theorem syncSet_job (i : Nat) (v : W64) (s : State) : (syncSet i v s).job = s.job := rfl
@[simp] theorem syncSet_mem (i : Nat) (v : W64) (s : State) : (syncSet i v s).mem = s.mem := rfl
@[simp] theorem syncSet_wse (i : Nat) (v : W64) (s : State) : (syncSet i v s).wse = s.wse := rfl
@[simp] theorem syncSet_coll (i : Nat) (v : W64) (s : State) : (syncSet i v s).coll = s.coll := rfl
@[simp] theorem syncSet_red (i : Nat) (v : W64) (s : State) : (syncSet i v s).red = s.red := rfl
@[simp] theorem syncSet_pups (i : Nat) (v : W64) (s : State) : (syncSet i v s).pups = s.pups := rfl
@[simp] theorem syncSet_host (i : Nat) (v : W64) (s : State) : (syncSet i v s).host = s.host := rfl
@[simp] theorem syncSet_time (i : Nat) (v : W64) (s : State) : (syncSet i v s).time = s.time := rfl
@[simp] theorem syncSet_pwr (i : Nat) (v : W64) (s : State) : (syncSet i v s).pwr = s.pwr := rfl
@[simp] theorem syncSet_light (i : Nat) (v : W64) (s : State) : (syncSet i v s).light = s.light := rfl
@[simp] theorem syncSet_mar (i : Nat) (v : W64) (s : State) : (syncSet i v s).mar = s.mar := rfl
@[simp] theorem syncSet_cal (i : Nat) (v : W64) (s : State) : (syncSet i v s).cal = s.cal := rfl
@[simp] theorem syncSet_fw (i : Nat) (v : W64) (s : State) : (syncSet i v s).fw = s.fw := rfl
@[simp] theorem syncSet_rst (i : Nat) (v : W64) (s : State) : (syncSet i v s).rst = s.rst := rfl

@[simp] theorem drawFree_pending (s : State) : (drawFree s).2.pending = s.pending := rfl
@[simp] theorem drawFree_regs (s : State) : (drawFree s).2.regs = s.regs := rfl
@[simp] theorem drawFree_rwo (s : State) : (drawFree s).2.rwo = s.rwo := rfl
@[simp] theorem drawFree_peat (s : State) : (drawFree s).2.peat = s.peat := rfl
@[simp] theorem drawFree_tiles (s : State) : (drawFree s).2.tiles = s.tiles := rfl
@[simp] theorem drawFree_job (s : State) : (drawFree s).2.job = s.job := rfl
@[simp] theorem drawFree_mem (s : State) : (drawFree s).2.mem = s.mem := rfl
@[simp] theorem drawFree_wse (s : State) : (drawFree s).2.wse = s.wse := rfl
@[simp] theorem drawFree_sync (s : State) : (drawFree s).2.sync = s.sync := rfl
@[simp] theorem drawFree_fab (s : State) : (drawFree s).2.fab = s.fab := rfl
@[simp] theorem drawFree_coll (s : State) : (drawFree s).2.coll = s.coll := rfl
@[simp] theorem drawFree_red (s : State) : (drawFree s).2.red = s.red := rfl
@[simp] theorem drawFree_pups (s : State) : (drawFree s).2.pups = s.pups := rfl
@[simp] theorem drawFree_host (s : State) : (drawFree s).2.host = s.host := rfl
@[simp] theorem drawFree_time (s : State) : (drawFree s).2.time = s.time := rfl
@[simp] theorem drawFree_pwr (s : State) : (drawFree s).2.pwr = s.pwr := rfl
@[simp] theorem drawFree_light (s : State) : (drawFree s).2.light = s.light := rfl
@[simp] theorem drawFree_mar (s : State) : (drawFree s).2.mar = s.mar := rfl
@[simp] theorem drawFree_cal (s : State) : (drawFree s).2.cal = s.cal := rfl
@[simp] theorem drawFree_fw (s : State) : (drawFree s).2.fw = s.fw := rfl
@[simp] theorem drawFree_rst (s : State) : (drawFree s).2.rst = s.rst := rfl

/-! ### The event recorder -/

@[simp] theorem emit_pending (c n : Nat) (p : List Byte) (s : State) : (emit c n p s).pending = s.pending := by
  unfold emit; split <;> (try split) <;> rfl
@[simp] theorem emit_fresh (c n : Nat) (p : List Byte) (s : State) : (emit c n p s).fresh = s.fresh := by
  unfold emit; split <;> (try split) <;> rfl
@[simp] theorem emit_rwo (c n : Nat) (p : List Byte) (s : State) : (emit c n p s).rwo = s.rwo := by
  unfold emit; split <;> (try split) <;> rfl
@[simp] theorem emit_tiles (c n : Nat) (p : List Byte) (s : State) : (emit c n p s).tiles = s.tiles := by
  unfold emit; split <;> (try split) <;> rfl
@[simp] theorem emit_job (c n : Nat) (p : List Byte) (s : State) : (emit c n p s).job = s.job := by
  unfold emit; split <;> (try split) <;> rfl
@[simp] theorem emit_mem (c n : Nat) (p : List Byte) (s : State) : (emit c n p s).mem = s.mem := by
  unfold emit; split <;> (try split) <;> rfl
@[simp] theorem emit_wse (c n : Nat) (p : List Byte) (s : State) : (emit c n p s).wse = s.wse := by
  unfold emit; split <;> (try split) <;> rfl
@[simp] theorem emit_sync (c n : Nat) (p : List Byte) (s : State) : (emit c n p s).sync = s.sync := by
  unfold emit; split <;> (try split) <;> rfl
@[simp] theorem emit_fab (c n : Nat) (p : List Byte) (s : State) : (emit c n p s).fab = s.fab := by
  unfold emit; split <;> (try split) <;> rfl
@[simp] theorem emit_coll (c n : Nat) (p : List Byte) (s : State) : (emit c n p s).coll = s.coll := by
  unfold emit; split <;> (try split) <;> rfl
@[simp] theorem emit_red (c n : Nat) (p : List Byte) (s : State) : (emit c n p s).red = s.red := by
  unfold emit; split <;> (try split) <;> rfl
@[simp] theorem emit_pups (c n : Nat) (p : List Byte) (s : State) : (emit c n p s).pups = s.pups := by
  unfold emit; split <;> (try split) <;> rfl
@[simp] theorem emit_host (c n : Nat) (p : List Byte) (s : State) : (emit c n p s).host = s.host := by
  unfold emit; split <;> (try split) <;> rfl
@[simp] theorem emit_time (c n : Nat) (p : List Byte) (s : State) : (emit c n p s).time = s.time := by
  unfold emit; split <;> (try split) <;> rfl
@[simp] theorem emit_pwr (c n : Nat) (p : List Byte) (s : State) : (emit c n p s).pwr = s.pwr := by
  unfold emit; split <;> (try split) <;> rfl
@[simp] theorem emit_light (c n : Nat) (p : List Byte) (s : State) : (emit c n p s).light = s.light := by
  unfold emit; split <;> (try split) <;> rfl
@[simp] theorem emit_mar (c n : Nat) (p : List Byte) (s : State) : (emit c n p s).mar = s.mar := by
  unfold emit; split <;> (try split) <;> rfl
@[simp] theorem emit_cal (c n : Nat) (p : List Byte) (s : State) : (emit c n p s).cal = s.cal := by
  unfold emit; split <;> (try split) <;> rfl
@[simp] theorem emit_fw (c n : Nat) (p : List Byte) (s : State) : (emit c n p s).fw = s.fw := by
  unfold emit; split <;> (try split) <;> rfl
@[simp] theorem emit_rst (c n : Nat) (p : List Byte) (s : State) : (emit c n p s).rst = s.rst := by
  unfold emit; split <;> (try split) <;> rfl

end Sys2Proof.Machine
end

