-- ==== Sys2Proof/Laws/Tile.lean ====
section
/-!
SUPPORT. Laws of a tile's state and of the scalar core: what a fetch gives, what an
instruction that issues runs, and where the program counter goes.
-/

namespace Sys2Proof.Machine

/-! ### One tile of the state -/

theorem tileAt_setTile (t u : Nat) (x : Tile) (s : State) :
    tileAt (setTile t x s) u = if t = u ∧ t < s.tiles.length then x else tileAt s u := by
  unfold tileAt setTile
  simp only [List.getD_eq_getElem?_getD, List.getElem?_set]
  by_cases h : t = u
  · subst h
    by_cases hl : t < s.tiles.length
    · simp [hl]
    · simp [hl]
  · simp [h]

@[simp] theorem tileAt_setTile_self (t : Nat) (x : Tile) (s : State) (h : t < s.tiles.length) :
    tileAt (setTile t x s) t = x := by simp [tileAt_setTile, h]

theorem tileAt_setTile_ne (t u : Nat) (x : Tile) (s : State) (h : t ≠ u) :
    tileAt (setTile t x s) u = tileAt s u := by simp [tileAt_setTile, h]

@[simp] theorem setTile_length (t : Nat) (x : Tile) (s : State) :
    (setTile t x s).tiles.length = s.tiles.length := by simp [setTile]

@[simp] theorem setTile_setTile (t : Nat) (x y : Tile) (s : State) :
    setTile t y (setTile t x s) = setTile t y s := by simp [setTile]

theorem updTile_eq (t : Nat) (f : Tile → Tile) (s : State) : updTile t f s = setTile t (f (tileAt s t)) s := rfl

@[simp] theorem tileAt_emit (c n : Nat) (p : List Byte) (s : State) (t : Nat) :
    tileAt (emit c n p s) t = tileAt s t := by simp [tileAt]

/-! ### Registers of a tile -/

@[simp] theorem sGet_zero (x : Tile) : sGet x 0 = 0#32 := by simp [sGet]
@[simp] theorem sSet_zero (x : Tile) (v : W32) : sSet x 0 v = x := by simp [sSet]

theorem sGet_sSet (x : Tile) (i j : Nat) (v : W32) :
    sGet (sSet x i v) j = if j = i ∧ i ≠ 0 then v else sGet x j := by
  unfold sGet sSet
  by_cases hi : i = 0
  · simp [hi]
  · by_cases hj : j = 0
    · have : ¬ (0 = i) := fun h => hi h.symm
      simp [hi, hj, this]
    · simp [hi, hj, Cells.get_set]

theorem aGet_aSet (x : Tile) (i j : Nat) (v : W48) :
    aGet (aSet x i v) j = if j = i then v else aGet x j := by
  simp [aGet, aSet, Cells.get_set]

@[simp] theorem sSet_pc (x : Tile) (i : Nat) (v : W32) : (sSet x i v).pc = x.pc := by unfold sSet; split <;> rfl
@[simp] theorem sSet_codeLen (x : Tile) (i : Nat) (v : W32) : (sSet x i v).codeLen = x.codeLen := by
  unfold sSet; split <;> rfl
@[simp] theorem aSet_pc (x : Tile) (i : Nat) (v : W48) : (aSet x i v).pc = x.pc := rfl
@[simp] theorem aSet_codeLen (x : Tile) (i : Nat) (v : W48) : (aSet x i v).codeLen = x.codeLen := rfl
@[simp] theorem postUpdate_pc (i : Insn) (x : Tile) : (postUpdate i x).pc = x.pc := by
  unfold postUpdate; split <;> rfl
@[simp] theorem postUpdate_codeLen (i : Insn) (x : Tile) : (postUpdate i x).codeLen = x.codeLen := by
  unfold postUpdate; split <;> rfl

/-! ### Words of the SRAMs -/

/-- A fold over words none of which holds an error changes nothing. -/
theorem scratchCheck_clean (t off n : Nat) (s : State)
    (h : ∀ k ∈ wordRange (scratchBase t + off) n, Cells.get .clean s.mem.words k = .clean) :
    scratchCheck t off n s = (s, none) := by
  unfold scratchCheck
  generalize wordRange (scratchBase t + off) n = ks at h
  induction ks with
  | nil => rfl
  | cons k ks ih =>
    rw [List.foldl_cons]
    simp only [h k (by simp)]
    exact ih (fun k' hk => h k' (by simp [hk]))

/-- A fold over words of a slice none of which holds an error changes nothing. -/
theorem sliceCheck_clean (t off n : Nat) (s : State)
    (h : ∀ k ∈ wordRange (sliceBase t + off) n, Cells.get .clean s.mem.words k = .clean) :
    sliceCheck t off n s = (s, []) := by
  unfold sliceCheck
  generalize wordRange (sliceBase t + off) n = ks at h
  induction ks with
  | nil => rfl
  | cons k ks ih =>
    rw [List.foldl_cons]
    simp only [h k (by simp)]
    exact ih (fun k' hk => h k' (by simp [hk]))

/-! ### Fetching and issuing -/

theorem fetchWord_of_fetches {s : State} {t : Nat} {w : W64} (h : Fetches s t w) :
    fetchWord t s = (s, some w) := by
  obtain ⟨-, hc, hw, ht, hp, hm, hl, -, hk, hv⟩ := h
  unfold fetchWord
  simp only [issuing, hc, hw, ht, hp, hm, hl, Option.isNone_none, decide_true, Bool.and_self]
  rw [if_pos (by simp), scratchCheck_clean t _ 8 s hk]
  simp [hv]

theorem nextInsn_of_issues {s : State} {t : Nat} {i : Insn} (h : Issues s t i) :
    nextInsn t s = (s, some i) := by
  obtain ⟨w, hf, hi, hok, -⟩ := h
  unfold nextInsn
  rw [fetchWord_of_fetches hf]
  simp [hi, hok]

/-- An instruction that issues runs. -/
theorem runInsn_of_issues {s : State} {t : Nat} {i : Insn} (op : Nat) (f : Insn → State → State)
    (h : Issues s t i) (ho : i.op = op) : runInsn op t f s = f i s := by
  have hr : registersFree (tileAt s t) i = true := by obtain ⟨_, _, _, _, hr⟩ := h; exact hr
  unfold runInsn
  rw [nextInsn_of_issues h]
  simp [ho, hr]

theorem Issues.lt {s : State} {t : Nat} {i : Insn} (h : Issues s t i) : t < s.tiles.length := by
  obtain ⟨_, hf, _⟩ := h; exact hf.1

theorem Issues.aligned {s : State} {t : Nat} {i : Insn} (h : Issues s t i) : (tileAt s t).pc % 8 = 0 := by
  obtain ⟨_, hf, _⟩ := h; exact hf.2.2.2.2.2.1

theorem Issues.short {s : State} {t : Nat} {i : Insn} (h : Issues s t i) :
    (tileAt s t).codeLen ≤ scratchSize := by
  obtain ⟨_, hf, _⟩ := h; exact hf.2.2.2.2.2.2.2.1

/-- Where a program counter inside the code region goes. -/
theorem goTo_inside (t : Nat) (a : Nat) (s : State) (hl : (tileAt s t).codeLen ≤ scratchSize)
    (h8 : a % 8 = 0) (ha : a < (tileAt s t).codeLen) :
    goTo t a s = jumped t (tileAt s t) a s := by
  have hs : a < 2 ^ 48 := by have : scratchSize < 2 ^ 48 := by decide
                             omega
  have hm : ((a : Int) % 2 ^ 48).toNat = a := by
    rw [Int.emod_eq_of_lt (by omega) (by exact_mod_cast hs)]; simp
  unfold goTo jumped
  simp only [hm]
  rw [if_pos ⟨by omega, h8, by exact_mod_cast ha⟩]

/-- The step over an instruction, for a tile that has been changed meanwhile. -/
theorem stepOver_setTile (t : Nat) (x : Tile) (s : State) (ht : t < s.tiles.length)
    (hl : x.codeLen ≤ scratchSize) (h8 : x.pc % 8 = 0) (hn : x.pc + 8 < x.codeLen) :
    stepOver t (setTile t x s) = advanced t x s := by
  unfold stepOver
  rw [tileAt_setTile_self t x s ht, goTo_inside t _ _ (by simpa [ht] using hl) (by omega) (by simpa [ht] using hn)]
  simp [jumped, advanced, ht]

theorem stepOver_plain (t : Nat) (s : State) (hl : (tileAt s t).codeLen ≤ scratchSize)
    (h8 : (tileAt s t).pc % 8 = 0) (hn : NextInCode s t) : stepOver t s = advanced t (tileAt s t) s := by
  unfold stepOver
  rw [goTo_inside t _ _ hl (by omega) hn]
  rfl

/-- An instruction that only changes its tile. -/
theorem simpleInsn_issues {s : State} {t : Nat} {i : Insn} (op : Nat) (f : Insn → Tile → Tile)
    (h : Issues s t i) (hn : NextInCode s t) (ho : i.op = op)
    (hpc : (f i (tileAt s t)).pc = (tileAt s t).pc) (hc : (f i (tileAt s t)).codeLen = (tileAt s t).codeLen) :
    simpleInsn op f t s = advanced t (f i (tileAt s t)) s := by
  unfold simpleInsn
  rw [runInsn_of_issues op _ h ho, updTile_eq,
    stepOver_setTile t _ s h.lt (by rw [hc]; exact h.short) (by rw [hpc]; exact h.aligned) (by rw [hc, hpc]; exact hn)]

/-! ### Jumps and exceptions -/

theorem branchOn_taken {s : State} {t : Nat} {i : Insn} (op : Nat) (c : W32 → W32 → Bool) (h : Issues s t i)
    (ho : i.op = op) (hc : c (sGet (tileAt s t) i.a) (sGet (tileAt s t) i.b) = true) :
    branchOn op c t s = jumpBy t i.imm s := by
  unfold branchOn; rw [runInsn_of_issues _ _ h ho]; simp [hc]

theorem branchOn_passed {s : State} {t : Nat} {i : Insn} (op : Nat) (c : W32 → W32 → Bool) (h : Issues s t i)
    (ho : i.op = op) (hc : c (sGet (tileAt s t) i.a) (sGet (tileAt s t) i.b) = false) :
    branchOn op c t s = stepOver t s := by
  unfold branchOn; rw [runInsn_of_issues _ _ h ho]; simp [hc]

theorem jumpBy_inside (t : Nat) (imm : Nat) (s : State) (hl : (tileAt s t).codeLen ≤ scratchSize)
    (h8 : (tileAt s t).pc % 8 = 0) (h0 : 0 ≤ (tileAt s t).pc + 8 * (BitVec.ofNat 32 imm).toInt)
    (h1 : (tileAt s t).pc + 8 * (BitVec.ofNat 32 imm).toInt < (tileAt s t).codeLen) :
    jumpBy t imm s = jumped t (tileAt s t) ((tileAt s t).pc + 8 * (BitVec.ofNat 32 imm).toInt).toNat s := by
  unfold jumpBy
  obtain ⟨n, hn⟩ := Int.eq_ofNat_of_zero_le h0
  rw [hn] at h1 ⊢
  exact goTo_inside t n s hl (by omega) (by exact_mod_cast h1)

/-- What raising an exception does, in a tile that holds none. -/
theorem raiseExc_takes (s : State) (t cause unit pc addr flags : Nat) (ht : t < s.tiles.length)
    (hc : (tileAt s t).code = .running ∨ (tileAt s t).code = .halted) (hn : (tileAt s t).trap = none) :
    TakesException s (raiseExc t cause unit pc addr flags s) t ⟨cause, unit, pc % 2 ^ 19, addr % 2 ^ 48, flags⟩ := by
  unfold raiseExc
  simp only [hn, Option.isSome_none, Bool.false_eq_true, if_false]
  rw [if_pos hc]
  unfold noteEnd TakesException
  split
  · refine ⟨by simp [tileAt, setTile, ht], fun u hu => ?_, rfl, rfl, fun _ _ => rfl⟩
    exact tileAt_setTile_ne t u _ s (Ne.symm hu)
  · next hj =>
    refine ⟨by simp [tileAt, setTile, ht], fun u hu => ?_, rfl, rfl, fun h1 h2 => absurd ⟨h1, ?_⟩ hj⟩
    · exact tileAt_setTile_ne t u _ s (Ne.symm hu)
    · simp [endsFirst, setTile, h2]

theorem Issues.running {s : State} {t : Nat} {i : Insn} (h : Issues s t i) :
    (tileAt s t).code = .running ∧ (tileAt s t).trap = none ∧ (tileAt s t).pc + 8 ≤ (tileAt s t).codeLen := by
  obtain ⟨_, hf, _⟩ := h; exact ⟨hf.2.1, hf.2.2.2.1, hf.2.2.2.2.2.2.1⟩

/-- An exception of the scalar core, in a tile that issues. -/
theorem raiseHere_takes {s : State} {t : Nat} {i : Insn} (h : Issues s t i) (cause addr : Nat) :
    TakesException s (raiseHere t cause addr s) t ⟨cause, 0, (tileAt s t).pc, addr % 2 ^ 48, 0⟩ := by
  have hr := h.running
  have hz : scratchSize = 2 ^ 19 := by decide
  have := raiseExc_takes s t cause 0 (tileAt s t).pc addr 0 h.lt (.inl hr.1) hr.2.1
  rwa [Nat.mod_eq_of_lt (a := (tileAt s t).pc) (by have := h.short; omega)] at this

/-! ### Loads and stores -/

/-- A fold of the readings of granules none of which holds an error changes nothing. -/
theorem readGrans_clean (gs : List Nat) (s : State)
    (h : ∀ g ∈ gs, granBlocked s g = false ∧ Cells.get .clean s.mem.gran g = .clean) :
    readGrans gs s = (s, []) := by
  unfold readGrans
  induction gs with
  | nil => rfl
  | cons g gs ih =>
    have hg := h g (by simp)
    rw [List.foldl_cons]
    have : readGran g s = (s, false) := by unfold readGran; simp [hg.1, hg.2]
    simp only [this]
    exact ih (fun g' h' => h g' (by simp [h']))

theorem tileLoad_readable {s : State} {t a n : Nat} (h : Readable s t a n) :
    tileLoad t a n s = (s, .ok (bytesAt s t a n)) := by
  rcases h with ⟨u, o, hp, hu, hc⟩ | ⟨u, o, hp, hu, hc⟩ | ⟨d, hp, hd, hc⟩
  · have hn : ¬ (u ≠ t ∧ ¬ serving (tileAt s u) = true) := by rintro ⟨h1, h2⟩; exact hu.elim h1 h2
    unfold tileLoad bytesAt keyOf
    simp only [hp]
    rw [if_neg hn, scratchCheck_clean u o n s hc]
    rfl
  · have hn : ¬ (u ≠ t ∧ ¬ serving (tileAt s u) = true) := by rintro ⟨h1, h2⟩; exact hu.elim h1 h2
    unfold tileLoad bytesAt keyOf
    simp only [hp]
    rw [if_neg hn, sliceCheck_clean u o n s hc]
    rfl
  · unfold tileLoad bytesAt keyOf ddrRead
    simp only [hp, hd, readGrans_clean _ s hc]
    rfl

/-- A fold whose steps all leave the state as it is. -/
theorem foldl_fixed {α β : Type} (f : β → α → β) (s : β) (xs : List α) (h : ∀ x ∈ xs, f s x = s) :
    xs.foldl f s = s := by
  induction xs with
  | nil => rfl
  | cons x xs ih => rw [List.foldl_cons, h x (by simp)]; exact ih (fun y hy => h y (by simp [hy]))

/-- A write that covers no whole word of an SRAM and meets no error changes the bytes alone. -/
theorem sramWrite_part (key : Nat) (bs : List Byte) (ce : Nat → Nat → State → State) (s : State)
    (hb : bs.length < 16) (h : CleanWords s key bs.length) : sramWrite key bs ce s = storedAt key bs s := by
  unfold sramWrite storedAt
  rw [foldl_fixed _ s _ (fun k hk => by rw [if_neg (by simp; omega), h k hk])]

theorem ddrWrite_part (dpa : Nat) (bs : List Byte) (s : State) (hb : bs.length < 64)
    (h : CleanGrans s dpa bs.length) : ddrWrite dpa bs s = (storedAt (ddrBase + dpa) bs s, none) := by
  have hf : (granRange dpa bs.length).filter (granBlocked s) = [] := by
    rw [List.filter_eq_nil_iff]; intro g hg; simp [(h g hg).1]
  have hc : clearGrans dpa bs.length s = s := by
    unfold clearGrans
    have : s.mem.gran.filter (fun c => !(decide (dpa ≤ c.1 * 64 ∧ c.1 * 64 + 64 ≤ dpa + bs.length))) = s.mem.gran := by
      rw [List.filter_eq_self]; intro c _; simp; omega
    rw [this]
  unfold ddrWrite storedAt
  simp only [hf, hc]

/-- A store that lands changes the bytes alone. -/
theorem tileStore_writable {s : State} {t a : Nat} {bs : List Byte} (hb : bs.length < 16)
    (h : Writable s t a bs.length) :
    tileStore t a bs s = (storedAt ((keyOf s t a bs.length).getD 0) bs s, .ok []) := by
  rcases h with ⟨u, o, hp, hh, hu, hc⟩ | ⟨u, o, hp, hu, hc⟩ | ⟨d, hp, hd, hc⟩
  · unfold tileStore storeCheck storeBytes keyOf scratchWrite
    simp only [hp, hh]
    rw [sramWrite_part _ bs _ s hb hc]
    simp [hu]
  · unfold tileStore storeCheck storeBytes keyOf sliceWrite
    simp only [hp]
    rw [sramWrite_part _ bs _ s hb hc]
    simp [hu]
  · unfold tileStore storeCheck storeBytes keyOf
    simp only [hp, hd]
    rw [ddrWrite_part d bs s (by omega) hc]
    rfl

/-! ### Scalar operations -/

theorem aluReg_issues {s : State} {t : Nat} {i : Insn} (op : Nat) (f : W32 → W32 → W32)
    (h : Issues s t i) (hn : NextInCode s t) (ho : i.op = op) :
    aluReg op f t s = advanced t (sSet (tileAt s t) i.d (f (sGet (tileAt s t) i.a) (sGet (tileAt s t) i.b))) s :=
  simpleInsn_issues op (fun i x => sSet x i.d (f (sGet x i.a) (sGet x i.b))) h hn ho (by simp) (by simp)

theorem aluImm_issues {s : State} {t : Nat} {i : Insn} (op : Nat) (f : W32 → W32 → W32)
    (h : Issues s t i) (hn : NextInCode s t) (ho : i.op = op) :
    aluImm op f t s = advanced t (sSet (tileAt s t) i.d (f (sGet (tileAt s t) i.a) (BitVec.ofNat 32 i.imm))) s :=
  simpleInsn_issues op (fun i x => sSet x i.d (f (sGet x i.a) (BitVec.ofNat 32 i.imm))) h hn ho (by simp) (by simp)

end Sys2Proof.Machine
end

