-- ==== Sys2Proof/Laws/Job.lean ====
section
/-!
SUPPORT. Laws of folds over the state, of the end of a collective instance and of the end of a
job.
-/

namespace Sys2Proof.Machine

/-! ### Folds -/

@[simp] theorem forEach_nil {α : Type} (f : α → State → State) (s : State) : forEach [] f s = s := rfl

@[simp] theorem forEach_cons {α : Type} (x : α) (xs : List α) (f : α → State → State) (s : State) :
    forEach (x :: xs) f s = forEach xs f (f x s) := rfl

/-- What every step of a fold leaves, the fold leaves. -/
theorem forEach_keeps {α β : Type} (g : State → β) (f : α → State → State) (h : ∀ x s, g (f x s) = g s)
    (xs : List α) (s : State) : g (forEach xs f s) = g s := by
  induction xs generalizing s with
  | nil => rfl
  | cons x xs ih => rw [forEach_cons, ih, h]

/-- What every step of a fold keeps true, the fold keeps true. -/
theorem forEach_inv {α : Type} (P : State → Prop) (f : α → State → State) (h : ∀ x s, P s → P (f x s))
    (xs : List α) (s : State) (hs : P s) : P (forEach xs f s) := by
  induction xs generalizing s with
  | nil => exact hs
  | cons x xs ih => exact ih _ (h x s hs)

/-! ### The little-endian bytes of a number -/

@[simp] theorem leBytes_length (n v : Nat) : (leBytes n v).length = n := by
  induction n generalizing v with
  | zero => rfl
  | succ n ih => simp [leBytes, ih]

theorem leBytes_getD (n v j : Nat) (h : j < n) : ((leBytes n v).getD j 0).toNat = v / 256 ^ j % 256 := by
  induction n generalizing v j with
  | zero => omega
  | succ n ih =>
    cases j with
    | zero => simp [leBytes]
    | succ j =>
      rw [leBytes, List.getD_cons_succ, ih _ _ (by omega), Nat.div_div_eq_div_mul, Nat.pow_succ,
        Nat.mul_comm (256 ^ j)]

/-! ### The end of an instance and of a job -/

/-- A field that the end of an instance leaves: all but the collective engine, the recorder and
the counters. -/
theorem collEnd_keeps {β : Type} (g : State → β) (status peer : Nat) (i : Inst)
    (he : ∀ c n p s, g (emit c n p s) = g s) (hc : ∀ (s : State) c, g { s with coll := c } = g s) (s : State) :
    g (collEnd status peer i s) = g s := by
  unfold collEnd
  split
  · exact hc _ _
  · rw [he]; exact hc _ _

theorem collEnd_insts (status peer : Nat) (i : Inst) (s : State) :
    (collEnd status peer i s).coll.insts = s.coll.insts.filter (fun j => j.ctx ≠ i.ctx) := by
  unfold collEnd; split <;> simp

theorem forEach_collEnd_insts (status peer : Nat) (is : List Inst) (s : State) :
    (forEach is (collEnd status peer) s).coll.insts =
      s.coll.insts.filter (fun j => is.all (fun i => j.ctx ≠ i.ctx)) := by
  induction is generalizing s with
  | nil => exact (List.filter_eq_self.2 (by simp)).symm
  | cons i is ih =>
    rw [forEach_cons, ih, collEnd_insts, List.filter_filter]
    congr 1; funext j; simp [Bool.and_comm]

/-- A field that halting or stopping a tile leaves: all but the tiles and the count of free values. -/
theorem stopTile_keeps {β : Type} (g : State → β) (ht : ∀ (s : State) u x, g (setTile u x s) = g s)
    (hf : ∀ (s : State) n, g { s with fresh := n } = g s) (t : Nat) (s : State) : g (stopTile t s) = g s := by
  unfold stopTile
  simp only
  split
  · split
    · unfold haltTile updTile; rw [ht, hf, ht]
    · rw [ht]
  · rfl

theorem tileAt_stopTile_ne (t u : Nat) (s : State) (h : t ≠ u) : tileAt (stopTile t s) u = tileAt s u := by
  unfold stopTile
  simp only
  split
  · split
    · unfold haltTile
      rw [updTile_eq, tileAt_setTile_ne _ _ _ _ h]
      exact tileAt_setTile_ne _ _ _ _ h
    · exact tileAt_setTile_ne _ _ _ _ h
  · rfl

theorem tileAt_beyond (s : State) (t : Nat) (h : s.tiles.length ≤ t) : tileAt s t = noTile := by
  unfold tileAt; rw [List.getD_eq_default _ _ h]

/-- What halting a tile does to it. -/
theorem tileAt_haltTile (t : Nat) (s : State) (ht : t < s.tiles.length) :
    ∃ l, tileAt (haltTile t s) t =
      { tileAt s t with code := .halted, haltPc := (tileAt s t).pc, wait := .none, lastC := l } := by
  refine ⟨(List.range 8).map (fun c => ctlGet t c s), ?_⟩
  unfold haltTile
  rw [updTile_eq]
  exact tileAt_setTile_self _ _ _ ht

/-- What stopping a tile does to it. -/
theorem stopTile_stops (t : Nat) (s : State) : StopsTile s (stopTile t s) t := by
  unfold StopsTile
  by_cases ht : t < s.tiles.length
  · unfold stopTile stopped
    simp only
    split
    · generalize dropUnstarted { tileAt s t with wait := .stop } = y
      split
      · obtain ⟨l, h⟩ := tileAt_haltTile t (setTile t y s) (by simpa using ht)
        rw [h, tileAt_setTile_self _ _ _ ht]
      · rw [tileAt_setTile_self _ _ _ ht]
    · rfl
  · have hn := tileAt_beyond s t (by omega)
    have : stopTile t s = s := by unfold stopTile; simp [hn, noTile]
    rw [this, hn]; rfl

/-- Stopping tiles, each once, stops those and no other. -/
theorem forEach_stopTile (ts : List Nat) (hn : ts.Nodup) (s : State) (u : Nat) :
    (u ∈ ts → StopsTile s (forEach ts stopTile s) u) ∧
    (u ∉ ts → tileAt (forEach ts stopTile s) u = tileAt s u) := by
  induction ts generalizing s with
  | nil => exact ⟨by simp, fun _ => rfl⟩
  | cons t ts ih =>
    rw [List.nodup_cons] at hn
    rw [forEach_cons]
    have h := ih hn.2 (stopTile t s)
    refine ⟨fun hu => ?_, fun hu => ?_⟩
    · by_cases htu : t = u
      · subst htu
        unfold StopsTile
        rw [h.2 hn.1]
        exact stopTile_stops t s
      · have := h.1 (by simpa [Ne.symm htu] using hu)
        unfold StopsTile at this ⊢
        rwa [tileAt_stopTile_ne _ _ _ htu] at this
    · simp only [List.mem_cons, not_or] at hu
      rw [h.2 hu.2, tileAt_stopTile_ne _ _ _ (Ne.symm hu.1)]

/-- What stopping a job at once leaves: memory, the job itself and the sync objects; every tile
stops, the streams and the instances are gone. -/
theorem stopNow_stops (s : State) :
    (∀ u, StopsTile s (stopNow s) u) ∧ (stopNow s).mem = s.mem ∧ (stopNow s).job = s.job ∧
    (stopNow s).sync = s.sync ∧ (stopNow s).wse.streams = [] ∧ (stopNow s).coll.insts = [] := by
  unfold stopNow
  have keep : ∀ {β : Type} (g : State → β), (∀ (s : State) u x, g (setTile u x s) = g s) →
      (∀ (s : State) n, g { s with fresh := n } = g s) →
      g (forEach (List.range s.tiles.length) stopTile s) = g s :=
    fun g h1 h2 => forEach_keeps g _ (fun t x => stopTile_keeps g h1 h2 t x) _ _
  refine ⟨fun u => ?_, ?_, ?_, ?_, ?_, ?_⟩
  · have hu : tileAt (forEach (List.range s.tiles.length) stopTile s) u = { stopped (tileAt s u) with
        lastC := (tileAt (forEach (List.range s.tiles.length) stopTile s) u).lastC } := by
      have h := forEach_stopTile (List.range s.tiles.length) List.nodup_range s u
      by_cases hl : u < s.tiles.length
      · exact h.1 (by simpa using hl)
      · rw [h.2 (by simpa using hl), tileAt_beyond s u (by omega)]; rfl
    unfold StopsTile
    have e := fun is x => forEach_keeps (fun x => tileAt x u) _
      (fun i x => collEnd_keeps (fun y => tileAt y u) 7 0 i (fun c n p s => tileAt_emit c n p s u) (fun _ _ => rfl) x) is x
    rw [e]
    exact hu
  · exact (forEach_keeps (·.mem) _ (fun i x => collEnd_keeps _ _ _ i (by simp) (fun _ _ => rfl) x) _ _).trans
      (keep (·.mem) (fun _ _ _ => rfl) (fun _ _ => rfl))
  · exact (forEach_keeps (·.job) _ (fun i x => collEnd_keeps _ _ _ i (by simp) (fun _ _ => rfl) x) _ _).trans
      (keep (·.job) (fun _ _ _ => rfl) (fun _ _ => rfl))
  · exact (forEach_keeps (·.sync) _ (fun i x => collEnd_keeps _ _ _ i (by simp) (fun _ _ => rfl) x) _ _).trans
      (keep (·.sync) (fun _ _ _ => rfl) (fun _ _ => rfl))
  · exact forEach_keeps (·.wse.streams) _ (fun i x => collEnd_keeps (·.wse.streams) _ _ i (fun c n p s => congrArg Wse.streams (emit_wse c n p s)) (fun _ _ => rfl) x) _ _
  · rw [forEach_collEnd_insts]
    simp only [List.filter_eq_nil_iff, List.all_eq_true, decide_eq_true_eq]
    exact fun j hj hall => hall j hj rfl

/-- A running job stops at once while no phase switch is in progress (R39). -/
theorem stopJob_running (s : State) (h : jobRunning s = true) (hb : switchBusy s = false) :
    stopJob s = stopNow s := by
  unfold stopJob; simp [h, hb]

/-- With one in progress it is to stop when the switch has completed (R39). -/
theorem stopJob_waits (s : State) (h : jobRunning s = true) (hb : switchBusy s = true) :
    stopJob s = { s with job := { s.job with stopDue := true } } := by
  unfold stopJob; simp [h, hb]

theorem stopJob_idle (s : State) (h : jobRunning s = false) : stopJob s = s := by
  unfold stopJob; simp [h]

end Sys2Proof.Machine
end

