-- ==== Sys2Proof/Laws/Host.lean ====
section
/-!
SUPPORT. What a command of the host does when it is executed as it arrives, said once: the
handler of its opcode runs on the state that the arrival leaves, and its answer is sent.
-/

namespace Sys2Proof.Machine

/-! ### Registers -/

theorem regPut_eq (s : State) (r : RegRow) (inst : Nat) (ix : List Nat) (v : Nat) :
    regPut s r inst ix v = { s with regs := (regPut s r inst ix v).regs } := rfl

theorem bump_eq (s : State) (r : RegRow) (inst : Nat) (ix : List Nat) :
    bump s r inst ix = { s with regs := (bump s r inst ix).regs } := rfl

theorem hostCount_eq (i : Nat) (s : State) : hostCount i s = { s with regs := (hostCount i s).regs } := rfl

theorem RegsStand.refl (s : State) : RegsStand s s := fun _ _ _ => rfl

theorem RegsStand.trans {s t u : State} (h : RegsStand s t) (k : RegsStand t u) : RegsStand s u :=
  fun a d ha => (k a d ha).trans (h a d ha)

theorem RegsStand.of_eq {s t : State} (h : t.regs = s.regs) : RegsStand s t := fun _ _ _ => by rw [h]

theorem regPut_stands (s : State) (r : RegRow) (inst : Nat) (ix : List Nat) (v : Nat)
    (hb : hostReg (regAddr r inst ix) = true) : RegsStand s (regPut s r inst ix v) := by
  intro a d ha
  have hne : a ≠ regAddr r inst ix := by rintro rfl; rw [hb] at ha; cases ha
  exact Cells.get_set_other d _ s.regs _ hne

theorem bump_stands (s : State) (r : RegRow) (inst : Nat) (ix : List Nat)
    (hb : hostReg (regAddr r inst ix) = true) : RegsStand s (bump s r inst ix) := regPut_stands s r inst ix _ hb

theorem hostCount_stands (i : Nat) (s : State) (hi : i < 12) : RegsStand s (hostCount i s) :=
  bump_stands s _ _ _ (by
    simp only [hostReg, regAddr, rowOffset, rHostCount, blockBase, List.zip, List.zipWith, List.map, List.foldl, decide_eq_true_eq]
    omega)

theorem portCount_stands (s : State) (n k : Nat) (hn : n < 8) (hk : k < 7) :
    RegsStand s (bump s rHostPortCount 0 [n, k]) :=
  bump_stands s _ _ _ (by
    simp only [hostReg, regAddr, rowOffset, rHostPortCount, blockBase, List.zip, List.zipWith, List.map, List.foldl, decide_eq_true_eq]
    omega)

/-! ### Arrival -/

/-- Nothing but the host interface and its registers differs when a command begins. -/
theorem begun_eq (h : Header) (c : HostCmd) (s : State) :
    begun h c s = { s with host := (begun h c s).host, regs := (begun h c s).regs } := by
  unfold begun countRun; split <;> rfl

theorem begun_host (h : Header) (c : HostCmd) (s : State) :
    (begun h c s).host = { (touchSession h s).host with
      next := (s.host.next + 1) % 2 ^ 32
      started := s.host.started ++ [⟨h, c, [], !((cmdInfo c.opcode).map (·.background)).getD false⟩] } := by
  unfold begun countRun; split <;> rfl

theorem begun_stands (h : Header) (c : HostCmd) (s : State) (hp : h.port < 8) : RegsStand s (begun h c s) := by
  unfold begun countRun
  have h1 : RegsStand s (updHost (fun x =>
    { x with
      next := (x.next + 1) % 2 ^ 32
      started := x.started ++ [⟨h, c, [], !((cmdInfo c.opcode).map (·.background)).getD false⟩] })
    (touchSession h (bump s rHostPortCount 0 [h.port, 0]))) :=
    (portCount_stands s h.port 0 hp (by omega)).trans (RegsStand.of_eq rfl)
  split
  · exact h1
  · exact h1.trans (hostCount_stands 0 _ (by omega))

theorem find?_none_of {α : Type} {p : α → Bool} {l : List α} (h : ∀ x ∈ l, p x = false) : l.find? p = none := by
  rw [List.find?_eq_none]; intro x hx; simp [h x hx]

/-- R446: the next command of the session starts as it arrives. -/
theorem sequence_next {s : State} {h : Header} {c : HostCmd} (hq : h.seq = s.host.next) (hm : mayStart c s = true)
    (hh : ∀ d ∈ s.host.held, d.hdr.seq ≠ h.seq) (hd : ∀ d ∈ s.host.done, d.hdr.seq ≠ h.seq)
    (hst : ∀ d ∈ s.host.started, d.hdr.seq ≠ h.seq) :
    sequence h c s = runStart h c [] (updHost (fun x => { x with next := (x.next + 1) % 2 ^ 32 }) s) := by
  have f1 : s.host.held.find? (fun d => decide (d.hdr.seq = h.seq)) = none :=
    find?_none_of (fun d hd' => by simpa using hh d hd')
  have f2 : s.host.started.find? (fun d => decide (d.hdr.seq = h.seq)) = none :=
    find?_none_of (fun d hd' => by simpa using hst d hd')
  have f3 : s.host.done.find? (fun d => decide (d.hdr.seq = h.seq)) = none :=
    find?_none_of (fun d hd' => by simpa using hd d hd')
  have f4 : (s.host.held ++ [(⟨h, c, []⟩ : HeldCmd)]).find? (fun d => decide (d.hdr.seq = s.host.next)) = some ⟨h, c, []⟩ := by
    rw [List.find?_append, ← hq, f1]; simp
  have f5 : (s.host.held ++ [(⟨h, c, []⟩ : HeldCmd)]).filter (fun d => decide (d.hdr.seq ≠ h.seq)) = s.host.held := by
    rw [List.filter_append, List.filter_eq_self.2 (fun d hd' => by simpa using hh d hd')]; simp
  unfold sequence
  simp only [f1, f2, f3]
  rw [if_pos (by rw [hq]; omega)]
  simp only [updHost]
  refine (if_pos hq).trans ?_
  unfold startNext
  have hm' : mayStart c { s with host := { s.host with held := s.host.held ++ [(⟨h, c, []⟩ : HeldCmd)] } } = true := hm
  simp only
  rw [f4]
  simp only [hm', if_true, updHost]
  rw [f5]

/-- R438 to R452: a command that is admitted runs its handler on the state that its arrival leaves,
and a handler that answers completes it. -/
theorem hostReceive_admitted {s : State} {h : Header} {c : HostCmd} {i : CmdInfo} (ha : Admitted s h c)
    (hi : cmdInfo c.opcode = some i) :
    hostReceive h c s = match (i.run h c (begun h c s)).2 with
      | .reply st p => finishCmd (refOf h) st p (i.run h c (begun h c s)).1
      | .wait => (i.run h c (begun h c s)).1 := by
  obtain ⟨⟨hp, hup, hsv, ho, hs, hs0, hq, hsw, hh, hd, hst, h404⟩, hl, hf, hr, hn, j, hj, hreq, hsz, hbg⟩ := ha
  rw [hi] at hj; cases hj
  have hhear : hostHears h s = true := by simp [hostHears, hup, hsv]
  unfold hostReceive
  rw [hhear]
  simp only [Bool.not_true, Bool.false_eq_true, if_false, hs0]
  rw [if_neg (by
    rintro (h1 | h1)
    · exact h1 ho
    · exact h1 hs)]
  rw [sequence_next (s := touchSession h (bump s rHostPortCount 0 [h.port, 0])) hq (by
      simp only [mayStart, Bool.and_eq_true, Bool.or_eq_true, Bool.not_eq_true', decide_eq_true_eq]
      refine ⟨⟨hsw, ?_⟩, ?_⟩
      · rw [Bool.eq_false_iff, Ne, List.any_eq_true]
        rintro ⟨d, hd1, hd2⟩
        have := (hst d hd1).2
        rw [this] at hd2; cases hd2
      · by_cases h4 : c.opcode = 0x0404
        · right; rw [List.isEmpty_iff]; exact h404 h4
        · exact .inl h4) hh hd (fun d hd' => (hst d hd').1)]
  unfold runStart
  simp only [hi]
  generalize hu : updHost _ (updHost _ (touchSession h (bump s rHostPortCount 0 [h.port, 0]))) = u
  have hpre : preCheck h c u = (u, .inr i) := by
    have hb : backgroundOthers (refOf h) u = s.host.started.length := by
      subst hu
      show (List.filter (fun d : OpenCmd => !d.serial && decide (d.hdr.seq ≠ h.seq)) (s.host.started ++ [_])).length = _
      rw [List.filter_append, List.filter_eq_self.2 (fun d hd' => by
        have := hst d hd'; simp [this.2, this.1])]
      simp
    have hres : resetting u c.opcode = false := by
      subst hu
      show ((decide (s.rst.level ≠ 0) || (!s.fw.running && !s.fw.recovery)) && _) = false
      simp [hl, hf]
    have hstale : staleClaim h c.opcode u = staleClaim h c.opcode s := by subst hu; rfl
    have hrec : u.fw.recovery = false := by subst hu; exact hr
    have hnr : notRunning u c.opcode = false := by subst hu; exact hn
    unfold preCheck
    rw [hres, hi]
    simp only [Bool.false_eq_true, if_false, hstale, hrec, hnr, hb, hsz]
    rw [if_neg (by rintro ⟨h1, h2⟩; rw [hreq h1] at h2; cases h2)]
    simp only [false_and, if_false, Bool.not_true, Bool.false_eq_true]
    rw [if_neg (by rintro ⟨h1, h2⟩; have := hbg h1; omega)]
  rw [hpre]
  have hbe : countRun c.opcode u = begun h c s := by
    subst hu; unfold begun; rw [hi]; rfl
  rw [← hbe]
  all_goals rfl

/-- R448: the completion of the one command of a header sends one reply by its port. -/
theorem finishCmd_eq {s t : State} {h : Header} {c : HostCmd} (b : Bool) (st : Nat) (p : List Byte)
    (hup : portUp t h.port = true) (hst : t.host.started = s.host.started ++ [⟨h, c, [], b⟩])
    (hne : ∀ d ∈ s.host.started, d.hdr.seq ≠ h.seq) :
    finishCmd (refOf h) st p t =
      { t with
        host := { t.host with
          started := s.host.started
          out := t.host.out ++ [⟨h.port, h.src, c.opcode, h.session, h.seq, st, t.red.claim, p⟩]
          done := (⟨h, c, st, p⟩ :: t.host.done).take 256 }
        regs := (bump t rHostPortCount 0 [h.port, 1]).regs } := by
  have f : t.host.started.find? (fun c => decide (c.hdr.session = (refOf h).session ∧ c.hdr.seq = (refOf h).seq)) =
      some ⟨h, c, [], b⟩ := by
    rw [hst, List.find?_append, find?_none_of (fun d hd => by simp [refOf, hne d hd])]
    simp [refOf]
  have g : t.host.started.filter (fun d => !decide (d.hdr.session = (refOf h).session ∧ d.hdr.seq = (refOf h).seq)) =
      s.host.started := by
    rw [hst, List.filter_append, List.filter_eq_self.2 (fun d hd => by simp [refOf, hne d hd])]
    simp [refOf]
  have e : sendReply h c.opcode (sourceOf h) st p t =
      sendPacket ⟨h.port, h.src, c.opcode, h.session, h.seq, st, t.red.claim, p⟩ t := by
    simp [sendReply, replyPort, sourceOf, hup]
  unfold finishCmd
  rw [f]
  simp only [forEach_cons, forEach_nil, e]
  show State.mk .. = State.mk ..
  congr 1
  show HostIf.mk .. = HostIf.mk ..
  congr 1

/-- R437, R446, R448: what a handler that answers and leaves the host interface alone comes to. -/
theorem admitted_reply {s t : State} {h : Header} {c : HostCmd} {i : CmdInfo} {st : Nat} {p : List Byte}
    (ha : Admitted s h c) (hi : cmdInfo c.opcode = some i) (hr : i.run h c (begun h c s) = (t, .reply st p))
    (hh : t.host = (begun h c s).host) :
    ∃ s', hostReceive h c s = s' ∧ Answers s s' h c st p ∧
      s' = { t with host := s'.host, regs := s'.regs } ∧ RegsStand t s' ∧
      s'.host = { (begun h c s).host with started := s'.host.started, out := s'.host.out, done := s'.host.done } := by
  have hb := begun_host h c s
  have hne : ∀ d ∈ s.host.started, d.hdr.seq ≠ h.seq := fun d hd => (ha.1.2.2.2.2.2.2.2.2.2.2.1 d hd).1
  have hup : portUp t h.port = true := by
    show (t.host.ports.getD h.port {}).link = true
    rw [hh, hb]; exact ha.1.2.1
  have e := finishCmd_eq (s := s) (t := t) (h := h) (c := c) _ st p hup (by rw [hh, hb]) hne
  refine ⟨_, (hostReceive_admitted ha hi).trans ((congrArg (fun r : State × Answer => match r.2 with
    | .reply st p => finishCmd (refOf h) st p r.1
    | .wait => r.1) hr).trans e), ?_⟩
  refine ⟨⟨?_, rfl, ?_, ?_, ?_⟩, rfl, ?_, ?_⟩
  · show t.host.out ++ _ = _; rw [hh, hb]; rfl
  · show t.host.held = _; rw [hh, hb]; rfl
  · show t.host.next = _; rw [hh, hb, ha.1.2.2.2.2.2.2.1]
  · rfl
  · exact portCount_stands t h.port 1 ha.1.1 (by omega)
  · rw [← hh]

/-- A handler that answers, and whose effect is `t`'s but for the host interface. -/
theorem admitted_completes {s t u : State} {h : Header} {c : HostCmd} {i : CmdInfo} {st : Nat} {p : List Byte}
    (ha : Admitted s h c) (hi : cmdInfo c.opcode = some i) (hr : i.run h c (begun h c s) = (u, .reply st p))
    (hh : u.host = (begun h c s).host) (hu : u = { t with host := u.host, regs := u.regs }) (hg : RegsStand t u) :
    Completes (.next (hostReceive h c s)) s t h c st p := by
  obtain ⟨s', e, hans, hs', hst, -⟩ := admitted_reply ha hi hr hh
  refine ⟨s', by rw [e], hans, ?_, hg.trans hst⟩
  rw [hs', hu]

end Sys2Proof.Machine
end

