-- ==== Sys2Proof/Laws/RegMap.lean ====
section
/-!
SUPPORT. The addresses of the registers that a row of the table writes or reads by name, and what
REG_WRITE to such a register comes to.
-/

namespace Sys2Proof.Machine

/-! ### Bytes of a payload -/

theorem leVal_leBytes (n v : Nat) : leVal (leBytes n v) = v % 256 ^ n := by
  induction n generalizing v with
  | zero => simp [leBytes, leVal, Nat.mod_one]
  | succ n ih =>
    simp only [leBytes, leVal, ih]
    show v % 256 + 256 * (v / 256 % 256 ^ n) = _
    rw [pow_succ, Nat.mul_comm (256 ^ n) 256, Nat.mod_mul]

theorem leAt_mid (a : List Byte) (n v : Nat) (b : List Byte) (k : Nat) (hk : a.length = k) :
    leAt (a ++ leBytes n v ++ b) k n = v % 256 ^ n := by
  unfold leAt
  rw [List.append_assoc, List.drop_left' hk, List.take_left' (leBytes_length n v), leVal_leBytes]

/-- R453: the fields of the payload of REG_WRITE to a register. -/
theorem writePayload_fields (r : RegRow) (inst : Nat) (ix : List Nat) (v : Nat) (ha : regAddr r inst ix < 2 ^ 32)
    (hv : v < 2 ^ 64) (hw : r.width / 8 < 256) :
    leAt (writePayload r inst ix v) 0 4 = regAddr r inst ix ∧ at1 (writePayload r inst ix v) 4 = r.width / 8 ∧
    zeros (writePayload r inst ix v) 5 3 = true ∧ leAt (writePayload r inst ix v) 8 8 = v ∧
    (writePayload r inst ix v).length = 16 := by
  have l4 := leBytes_length 4 (regAddr r inst ix)
  have l1 := leBytes_length 1 (r.width / 8)
  have l3 := leBytes_length 3 0
  refine ⟨?_, ?_, ?_, ?_, ?_⟩
  · have := leAt_mid [] 4 (regAddr r inst ix) (leBytes 1 (r.width / 8) ++ leBytes 3 0 ++ leBytes 8 v) 0 rfl
    simp only [List.nil_append] at this
    unfold writePayload
    simp only [List.append_assoc] at this ⊢
    rw [this]; omega
  · have := leAt_mid (leBytes 4 (regAddr r inst ix)) 1 (r.width / 8) (leBytes 3 0 ++ leBytes 8 v) 4 l4
    unfold writePayload at1
    simp only [List.append_assoc] at this ⊢
    rw [this]; omega
  · have := leAt_mid (leBytes 4 (regAddr r inst ix) ++ leBytes 1 (r.width / 8)) 3 0 (leBytes 8 v) 5 (by simp)
    unfold writePayload zeros
    simp only [List.append_assoc] at this ⊢
    rw [this]; rfl
  · have := leAt_mid (leBytes 4 (regAddr r inst ix) ++ leBytes 1 (r.width / 8) ++ leBytes 3 0) 8 v [] 8 (by simp)
    unfold writePayload
    simp only [List.append_assoc, List.append_nil] at this ⊢
    rw [this]; omega
  · simp [writePayload]

/-- R7, R453: the register that such a payload names. -/
theorem namedReg_writePayload (r : RegRow) (inst : Nat) (ix : List Nat) (v : Nat) (ha : regAddr r inst ix < 2 ^ 32)
    (hv : v < 2 ^ 64) (hw : r.width / 8 < 256) (h8 : r.width % 8 = 0)
    (hf : findReg (regAddr r inst ix) = some (r, inst, ix)) :
    namedReg (writePayload r inst ix v) = some (r, inst, ix) := by
  obtain ⟨h1, h2, h3, -, -⟩ := writePayload_fields r inst ix v ha hv hw
  unfold namedReg
  rw [h3, h1, h2, hf]
  have : r.width = 8 * (r.width / 8) := by omega
  simp only [if_true, Option.filter]
  rw [if_pos (by simpa using this)]

/-- R453: REG_WRITE to a register of a block that is powered, of a value that fits. -/
theorem write_completes {s t u : State} {h : Header} {r : RegRow} {inst : Nat} {ix : List Nat} {v : Nat} {m : List Int}
    (ha : Admitted s h (hostCmd 0x0202 (writePayload r inst ix v) m)) (hf : findReg (regAddr r inst ix) = some (r, inst, ix))
    (hadr : regAddr r inst ix < 2 ^ 32) (hw : r.width / 8 < 256) (h8 : r.width % 8 = 0) (hv : v < 2 ^ r.width)
    (hv' : v < 2 ^ 64) (hoff : regOff s r inst = false)
    (hr : liveWrite r inst ix v m (begun h (hostCmd 0x0202 (writePayload r inst ix v) m) s) = some u)
    (hh : u.host = (begun h (hostCmd 0x0202 (writePayload r inst ix v) m) s).host)
    (hu : u = { t with host := u.host, regs := u.regs }) (hg : RegsStand t u) :
    Completes (.next (hostReceive h (hostCmd 0x0202 (writePayload r inst ix v) m) s)) s t h
      (hostCmd 0x0202 (writePayload r inst ix v) m) 0 [] := by
  refine admitted_completes ha rfl ?_ hh hu hg
  obtain ⟨-, -, -, h4, -⟩ := writePayload_fields r inst ix v hadr hv' hw
  have hoff' : regOff (begun h (hostCmd 0x0202 (writePayload r inst ix v) m) s) r inst = false := by rw [begun_eq]; exact hoff
  show regWrite h _ _ = _
  unfold regWrite
  simp only [namedReg_writePayload r inst ix v hadr hv' hw h8 hf, h4]
  rw [if_neg (by omega), hoff']
  simp only [Bool.false_eq_true, if_false, hr]
  rfl

/-! ### Addresses -/

/-- R454: the block of an address that lies in the page of an instance. -/
theorem findBlock_page (b : RegBlock) (inst o : Nat) (hi : inst < blockCount b) (ho : o < 0x10000) (hs : b ≠ .sync) :
    findBlock (blockBase b + inst * 0x10000 + o) = some (b, inst, o) := by
  have key : ∀ n, (n * 0x10000 + o) / 0x10000 = n ∧ (n * 0x10000 + o) % 0x10000 = o := fun n => by omega
  cases b <;> simp only [blockCount] at hi <;> simp only [blockBase]
  case sync => exact absurd rfl hs
  case tile =>
    rw [show 0x1000000 + inst * 0x10000 + o = (256 + inst) * 0x10000 + o by omega]
    generalize hn : 256 + inst = n
    unfold findBlock
    simp only [key n]
    have h1 : ¬ n < 256 := by omega
    have h2 : n < 412 := by omega
    simp [h1, h2, show n ≠ 0 by omega, show n ≠ 1 by omega, show n ≠ 2 by omega, show n ≠ 3 by omega,
      show n ≠ 4 by omega, show n ≠ 5 by omega, show n ≠ 6 by omega, show n ≠ 7 by omega, show ¬ n < 12 by omega,
      show n ≠ 12 by omega, show n ≠ 13 by omega, show n ≠ 14 by omega, show n ≠ 15 by omega, show ¬ n < 24 by omega,
      show ¬ n < 33 by omega, show n ≠ 33 by omega, show n - 256 = inst by omega]
  case fab =>
    rw [show 0x100000 + inst * 0x10000 + o = (16 + inst) * 0x10000 + o by omega]
    generalize hn : 16 + inst = n
    unfold findBlock
    simp only [key n]
    simp [show n ≠ 0 by omega, show n ≠ 1 by omega, show n ≠ 2 by omega, show n ≠ 3 by omega,
      show n ≠ 4 by omega, show n ≠ 5 by omega, show n ≠ 6 by omega, show n ≠ 7 by omega, show ¬ n < 12 by omega,
      show n ≠ 12 by omega, show n ≠ 13 by omega, show n ≠ 14 by omega, show n ≠ 15 by omega, show n < 24 by omega,
      show n - 16 = inst by omega]
  case mar =>
    rw [show 0x180000 + inst * 0x10000 + o = (24 + inst) * 0x10000 + o by omega]
    generalize hn : 24 + inst = n
    unfold findBlock
    simp only [key n]
    simp [show n ≠ 0 by omega, show n ≠ 1 by omega, show n ≠ 2 by omega, show n ≠ 3 by omega,
      show n ≠ 4 by omega, show n ≠ 5 by omega, show n ≠ 6 by omega, show n ≠ 7 by omega, show ¬ n < 12 by omega,
      show n ≠ 12 by omega, show n ≠ 13 by omega, show n ≠ 14 by omega, show n ≠ 15 by omega, show ¬ n < 24 by omega,
      show n < 33 by omega, show n - 24 = inst by omega]
  all_goals
    obtain rfl : inst = 0 := by omega
    unfold findBlock
  case mem => simp only [show (0xc0000 + 0 * 0x10000 + o) / 0x10000 = 12 by omega, show (0xc0000 + 0 * 0x10000 + o) % 0x10000 = o by omega]; rfl
  case wse => simp only [show (0xd0000 + 0 * 0x10000 + o) / 0x10000 = 13 by omega, show (0xd0000 + 0 * 0x10000 + o) % 0x10000 = o by omega]; rfl
  case coll => simp only [show (0xe0000 + 0 * 0x10000 + o) / 0x10000 = 14 by omega, show (0xe0000 + 0 * 0x10000 + o) % 0x10000 = o by omega]; rfl
  case cal => simp only [show (0x210000 + 0 * 0x10000 + o) / 0x10000 = 33 by omega, show (0x210000 + 0 * 0x10000 + o) % 0x10000 = o by omega]; rfl
  case gen => simp only [show (0x0 + 0 * 0x10000 + o) / 0x10000 = 0 by omega, show (0x0 + 0 * 0x10000 + o) % 0x10000 = o by omega]; rfl
  case host => simp only [show (0x70000 + 0 * 0x10000 + o) / 0x10000 = 7 by omega, show (0x70000 + 0 * 0x10000 + o) % 0x10000 = o by omega]; rfl
  case time => simp only [show (0x30000 + 0 * 0x10000 + o) / 0x10000 = 3 by omega, show (0x30000 + 0 * 0x10000 + o) % 0x10000 = o by omega]; rfl
  case pwr => simp only [show (0x10000 + 0 * 0x10000 + o) / 0x10000 = 1 by omega, show (0x10000 + 0 * 0x10000 + o) % 0x10000 = o by omega]; rfl
  case rst => simp only [show (0x20000 + 0 * 0x10000 + o) / 0x10000 = 2 by omega, show (0x20000 + 0 * 0x10000 + o) % 0x10000 = o by omega]; rfl
  case red => simp only [show (0x60000 + 0 * 0x10000 + o) / 0x10000 = 6 by omega, show (0x60000 + 0 * 0x10000 + o) % 0x10000 = o by omega]; rfl
  case sup => simp only [show (0x50000 + 0 * 0x10000 + o) / 0x10000 = 5 by omega, show (0x50000 + 0 * 0x10000 + o) % 0x10000 = o by omega]; rfl
  case evt => simp only [show (0x40000 + 0 * 0x10000 + o) / 0x10000 = 4 by omega, show (0x40000 + 0 * 0x10000 + o) % 0x10000 = o by omega]; rfl

/-- A register without an index, of a block other than the sync unit's. -/
theorem findReg_plain (r : RegRow) (inst : Nat) (hi : inst < blockCount r.block) (hs : r.block ≠ .sync)
    (ho : rowOffset r [] < 0x10000) (hr : findRow (blockRows r.block) (rowOffset r []) = some (r, []))
    (he : rowExists r inst = true) : findReg (regAddr r inst []) = some (r, inst, []) := by
  unfold findReg regAddr
  rw [findBlock_page r.block inst _ hi ho hs]
  simp only [hr, he, if_true]

theorem findBlock_sync (o : Nat) (h : o < 0x40000) : findBlock (0x80000 + o) = some (.sync, 0, o) := by
  unfold findBlock
  have h1 : 8 ≤ (0x80000 + o) / 0x10000 ∧ (0x80000 + o) / 0x10000 < 12 := by omega
  generalize (0x80000 + o) / 0x10000 = n at h1
  have hn : n ≠ 0 ∧ n ≠ 1 ∧ n ≠ 2 ∧ n ≠ 3 ∧ n ≠ 4 ∧ n ≠ 5 ∧ n ≠ 6 ∧ n ≠ 7 := by omega
  simp [hn, h1.2]

/-- R225: SYNC_VALUE of each object. -/
theorem findReg_syncValue (i : Nat) (h : i < 16384) : findReg (regAddr rSyncValue 0 [i]) = some (rSyncValue, 0, [i]) := by
  have ha : regAddr rSyncValue 0 [i] = 0x80000 + 16 * i := by
    simp [regAddr, rowOffset, rSyncValue, blockBase]
  have h1 : splitIndex [(16384, 16)] (16 * i) = some [i] := by
    simp [splitIndex, h]
  unfold findReg
  rw [ha, findBlock_sync _ (by omega)]
  simp only [blockRows, findRow]
  rw [if_neg (by simp [rSyncValue])]
  rw [show splitIndex rSyncValue.dims (16 * i - rSyncValue.off) = some [i] from h1]
  rfl

/-- R225: SYNC_ADD of each object. -/
theorem findReg_syncAdd (i : Nat) (h : i < 16384) : findReg (regAddr rSyncAdd 0 [i]) = some (rSyncAdd, 0, [i]) := by
  have ha : regAddr rSyncAdd 0 [i] = 0x80000 + (8 + 16 * i) := by
    simp [regAddr, rowOffset, rSyncAdd, blockBase]
  have h0 : splitIndex [(16384, 16)] (8 + 16 * i) = none := by
    have : (8 + 16 * i) % 16 = 8 := by omega
    simp [splitIndex, this]
  have h1 : splitIndex [(16384, 16)] (16 * i) = some [i] := by
    simp [splitIndex, h]
  unfold findReg
  rw [ha, findBlock_sync _ (by omega)]
  simp only [blockRows, findRow]
  rw [if_neg (by simp [rSyncValue]),
    show splitIndex rSyncValue.dims (8 + 16 * i - rSyncValue.off) = none from h0]
  simp only
  rw [if_neg (by simp [rSyncAdd]), show splitIndex rSyncAdd.dims (8 + 16 * i - rSyncAdd.off) = some [i] by
    rw [show 8 + 16 * i - rSyncAdd.off = 16 * i by simp [rSyncAdd]]; exact h1]
  rfl

end Sys2Proof.Machine
end

