-- ==== Sys2Proof/Laws/Units.lean ====
section
/-!
SUPPORT. Laws of the queues of a tile: the upsets that strike memory, and the completion of an
entry.
-/

namespace Sys2Proof.Machine

theorem memByte_stored (k n v : Nat) (s : State) (x : Nat) :
    (memByte (storedAt k (leBytes n v) s).mem.cells x).toNat =
      if k ≤ x ∧ x < k + n then v / 256 ^ (x - k) % 256 else (memByte s.mem.cells x).toNat := by
  unfold storedAt
  simp only [memByte_memWrite, leBytes_length]
  by_cases h : k ≤ x ∧ x < k + n
  · rw [if_pos h, if_pos h, leBytes_getD _ _ _ (by omega)]
  · rw [if_neg h, if_neg h]

theorem tileAt_strike (ups : List Upset) (s : State) (t : Nat) : tileAt (strike ups s) t = tileAt s t := by
  unfold strike
  refine forEach_keeps (fun x => tileAt x t) _ (fun u x => ?_) ups s
  dsimp only
  split <;> rfl

theorem strike_tiles (ups : List Upset) (s : State) : (strike ups s).tiles = s.tiles := by
  unfold strike
  refine forEach_keeps (·.tiles) _ (fun u x => ?_) ups s
  dsimp only
  split <;> rfl

/-- The run of an entry, by its queue. -/
def runFor : TileUnit → Nat → Insn → State → Ran
  | .matrix => runMatrix
  | .vector => runVector
  | .mover => runMover
  | .fabric => runFabric

/-- The unit number of a queue (R138). -/
def unitNo : TileUnit → Nat
  | .matrix => 1
  | .vector => 2
  | .mover => 3
  | .fabric => 4

/-- An entry that has started and is not held is settled with what its run comes to. -/
theorem completion_run {s : State} {t k : Nat} {u : TileUnit} {e : QEntry} (ups : List Upset)
    (h : EntryRuns s t u k e) (hu : u ≠ .fabric) {r : Ran} (hr : runFor u t (insnOf e.word) (strike ups s) = r) (hh : r ≠ .held) :
    exec (.queueEntryCompletion t u k ups) s = .next (settleEntry t u (unitNo u) k e (strike ups s) r) := by
  obtain ⟨ht, hc, hp, he, hk⟩ := h
  subst hr
  have hn : ¬ ((tileAt s t).code ≠ .running ∨ s.pwr.tripped = true) := by simp [hc, hp]
  cases u
  case fabric => exact absurd rfl hu
  all_goals
    simp only [exec, execQueueEntryCompletion, unitNo, runFor] at *
    simp only [hn, he, hk, if_true, if_false]

/-- An entry that only changes its tile. -/
theorem completion_leaves {s : State} {t k : Nat} {u : TileUnit} {e : QEntry} (ups : List Upset) (x : Tile) (fl : Flags)
    (h : EntryRuns s t u k e) (hu : u ≠ .fabric)
    (hr : runFor u t (insnOf e.word) (strike ups s) = .done (setTile t x (strike ups s)) fl)
    (hc : x.code = .running) (hte : x.trapEn = (tileAt s t).trapEn) (htr : x.trap = (tileAt s t).trap) :
    EntryLeaves s t u (unitNo u) k ups e x fl := by
  have ht : t < (strike ups s).tiles.length := by rw [strike_tiles]; exact h.1
  have hrun := completion_run ups h hu hr (by simp)
  obtain ⟨y, hy⟩ : ∃ y, y = { x with flags := x.flags ||| fl } := ⟨_, rfl⟩
  have yc : y.code = .running := by rw [hy]; exact hc
  have yt : y.trapEn = (tileAt s t).trapEn := by rw [hy]; exact hte
  have yr : y.trap = (tileAt s t).trap := by rw [hy]; exact htr
  unfold EntryLeaves
  have hd : ({ x with flags := x.flags ||| fl, wait := .stop, trap := some ⟨7, unitNo u, e.pc, 0, fl.toNat⟩ } : Tile) =
      { y with code := .running, wait := .stop, trap := some ⟨7, unitNo u, e.pc, 0, fl.toNat⟩ } := by
    rw [hy]; simp only [hc]
  rw [hd, ← hy]
  have e1 : updTile t (fun y => { y with flags := y.flags ||| fl }) (setTile t x (strike ups s)) =
      setTile t y (strike ups s) := by
    rw [updTile_eq, tileAt_setTile_self _ _ _ ht, setTile_setTile, hy]
  have ey : tileAt (setTile t y (strike ups s)) t = y := tileAt_setTile_self _ _ _ ht
  refine ⟨fun hf => ?_, fun hf hn hpc => ?_⟩
  · rw [hrun]
    simp only [settleEntry, raiseFlags, e1, ey, yt, hf, if_true, dropEntry, updTile_eq, setTile_setTile, withoutEntry]
  · refine ⟨_, hrun, ?_⟩
    simp only [settleEntry, raiseFlags, e1, ey, yt, hf, if_false]
    have tk := raiseExc_takes (setTile t y (strike ups s)) t 7 (unitNo u) e.pc 0 fl.toNat
      (by simpa using ht) (by rw [ey]; exact .inl yc) (by rw [ey, yr, hn])
    rw [TakesException, ey, Nat.mod_eq_of_lt hpc] at tk
    generalize raiseExc t 7 (unitNo u) e.pc 0 fl.toNat (setTile t y (strike ups s)) = s2 at tk
    have hl : t < s2.tiles.length := by
      by_contra hl
      have := tk.1
      unfold tileAt at this
      rw [List.getD_eq_default _ _ (by omega)] at this
      have := congrArg Tile.code this
      simp [dropUnstarted, noTile] at this
    refine ⟨?_, fun v hv => ?_⟩
    · unfold dropEntry
      rw [updTile_eq, tileAt_setTile_self _ _ _ hl, tk.1, yc.symm, ← yt]
      rfl
    · unfold dropEntry
      rw [updTile_eq, tileAt_setTile_ne _ _ _ _ (Ne.symm hv), tk.2.1 v hv, tileAt_setTile_ne _ _ _ _ (Ne.symm hv), tileAt_strike]

end Sys2Proof.Machine
end

