-- ==== Sys2Proof/Laws/Waits.lean ====
section
/-!
SUPPORT. The counters of waits change nothing but registers.
-/

namespace Sys2Proof.Machine

theorem growBy_frame (r : RegRow) (i n : Nat) (s : State) :
    growBy r i n s = { s with regs := (growBy r i n s).regs } := by
  unfold growBy; split <;> rfl

theorem regs_trans {a b s : State} (h : a = { s with regs := a.regs }) (k : b = { a with regs := b.regs }) :
    b = { s with regs := b.regs } := by
  rw [h] at k
  exact k

theorem countWaits_frame (s : State) : countWaits s = { s with regs := (countWaits s).regs } := by
  have h (r : RegRow) (i n : Nat) (s : State) {t : State} (k : s = { t with regs := s.regs }) :
      growBy r i n s = { t with regs := (growBy r i n s).regs } := regs_trans k (growBy_frame ..)
  exact h _ _ _ _ (h _ _ _ _ (h _ _ _ _ (h _ _ _ _ (h _ _ _ _ (h _ _ _ _ (h _ _ _ _ (growBy_frame ..)))))))

@[simp] theorem countWaits_time (s : State) : (countWaits s).time = s.time := by
  rw [countWaits_frame]

@[simp] theorem countWaits_mem (s : State) : (countWaits s).mem = s.mem := by
  rw [countWaits_frame]

@[simp] theorem countWaits_fresh (s : State) : (countWaits s).fresh = s.fresh := by
  rw [countWaits_frame]

end Sys2Proof.Machine
end

