-- ==== Sys2Proof/WellFormed.lean ====
section
/-!
DEFINITION. Which commands are well formed: every operand within the field or the count that
the spec gives it. A command that arrives from outside or that an event of the module makes
is well formed; `exec` is total and needs no such premise.
-/

namespace Sys2Proof

/-- Ports 0 to 7 (R429). -/
def portOk (n : Nat) : Bool := decide (n < 8)
/-- A 32-bit field. -/
def u32 (n : Nat) : Bool := decide (n < 2 ^ 32)
/-- A tile, physical (R90). -/
def tileOk (t : Nat) : Bool := decide (t < 156)
/-- A stream descriptor of a job (R132). -/
def descOk (d : Nat) : Bool := decide (d < 1024)
/-- A sync object (R219). -/
def objOk (i : Nat) : Bool := decide (i < 16384)
/-- A collective context (R316). -/
def ctxOk (c : Nat) : Bool := decide (c < 16)
/-- A lane or a receive channel (R243). -/
def laneOk (i : Nat) : Bool := decide (i < 256)
/-- A plan slot (R284). -/
def slotOk (n : Nat) : Bool := decide (n < 16)
/-- A module identifier (R28). -/
def moduleOk (d : Nat) : Bool := decide (d < 65536)
/-- An optical chiplet (R243). -/
def chipletOk (c : Nat) : Bool := decide (c < 8)
/-- A laser of a chiplet (R345). -/
def laserOk (c n : Nat) : Bool := chipletOk c && decide (n < 36)
/-- A Marionette engine (R380). -/
def engineOk (e : Nat) : Bool := decide (e < 9)
/-- A strip (R159). -/
def stripOk (n : Nat) : Bool := decide (n < 16)
/-- A time domain: 0 primary, 1 secondary (R474). -/
def domainOk (m : Nat) : Bool := decide (m < 2)

/-- R435: the fields of a header hold what their widths admit. -/
def headerOk (h : Header) : Bool :=
  portOk h.port && u32 h.session && u32 h.seq && u32 h.claim && u32 h.crc

/-- R435: LENGTH is 0 to 8,200. -/
def payloadOk (p : List Byte) : Bool := decide (p.length ≤ 8200)

/-- Whether a command is well formed. -/
def Instr.wf : Instr → Bool
  | .genIdentify h p => headerOk h && payloadOk p
  | .sessionOpen h p => headerOk h && payloadOk p
  | .sessionClose h p => headerOk h && payloadOk p
  | .sessionKeepalive h p => headerOk h && payloadOk p
  | .regRead h p => headerOk h && payloadOk p
  | .regWrite h p => headerOk h && payloadOk p
  | .bulkWrite h p => headerOk h && payloadOk p
  | .bulkRead h p => headerOk h && payloadOk p
  | .bulkBlock h block data => headerOk h && u32 block && decide (data.length ≤ 8192)
  | .bulkAck h next window mask => headerOk h && u32 next && u32 window && decide (mask < 2 ^ 64)
  | .bulkAckTimer q => u32 q
  | .bulkResendTimeout q block => u32 q && u32 block
  | .bulkDone q => u32 q
  | .bulkTimeout q => u32 q
  | .zcpPacketDiscard why => match why with
    | .udpLength | .crc | .format => true
    | .fragment p | .options p | .udpSum p | .noProtocol p | .pause p | .tag p | .long p => decide (p < 8)
    | .arp p _ a => decide (p < 8 ∧ a < 2 ^ 32)
    | .neighbour p _ a => decide (p < 8 ∧ a < 2 ^ 128)
    | .echo _ p _ a d => decide (p < 8 ∧ a < 2 ^ 128 ∧ d.length ≤ 9216)
  | .badOpcode h op p => headerOk h && decide (op < 65536) && payloadOk p
  | .heldCommandStart => true
  | .sessionIdleTimeout => true
  | .nonceRefresh => true
  | .sessionOpenEvalExpiry => true
  | .portLinkUp n => portOk n
  | .portLinkDown n => portOk n
  | .jobLoad h p => headerOk h && payloadOk p.payload && p.hits.all (fun x => decide (x.1 < 156))
  | .jobLaunch h p => headerOk h && payloadOk p
  | .jobAbort h p => headerOk h && payloadOk p
  | .jobEnd => true
  | .syncSignal h p => headerOk h && payloadOk p
  | .planLoad h p => headerOk h && payloadOk p
  | .planArm h p => headerOk h && payloadOk p
  | .planDisarm h p => headerOk h && payloadOk p
  | .darkWindow h p => headerOk h && payloadOk p
  | .darkWindowCancel h p => headerOk h && payloadOk p
  | .fabricDiscover h p => headerOk h && payloadOk p
  | .loopRearm h p => headerOk h && payloadOk p
  | .calRunLaser h p _ => headerOk h && payloadOk p
  | .calRunRing h p _ => headerOk h && payloadOk p
  | .calRunXtalk h p _ => headerOk h && payloadOk p
  | .calRunOsum h p _ => headerOk h && payloadOk p
  | .pwrSetState h p => headerOk h && payloadOk p
  | .pwrPendingStart => true
  | .pwrSetPlevel h p => headerOk h && payloadOk p
  | .timeSetAlarm h p => headerOk h && payloadOk p
  | .evtRead h p => headerOk h && payloadOk p
  | .evtSeal h p => headerOk h && payloadOk p
  | .fwBlock h p => headerOk h && payloadOk p
  | .fwVerify h p => headerOk h && payloadOk p
  | .fwActivate h p _ => headerOk h && payloadOk p
  | .fwConfirm h p => headerOk h && payloadOk p
  | .fwRevert h p _ => headerOk h && payloadOk p
  | .attestQuote h p => headerOk h && payloadOk p
  | .pairConfigure h p => headerOk h && payloadOk p
  | .pairUnpair h p => headerOk h && payloadOk p
  | .pairRejoin h p => headerOk h && payloadOk p
  | .nop t => tileOk t
  | .halt t => tileOk t
  | .tileHalted t => tileOk t
  | .brk t => tileOk t
  | .fence t => tileOk t
  | .getc t => tileOk t
  | .setc t => tileOk t
  | .seed t => tileOk t
  | .add t => tileOk t
  | .sub t => tileOk t
  | .and t => tileOk t
  | .or t => tileOk t
  | .xor t => tileOk t
  | .shl t => tileOk t
  | .shr t => tileOk t
  | .sra t => tileOk t
  | .mul t => tileOk t
  | .mulhu t => tileOk t
  | .slt t => tileOk t
  | .sltu t => tileOk t
  | .min t => tileOk t
  | .max t => tileOk t
  | .addi t => tileOk t
  | .subi t => tileOk t
  | .andi t => tileOk t
  | .ori t => tileOk t
  | .xori t => tileOk t
  | .shli t => tileOk t
  | .shri t => tileOk t
  | .srai t => tileOk t
  | .muli t => tileOk t
  | .mulhui t => tileOk t
  | .slti t => tileOk t
  | .sltui t => tileOk t
  | .mini t => tileOk t
  | .maxi t => tileOk t
  | .li t => tileOk t
  | .aadd t => tileOk t
  | .aaddi t => tileOk t
  | .alo t => tileOk t
  | .ahi t => tileOk t
  | .aget t => tileOk t
  | .amov t => tileOk t
  | .lw t _ => tileOk t
  | .sw t => tileOk t
  | .la t => tileOk t
  | .sa t => tileOk t
  | .tileTrapped t => tileOk t
  | .illegalWord t => tileOk t
  | .beq t => tileOk t
  | .bne t => tileOk t
  | .blt t => tileOk t
  | .bge t => tileOk t
  | .bltu t => tileOk t
  | .bgeu t => tileOk t
  | .jmp t => tileOk t
  | .jal t => tileOk t
  | .jr t => tileOk t
  | .vaddf t => tileOk t
  | .vsubf t => tileOk t
  | .vmulf t => tileOk t
  | .vmaxf t => tileOk t
  | .vminf t => tileOk t
  | .vfma t => tileOk t
  | .viadd t => tileOk t
  | .visub t => tileOk t
  | .vimul t => tileOk t
  | .vand t => tileOk t
  | .vor t => tileOk t
  | .vxor t => tileOk t
  | .vshl t => tileOk t
  | .vshr t => tileOk t
  | .vsra t => tileOk t
  | .vrcp t => tileOk t
  | .vrsqrt t => tileOk t
  | .vexp2 t => tileOk t
  | .vlog2 t => tileOk t
  | .vcvtfi t => tileOk t
  | .vcvtif t => tileOk t
  | .vbcast t => tileOk t
  | .vsumf t => tileOk t
  | .vmaxr t => tileOk t
  | .vld t => tileOk t
  | .vst t => tileOk t
  | .vpack t => tileOk t
  | .vunpk t => tileOk t
  | .mshape t => tileOk t
  | .mma t => tileOk t
  | .accz t => tileOk t
  | .accpack t => tileOk t
  | .accget t => tileOk t
  | .accput t => tileOk t
  | .mvshape t => tileOk t
  | .mov t => tileOk t
  | .sstart t => tileOk t
  | .stake t => tileOk t
  | .stakeSatisfied t => tileOk t
  | .sfree t => tileOk t
  | .syadd t => tileOk t
  | .syset t => tileOk t
  | .syrd t => tileOk t
  | .sywait t => tileOk t
  | .sywaitSatisfied t => tileOk t
  | .cpost t => tileOk t
  | .fput t => tileOk t
  | .fsig t => tileOk t
  | .fabricEntryRelease t => tileOk t
  | .tileCtrlSelftest h t => headerOk h && tileOk t
  | .tileCtrlRetire h t => headerOk h && tileOk t
  | .tileCtrlRestore h t => headerOk h && tileOk t
  | .tileSelftestDone t _ => tileOk t
  | .tileFault t _ => tileOk t
  | .spareTileSelftest t => tileOk t
  | .meshStall t => tileOk t
  | .tileSrngWrite h t v => headerOk h && tileOk t && u32 v
  | .wsePassBegin d => descOk d
  | .chunkWriteStart d => descOk d
  | .chunkFull d l => descOk d && decide (l < 144)
  | .wsePassEnd d => descOk d
  | .wsePassCancel d => descOk d
  | .syncValueWrite h i v => headerOk h && objOk i && decide (v < 2 ^ 64)
  | .syncAddWrite h i v => headerOk h && objOk i && decide (v < 2 ^ 64)
  | .remoteOperationRx => true
  | .syncTwinRestart failed l => moduleOk failed && decide (l < 144)
  | .laneFrameTx i => laneOk i
  | .laneFrameRx i line => laneOk i && decide (line.length = 1152)
  | .markerLockLost i => laneOk i
  | .los i => laneOk i
  | .fecUncorrLimit i => laneOk i
  | .fecDegraded i => laneOk i
  | .nakTimer n d => slotOk n && moduleOk d
  | .replayTimeout n d => slotOk n && moduleOk d
  | .laneFault i reason => laneOk i && decide (8 ≤ reason ∧ reason < 14)
  | .laneReadmit _ i => laneOk i
  | .lanesetDead n d => slotOk n && moduleOk d
  | .discoveryRound => true
  | .discoveryEnd => true
  | .phaseTrigger n => slotOk n
  | .lanesetClosed n d => slotOk n && moduleOk d
  | .laneRelease n d => slotOk n && moduleOk d
  | .retuneDone i => laneOk i
  | .phaseGapOverrun _ i => laneOk i
  | .darkWindowOpen => true
  | .darkWindowClose => true
  | .collInstanceStart c => ctxOk c
  | .collUnitRx => true
  | .collInstanceComplete c => ctxOk c
  | .collInstanceEnd c => ctxOk c
  | .collTimeout c => ctxOk c
  | .osumBurstStart g => decide (g < 4)
  | .osumBurstEnd g _ => decide (g < 4)
  | .collSegRestart c rank _ => ctxOk c && moduleOk rank
  | .refereeRead c b _ _ => chipletOk c && decide (b < 5)
  | .laserAcquire c n _ => laserOk c n
  | .spareLaserCheck c n _ => laserOk c n
  | .swapThreshold c n _ => laserOk c n
  | .plannedSwap c n => laserOk c n
  | .forcedSwap c n => laserOk c n
  | .ringScan c r _ => chipletOk c && decide (r < 32)
  | .fabLightSwap h c i => headerOk h && chipletOk c && decide (i < 36)
  | .fabLightRestore h c i ring => headerOk h && chipletOk c && decide (i < if ring then 32 else 36)
  | .eyeTrip c f cause => chipletOk c && decide (f < 4 ∧ cause < 8)
  | .eyeRestoreStart c f => chipletOk c && decide (f < 4)
  | .fabEyeCtrlRestore h c mask => headerOk h && chipletOk c && decide (mask < 16)
  | .eyeRestoreDone c f => chipletOk c && decide (f < 4)
  | .marTick e reads _ => engineOk e && reads.all (fun r => decide (r.width ≤ 24))
  | .marRearm h e i => headerOk h && engineOk e && decide (i < 256)
  | .marCommit h e i mask => headerOk h && engineOk e && decide (i < 256 ∧ mask < 256)
  | .marLutCommit h e i => headerOk h && engineOk e && decide (i < 256)
  | .marXtCommit h e f => headerOk h && engineOk e && decide (f < 4)
  | .timeTick => true
  | .timeNowSRead h => headerOk h
  | .ptpSyncRx port clock dom seq _ _ => portOk port && decide (dom < 256 ∧ seq < 65536 ∧ clock < 2 ^ 64)
  | .ptpFollowUpRx port clock dom seq _ => portOk port && decide (dom < 256 ∧ seq < 65536 ∧ clock < 2 ^ 64)
  | .ptpDelayRespRx port clock dom seq _ _ => portOk port && decide (dom < 256 ∧ seq < 65536 ∧ clock < 2 ^ 64)
  | .ptpAnnounceRx port clock dom _ => portOk port && decide (dom < 256 ∧ clock < 2 ^ 64)
  | .delayReq m => domainOk m
  | .timeLost m cause => domainOk m && decide (cause < 4)
  | .timeListenReturn m => domainOk m
  | .timeHoldoffExpiry => true
  | .holdoverExpiry => true
  | .timeSet h => headerOk h
  | .alarmFire i => decide (i < 8)
  | .powerApply => true
  | .inputLost n _ => decide (n < 65536)
  | .vinOutOfRange _ _ => true
  | .vbusLow mv => decide (mv < 65536)
  | .plevelChange _ => true
  | .powerCapWindow _ => true
  | .thermalTrip zone => decide (zone < 18)
  | .memHot => true
  | .wakePin => true
  | .wakeReplay => true
  | .pwrPadRelease h => headerOk h
  | .resetAssert mask => decide (mask < 2 ^ 20)
  | .resetL0 i _ => decide (i = 18 ∨ i = 19)
  | .aonClk => true
  | .resetSourceRelease i => decide (i < 20)
  | .resetStage4 straps => decide (straps < 8)
  | .resetStage3 _ _ _ _ => true
  | .resetStage2 => true
  | .rstHold => true
  | .rstCtrlCold h => headerOk h
  | .rstCtrlWarm h => headerOk h
  | .mr4Poll n _ _ => stripOk n
  | .wck2dqCheck n c _ => stripOk n && decide (c < 4)
  | .lpddrScrub _ _ => true
  | .memRetireAddr h dpa => headerOk h && decide (dpa < 2 ^ 41)
  | .memStripOffline h n => headerOk h && stripOk n
  | .memStripRestore h n _ => headerOk h && stripOk n
  | .memAsRepairRow h t bank row => headerOk h && decide (t < 256 ∧ bank < 32 ∧ row < 8192)
  | .memAsRepairColumn h t bank col => headerOk h && decide (t < 256 ∧ bank < 32 ∧ col < 8192)
  | .asColumnRepair t => tileOk t
  | .sliceScrub t bank row _ => tileOk t && decide (bank < 32 ∧ row < 2048)
  | .wispPeriod => true
  | .wispRx _ => true
  | .claimMsgRx _ => true
  | .takeoverRepeat => true
  | .announceTimer => true
  | .tableReady => true
  | .redCtrlTakeover h => headerOk h
  | .redCtrlMirrorNow h => headerOk h
  | .redAccEntryWrite h v => headerOk h && decide (v < 2 ^ 64)
  | .mirrorPassStart => true
  | .mirrorCommit => true
  | .mirrorCommitRx => true
  | .mirrorUnitRx => true
  | .supSwitchover _ => true
  | .supSwitchback => true
  | .standbySelftest _ => true
  | .probationRuntime => true
  | .probationExpiry => true
  | .supSave h => headerOk h
  | .smbusStatus => true
  | .smbusWake => true
  | .smbusWarmReset _ => true
  | .smbusColdReset _ => true
  | .ownerInstall _ => true
  | .ownerInstallChecked => true
  | .ownerClear => true
  | .recoveryReq => true
  | .eventSubmit code source payload => decide (code < 65536 ∧ source < 65536 ∧ payload.length ≤ 28)
  | .recordWrite => true
  | .coalesceWindowEnd => true
  | .flashCopy _ => true
  | .evtHealth => true
  | .queueEntryCompletion t _ k _ => tileOk t && decide (k < 4)
  | .markerLockGained i => laneOk i
  | .chunkStaged d n => descOk d && u32 n
  | .vbusRecovered _ => true
  | .vinInRange _ => true
  | .inletHot _ => true
  | .commandHoldExpiry => true

end Sys2Proof
end

