-- ==== Sys2Proof/Tests/Slice0.lean ====
section
/-!
SUPPORT. The model's own tests: ill-formed commands that WellFormed refuses; words and addresses
written out from the spec's encodings; results of single steps that the spec's own examples or
tables give; and, for each statement with hypotheses, a state and operands that meet them.
-/

namespace Sys2Proof.Tests

open Sys2Proof Sys2Proof.Machine

set_option Elab.async false

/-! ### WellFormed refuses an operand out of its range -/

/-- A header of port 0, session 1, sequence number 1. -/
def hdr : Header := ⟨0, 0, 1, 1, 0, 0⟩

theorem test_wf_port : (Instr.portLinkUp 7).wf = true ∧ (Instr.portLinkUp 8).wf = false := by decide
theorem test_wf_tile : (Instr.nop 155).wf = true ∧ (Instr.nop 156).wf = false := by decide
theorem test_wf_word : (Instr.bulkDone (2 ^ 32 - 1)).wf = true ∧ (Instr.bulkDone (2 ^ 32)).wf = false := by decide
theorem test_wf_descriptor : (Instr.wsePassBegin 1023).wf = true ∧ (Instr.wsePassBegin 1024).wf = false := by decide
theorem test_wf_object : (Instr.syncValueWrite hdr 16383 0).wf = true ∧ (Instr.syncValueWrite hdr 16384 0).wf = false := by decide
theorem test_wf_context : (Instr.collTimeout 15).wf = true ∧ (Instr.collTimeout 16).wf = false := by decide
theorem test_wf_lane : (Instr.los 255).wf = true ∧ (Instr.los 256).wf = false := by decide
theorem test_wf_slot : (Instr.phaseTrigger 15).wf = true ∧ (Instr.phaseTrigger 16).wf = false := by decide
theorem test_wf_module : (Instr.nakTimer 0 65535).wf = true ∧ (Instr.nakTimer 0 65536).wf = false := by decide
theorem test_wf_laser :
    (Instr.plannedSwap 7 35).wf = true ∧ (Instr.plannedSwap 8 0).wf = false ∧ (Instr.plannedSwap 0 36).wf = false := by decide
theorem test_wf_engine : (Instr.marTick 8 [] []).wf = true ∧ (Instr.marTick 9 [] []).wf = false := by decide
theorem test_wf_strip : (Instr.mr4Poll 15 true false).wf = true ∧ (Instr.mr4Poll 16 true false).wf = false := by decide
theorem test_wf_domain : (Instr.delayReq 1).wf = true ∧ (Instr.delayReq 2).wf = false := by decide
theorem test_wf_header : (Instr.timeSet hdr).wf = true ∧ (Instr.timeSet { hdr with port := 8 }).wf = false := by decide
theorem test_wf_payload :
    (Instr.regRead hdr (List.replicate 8 0)).wf = true ∧ (Instr.regRead hdr (List.replicate 8201 0)).wf = false := by
  decide +kernel
theorem test_wf_burst : (Instr.osumBurstStart 3).wf = true ∧ (Instr.osumBurstStart 4).wf = false := by decide

/-! ### Encodings -/

/-- R111: the word 0x9108861A00000040 is MMA with D 1, A 2, B 3, X 0x1A and 64 blocks. -/
theorem test_decode_mma : insnOf 0x9108861A00000040#64 = ⟨0x91, 1, 2, 3, 0x1A, 0x40⟩ := by decide

/-- R112: the all-zero word, a word of an opcode of no instruction and a word with a bit set in an
unused field are no instructions; NOP is. -/
theorem test_decode_illegal :
    insnOk (insnOf 0x0000000000000000#64) = false ∧ insnOk (insnOf 0xFF00000000000000#64) = false ∧
    insnOk (insnOf 0x0100000000000001#64) = false ∧ insnOk (insnOf 0x0100000000000000#64) = true := by decide

/-! ### States -/

/-- A module that has come up: no reset is in progress, firmware runs, port 0 is up and session 1 is
open. -/
def live : State :=
  { State.reset with
    rst := { State.reset.rst with level := 0, point := 0, ready := true, rstOut := false }
    fw := { State.reset.fw with running := true }
    pwr := { State.reset.pwr with applied := true }
    host := { State.reset.host with
      ports := ⟨true, true, true, true⟩ :: List.replicate 7 {}, open_ := true, session := 1, lostA := false } }

/-- A state whose host interface and controllers stand as those of `live`. -/
def LikeLive (s : State) : Prop :=
  s.host = live.host ∧ s.rst = live.rst ∧ s.fw = live.fw ∧ s.pwr = live.pwr ∧ s.red = live.red

/-- In such a state every command of the table with a length that its format admits is executed as it
arrives. -/
theorem admitted (s : State) (c : HostCmd) (i : CmdInfo) (hs : LikeLive s) (hi : cmdInfo c.opcode = some i)
    (hl : i.sized c.payload.length = true) : Admitted s hdr c := by
  obtain ⟨h1, h2, h3, h4, h5⟩ := hs
  have hp : portUp s 0 = true := by rw [portUp, h1]; rfl
  have hv : hostServes s = true := by rw [hostServes, h2]; rfl
  have hn : notRunning s c.opcode = false := by rw [notRunning, h4]; rfl
  have hc : staleClaim hdr c.opcode s = false := by rw [staleClaim, inPair, h5]; rfl
  have hh : s.host.held = [] ∧ s.host.done = [] ∧ s.host.started = [] := by rw [h1]; exact ⟨rfl, rfl, rfl⟩
  refine ⟨⟨by decide, hp, hv, ?_, ?_, by decide, ?_, ?_, ?_, ?_, ?_, ?_⟩, ?_, ?_, ?_, hn, i, hi, fun _ => hc, hl, ?_⟩
  · rw [h1]; rfl
  · rw [h1]; rfl
  · rw [h1]; rfl
  · rw [h1]; rfl
  · rw [hh.1]; simp
  · rw [hh.2.1]; simp
  · rw [hh.2.2]; simp
  · exact fun _ => hh.2.2
  · rw [h2]; rfl
  · rw [h3]; rfl
  · rw [h3]; rfl
  · rw [hh.2.2]; simp

/-- The word of an instruction (R111). -/
def wordOf (op d a b x imm : Nat) : W64 :=
  BitVec.ofNat 64 (op * 2 ^ 56 + d * 2 ^ 51 + a * 2 ^ 46 + b * 2 ^ 41 + x * 2 ^ 32 + imm)

/-- A RUNNING tile, logical tile 0, with 32 bytes of code. -/
def runner : Tile := { code := .running, logical := some 0, codeLen := 32 }

/-- Physical tile 0 is `x` and its first word is `w`; a job runs on it. -/
def withCode (x : Tile) (w : W64) : State :=
  { live with
    tiles := live.tiles.set 0 x
    mem := { live.mem with cells := memWrite [] (scratchBase 0) (leBytes 8 w.toNat) }
    job := { live.job with loaded := true, launched := true, tiles := [⟨0, 0, 32, 0, 0⟩], groups := [(0, [0])] } }

/-- What `Issues` and `NextInCode` ask of tile 0 of a state. -/
def issuesB (s : State) (w : W64) : Bool :=
  let x := tileAt s 0
  decide (0 < s.tiles.length ∧ x.code = .running ∧ x.wait = .none ∧ x.trap = none ∧ s.pwr.tripped = false ∧
    x.pc % 8 = 0 ∧ x.pc + 8 < x.codeLen ∧ x.codeLen ≤ scratchSize) &&
  (wordRange (scratchBase 0 + x.pc) 8).all (fun k => decide (Cells.get .clean s.mem.words k = .clean)) &&
  decide (codeWord s 0 x.pc = w) && insnOk (insnOf w) && registersFree x (insnOf w)

theorem issues_of {s : State} {w : W64} (h : issuesB s w = true) :
    Issues s 0 (insnOf w) ∧ NextInCode s 0 := by
  simp only [issuesB, Bool.and_eq_true, decide_eq_true_eq, List.all_eq_true] at h
  obtain ⟨⟨⟨⟨⟨h1, h2, h3, h4, h5, h6, h7, h8⟩, h9⟩, h10⟩, h11⟩, h12⟩ := h
  exact ⟨⟨w, ⟨h1, h2, h3, h4, h5, h6, Nat.le_of_lt h7, h8, h9, h10⟩, rfl, h11, h12⟩, h7⟩

/-- Words of tile instructions with operands that each admits. -/
def words : List W64 :=
  [wordOf 0x01 0 0 0 0 0, wordOf 0x02 0 0 0 0 0, wordOf 0x03 0 0 0 0 5, wordOf 0x04 0 0 0 15 0, wordOf 0x05 1 7 0 0 0,
   wordOf 0x06 0 1 0 0 0, wordOf 0x06 5 1 0 0 0, wordOf 0x07 0 1 0 0 0, wordOf 0x2E 1 0 0 0 7] ++
  (List.range 14).map (fun k => wordOf (0x10 + k) 1 2 3 0 0) ++
  (List.range 14).map (fun k => wordOf (0x20 + k) 1 2 0 0 0xFFFFFFFF) ++
  [wordOf 0x30 1 2 3 0 0, wordOf 0x31 1 2 0 0 8, wordOf 0x32 1 0 0 0 8, wordOf 0x33 1 0 0 0 8, wordOf 0x34 1 2 0 1 0,
   wordOf 0x35 1 2 0 0 0, wordOf 0x38 1 2 0 0 64, wordOf 0x38 1 2 0 0 66, wordOf 0x39 0 2 1 0 64, wordOf 0x39 0 2 1 0 66,
   wordOf 0x3A 1 2 0 0 64, wordOf 0x3A 1 2 0 0 68, wordOf 0x3B 0 2 1 0 64, wordOf 0x3B 0 2 1 0 68] ++
  (List.range 6).map (fun k => wordOf (0x40 + k) 0 1 2 0 1) ++
  [wordOf 0x46 0 0 0 0 2, wordOf 0x47 1 0 0 0 2, wordOf 0x48 0 1 0 0 0] ++
  (List.range 5).map (fun k => wordOf (0x60 + k) 1 2 3 0 0) ++ [wordOf 0x65 1 2 3 0 0] ++
  (List.range 9).map (fun k => wordOf (0x66 + k) 1 2 3 0 0) ++
  (List.range 6).map (fun k => wordOf (0x70 + k) 1 2 0 0 0) ++
  [wordOf 0x76 1 2 0 0 0, wordOf 0x77 1 2 0 0 0, wordOf 0x78 1 2 0 0 0, wordOf 0x7A 1 2 0 0 64, wordOf 0x7B 0 2 1 0 64,
   wordOf 0x7C 0 2 1 1 64, wordOf 0x7D 1 2 0 1 64, wordOf 0x90 0 1 2 0 0, wordOf 0x91 1 2 3 5 1, wordOf 0x93 1 0 0 0 0,
   wordOf 0x94 0 2 1 1 0, wordOf 0x95 1 1 2 0 0, wordOf 0x96 1 1 2 0 0, wordOf 0xA0 3 1 2 0 0, wordOf 0xA1 3 1 2 0 0,
   wordOf 0xB0 0 0 0 0 0, wordOf 0xB1 1 0 0 0 0, wordOf 0xB2 0 0 0 0 0, wordOf 0xC0 0 0 1 0 9, wordOf 0xC1 0 0 1 0 9,
   wordOf 0xC2 1 0 0 1 9, wordOf 0xC3 0 0 1 0 9, wordOf 0xD0 0 1 2 0 3,
   wordOf 0xD1 3 1 2 0 0, wordOf 0xD2 0 0 1 0 0]

/-- Every instruction of the tile has a word that tile 0 issues (hypotheses of the statements about
the scalar core and about entries that enter a queue). -/
theorem test_every_instruction_issues : words.all (fun w => issuesB (withCode runner w) w) = true := by decide +kernel

/-- The scalar core of tile 0 stands before the word, whatever its operands: one word as an instance. -/
theorem test_scalar_arithmetic_meets :
    Issues (withCode runner (wordOf 0x10 1 2 3 0 0)) 0 (insnOf (wordOf 0x10 1 2 3 0 0)) ∧
    NextInCode (withCode runner (wordOf 0x10 1 2 3 0 0)) 0 := issues_of (by decide +kernel)

/-- R124: a JR to 12, which is no multiple of 8, and one to 32, beyond the code region. -/
theorem test_branches_and_jumps_meets :
    Issues (withCode { runner with s := [(1, 12#32)] } (wordOf 0x48 0 1 0 0 0)) 0 (insnOf (wordOf 0x48 0 1 0 0 0)) ∧
    Issues (withCode { runner with s := [(1, 32#32)] } (wordOf 0x48 0 1 0 0 0)) 0 (insnOf (wordOf 0x48 0 1 0 0 0)) ∧
    branchTarget runner (insnOf (wordOf 0x46 0 0 0 0 2)) = 16 ∧ branchTarget runner (insnOf (wordOf 0x46 0 0 0 0 0xFFFFFFFF)) = -8 :=
  ⟨(issues_of (by decide +kernel)).1, (issues_of (by decide +kernel)).1, by decide, by decide⟩

/-- SEED with no stochastic entry waiting, and GETC of c2 on logical tile 0. -/
theorem test_register_moves_meets :
    (∀ e ∈ allEntries (tileAt (withCode runner (wordOf 0x07 0 1 0 0 0)) 0), stochastic (insnOf e.word) = false) ∧
    (tileAt (withCode runner (wordOf 0x05 1 2 0 0 0)) 0).logical = some 0 := by decide +kernel

/-- LW of scratch at 64 and SW there; LW at 66; SW at an address of no memory. -/
theorem test_loads_and_stores_meets :
    let s := withCode runner (wordOf 0x38 1 2 0 0 64)
    let s2 := withCode runner (wordOf 0x39 0 2 1 0 66)
    let s3 := withCode runner (wordOf 0x3B 0 2 1 0 scratchSize)
    (strike [] s = s ∧ Issues s 0 (insnOf (wordOf 0x38 1 2 0 0 64)) ∧ NextInCode s 0 ∧
      (effAddr (tileAt s 0) (insnOf (wordOf 0x38 1 2 0 0 64))).toNat = 64 ∧ Readable s 0 64 4 ∧ Writable s 0 64 4) ∧
    (Issues s2 0 (insnOf (wordOf 0x39 0 2 1 0 66)) ∧ NextInCode s2 0 ∧
      (effAddr (tileAt s2 0) (insnOf (wordOf 0x39 0 2 1 0 66))).toNat = 66) ∧
    (Issues s3 0 (insnOf (wordOf 0x3B 0 2 1 0 scratchSize)) ∧ NextInCode s3 0 ∧
      (effAddr (tileAt s3 0) (insnOf (wordOf 0x3B 0 2 1 0 scratchSize))).toNat = scratchSize ∧
      placeOf s3 0 scratchSize 8 = .unmapped) := by
  refine ⟨⟨rfl, (issues_of (by decide +kernel)).1, (issues_of (w := wordOf 0x38 1 2 0 0 64) (by decide +kernel)).2, by decide +kernel,
    Or.inl ⟨0, 64, by decide +kernel, Or.inl rfl, ?_⟩, Or.inl ⟨0, 64, by decide +kernel, by decide +kernel, Or.inl rfl, ?_⟩⟩,
    ⟨(issues_of (by decide +kernel)).1, (issues_of (w := wordOf 0x39 0 2 1 0 66) (by decide +kernel)).2, by decide +kernel⟩,
    ⟨(issues_of (by decide +kernel)).1, (issues_of (w := wordOf 0x3B 0 2 1 0 scratchSize) (by decide +kernel)).2, by decide +kernel,
      by decide +kernel⟩⟩
  all_goals
    unfold CleanWords
    decide +kernel

/-- HALT with no entry pending, and an exception that has been raised. -/
theorem test_tile_stops_meets :
    let x := { runner with wait := .halt }
    let y := { runner with wait := .stop, trap := some ⟨3, 0, 8, 66, 0⟩ }
    allEntries (tileAt (withCode x 0#64) 0) = [] ∧ (tileAt (withCode x 0#64) 0).wait = .halt ∧
    (tileAt (withCode x 0#64) 0).trap = none ∧ (tileAt (withCode y 0#64) 0).trap = some ⟨3, 0, 8, 66, 0⟩ ∧
    jobRunning (withCode y 0#64) = true ∧ switchBusy (withCode y 0#64) = false := by decide +kernel

/-- R111, R112: the all-zero word is fetched and is no instruction. -/
theorem test_illegal_word_meets : Fetches (withCode runner 0#64) 0 0#64 ∧ insnOk (insnOf 0#64) = false := by
  unfold Fetches; decide +kernel

/-- A full vector queue. -/
theorem test_queued_instructions_meets :
    (queueGet { runner with vq := List.replicate 16 ⟨wordOf 0x60 1 2 3 0 0, 0, 0, false, false⟩ } .vector).length = 16 := by decide

/-- A tile with one entry of its queue, which has started. -/
def running (u : TileUnit) (w : W64) : State := withCode (queuePut runner u [⟨w, 0, 0, false, false⟩]) 0#64

/-- What `EntryRuns` asks of entry 0 of tile 0. -/
def entryB (s : State) (u : TileUnit) (w : W64) : Bool :=
  decide (0 < s.tiles.length ∧ (tileAt s 0).code = .running ∧ s.pwr.tripped = false ∧
    (queueGet (tileAt s 0) u)[0]? = some ⟨w, 0, 0, false, false⟩ ∧ 0 < startedCount (tileAt s 0) u)

/-- Every matrix, vector and mover instruction runs as an entry (hypotheses of the statements about
completions). -/
theorem test_every_entry_runs :
    words.all (fun w => match queueOf (insnOf w).op with
      | some .fabric => true
      | some u => entryB (running u w) u w
      | none => true) = true := by decide +kernel

theorem test_entry_statements_meet (u : TileUnit) (w : W64) (h : entryB (running u w) u w = true) :
    EntryRuns (running u w) 0 u 0 ⟨w, 0, 0, false, false⟩ := by
  simpa [entryB, EntryRuns] using h

/-- VLD of 256 bytes of scratch at 64; a place for VST there. -/
theorem test_vector_memory_meets :
    let w := wordOf 0x7A 1 2 0 0 64
    let s := running .vector w
    EntryRuns s 0 .vector 0 ⟨w, 0, 0, false, false⟩ ∧ strike [] s = s ∧ (effAddr (tileAt s 0) (insnOf w)).toNat = 64 ∧
    Readable s 0 64 256 ∧ Writable s 0 64 256 ∧ (vGet (tileAt s 0) 1).length = 64 := by
  refine ⟨test_entry_statements_meet _ _ (by decide +kernel), rfl, by decide +kernel,
    Or.inl ⟨0, 64, by decide +kernel, Or.inl rfl, ?_⟩, Or.inl ⟨0, 64, by decide +kernel, by decide +kernel, Or.inl rfl, ?_⟩,
    by decide +kernel⟩
  all_goals
    unfold CleanWords
    decide +kernel

/-- VPACK of zeros in B8 takes 72 bytes, and sets no flag. -/
theorem test_vpack_meets :
    let w := wordOf 0x7C 0 2 1 1 64
    let s := running .vector w
    let r := packLanes (insnOf w) (vGet (tileAt s 0) 1) (tileAt s 0).srng
    EntryRuns s 0 .vector 0 ⟨w, 0, 0, false, false⟩ ∧ r.1.length = 2 * fmtBytes 1 ∧ r.2.1 = 0#6 ∧ (insnOf w).x % 4 ≠ 0 :=
  ⟨test_entry_statements_meet _ _ (by decide +kernel), by decide +kernel⟩

/-- R127: an MMA of one block a row, both operands at address 0 of scratch, with strides of 0. -/
theorem test_matrix_multiply_meets :
    let w := wordOf 0x91 1 2 3 5 1
    let s := running .matrix w
    EntryRuns s 0 .matrix 0 ⟨w, 0, 0, false, false⟩ ∧ strike [] s = s ∧ (insnOf w).op = 0x91 ∧ bitOf (insnOf w).x 4 = false ∧
    (insnOf w).x % 4 = 1 ∧ (insnOf w).x / 4 % 4 = 1 ∧ (aGet (tileAt s 0) 2).toNat = 0 ∧ (aGet (tileAt s 0) 3).toNat = 0 ∧
    (tileAt s 0).rowStride.toNat = 0 ∧ (tileAt s 0).colStride.toNat = 0 ∧
    (∀ r < 128, ∀ j < 1, OperandAt s 0 (operandAddr 0 0 (fmtBytes 1) r j) (fmtBytes 1) true) ∧
    (∀ c < 64, ∀ j < 1, OperandAt s 0 (operandAddr 0 0 (fmtBytes 1) c j) (fmtBytes 1) false) := by
  have h : ∀ b, OperandAt (running .matrix (wordOf 0x91 1 2 3 5 1)) 0 0 (fmtBytes 1) b := by
    intro b
    refine ⟨Or.inl ⟨0, 0, by decide +kernel, Or.inl rfl, ?_⟩, Or.inl ⟨0, by decide +kernel⟩⟩
    unfold CleanWords
    decide +kernel
  refine ⟨test_entry_statements_meet _ _ (by decide +kernel), rfl, by decide, by decide, by decide, by decide,
    by decide +kernel, by decide +kernel, by decide +kernel, by decide +kernel, ?_, ?_⟩ <;>
  · intro r _ j hj
    obtain rfl : j = 0 := by omega
    simpa [operandAddr] using h _

/-- R131: a MOV of 16 bytes from 64 to 128 of scratch. -/
theorem test_mover_copies_meets :
    let w := wordOf 0xA1 3 1 2 2 9
    let s := withCode { runner with s := [(3, 16#32)], a := [(1, 64#48), (2, 128#48)], oq := [⟨w, 0, 0, false, false⟩] } 0#64
    EntryRuns s 0 .mover 0 ⟨w, 0, 0, false, false⟩ ∧ strike [] s = s ∧ (sGet (tileAt s 0) 3).toNat = 16 ∧
    (aGet (tileAt s 0) 1).toNat = 64 ∧ (aGet (tileAt s 0) 2).toNat = 128 ∧ bitOf (insnOf w).x 0 = false ∧
    Readable s 0 64 16 ∧ keyOf s 0 64 16 = some (scratchBase 0 + 64) ∧
    Writable s 0 128 16 ∧ keyOf s 0 128 16 = some (scratchBase 0 + 128) := by
  refine ⟨by unfold EntryRuns; decide +kernel, rfl, by decide +kernel, by decide +kernel, by decide +kernel, by decide,
    Or.inl ⟨0, 64, by decide +kernel, Or.inl rfl, ?_⟩, by decide +kernel,
    Or.inl ⟨0, 128, by decide +kernel, by decide +kernel, Or.inl rfl, ?_⟩, by decide +kernel⟩
  all_goals
    unfold CleanWords
    decide +kernel

/-- SYRD of object 16,384, by an index register that holds 1; SYADD of object 9; a wait that has ended. -/
theorem test_sync_instructions_meets :
    let w := wordOf 0xC2 1 1 0 0 16383
    (Issues (withCode { runner with s := [(1, 1#32)] } w) 0 (insnOf w) ∧
      (insnOf w).imm + (sGet { runner with s := [(1, 1#32)] } (insnOf w).a).toNat = 16384) ∧
    (Issues (withCode runner (wordOf 0xC0 0 0 1 0 9)) 0 (insnOf (wordOf 0xC0 0 0 1 0 9)) ∧
      NextInCode (withCode runner (wordOf 0xC0 0 0 1 0 9)) 0 ∧ allEntries (tileAt (withCode runner (wordOf 0xC0 0 0 1 0 9)) 0) = []) ∧
    (tileAt (withCode { runner with wait := .syncDone } 0#64) 0).wait = .syncDone :=
  ⟨⟨(issues_of (by decide +kernel)).1, by decide⟩,
    ⟨(issues_of (by decide +kernel)).1, (issues_of (w := wordOf 0xC0 0 0 1 0 9) (by decide +kernel)).2, by decide +kernel⟩,
    by decide +kernel⟩

/-- A job of one tile with one WEIGHT stream of its group, led by it, of two buffers and four chunks of
one block. -/
def desc0 : StreamDesc := ⟨1, 0, 0, 1, 1, 2, 2, 1024, 4, 1, 0x8009, 0, 0, 0⟩

/-- `withCode`, with that stream and its state at run time. -/
def withDesc (x : Tile) (w : W64) (d : StreamDesc) (st : Stream) : State :=
  let s := withCode x w
  { s with job := { s.job with streams := [d] }, wse := { s.wse with streams := Cells.set {} [] 0 st, order := 1 } }

theorem test_stream_instructions_meets :
    let full : Stream := { bufs := [(0, ⟨.full, none⟩)] }
    let s := withDesc runner (wordOf 0xB1 1 0 0 0 0) desc0 full
    issuesB s (wordOf 0xB1 1 0 0 0 0) = true ∧ streamDesc s 0 = some desc0 ∧ streamAt s 0 = full ∧
    0 ∈ groupOf s 0 ∧ (bufAt full 0 (nextTaken desc0 full 0)).code = .full ∧ desc0.leader = 0 := by decide +kernel

/-- The first pass of the queue, with a context and no chunk yet; and with one staged. -/
theorem test_weight_pass_meets :
    let st : Stream := { pass := some { order := 0 } }
    let s := withDesc runner 0#64 desc0 st
    streamDesc s 0 = some desc0 ∧ streamAt s 0 = st ∧ (∀ o ∈ waitingOrders s, 0 ≤ o) ∧ 0 ∉ ctxUsed s ∧
    (let st2 : Stream := { pass := some { ctx := some 0, staged := [⟨[], none, 0⟩], read := 1 } }
     let s2 := withDesc runner 0#64 desc0 st2
     streamAt s2 0 = st2 ∧ (∀ l ∈ groupOf s2 0, (bufAt st2 l 0).code = .empty) ∧ membersHalted s2 desc0 = false ∧
     physOf s2 0 = some 0 ∧ serving (tileAt s2 0) = true ∧ bufferOverlap 0 0 0 desc0 0 s2 = []) := by decide +kernel

theorem test_chunk_is_staged_meets :
    let p : Pass := { ctx := some 0 }
    let st : Stream := { pass := some p }
    let s := { withDesc runner 0#64 desc0 st with
      mem := { live.mem with strips := List.replicate 16 { code := .online } } }
    streamDesc s 0 = some desc0 ∧ streamAt s 0 = st ∧ p.read < 4 ∧ p.staged.length < desc0.prefetch ∧
    stagedBytes s + 64 * 1 * fmtBytes 1 ≤ 8388608 ∧ p.lost = [] ∧ (stripAt s (nextStrip desc0 p)).code ≠ .training ∧
    bitOf desc0.format 4 = false ∧ bitOf desc0.format 2 = false ∧ bitOf desc0.format 3 = false ∧
    desc0.stripOff + Cells.get 0 p.offs (nextStrip desc0 p) + 64 * 1 * fmtBytes 1 ≤ stripSize ∧
    CleanGrans s (nextStrip desc0 p * stripSize) (64 * 1 * fmtBytes 1) := by
  unfold CleanGrans; decide +kernel

theorem test_spill_and_fill_meets :
    let d : StreamDesc := { desc0 with kind := 2, len := 64 }
    let s := { withDesc runner 0#64 d { pass := some { ctx := some 0 } } with
      mem := { live.mem with strips := List.replicate 16 { code := .online } } }
    streamDesc s 0 = some d ∧ (streamAt s 0).pass = some { ctx := some 0 } ∧ spillHeld d s = false ∧ groupOf s 0 = [0] ∧
    physOf s 0 = some 0 ∧ serving (tileAt s 0) = true ∧ d.sliceOff + d.len ≤ sliceSize ∧ spillDpa d 0 + d.len ≤ ddrSize ∧
    CleanWords s (sliceBase 0 + d.sliceOff) d.len ∧ CleanGrans s (spillDpa d 0) d.len := by
  unfold CleanWords CleanGrans; decide +kernel

/-- A tile whose self-test is running, a tile that runs a job, and a spare. -/
theorem test_tile_life_meets :
    (tileAt live 0).code = .testing ∧ (tileAt live 0).testStopped = false ∧ (sliceAt live 0).bistFail = false ∧
    live.pwr.trans = none ∧ live.rst.level = 0 ∧
    (let s := withCode runner 0#64
     s.tiles.length = 156 ∧ jobRunning s = true ∧ inJob s 0 = true ∧ s.job.ending = none) ∧
    (let s := { live with tiles := live.tiles.set 12 { code := .spare, logical := none }, time := { live.time with ticks := 4320000000000 } }
     (tileAt s 12).code = .spare ∧ (tileAt s 12).lastTest + max 1 s.fw.tilePolicy.spareHours * 3600000000000 ≤ runNs s ∧ ∀ x ∈ s.tiles, ¬ (x.code = .testing ∧ x.test = .spare)) ∧
    regGet { live with regs := [(regAddr rTileStallLimit 0 [], 1#64)] } rTileStallLimit 0 [] ≠ 0 := by decide +kernel

/-! ### Light -/

/-- `live` with laser `n` of chiplet 0 replaced. -/
def withLaser (n : Nat) (x : Laser) (s : State) : State :=
  { s with light := s.light.set 0 { chipAt s 0 with lasers := (chipAt s 0).lasers.set n x } }

/-- `live` with fibre 0 of chiplet 0 replaced. -/
def withEye (x : Eye) (s : State) : State :=
  { s with light := s.light.set 0 { chipAt s 0 with eyes := (chipAt s 0).eyes.set 0 x } }

/-- A lit laser of slot 0 and channel 3. -/
def lit0 : Laser := { code := .lit, slot := some 0, channel := 3, isOpen := true, passed := true }

theorem chipThere_live : ChipThere live 0 := by unfold ChipThere; decide +kernel

theorem test_referee_judges_meets :
    let s := withLaser 0 lit0 live
    ChipThere s 0 ∧ s.pwr.current < 3 ∧ laserAt s 0 0 = lit0 ∧ busOf lit0 = 0 ∧
    100 * max 5 (min 10 (regField s rFabLightPolicy 0 [] 19 16)) = 1000 ∧
    SlotsApart s 0 ∧ readOf [⟨0, 1, 3, 1000⟩] 0 = ⟨0, 1, 3, 1000⟩ ∧
    (∃ r : LaserRead, r = ⟨0, 1, 3, 1000⟩ ∧ r.offset.natAbs ≤ 1000) ∧
    (∃ r : LaserRead, r = ⟨0, 1, 3, -1001⟩ ∧ 1000 < r.offset.natAbs) := by
  unfold ChipThere SlotsApart
  exact ⟨by decide +kernel, by decide +kernel, by decide +kernel, by decide, by decide +kernel, by decide +kernel, by decide, ⟨_, rfl, by decide⟩, ⟨_, rfl, by decide⟩⟩

theorem test_acquisition_ends_meets :
    (let s := withLaser 0 { lit0 with code := .acquire, isOpen := false }
      { live with fab := { live.fab with lanes := live.fab.lanes.set 0 { code := .idle } } }
     ChipThere s 0 ∧ (laserAt s 0 0).code = .acquire ∧ s.rst.level ≠ 2 ∧ laneWants s (laneOf 0 0) = true ∧
      (chipAt s 0).busOut = [] ∧ (laserAt s 0 0).safeOut = false ∧ (eyeAt s 0 0).code = .normal ∧ dimHeld s (laneOf 0 0) = false ∧ (laserAt s 0 0).tries = [] ∧
      2 ≤ regField s rFabLightPolicy 0 [] 15 13) ∧
    (let s := { live with time := { live.time with ticks := 4320000000000 } }
     ChipThere s 0 ∧ (laserAt s 0 32).code = .spare ∧ (laserAt s 0 32).lastCheck + 24 * 3600000000000 ≤ runNs s ∧
      ∀ m < 36, (laserAt s 0 m).prior = none) ∧
    (let s := withLaser 33 { code := .acquire, prior := some .worn } live
     (laserAt s 0 33).code = .acquire ∧ (laserAt s 0 33).prior ≠ none) ∧
    (let s := { live with light := live.light.set 0 { chipAt live 0 with rings := (chipAt live 0).rings.set 5 { code := .scan } } }
     ChipThere s 0 ∧ (ringAt s 0 5).code = .scan) := by
  unfold ChipThere; decide +kernel

theorem test_laser_swaps_meets :
    (let s := withLaser 0 { lit0 with bias := 94 } live
     ChipThere s 0 ∧ (laserAt s 0 0).bias = 94 ∧ (laserAt s 0 0).swapDue = false ∧ spareLasers s 0 = [32, 33, 34, 35]) ∧
    (let s := withLaser 32 { code := .parked, channel := 3, passed := true, forSlot := some 0 }
      (withLaser 0 { lit0 with bias := 95, swapDue := true, swapTo := some 32 }
        { live with fab := { live.fab with lanes := live.fab.lanes.set 0 { code := .idle, channel := 3 } } })
     ChipThere s 0 ∧ swapReady s 0 0 (laneAt s (laneOf 0 0)).channel = true ∧ (laneAt s (laneOf 0 0)).buf = []) := by
  unfold ChipThere; decide +kernel

theorem test_eye_safety_meets :
    ChipThere live 0 ∧ (eyeAt live 0 0).code = .normal ∧ rxLossSeen live 0 = true ∧
    (let s := withEye { code := .safe, req := true } { live with time := { live.time with ticks := 50000000 } }
     ChipThere s 0 ∧ (eyeAt s 0 0).code = .safe ∧ holdMet s 0 0 = true ∧ (eyeAt s 0 0).req = true) ∧
    (let s := withEye { code := .safe, req := true } { live with time := { live.time with ticks := 49999999 } }
     holdMet s 0 0 = false) ∧
    (let s := withEye { code := .restoring } { live with time := { live.time with ticks := 50000 } }
     (eyeAt s 0 0).code = .restoring ∧ (eyeAt s 0 0).since + 1000000 ≤ runNs s) := by
  unfold ChipThere; decide +kernel

/-! ### The fabric -/

theorem fabThere_live : FabThere live := by unfold FabThere; decide +kernel

/-- A unit of four bytes to a sync object. -/
def unit0 : OutUnit := ⟨{ kind := 2, stream := 0, opseq := 0, addr := 1, object := 15360 }, .tile 0 0⟩

/-- A plan of one phase over plane 0, and its slot in force with one set, to module 7. -/
def phase0 : Phase :=
  { trig := 1, object := 3, step := 1, value := 1, osum := 0, lanes := some 7 :: List.replicate 255 none,
    rxs := some 25 :: List.replicate 255 none, spine := List.replicate 32 none }
def plan0 : Plan := { loop := false, mask := 1, period := 0, id := 9, phases := [phase0, phase0] }
def slot0 : PlanSlot := { code := .armed, plan := some plan0, sets := [{ dest := 7, opened := true, queue := [unit0] }] }

/-- The fabric with that slot: lane 0 and receive channel 0 are in the set, and lane 0 is lit. -/
def withPlan (p : PlanSlot) : State :=
  withLaser 0 { lit0 with channel := 7 }
    { live with fab := { live.fab with
      slots := live.fab.slots.set 0 p
      lanes := live.fab.lanes.set 0 { code := .inSet, channel := 7, dest := 7, slot := some 0 }
      rxs := live.fab.rxs.set 0 { code := .inSet, channel := 25, source := 7, slot := some 0, lock := true } } }

theorem test_lane_frames_meets :
    let s := withPlan slot0
    FabThere s ∧ laneLit s 0 = true ∧ bitOf (osumMask s) 0 = false ∧ discovering s 0 = false ∧
    setAt s 0 7 false = some { dest := 7, opened := true, queue := [unit0] } ∧ (laneAt s 0).code = .inSet ∧
    laneHeld s 0 = false ∧ peerHolds s 0 7 false = false ∧ turnLane s 0 7 false { dest := 7, opened := true, queue := [unit0] } = some 0 ∧
    windowOpen s 0 7 false { dest := 7, opened := true, queue := [unit0] } = true ∧ fitUnits 1024 [unit0] = [unit0] ∧
    (laneAt (withLaser 0 lit0 live) 0).slot = none ∧ laneLit (withLaser 0 lit0 live) 0 = true := by
  unfold FabThere; decide +kernel

theorem test_receive_channel_faults_meets :
    let s := withPlan slot0
    FabThere s ∧ (rxAt s 0).code = .inSet ∧ (rxAt s 0).held = false ∧ bitOf (osumMask s) 0 = false ∧ rxWaits s 0 = false ∧
    (rxAt s 0).lock = true ∧ darkOpen s 0 = false ∧
    (let s3 := { s with fab := { s.fab with rxs := s.fab.rxs.set 0 { rxAt s 0 with uncorr := List.replicate 16 0 } } }
     fabPolicy s3 7 4 ≤ ((rxAt s3 0).uncorr.filter (fun t => decide (nowNs s3 < t + 1000000))).length) ∧
    (let s2 := { live with fab := { live.fab with rxs := live.fab.rxs.set 0 { code := .listen } } }
     FabThere s2 ∧ (rxAt s2 0).code = .listen ∧ (rxAt s2 0).lock = false) := by
  unfold FabThere; decide +kernel

theorem test_lane_set_recovery_meets :
    (let s := withPlan { slot0 with sets := [{ dest := 7, opened := true, nextLsn := 1, frames := [⟨0, 0, [unit0], none⟩], rxHeld := [(1, [])] }] }
     FabThere s ∧ (setAt s 0 7 false).map (·.frames) = some [⟨0, 0, [unit0], none⟩] ∧ (laneAt s 0).slot = some 0 ∧
      (laneAt s 0).dest = 7 ∧ (laneAt s 0).code = .inSet ∧ laneWaits s 0 = false ∧ waitsDark s 0 7 false = false ∧
      (setAt s 0 7 false).map (·.dead) = some false) ∧
    (let s0 := withPlan slot0
     let s := { s0 with fab := { s0.fab with
       lanes := s0.fab.lanes.set 0 { code := .fault, channel := 7, dest := 7, slot := some 0 }
       rxs := s0.fab.rxs.set 0 { code := .fault, source := 7, slot := some 0, lock := true } } }
     (laneAt s 0).code = .fault ∧ darkOpen s 0 = false ∧ laneWaits s 0 = false ∧ rxWaits s 0 = false ∧ laneLaser s 0 = some 0 ∧ (laserAt s (chipOf 0) 0).code = .lit ∧
      (laserAt s (chipOf 0) 0).isOpen = true ∧ (laserAt s (chipOf 0) 0).channel = (laneAt s 0).channel ∧
      (rxAt s 0).code = .fault ∧ (rxAt s 0).stuck = false ∧ (ringAt s (chipOf 0) (elemOf 0)).code ≠ .failed) := by
  unfold FabThere; decide +kernel

theorem test_discovery_runs_meets :
    (let d : Disc := { code := 1, start := 0, mask := 1 }
     d.start ≤ nowNs { live with fab := { live.fab with disc := d } }) ∧
    (let d : Disc := { code := 2, round := 7, start := 0, mask := 1 }
     let s := { live with time := { live.time with ns := 400000 }, fab := { live.fab with disc := d } }
     s.fab.disc.start + 400000 ≤ nowNs s ∧ quarantineWhy s = none) ∧
    (let d : Disc := { code := 2, round := 7, start := 0, mask := 1, heard := [{ plane := 0, channel := 3, src := 0, dest := 0, tag := 0, early := 20 }] }
     let s := { live with fab := { live.fab with disc := d } }
     quarantineWhy s = some 2) := by decide +kernel

theorem test_phase_switch_meets :
    (let s := withPlan { slot0 with fired := true }
     FabThere s ∧ (slotAt s 0).code = .armed ∧ (slotAt s 0).plan = some plan0 ∧ plan0.phases[0]? = some phase0 ∧
      (slotAt s 0).switching = none ∧ 0 ∈ planeElems plan0.mask ∧ (laneAt s 0).rel = false ∧ s.fab.spineWait = [] ∧
      setAt s 0 (laneAt s 0).dest false ≠ none ∧ bitOf (osumMask s) 0 = false ∧ darkOpen s 0 = false) ∧
    (setAt (withPlan { slot0 with switching := some (.phase 1), sets := [{ dest := 7, opened := true }] }) 0 7 false =
      some { dest := 7, opened := true }) ∧
    (let s := withPlan { slot0 with switching := some (.phase 1), sets := [{ dest := 7, opened := true, closed := true }] }
     let r := { (rxAt s 0) with ended := true }
     let s2 := { s with fab := { s.fab with rxs := s.fab.rxs.set 0 r } }
     FabThere s2 ∧ setAt s2 0 7 false = some { dest := 7, opened := true, closed := true } ∧ incomingEnded s2 0 7 = true) ∧
    (let s0 := withPlan slot0
     let s := { s0 with fab := { s0.fab with lanes := s0.fab.lanes.set 0 { code := .dark, channel := 7, slot := some 0, retune := true } } }
     laneWaits s 0 = false ∧ laneLaser s 0 = some 0 ∧ (laserAt s 0 0).channel = (laneAt s 0).channel ∧ isLit (laserAt s 0 0) = true) := by
  unfold FabThere; decide +kernel

theorem test_gaps_and_dark_windows_meets :
    (let s := { live with time := { live.time with ns := 5000 }, fab := { live.fab with
       lanes := live.fab.lanes.set 0 { code := .dark, slot := some 0, retune := true }
       rxs := live.fab.rxs.set 0 { code := .listen, slot := some 0 } } }
     (laneAt s 0).relAt + 5000 ≤ nowNs s ∧ (rxAt s 0).relAt + 5000 ≤ nowNs s ∧ (rxAt s 0).lock = false ∧
      laneWaits s 0 = false ∧ rxWaits s 0 = false ∧ darkOpen s 0 = false ∧ bitOf (osumMask s) 0 = false) ∧
    (let s := { live with fab := { live.fab with
       windows := [⟨0, 0, 1000000, false⟩]
       lanes := live.fab.lanes.set 0 { code := .inSet }, rxs := live.fab.rxs.set 0 { code := .inSet } } }
     FabThere s ∧ (laneAt s 0).code = .inSet ∧ (rxAt s 0).code = .inSet ∧ armedSlots s = []) ∧
    (let s := { live with time := { live.time with ns := 1000000 }, fab := { live.fab with windows := [⟨0, 0, 1000000, true⟩] } }
     (⟨0, 0, 1000000, true⟩ : DarkWin) ∈ s.fab.windows ∧ 1000000 ≤ nowNs s) := by
  unfold FabThere; decide +kernel

/-! ### A frame on the line

The kernel is helped to evaluate the coding of one frame: `force` evaluates a number before it is used. -/

/-- `k n`, with `n` evaluated first. -/
def force {α : Type} (n : Nat) (k : Nat → α) : α :=
  match n with
  | 0 => k 0
  | m + 1 => k (m + 1)

theorem force_eq {α : Type} (n : Nat) (k : Nat → α) : force n k = k n := by cases n <;> rfl

def foldN (f : Nat → Nat → Nat) : Nat → List Nat → Nat
  | a, [] => a
  | a, b :: bs => force (f a b) (fun c => foldN f c bs)

theorem foldN_eq (f : Nat → Nat → Nat) (a : Nat) (bs : List Nat) : foldN f a bs = bs.foldl f a := by
  induction bs generalizing a with
  | nil => rfl
  | cons b bs ih => rw [foldN, force_eq, ih, List.foldl_cons]

def mulN : Nat → Nat → Nat → Nat
  | 0, _, _ => 0
  | n + 1, a, b => force (gfDouble a) (fun c => force (b / 2) (fun d => (if b % 2 = 1 then a else 0) ^^^ mulN n c d))

theorem mulN_eq (n a b : Nat) : mulN n a b = gfMulBits n a b := by
  induction n generalizing a b with
  | zero => rfl
  | succ n ih => rw [mulN, force_eq, force_eq, ih, gfMulBits]

/-- One syndrome of a codeword at a power of alpha. -/
def synN (x : Nat) (cw : List Nat) : Nat := foldN (fun r b => mulN 8 x r ^^^ b) 0 cw

theorem synN_eq (x : Nat) (cw : List Nat) : synN x cw = cw.foldl (fun r b => gfMul x r ^^^ b) 0 := by
  simp only [synN, foldN_eq, mulN_eq, gfMul]

def crcN : Nat → Nat → Nat
  | 0, c => c
  | n + 1, c => force (crcBit (BitVec.ofNat 32 c)).toNat (fun d => crcN n d)

theorem crcN_eq (n : Nat) (c : W32) : crcN n c.toNat = (crcBits n c).toNat := by
  induction n generalizing c with
  | zero => rfl
  | succ n ih => rw [crcN, force_eq, BitVec.ofNat_toNat, BitVec.setWidth_eq, ih, crcBits]

def crcFold : Nat → List Byte → Nat
  | c, [] => c
  | c, b :: bs => force (c ^^^ b.toNat) (fun d => force (crcN 8 d) (fun e => crcFold e bs))

theorem crcFold_eq (c : W32) (bs : List Byte) :
    crcFold c.toNat bs = (bs.foldl (fun c b => crcBits 8 (c ^^^ BitVec.setWidth 32 b)) c).toNat := by
  induction bs generalizing c with
  | nil => rfl
  | cons b bs ih =>
    have h : c.toNat ^^^ b.toNat = (c ^^^ BitVec.setWidth 32 b).toNat := by
      rw [BitVec.toNat_xor, BitVec.toNat_setWidth, Nat.mod_eq_of_lt (by have := b.isLt; omega)]
    rw [crcFold, force_eq, force_eq, h, crcN_eq, ih, List.foldl_cons]

theorem scrambleFrom_twice (st : Nat) (bs : List Byte) : scrambleFrom st (scrambleFrom st bs) = bs := by
  induction bs generalizing st with
  | nil => rfl
  | cons b bs ih => simp only [scrambleFrom, ih, BitVec.xor_assoc, BitVec.xor_self, BitVec.xor_zero]

theorem scrambleFrom_length (st : Nat) (bs : List Byte) : (scrambleFrom st bs).length = bs.length := by
  induction bs generalizing st with
  | nil => rfl
  | cons b bs ih => simp only [scrambleFrom, List.length_cons, ih]

/-- R252: the header of an IDLE frame from module 7 to module 0, on plane 0 and channel 25. -/
def hdr7 : FrameHdr := { type := 0, dest := 0, src := 7, plane := 0, slot := 0, channel := 25 }

/-- The protected bytes of such a frame, as numbers. -/
def body7 : List Nat :=
  [16, 0, 0, 0, 7, 0, 0, 25] ++ List.replicate 20 0 ++ [207, 53, 136, 205] ++ List.replicate 1024 0

/-- Its ten parity bytes in each of the eight codewords, in the order of the line. -/
def parity7 : List Nat :=
  [78, 0, 0, 0, 249, 245, 106, 212, 100, 0, 0, 0, 232, 176, 10, 248, 145, 0, 0, 0, 0, 73, 195, 181, 223, 0, 0, 0, 179,
   106, 13, 8, 106, 0, 0, 0, 178, 28, 58, 140] ++
  [39, 0, 0, 0, 100, 201, 127, 82, 250, 0, 0, 0, 111, 72, 156, 165, 19, 0, 0, 0, 251, 14, 29, 155, 175, 0, 0, 0, 136, 193,
   189, 237, 127, 0, 0, 0, 160, 1, 95, 72]

/-- The frame on the line, after its marker. -/
def line7 : List Byte := List.replicate 16 0 ++ scramble ((body7 ++ parity7).map (BitVec.ofNat 8))

set_option maxRecDepth 20000 in
theorem words7_clean : (List.range 8).all (fun w => (List.range 10).all (fun j =>
    force (gfExp j) (fun x => decide (synN x (fecWord w (body7 ++ parity7)) = 0)))) = true := by decide +kernel

set_option maxRecDepth 20000 in
theorem crc7 : crcOk (body7.map (BitVec.ofNat 8)) = true := by
  have h : crcFold (0xFFFFFFFF#32).toNat ((body7.map (BitVec.ofNat 8)).take 28 ++ (body7.map (BitVec.ofNat 8)).drop 32) =
      0xFFFFFFFF - leAt (body7.map (BitVec.ofNat 8)) 28 4 := by decide +kernel
  have hl : leAt (body7.map (BitVec.ofNat 8)) 28 4 ≤ 0xFFFFFFFF := by decide +kernel
  rw [crcFold_eq] at h
  simp only [crcOk, crc32c, BitVec.toNat_not, h, decide_eq_true_eq]
  omega

theorem rsDecode_clean (cw : List Nat) (h : (List.range 10).all (fun j =>
    force (gfExp j) (fun x => decide (synN x cw = 0))) = true) : rsDecode cw = some (cw, 0) := by
  have hs : (rsSyndromes cw).all (fun x => decide (x = 0)) = true := by
    simp only [rsSyndromes, List.all_map, List.all_eq_true, Function.comp_apply, decide_eq_true_eq, force_eq, synN_eq] at h ⊢
    exact h
  simp [rsDecode, hs]

set_option maxRecDepth 20000 in
theorem words7_back :
    interleave 132 ((List.range 8).map (fun w => fecWord w (body7 ++ parity7))) = body7 := by decide +kernel

/-- Eight codewords without an error give their own bytes back. -/
theorem clean_words (ws : List (List Nat)) :
    (if (ws.map (fun c => some (c, 0))).all (·.isSome) then
      some ((interleave 132 (((ws.map (fun c => some (c, 0))).filterMap id).map (·.1))).map (BitVec.ofNat 8),
        (((ws.map (fun c => some (c, 0))).filterMap (id : Option (List Nat × Nat) → _)).map (·.2)).sum)
    else none) = some ((interleave 132 ws).map (BitVec.ofNat 8), 0) := by
  have h : (ws.map (fun c => some (c, 0))).filterMap (id : Option (List Nat × Nat) → _) = ws.map (fun c => (c, 0)) := by
    rw [List.filterMap_map, ← List.filterMap_eq_map]; rfl
  have h0 : ∀ n : Nat, (List.replicate n 0).sum = 0 := by intro n; simp
  rw [if_pos (by simp), h, List.map_map, List.map_map]
  simp [Function.comp_def, h0]

/-- The line decodes to the protected bytes, and no byte is corrected. -/
theorem test_line_decodes : takeLine (line7.drop 16) = some (body7.map (BitVec.ofNat 8), 0) := by
  have hn : ((body7 ++ parity7).map (BitVec.ofNat 8)).length = 1136 := by
    rw [List.length_map]; decide +kernel
  have hb : ((body7 ++ parity7).map (BitVec.ofNat 8)).map (·.toNat) = body7 ++ parity7 := by
    rw [List.map_map]
    have : (body7 ++ parity7).all (fun n => decide (n < 256)) = true := by decide +kernel
    rw [List.all_eq_true] at this
    conv_rhs => rw [← List.map_id (body7 ++ parity7)]
    exact List.map_congr_left (fun n h => by
      have := this n h
      simp only [decide_eq_true_eq] at this
      simp [Nat.mod_eq_of_lt this])
  have hd : line7.drop 16 = scramble ((body7 ++ parity7).map (BitVec.ofNat 8)) := by
    rw [line7, List.drop_left' (by simp)]
  have hl : (scramble ((body7 ++ parity7).map (BitVec.ofNat 8))).length = 1136 := by rw [scramble, scrambleFrom_length, hn]
  rw [takeLine, hd, padTo, List.take_append_of_le_length (by omega), ← hl, List.take_length, scramble, scramble,
    scrambleFrom_twice, fecDecode, hb]
  have hw : (List.range 8).map (fun w => rsDecode (fecWord w (body7 ++ parity7))) =
      ((List.range 8).map (fun w => fecWord w (body7 ++ parity7))).map (fun c => some (c, 0)) := by
    rw [List.map_map]
    refine List.map_congr_left (fun w h => ?_)
    have := words7_clean
    rw [List.all_eq_true] at this
    exact rsDecode_clean _ (this w h)
  simp only [hw]
  exact (clean_words _).trans (by rw [words7_back])

/-- The frame meets every check of an IDLE frame on the set of `withPlan slot0`. -/
theorem test_frame_arrives_meets :
    let s := withPlan slot0
    FabThere s ∧ (rxAt s 0).lock = true ∧ (rxAt s 0).code = .inSet ∧ (rxAt s 0).slot = some 0 ∧ (rxAt s 0).away = none ∧ bitOf (osumMask s) 0 = false ∧
    discovering s 0 = false ∧ takeLine (line7.drop 16) = some (body7.map (BitVec.ofNat 8), 0) ∧
    crcOk (body7.map (BitVec.ofNat 8)) = true ∧ readHdr (body7.map (BitVec.ofNat 8)) = hdr7 ∧ hdr7.dest = ownId s ∧
    hdr7.channel = (rxAt s 0).channel ∧ hdr7.src = (rxAt s 0).source ∧ hdr7.tag = (rxAt s 0).tag ∧
    isEndMark s 0 (rxAt s 0) hdr7 = false ∧
    (setAt s 0 7 (rxAt s 0).rel).map (fun x => decide (lsnDist x.ackLsn hdr7.ack ≤ lsnDist x.ackLsn x.nextLsn)) = some true := by
  refine ⟨by unfold FabThere; decide +kernel, by decide +kernel, by decide +kernel, by decide +kernel, by decide +kernel, by decide +kernel,
    by decide +kernel, test_line_decodes, crc7, by decide +kernel, by decide +kernel⟩

/-! ### Remote operations, the fabric queue and collectives -/

/-- An FSIG and a one-unit FPUT of module 7, a copy of an FSIG taken before, and a stream whose twin
has failed. -/
theorem test_remote_operations_meets :
    (let x : InUnit := ⟨7, 0, 0, { kind := 2, stream := 0, opseq := 0, addr := 5, object := 15360 }⟩
     let s := { live with fab := { live.fab with inbox := [x] } }
     s.fab.inbox = x :: [] ∧ FromPeer s x ∧ remoteObj 15360 = true ∧ x.u.opseq = (Cells.get {} s.sync.remote (streamKey s 7 0)).next) ∧
    (let x : InUnit := ⟨7, 0, 0, { kind := 1, stream := 0, opseq := 0, addr := windowBase + sliceOff, total := 16, object := 15360,
                                   data := List.replicate 16 1 }⟩
     let s := { live with fab := { live.fab with inbox := [x] } }
     FromPeer s x ∧ (Cells.get {} s.sync.remote (streamKey s 7 0)).supplier = none ∧
      fputOk x.u.addr x.u.data.length = true ∧ placeOf s 256 x.u.addr 16 = .slice 0 0 ∧
      CleanWords s (sliceBase 0 + 0) 16) ∧
    (let r : RemoteIn := { next := 1 }
     let x : InUnit := ⟨7, 0, 0, { kind := 2, stream := 0, opseq := 0, addr := 5, object := 15360 }⟩
     let s := { live with fab := { live.fab with inbox := [x] }, sync := { live.sync with remote := Cells.set {} [] (7 * 256) r } }
     FromPeer s x ∧ seqBehind (Cells.get {} s.sync.remote (streamKey s 7 0)).next 0 = true ∧
      (Cells.get {} s.sync.remote (streamKey s 7 0)).lost ≠ some 7) ∧
    (let e : AccEntry := { claim := 256, partner := 7, prio := 1, valid := true, twin := true }
     let r : RemoteIn := { supplier := some 8, object := 15360, got := 16 }
     let p := withPlan slot0
     let s := { p with red := { p.red with acc := Cells.set {} [] 8 e }, sync := { p.sync with remote := Cells.set {} [] (7 * 256) r } }
     FabThere s ∧ accOf s 8 = e ∧ streamKey s 8 0 = 7 * 256 ∧ (Cells.get {} s.sync.remote (7 * 256)).supplier = some 8 ∧
      (Cells.get {} s.sync.remote (7 * 256)).lost ≠ some 7 ∧ s.red.state ≠ .fenced ∧
      reachSlot s 7 = some 0 ∧ (setAt s 0 7 false).isSome = true) := by
  unfold FromPeer FabThere CleanWords; decide +kernel

/-- Tile 0 of `withPlan slot0` with one entry in its fabric queue, and one collective descriptor. -/
def withFabric (w : W64) : State :=
  let s := withPlan slot0
  { s with
    tiles := s.tiles.set 0 { runner with fq := [⟨w, 0, 0, false, false⟩] }
    job := { s.job with loaded := true, launched := true, tiles := [⟨0, 0, 32, 0, 0⟩], colls := [
      { op := 1, ring := false, osum := false, integ := 1, degFail := false, fmt := 0, slot := 0, podA := 0, podB := 0xFFFF
        maskA := 0x81, maskB := 0, count := 64, root := 0, sync := 0x8009, addend := 3, degObj := 0 }] } }

theorem test_fabric_queue_meets :
    (let s := withFabric (wordOf 0xD0 0 1 2 0 0)
     (tileAt s 0).fq = [⟨wordOf 0xD0 0 1 2 0 0, 0, 0, false, false⟩] ∧ entryFree (tileAt s 0) ⟨wordOf 0xD0 0 1 2 0 0, 0, 0, false, false⟩ = true ∧
      s.job.colls.length = 1 ∧ s.coll.insts = []) ∧
    (let w := wordOf 0xD2 0 0 1 0 (15360 * 65536)
     remoteObj (bits (insnOf w).imm 29 16) = true ∧ (insnOf w).imm % 65536 = ownId (withFabric w)) ∧
    (let w := wordOf 0xD2 0 0 1 0 (15360 * 65536 + 7)
     let s := withFabric w
     remoteObj (bits (insnOf w).imm 29 16) = true ∧ (insnOf w).imm % 65536 = 7 ∧ 7 ≠ ownId s ∧ planned s 7 = true ∧ FabThere s ∧
      openSlotTo s 1 7 = some 0 ∧ (setAt s 0 7 false).isSome = true) := by
  unfold FabThere; decide +kernel

/-- An instance of the descriptor: with its buffers in the slice of tile 0, at 0 and at 256. -/
def inst0 : Inst := { ctx := 0, desc := 0, num := 0, src := windowBase + sliceOff, dst := windowBase + sliceOff + 256 }

def withInst (i : Inst) : State :=
  let s := withFabric 0#64
  { s with coll := { s.coll with insts := [i] } }

theorem test_collective_instances_meets :
    (startFault (withInst inst0) inst0 = none ∧ streamHeld (withInst inst0) inst0 = false ∧ inst0 ∈ (withInst inst0).coll.insts) ∧
    (let i := { inst0 with begun := true, peers := [⟨7, 1, 0, 0, 0, 0⟩] }
     let x : InUnit := ⟨7, 0, 0, { kind := 3, stream := 0, opseq := 0, addr := 2 ^ 32, total := 1 }⟩
     let s := { withInst i with fab := { (withInst i).fab with inbox := [x] } }
     FromPeer s x ∧ seqBehind (Cells.get 0 s.coll.rxSeq 7) 0 = false ∧ streamHeld s i = false ∧ x.u.addr % 1024 = i.desc ∧
      bits x.u.addr 31 16 = i.num ∧ bits x.u.addr 35 32 = 1) ∧
    (let i := { inst0 with begun := true, segsDone := [0], peers := [⟨7, 1, 64, 0, 1, 1⟩], segIn := [⟨1, 0, 7, 64⟩] }
     instDone (withInst i) i = true ∧ bitOf (descOf (withInst i) i).degObj 15 = false) ∧
    (let i := { inst0 with begun := true, fail := some (4, 7) }
     jobRunning (withInst i) = true ∧ (withInst i).job.ending = none ∧ (withInst i).coll.insts = [i]) ∧
    (let i := { inst0 with begun := true }
     regField (withInst i) rCollPolicy 0 [] 7 0 ≠ 0) := by
  unfold FromPeer; decide +kernel

theorem test_bursts_and_segments_meets :
    (let b : Burst := ⟨0, 2, 0, [], true⟩
     let s := { live with time := { live.time with ns := 1182 }, coll := { live.coll with bursts := [b] } }
     b.start + burstNs ≤ nowNs s ∧ armedSlots s = []) ∧
    (let b : Burst := ⟨0, 0, 0, [(0, 0)], true⟩
     let i := { inst0 with begun := true, peers := [⟨7, 1, 0, 0, 0, 0⟩] }
     let s := { withInst i with time := { live.time with ns := 1182 }, coll := { (withInst i).coll with bursts := [b] } }
     let fs : List FibreSeen := [⟨0, List.replicate 8 ⟨true, 0, 0, 0⟩, []⟩]
     (s.coll.bursts.find? (fun b => decide (b.group = 0) && b.begun && decide (b.start + burstNs ≤ nowNs s))) = some b ∧
      s.coll.insts = [i] ∧ i.desc = b.desc ∧ instRuns i = true ∧ (s.job.colls[i.desc]?).any (·.degFail) = false ∧
      (∀ n < 16, (slotAt s n).switching = none) ∧ fibreRxs s 0 = [(0, 25, 7)] ∧
      (∀ f < 4, discardWhy (fibreRxs s (4 * 0 + f)) (fs.getD f ⟨0, [], []⟩) = none)) ∧
    (let i := { inst0 with begun := true, segIn := [⟨1, 0, 7, 16⟩] }
     let e : AccEntry := { claim := 256, partner := 8, prio := 1, valid := true, twin := true }
     let s := { withInst i with red := { live.red with acc := Cells.set {} [] 7 e } }
     segSupplier i 1 0 = some 7 ∧ twinOf s 7 ≠ none ∧ (descOf s i).ring = false ∧
      segGot i 1 0 < segPart (streamLen s (descOf s i) 1 (ownRank s i)) 0) := by decide +kernel

/-! ### Commands of the host -/

theorem live_like : LikeLive live := ⟨rfl, rfl, rfl, rfl, rfl⟩

/-- Every opcode of the table, with a payload of a length that its format admits, is admitted. -/
theorem test_every_command_is_admitted :
    ([(0x0101, 0), (0x0102, 120), (0x0103, 0), (0x0104, 0), (0x0201, 8), (0x0202, 16), (0x0301, 24), (0x0302, 24), (0x0401, 16),
     (0x0402, 8), (0x0403, 0), (0x0404, 16), (0x0501, 16), (0x0502, 32), (0x0503, 24), (0x0504, 408), (0x0505, 4), (0x0506, 32),
     (0x0601, 4), (0x0602, 4), (0x0701, 24), (0x0801, 16), (0x0802, 32), (0x0901, 8200), (0x0902, 4), (0x0903, 6), (0x0904, 0),
     (0x0905, 0), (0x0906, 36), (0x0A01, 48), (0x0A02, 4)].map (fun x => (x.1, ((cmdInfo x.1).map (fun i => i.sized x.2)).getD false))).filter (fun x => !x.2) = [] := by decide +kernel

/-- A command in the turn of the session of `live`, whatever the other controllers hold. -/
theorem inTurn (s : State) (c : HostCmd) (h1 : s.host = live.host) (hv : hostServes s = true) : InTurn s hdr c := by
  have hp : portUp s 0 = true := by rw [portUp, h1]; rfl
  refine ⟨by decide, hp, hv, ?_, ?_, by decide, ?_, ?_, ?_, ?_, ?_, ?_⟩ <;> rw [h1]
  · rfl
  · rfl
  · rfl
  · rfl
  · intro d hd; exact absurd hd (List.not_mem_nil)
  · intro d hd; exact absurd hd (List.not_mem_nil)
  · intro d hd; exact absurd hd (List.not_mem_nil)
  · exact fun _ => rfl

/-- A reset in progress; an opcode of no command; a claim below the module's and a FENCED module; DOZE;
a payload of the wrong length. -/
theorem test_command_checks_meets :
    (let s := { live with rst := { live.rst with level := 2, point := 2 } }
     InTurn s hdr (hostCmd 0x0202 [] []) ∧ resetting s 0x0202 = true) ∧
    (InTurn live hdr (hostCmd 0x0999 [] []) ∧ (cmdInfo 0x0999).isNone = true) ∧
    (let s := { live with red := { live.red with state := .active, claim := 256 } }
     InTurn s hdr (hostCmd 0x0202 [] []) ∧ inPair s = true ∧ hdr.claim < s.red.claim ∧ (cmdInfo 0x0202).map (·.required) = some true) ∧
    (let s := { live with pwr := { live.pwr with current := 2 } }
     InTurn s hdr (hostCmd 0x0401 (List.replicate 16 0) []) ∧ notRunning s 0x0401 = true ∧ staleClaim hdr 0x0401 s = false) ∧
    (InTurn live hdr (hostCmd 0x0201 [] []) ∧ (cmdInfo 0x0201).map (fun i => i.sized 0) = some false) :=
  ⟨⟨inTurn _ _ rfl (by decide), by decide⟩, ⟨inTurn _ _ rfl (by decide), by decide⟩, ⟨inTurn _ _ rfl (by decide), by decide⟩,
    ⟨inTurn _ _ rfl (by decide), by decide⟩, ⟨inTurn _ _ rfl (by decide), by decide⟩⟩

/-- A background command is BUSY when four have started. -/
theorem test_four_in_progress_meets :
    let b := fun n => (⟨{ hdr with seq := n }, hostCmd 0x0302 [] [], [], false⟩ : OpenCmd)
    let s := { live with host := { live.host with next := 5, started := [b 1, b 2, b 3, b 4] } }
    InTurn s { hdr with seq := 5 } (hostCmd 0x0302 [] []) ∧ 4 ≤ s.host.started.length ∧ (cmdInfo 0x0302).map (·.background) = some true := by
  unfold InTurn; decide

/-- A well-formed SESSION_OPEN that the owner has not signed (no owner is installed). The signature that
the owner gives covers DEVICE_TAG, which is open, so that no closed witness of it is written here. -/
theorem test_sessions_open_meets :
    let s := { live with host := { live.host with open_ := false, session := 0, nonce := List.replicate 16 0 } }
    let p : List Byte := List.replicate 16 0 ++ leBytes 4 2 ++ List.replicate 100 0
    portUp s 0 = true ∧ hostServes s = true ∧ p.length = 120 ∧ resetting s 0x0102 = false ∧ s.host.evals = [] ∧
    openFailures s < 8 ∧ openFormed p = true ∧ openSigned p s = false := by decide +kernel

theorem test_sessions_and_ports_meets :
    Admitted live hdr (hostCmd 0x0103 [] []) ∧ Admitted live hdr (hostCmd 0x0104 [] []) ∧ netUp live 0 = true ∧
    isIp4 { live with regs := [(regAddr rHostNetCfg 0 [0], BitVec.ofNat 64 (2 ^ 31)), (regAddr rHostIp4 0 [0], 5#64)] } 0 5 = true ∧
    isIp4 live 0 5 = false ∧ isIp6 live 0 0 = true ∧ hostServes live = true ∧
    portMayRise live 4 = true ∧ portUp live 0 = true ∧
    (let d : HeldCmd := ⟨hdr, (hostCmd 0x0202 (List.replicate 16 0) []), []⟩
     let s := { live with host := { live.host with held := [d] } }
     mayStart d.cmd s = true ∧
     (let s2 := { s with host := { s.host with switching := true }, fw := { s.fw with running := false } }
      resetting s2 0x0202 = true ∧ portUp s2 0 = true)) :=
  ⟨admitted _ _ _ live_like rfl rfl, admitted _ _ _ live_like rfl rfl, by decide⟩

/-- A read of TIME_NOW_S, and one of a name that is no register's. -/
theorem test_register_reads_meets :
    let p := leBytes 4 (regAddr rTimeNowS 0 []) ++ leBytes 1 8 ++ leBytes 3 0
    Admitted live hdr (hostCmd 0x0201 p []) ∧ namedReg p = some (rTimeNowS, 0, []) ∧ regOff live rTimeNowS 0 = false ∧
    windowBusy live rTimeNowS 0 = false ∧ Admitted live hdr (hostCmd 0x0201 (List.replicate 8 255) []) ∧
    namedReg (List.replicate 8 255) = none :=
  ⟨admitted _ _ _ live_like rfl rfl, by decide +kernel, by decide, by decide, admitted _ _ _ live_like rfl rfl, by decide +kernel⟩

/-- A write of any register is admitted where the module serves; the states that the statements about
writes of tiles, sync objects, strips, light and engines ask for. -/
theorem write_admitted (s : State) (hs : LikeLive s) (r : RegRow) (inst : Nat) (ix : List Nat) (v : Nat) (m : List Int)
    (hl : (writePayload r inst ix v).length = 16) : Admitted s hdr (writeOf r inst ix v m) :=
  admitted s _ _ hs rfl (decide_eq_true hl)

theorem test_tile_register_writes_meets :
    let s := { live with tiles := live.tiles.set 5 { runner with code := .ready } }
    LikeLive s ∧ Admitted s hdr (writeOf rTileCtrl 5 [] 1 []) ∧ Admitted s hdr (writeOf rTileSrng 5 [] 65536 []) ∧
    s.tiles.length = 156 ∧ s.pwr.current < 2 ∧ (tileAt s 5).code = .ready ∧ (tileAt s 5).logical = some 0 ∧
    (tileAt s 6).code = .testing ∧ nearestSpare s 5 = none ∧
    (let s2 := { s with tiles := s.tiles.set 12 { code := .spare, logical := none } }
     nearestSpare s2 5 = some 12) :=
  ⟨⟨rfl, rfl, rfl, rfl, rfl⟩, write_admitted _ ⟨rfl, rfl, rfl, rfl, rfl⟩ _ _ _ _ _ rfl,
    write_admitted _ ⟨rfl, rfl, rfl, rfl, rfl⟩ _ _ _ _ _ rfl, by decide +kernel⟩

theorem test_sync_writes_meets :
    let p := leBytes 4 16383 ++ leBytes 1 0 ++ leBytes 3 0 ++ leBytes 8 (2 ^ 64 - 1)
    let q := leBytes 4 16384 ++ leBytes 12 0
    Admitted live hdr (hostCmd 0x0404 p []) ∧ leAt p 0 4 < 16384 ∧ at1 p 4 < 2 ∧ zeros p 5 3 = true ∧
    Admitted live hdr (hostCmd 0x0404 q []) ∧ 16384 ≤ leAt q 0 4 ∧ Admitted live hdr (writeOf rSyncValue 0 [16383] (2 ^ 64 - 1) []) :=
  ⟨admitted _ _ _ live_like rfl rfl, by decide, by decide, by decide, admitted _ _ _ live_like rfl rfl, by decide,
    write_admitted _ live_like _ _ _ _ _ rfl⟩

theorem test_memory_register_writes_meets :
    let s := { live with mem := { live.mem with strips := { code := .offline } :: List.replicate 15 { code := .online } } }
    LikeLive s ∧ s.mem.strips.length = 16 ∧ stripOf (ddrSize - 1) = 15 ∧ (stripAt s 15).code ≠ .offline ∧
    rowOf (ddrSize - 1) ∉ (stripAt s 15).patch ∧ (stripAt s 0).code = .offline ∧
    Admitted s hdr (writeOf rMemRetireAddr 0 [] (ddrSize - 1) []) ∧ Admitted s hdr (writeOf rMemStripCtrl 0 [] (16 + 15) []) ∧
    Admitted s hdr (writeOf rMemStripCtrl 0 [] (32 + 0) [1, 1, 4]) ∧
    Admitted s hdr (writeOf rMemAsRepair 0 [] (155 * 2 ^ 23 + 31 * 2 ^ 18 + 2047) []) ∧
    Cells.get 0 (sliceAt s 155).rows 31 < 16 ∧ Admitted s hdr (writeOf rMemAsRepair 0 [] (2 ^ 31 + 4383) []) ∧
    Cells.get 0 (sliceAt s 0).cols 0 + ((sliceAt s 0).colDue.filter (fun c => c / 4384 = 0)).length < 8 :=
  ⟨⟨rfl, rfl, rfl, rfl, rfl⟩, by decide, by decide +kernel, by decide, by decide +kernel, by decide,
    write_admitted _ ⟨rfl, rfl, rfl, rfl, rfl⟩ _ _ _ _ _ rfl, write_admitted _ ⟨rfl, rfl, rfl, rfl, rfl⟩ _ _ _ _ _ rfl,
    write_admitted _ ⟨rfl, rfl, rfl, rfl, rfl⟩ _ _ _ _ _ rfl, write_admitted _ ⟨rfl, rfl, rfl, rfl, rfl⟩ _ _ _ _ _ rfl,
    by decide, write_admitted _ ⟨rfl, rfl, rfl, rfl, rfl⟩ _ _ _ _ _ rfl, by decide⟩

theorem test_light_register_writes_meets :
    let s := withLaser 1 { code := .worn } (withLaser 0 lit0 live)
    LikeLive s ∧ ChipThere s 0 ∧ (laserAt s 0 0).slot = some 0 ∧ (laserAt s 0 0).swapDue = false ∧
    spareLasers s 0 = [32, 33, 34, 35] ∧ (laserAt s 0 1).code = .worn ∧ (ringAt s 0 0).code ≠ .failed ∧
    Admitted s hdr (writeOf rFabLightCtrl 0 [] 256 []) ∧ Admitted s hdr (writeOf rFabEyeCtrl 0 [] 15 []) := by
  refine ⟨⟨rfl, rfl, rfl, rfl, rfl⟩, ?_, by decide +kernel, by decide +kernel, by decide +kernel, by decide +kernel,
    by decide +kernel, write_admitted _ ⟨rfl, rfl, rfl, rfl, rfl⟩ _ _ _ _ _ rfl,
    write_admitted _ ⟨rfl, rfl, rfl, rfl, rfl⟩ _ _ _ _ _ rfl⟩
  unfold ChipThere; decide +kernel

/-- `live` with string `i` of engine 8 replaced. -/
def withStr (i : Nat) (x : Str) : State :=
  { live with mar := live.mar.set 8 { ticks := 0, strs := Cells.set {} [] i x, active := [], heaters := [], cmdRej := false } }

theorem test_marionette_commands_meets :
    let s := withStr 3 { code := .hold, valid := true, cause := 1 }
    let p := leBytes 1 8 ++ leBytes 1 0 ++ leBytes 2 3
    LikeLive s ∧ s.mar.length = 9 ∧ (strAt s 8 3).code = .hold ∧ (strAt s 8 3).valid = true ∧ (strAt s 8 3).parity = false ∧
    Admitted s hdr (writeOf rMarCmd 8 [] (2 ^ 31 + 3) []) ∧ Admitted s hdr (writeOf rMarCmd 8 [] (2 ^ 30 + 3) []) ∧
    chainOk ((List.range 8).map (fun j => stageShadow s 8 3 j)) = true ∧
    Admitted s hdr (hostCmd 0x0505 p []) ∧ leAt p 0 1 = 8 ∧ leAt p 1 1 = 0 ∧ leAt p 2 2 = 3 :=
  ⟨⟨rfl, rfl, rfl, rfl, rfl⟩, by decide, by decide +kernel, by decide +kernel, by decide +kernel,
    write_admitted _ ⟨rfl, rfl, rfl, rfl, rfl⟩ _ _ _ _ _ rfl, write_admitted _ ⟨rfl, rfl, rfl, rfl, rfl⟩ _ _ _ _ _ rfl,
    by decide +kernel, admitted _ _ _ ⟨rfl, rfl, rfl, rfl, rfl⟩ rfl rfl, by decide, by decide, by decide⟩

theorem test_other_register_writes_meets :
    (let p := leBytes 4 (regAddr rTimePolicy 0 []) ++ leBytes 1 (rTimePolicy.width / 8) ++ leBytes 3 0 ++ leBytes 8 1
     namedReg p = some (rTimePolicy, 0, []) ∧ leAt p 8 8 < 2 ^ rTimePolicy.width ∧ regOff live rTimePolicy 0 = false ∧
     rTimePolicy ∈ policyRegs) ∧
    locked live 0 = false ∧ locked live 1 = false ∧ regField live rTimeSetNs 0 [] 29 0 < 1000000000 ∧
    live.fw.area < live.fw.areas.length ∧ Admitted live hdr (writeOf rTimeCtrl 0 [] 1 []) ∧
    (accOf live (regGet live rRedAccIndex 0 [])).claim ≤ (256 * 2 ^ 32 + 128) / 2 ^ 32 ∧
    Admitted live hdr (writeOf rRedAccEntry 0 [] (256 * 2 ^ 32 + 128) []) :=
  ⟨by decide +kernel, by decide, by decide, by decide +kernel, by decide, write_admitted _ live_like _ _ _ _ _ rfl,
    by decide +kernel, write_admitted _ live_like _ _ _ _ _ rfl⟩

/-- A paired module whose partner is lost, before TAKEOVER; and one that may mirror. -/
theorem test_takeover_meets :
    let s := { live with
      regs := [(regAddr rRedCfg 0 [], 0#64)]
      red := { live.red with state := .active, lost := true, claim := 257, highest := 257, prioOwn := 1 } }
    let h := { hdr with claim := 257 }
    Admitted s h (writeOf rRedCtrl 0 [] 2 []) ∧ regField s rRedCfg 0 [] 31 31 = 0 ∧
    (let s0 := withPlan slot0
     canMirror { s0 with red := { s0.red with state := .active, mode := 1, partner := 7 } } = true) := by
  refine ⟨⟨?_, rfl, rfl, rfl, rfl, _, rfl, fun _ => rfl, rfl, fun h => ?_⟩, by decide +kernel⟩
  · unfold InTurn; decide
  · exact Nat.lt_of_lt_of_le (by decide : 0 < 4) (by decide)

/-! ### Jobs and plans -/

/-- R143 to R146: an image of one tile, logical 0, whose code is one HALT: header, section table,
TILE_TABLE, BLOB. -/
def image0 (crc : Nat) : List Byte :=
  leBytes 4 0x424F4A5A ++ leBytes 2 1 ++ leBytes 2 64 ++ leBytes 4 136 ++ leBytes 2 2 ++ leBytes 2 0 ++ leBytes 8 5 ++
  leBytes 4 64 ++ leBytes 32 0 ++ leBytes 4 crc ++
  leBytes 4 1 ++ leBytes 4 96 ++ leBytes 4 32 ++ leBytes 4 1 ++ leBytes 4 3 ++ leBytes 4 128 ++ leBytes 4 8 ++ leBytes 4 0 ++
  leBytes 4 0 ++ leBytes 4 128 ++ leBytes 4 8 ++ leBytes 20 0 ++ leBytes 8 (2 * 2 ^ 56)

/-- R285, R286: a plan of one phase without an end, on plane 0, that enables nothing. -/
def planBytes (crc : Nat) : List Byte :=
  leBytes 4 0x4E4C5043 ++ leBytes 2 1 ++ leBytes 2 64 ++ leBytes 4 736 ++ leBytes 1 1 ++ leBytes 3 0 ++ leBytes 4 1 ++ leBytes 4 0 ++
  leBytes 8 9 ++ leBytes 28 0 ++ leBytes 4 crc ++ leBytes 672 0

theorem crcZeroed_eq (bs : List Byte) (off v : Nat) (hv : v ≤ 0xFFFFFFFF)
    (h : crcFold (0xFFFFFFFF#32).toNat (bs.take off ++ [0, 0, 0, 0] ++ bs.drop (off + 4)) = 0xFFFFFFFF - v) :
    crcZeroed bs off = v := by
  rw [crcFold_eq] at h
  simp only [crcZeroed, crc32c, BitVec.toNat_not, h]
  omega

set_option maxRecDepth 20000 in
theorem image0_crc : crcZeroed (image0 73587408) 60 = 73587408 ∧ crcZeroed (image0 0) 60 = 73587408 :=
  ⟨crcZeroed_eq _ 60 _ (by decide) (by decide +kernel), crcZeroed_eq _ 60 _ (by decide) (by decide +kernel)⟩

set_option maxRecDepth 20000 in
theorem planBytes_crc : crcZeroed (planBytes 4064960901) 60 = 4064960901 ∧ crcZeroed (planBytes 0) 60 = 4064960901 :=
  ⟨crcZeroed_eq _ 60 _ (by decide) (by decide +kernel), crcZeroed_eq _ 60 _ (by decide) (by decide +kernel)⟩

/-- `live`, with LPDDR5X in service, and bytes at DPA 0. -/
def withStaged (bs : List Byte) : State :=
  { live with mem := { live.mem with strips := List.replicate 16 { code := .online }, cells := memWrite [] ddrBase bs } }

theorem test_jobs_start_meets :
    let bs := image0 73587408
    let s := withStaged bs
    let p := leBytes 8 0 ++ leBytes 4 136 ++ leBytes 4 0
    LikeLive s ∧ Admitted s hdr (hostCmd 0x0401 p []) ∧ jobRunning s = false ∧ leAt p 0 8 % 8 = 0 ∧ leAt p 8 4 ≤ 67108864 ∧
    zeros p 12 4 = true ∧ (readStaged 0 136 s).2 = .inr bs ∧ imageRoute s bs = none ∧
    (let r := { s with tiles := s.tiles.set 0 { code := .ready, logical := some 0 } }
     readyTiles bs (sections bs) r = [(96, 0, 0)] ∧ leftReady [(96, 0, 0)] (loadTiles bs (sections bs) [] r) = none ∧
      leftReady [(96, 0, 0)] (loadTiles bs (sections bs) [(0, .scrUe)] r) = some 96) :=
  ⟨⟨rfl, rfl, rfl, rfl, rfl⟩, admitted _ _ _ ⟨rfl, rfl, rfl, rfl, rfl⟩ rfl rfl, by decide +kernel⟩

theorem test_image_passes : imageFault (withStaged (image0 73587408)) (image0 73587408) 136 = none := by
  rw [imageFault, jobHeader, image0_crc.1]; decide +kernel

/-- R151: an image whose CRC is wrong answers IMAGE_CRC, with the offset of the CRC field. -/
theorem test_image_crc : imageFault live (image0 0) 136 = some (0x0404, 0xFFFF, 60) := by
  rw [imageFault, jobHeader, image0_crc.2]; decide +kernel

theorem test_job_launch_meets :
    let s := { live with
      tiles := live.tiles.set 0 { runner with code := .ready }
      job := { live.job with loaded := true, jobId := 5, tiles := [⟨0, 0, 8, 0, 0⟩] } }
    Admitted s hdr (hostCmd 0x0402 (leBytes 8 5) []) ∧ s.job.loaded = true ∧ s.job.launched = false ∧ leAt (leBytes 8 5) 0 8 = s.job.jobId ∧
    (∀ t ∈ jobTiles s, (tileAt s t).code = .ready) ∧ physOf s 0 = some 0 :=
  ⟨admitted _ _ _ ⟨rfl, rfl, rfl, rfl, rfl⟩ rfl rfl, by decide +kernel⟩

theorem test_jobs_end_meets :
    (let s := withCode runner 0#64
     Admitted s hdr (hostCmd 0x0403 [] []) ∧ jobRunning s = true ∧ jobTrapping s = false ∧ s.job.ending = none ∧ jobDone s = false ∧ switchBusy s = false ∧
      switchBusy { s with fab := { s.fab with slots := s.fab.slots.set 0 { slot0 with switching := some (.phase 1) } } } = true) ∧
    (let s := withCode { runner with code := .halted } 0#64
     jobDone s = true ∧ 0 ∈ jobTiles s ∧ (∀ t < 156, (tileAt s t).retireDue = false ∧ (tileAt s t).code ≠ .faulted)) ∧
    (let s := withCode { runner with wait := .stop, trap := some ⟨3, 0, 0, 0, 0⟩ } 0#64
     jobTrapping s = true) :=
  ⟨⟨admitted _ _ _ ⟨rfl, rfl, rfl, rfl, rfl⟩ rfl rfl, by decide +kernel⟩, by decide +kernel⟩

theorem test_plan_load_meets :
    let bs := planBytes 4064960901
    let s := withStaged bs
    let p := leBytes 4 0 ++ leBytes 4 736 ++ leBytes 8 0
    FabThere s ∧ Admitted s hdr (hostCmd 0x0501 p []) ∧ at1 p 0 < 16 ∧ zeros p 1 3 = true ∧ leAt p 8 8 + leAt p 4 4 ≤ ddrSize ∧
    (slotAt s 0).code ≠ .armed ∧ (readStaged 0 736 s).2 = .inr bs := by
  refine ⟨by unfold FabThere; decide +kernel, admitted _ _ _ ⟨rfl, rfl, rfl, rfl, rfl⟩ rfl rfl, by decide, by decide, by decide,
    by decide, by decide +kernel⟩

set_option maxRecDepth 20000 in
theorem test_plan_passes : planFault (planBytes 4064960901) 736 = none := by
  rw [planFault, planBytes_crc.1]; decide +kernel

/-- R288: a plan whose CRC is wrong answers with the offset of the CRC field. -/
theorem test_plan_crc : planFault (planBytes 0) 736 = some 60 := by
  rw [planFault, planBytes_crc.2]; decide +kernel

theorem test_plan_arm_meets :
    let pl : Plan := { plan0 with phases := [{ phase0 with lanes := List.replicate 256 none, rxs := List.replicate 256 none }] }
    let s := { live with fab := { live.fab with slots := live.fab.slots.set 0 { code := .loaded, plan := some pl } } }
    let p := leBytes 1 0 ++ leBytes 1 0 ++ leBytes 6 0 ++ leBytes 24 0
    let q := leBytes 1 0 ++ leBytes 1 1 ++ leBytes 30 0
    Admitted s hdr (hostCmd 0x0502 p []) ∧ at1 p 0 < 16 ∧ zeros p 2 6 = true ∧ zeros p 14 2 = true ∧ leAt p 16 4 < 1000000000 ∧
    zeros p 20 4 = true ∧ at1 p 1 = 0 ∧ (slotAt s 0).code = .loaded ∧ armFault s pl = none ∧ pl.phases ≠ [] ∧ at1 q 1 = 1 ∧
    (let s2 := withPlan slot0
     steered s2 0 = false ∧ unreleased s2 0 = ([0], [0]) ∧ setAt s2 0 (laneAt s2 0).dest false ≠ none ∧
      bitOf (osumMask s2) 0 = false ∧ s2.fab.spineWait = [] ∧ darkOpen s2 0 = false) ∧
    (let s3 := { s with fab := { s.fab with slots := live.fab.slots.set 0 { slot0 with sets := [{ dest := 7, closed := true }] } } }
     steered s3 0 = false ∧ (slotAt s3 0).switching = none ∧ unreleased s3 0 = ([], []) ∧ (slotAt s3 0).sets.all (·.closed) = true) :=
  ⟨admitted _ _ _ ⟨rfl, rfl, rfl, rfl, rfl⟩ rfl rfl, by decide +kernel⟩

theorem test_windows_and_discovery_meets :
    (let p := leBytes 4 0 ++ leBytes 4 0 ++ leBytes 8 0 ++ leBytes 4 100000 ++ leBytes 4 1000000
     Admitted live hdr (hostCmd 0x0503 p []) ∧ leAt p 0 4 = 0 ∧ zeros p 4 4 = true ∧ zeros p 14 2 = true ∧
      nowNs live + 100000 ≤ leAt p 8 8 * 1000000000 + leAt p 16 4 ∧ 1000000 ≤ leAt p 20 4 ∧ leAt p 20 4 ≤ 100000000) ∧
    (let p := leBytes 8 0 ++ leBytes 4 1000000 ++ leBytes 4 1 ++ leBytes 392 0
     Admitted live hdr (hostCmd 0x0504 p []) ∧ armedMask live &&& leAt p 12 4 = 0 ∧ live.fab.disc.code = 0 ∧
      nowNs live + 1000000 ≤ leAt p 0 8 * 1000000000 + leAt p 8 4 ∧ leAt p 6 2 = 0 ∧ leAt p 20 4 = 0 ∧
      (∀ k < 32, bits (leAt p (152 + 4 * k) 4) 30 27 = 0 ∧ bits (leAt p (152 + 4 * k) 4) 15 11 = 0)) :=
  ⟨⟨admitted _ _ _ live_like rfl (by decide +kernel), by decide +kernel⟩,
    ⟨admitted _ _ _ live_like rfl (by decide +kernel), by decide +kernel⟩⟩

/-! ### Bulk transfers and calibration -/

/-- A write of two blocks to scratch of tile 5, its first block received. -/
def bulk0 : Bulk := { cmd := ⟨1, 1⟩, write := true, space := 2, tile := 5, addr := 0, len := 8208, got := [0] }

def withBulk (b : Bulk) : State :=
  { live with
    tiles := live.tiles.set 5 { runner with code := .ready }
    host := { live.host with
      next := 2, started := [⟨hdr, (hostCmd 0x0301 [] []), [], false⟩], bulks := [b], seenA := some ⟨0, 0⟩, portSeen := [(0, 1)] } }

theorem test_bulk_transfers_meets :
    (let s := { live with tiles := live.tiles.set 0 { runner with code := .ready } }
     let p := leBytes 1 2 ++ leBytes 1 0 ++ leBytes 2 0 ++ leBytes 4 0 ++ leBytes 8 0 ++ leBytes 8 16
     Admitted s hdr (hostCmd 0x0301 p []) ∧ Admitted s hdr (hostCmd 0x0302 p []) ∧ bulkFault p s = none ∧ s.host.bulks = [] ∧
      (physOf s 0).getD 0 = 0 ∧ bulkFault (leBytes 1 3 ++ p.drop 1) s = some 5) ∧
    (let s := withBulk bulk0
     BulkComes s hdr bulk0 ∧ bulkBlocks bulk0 = 2 ∧ bulkPart bulk0 1 = 16 ∧ 1 ∉ bulk0.got ∧ BlockLands s bulk0 1 16 ∧
      ackPort s = some 0 ∧ seenOn s 0 = some ⟨0, 0⟩ ∧ bulk0.got.length < 2) ∧
    (let b := { bulk0 with write := false, got := [], sent := 2, window := 2 }
     let s := withBulk b
     BulkComes s hdr b ∧ 1 < b.sent ∧ 1 ∉ b.got ∧ readPort s = some 0) ∧
    (let b := { bulk0 with got := [0, 1], bad := 1, firstBad := 64 }
     bulkAt (withBulk b) 1 = some b ∧ b.got.length = bulkBlocks b) := by
  refine ⟨⟨admitted _ _ _ ⟨rfl, rfl, rfl, rfl, rfl⟩ rfl rfl, admitted _ _ _ ⟨rfl, rfl, rfl, rfl, rfl⟩ rfl rfl, by decide +kernel⟩, ?_, ?_, ?_⟩ <;>
    (try unfold BulkComes) <;> (try unfold BlockLands) <;> (try unfold CleanWords) <;> decide +kernel

/-- CAL_RUN of a spare laser, with STORE; of a locked ring; of a fibre; of a plane group. -/
theorem test_calibration_runs_meets :
    (let p := leBytes 1 1 ++ leBytes 1 0 ++ leBytes 2 32 ++ leBytes 1 1 ++ leBytes 27 0
     Admitted live hdr (hostCmd 0x0506 p [0, 5]) ∧ leAt p 0 1 = 1 ∧ calArgsOk 1 35 p = true ∧ (laserAt live 0 32).slot = none ∧
      calStore p = true ∧ live.cal.used + calSize 1 ≤ calBank ∧ live.mar.length = 9) ∧
    (let s := { live with
       time := { live.time with ticks := 500000 }
       light := live.light.set 0 { chipAt live 0 with rings := { code := .locked } :: { code := .locked } :: List.replicate 30 {} } }
     let p := leBytes 1 2 ++ leBytes 1 0 ++ leBytes 2 0 ++ leBytes 1 1 ++ leBytes 27 0
     let q := leBytes 1 3 ++ leBytes 1 0 ++ leBytes 2 0 ++ leBytes 1 1 ++ leBytes 27 0
     Admitted s hdr (hostCmd 0x0506 p [0, 7]) ∧ calArgsOk 2 31 p = true ∧ (eyeAt s 0 0).code = .normal ∧ (ringAt s 0 0).code = .locked ∧
      (ringAt s 0 0).lockedAt + 10000000 ≤ runNs s ∧ s.cal.used + calSize 3 ≤ calBank ∧
      calArgsOk 3 3 q = true ∧ ((List.range 8).filter (fun r => decide ((ringAt s 0 r).code = .locked))) = [0, 1] ∧
      mayLeaveRx s (laneOf 0 0) = true ∧ mayLeaveRx s (laneOf 0 1) = true) ∧
    (let s := withPlan slot0
     let p := leBytes 1 4 ++ leBytes 1 0 ++ leBytes 2 1 ++ leBytes 1 0 ++ leBytes 1 0 ++ leBytes 2 0 ++ leBytes 8 0 ++ leBytes 4 1000000 ++
       leBytes 4 0x80 ++ leBytes 8 0
     Admitted s hdr (hostCmd 0x0506 p [3]) ∧ calArgsOk 4 7 p = true ∧ (slotAt s (leAt p 5 1)).code = .armed ∧
      osumPathsOk s 0 (leAt p 20 4) = true ∧ calStore p = false ∧ memberChannels s (leAt p 20 4) = [7] ∧
      (let m : List Int := [0] ++ List.replicate 7 0 ++ [16] ++ List.replicate 16 0 ++ List.replicate 24 0
       (pathTrim ((splitReports 32 (m.drop 1)).1.getD 7 [])).isSome = true) ∧ ∀ q < 4, isSpine s (4 + q) = false ∧ bitOf (armedMask s) (4 + q) = false) :=
  ⟨⟨admitted _ _ _ live_like rfl rfl, by decide +kernel⟩, ⟨admitted _ _ _ ⟨rfl, rfl, rfl, rfl, rfl⟩ rfl rfl, by decide +kernel⟩,
    ⟨admitted _ _ _ ⟨rfl, rfl, rfl, rfl, rfl⟩ rfl rfl, by decide +kernel⟩⟩

/-! ### Time, power and resets -/

/-- A domain that follows clock 5, in each state that a statement asks for. -/
def withDom (d : Domain) : State := { live with time := { live.time with ns := 1000, domains := [d, {}] } }

theorem test_time_base_meets :
    (aonHeld live = false ∧ ((20 * 2 ^ 32 : Nat) : Int) = ((nowNs live + 20) * 2 ^ 32 + live.time.frac : Nat) + live.time.corr) ∧
    (let s := withDom { code := .acquiring, master := some 5, waiting := some (9, 100), down := some 40, req := some (9, 500) }
     s.time.domains.length = 2 ∧ fromMaster s 0 5 (cfgDomain s 0) = true ∧ fromMaster s 0 6 (cfgDomain s 0) = false ∧
      (domainAt s 0).est.length < 15 ∧ portUp s (domainAt s 0).port = true) ∧
    (let d : Domain := { code := .locked, down := some 40, reqAt := some 0 }
     let s := { live with time := { live.time with ticks := 3125000, domains := [d, d] } }
     (domainAt s 0).reqAt = some 0 ∧ 0 + 62500000 ≤ runNs s ∧ portUp s (domainAt s 0).port = true) ∧
    (let s := withDom { code := .acquiring, master := some 5, est := List.replicate 15 0 }
     spanOk ((0 :: (domainAt s 0).est).take 16) = true) ∧
    (let s := withDom { code := .listening, masters := [(5, [1], 1)] }
     (domainAt s 0).code = .listening ∧ (domainAt s 0).master ≠ some 5) ∧
    (locked (withDom { code := .locked, master := some 5, far := 3 }) 0 = true) ∧
    (let p := leBytes 1 7 ++ leBytes 1 7 ++ leBytes 6 0 ++ leBytes 8 (2 ^ 48 - 1) ++ leBytes 4 999999999 ++ leBytes 4 1
     let s := { live with time := { live.time with valid := true } }
     Admitted s hdr (hostCmd 0x0701 p []) ∧ leAt p 0 1 = 7 ∧ leAt p 1 1 = 7 ∧ leAt p 2 6 = 0 ∧ leAt p 8 8 < 2 ^ 48 ∧
      leAt p 16 4 < 1000000000 ∧ leAt p 20 4 ≠ 0) ∧
    (let s := { live with time := { live.time with alarms := ⟨true, false, true, 0, 0, 1, false⟩ :: ⟨true, false, false, 0, 0, 0, true⟩ :: List.replicate 6 {} } }
     (alarmAt s 0).passed = false ∧ (alarmAt s 1).passed = true ∧ alarmNs (alarmAt s 1) ≤ nowNs s ∧ alarmNs (alarmAt s 0) ≤ nowNs s ∧ nowNs s < alarmNs (alarmAt s 0) + 1 * 1000000) :=
  ⟨by decide +kernel, by decide +kernel, by decide +kernel, by decide +kernel, by decide +kernel, by decide +kernel,
    ⟨admitted _ _ _ ⟨rfl, rfl, rfl, rfl, rfl⟩ rfl rfl, by decide +kernel⟩, by decide +kernel⟩

/-- Every tile has been tested. -/
def tested : State := { live with
  tiles := (List.range 156).map (fun t => { code := .ready, logical := Tile.homeLogical t })
  mem := { live.mem with strips := List.replicate 16 { code := .online } } }

theorem test_power_states_meets :
    (Admitted tested hdr (hostCmd 0x0601 [2, 0, 0, 0] []) ∧ tested.pwr.current = 0 ∧ jobRunning tested = false ∧ testRuns tested = false ∧
      armedSlots tested = [] ∧ tested.fab.disc.code = 0 ∧ (∀ c ∈ tested.light, ∀ e ∈ c.eyes, e.code ≠ .restoring) ∧
      (∀ x ∈ tested.mem.strips, x.code ≠ .training) ∧ tested.pwr.trans = none ∧ tested.pwr.wakePending = []) ∧
    (Admitted live hdr (hostCmd 0x0602 [3, 0, 0, 0] []) ∧ leAt [3, 0, 0, 0] 0 1 < 8) ∧
    (let s := { live with pwr := { live.pwr with zones := List.replicate 16 3, cap := 3, curr := 3 } }
     pTarget s.pwr = 3 ∧ s.pwr.effective = 7 ∧ s.pwr.current < 4) ∧
    (let s := { live with pwr := { live.pwr with wakePending := [1], current := 2 } }
     s.pwr.wakePending = 1 :: [] ∧ s.pwr.trans = none ∧ s.rst.level = 0) ∧
    bitOf (regGet { live with regs := [(regAddr rPwrWakeCfg 0 [], 2#64)] } rPwrWakeCfg 0 []) 1 = true :=
  ⟨⟨admitted _ _ _ ⟨rfl, rfl, rfl, rfl, rfl⟩ rfl rfl, by decide +kernel⟩, ⟨admitted _ _ _ live_like rfl rfl, by decide⟩,
    by decide +kernel⟩

/-- Input of 37,999 mV, power applied, and flash that holds SEQ 9. -/
theorem test_power_supply_meets :
    (37999 < 38000 ∧ live.pwr.applied = true ∧ State.reset.pwr.applied = false) ∧
    flashHighest { State.reset.peat with flash := [⟨0, 9, [], false, false⟩] } = some 9 := by decide

theorem test_resets_meets :
    (let s := { live with rst := { live.rst with raised := 1#20 <<< 15 } }
     sourceLevel s 15 = 2 ∧ s.rst.level = 0 ∧ s.rst.point = 0) ∧
    (let s := { live with rst := { live.rst with raised := 1#20 <<< 8 } }
     sourceLevel s 8 = 3) ∧
    (let s := { State.reset with pwr := { State.reset.pwr with applied := true } }
     s.rst.level = 4 ∧ s.rst.point = 4 ∧ mayPass s 4 = true) ∧
    (let s := { tested with rst := { live.rst with level := 2, point := 2 } }
     mayPass s 2 = true ∧ ∀ x ∈ s.tiles, x.code = .testing → x.testStopped = true) ∧
    (let s := { live with rst := { live.rst with level := 2, point := 2, active := 1#20 <<< 14 } }
     mayPass s 2 = false) ∧
    (let s := withLaser 32 { code := .parked, channel := 3, passed := true, forSlot := some 0 } live
     (laserAt s 0 32).slot = none ∧ (laserAt s 0 32).code = .parked) ∧
    (sourceLevel live 19 = 0 ∧ sourceLevel live 18 = 0 ∧ (laserAt live 0 32).slot = none) := by decide +kernel

/-! ### Memory, pairs, firmware and the log -/

theorem test_memory_maintenance_meets :
    let s := { tested with mem := { tested.mem with gran := [(1, .single 3), (2, .double)], words := [((sliceBase 0 + sliceRowOff 0 0) / 16, .single 0)] } }
    (stripAt s (stripOf 64)).code = .online ∧ granBlocked s 1 = false ∧ Cells.get .clean s.mem.gran 1 = .single 3 ∧
    Cells.get .clean s.mem.gran 2 = .double ∧ regField s rMemPolicy 0 [] 31 24 ≠ 0 ∧ s.pwr.current < 2 ∧
    slicePowered s 0 = true ∧ tileInRun s 0 = false ∧ (tileAt s 0).logical = some 0 ∧ s.mem.migrate = [] ∧
    (let s3 := { tested with mem := { tested.mem with gran := [(1, .single 3)] } }
     ∀ k ∈ rowGrans (stripOf (1 * 64)) (rowOf (1 * 64)), k ≠ 1 → Cells.get .clean s3.mem.gran k = .clean) ∧
    (∀ k ∈ wordRange (sliceBase 0 + sliceRowOff 0 0) 512, k ≠ (sliceBase 0 + sliceRowOff 0 0) / 16 →
      Cells.get .clean s.mem.words k = .clean) ∧
    (let s2 := { s with mem := { s.mem with slices := Cells.set {} [] 0 { colDue := [5] } } }
     (sliceAt s2 0).colDue = [5] ∧ tileInRun s2 0 = false) := by decide +kernel

/-- A pair of modules 0 and 7, this one active with claim 0x101. -/
def paired : State := { live with red := { live.red with
  state := .active, mode := 1, partner := 7, prioOwn := 1, prioPartner := 2, claim := 0x101, highest := 0x101, stopped := false } }

/-- A datagram of R549: a Wisp frame of module 7 to module 0. -/
def wispBytes (claim crc : Nat) : List Byte :=
  leBytes 2 0x5057 ++ leBytes 1 1 ++ leBytes 1 0 ++
  (leBytes 1 1 ++ leBytes 1 0 ++ leBytes 2 7 ++ leBytes 2 0 ++ leBytes 2 7 ++ leBytes 1 1 ++ leBytes 1 2 ++ leBytes 2 0 ++
    leBytes 4 claim ++ leBytes 32 0) ++ leBytes 8 0 ++ leBytes 4 crc

theorem test_partner_pairs_meets :
    (let p := leBytes 1 0 ++ leBytes 1 1 ++ leBytes 2 7 ++ leBytes 1 1 ++ leBytes 1 2 ++ leBytes 2 0 ++ leBytes 4 1 ++ leBytes 36 0
     Admitted live hdr (hostCmd 0x0A01 p []) ∧ pairFault live p = none ∧ leAt p 0 1 = 0 ∧ Admitted live hdr (hostCmd 0x0A02 (leBytes 4 0) [])) ∧
    (wispRuns paired = true ∧ paired.red.stopped = false) ∧
    (let p := withPlan slot0
     let s := { p with red := { paired.red with pendingStart := true } }
     canMirror s = true) ∧
    (let s := { paired with
       regs := [(regAddr rRedMirrorCfg 0 [], BitVec.ofNat 64 (2 ^ 31))]
       red := { paired.red with pass := some { gen := 1, length := 0 }, pendingStart := false } }
     s.red.pass ≠ none ∧ s.red.pendingStart = false ∧ mirrorDue s = true) ∧
    (let x : InUnit := ⟨7, 0, 0x102, { kind := 5, stream := 0xFF, opseq := 0, data := leBytes 1 5 ++ leBytes 23 0 ++ leBytes 4 1 ++ leBytes 4 0 ++ leBytes 8 64 ++ leBytes 8 0 }⟩
     let s := { paired with regs := [(regAddr rRedAreaBase 0 [0], BitVec.ofNat 64 (2 ^ 63)), (regAddr rRedAreaSize 0 [0], 4096#64)],
                            fab := { paired.fab with inbox := [x] } }
     s.fab.inbox.find? (fun x => isMirror x.u) = some x ∧ redArea s 0 = some (0, 4096) ∧ leAt x.u.data 32 8 ≤ 4096) :=
  ⟨⟨admitted _ _ _ live_like rfl rfl, by decide +kernel, by decide, admitted _ _ _ live_like rfl rfl⟩, by decide, by decide +kernel,
    by decide +kernel, by decide +kernel⟩

theorem test_firmware_meets :
    (let p := leBytes 1 1 ++ leBytes 1 1 ++ leBytes 2 0 ++ leBytes 4 0 ++ leBytes 16 9
     Admitted live hdr (hostCmd 0x0901 p []) ∧ live.fw.slots.length = 2 ∧ (slotOf live 1).state = .empty ∧ leAt p 4 4 % 8192 = 0) ∧
    (Admitted live hdr (hostCmd 0x0902 (leBytes 4 1) []) ∧ (slotOf live 1).state ≠ .unverified ∧ (slotOf live 1).state ≠ .verified) ∧
    Admitted live hdr (hostCmd 0x0903 (leBytes 4 1 ++ leBytes 2 1440) []) ∧ standby live = .ready ∧
    (let s := { live with fw := { live.fw with
       slots := [{ state := .fallback, shipped := true }, { state := .trial }], activeSlot := 1, standbySlot := 0, probation := some (60, 1) } }
     s.fw.running = true ∧ standby s = .ready ∧ 1 * 60 ≤ 60 ∧ s.fw.standbySlot = 1 - s.fw.activeSlot) ∧
    Admitted live hdr (hostCmd 0x0904 [] []) ∧ Admitted live hdr (hostCmd 0x0905 [] []) ∧
    Admitted live hdr (hostCmd 0x0906 (List.replicate 32 0 ++ leBytes 1 1 ++ leBytes 3 0) []) :=
  ⟨⟨admitted _ _ _ live_like rfl rfl, by decide⟩, ⟨admitted _ _ _ live_like rfl rfl, by decide⟩, admitted _ _ _ live_like rfl rfl,
    by decide, by decide, admitted _ _ _ live_like rfl rfl, admitted _ _ _ live_like rfl rfl, admitted _ _ _ live_like rfl rfl⟩

theorem test_puppeteers_and_board_port_meets :
    (live.fw.running = true ∧ live.fw.recovery = false ∧ standby live ≠ .unavailable ∧ live.fw.probation = none) ∧
    (let s := { live with fw := { live.fw with
       slots := [{ state := .fallback, shipped := true }, { state := .trial }], activeSlot := 1, standbySlot := 0, probation := some (60, 1) } }
     s.fw.running = true ∧ s.fw.recovery = false ∧ standby s ≠ .unavailable ∧ s.fw.probation ≠ none ∧ s.fw.slots.length = 2 ∧
      s.fw.activeSlot < 2 ∧ s.fw.standbySlot = 1 - s.fw.activeSlot) ∧
    (let s := { live with fw := { live.fw with l4End := some 0 } }
     runNs s < 0 + 10000000000) ∧
    (let s := { live with pups := { live.pups with bActive := true, a := .ready, b := .active, aTested := true, aReadyAt := 0 }, time := { live.time with ticks := 30000000000 } }
     s.pups.a = .ready ∧ standby s = .ready ∧ heldOff s = true) ∧
    smbServes live = true ∧ ownerServes live = true ∧ live.fw.install = none ∧ live.fw.ownerKey = [] ∧
    smbServes { State.reset with rst := { State.reset.rst with rcClock := true } } = false := by decide

theorem test_peat_log_meets :
    (let s := { live with peat := { live.peat with queue := [⟨0x0101, 0, 0, false, 0, 0, 0, false, false, []⟩] } }
     (∃ r, lastRec s.peat = some r ∧ coalesces s 0x0101 0 r = true ∧ coalesces s 0x0101 1 r = false)) ∧
    (let r : LogRec := ⟨0x0101, 0, 0, false, 0, 0, 0, false, true, []⟩
     let s := { live with peat := { live.peat with ring := [(0, r)], next := 1 } }
     toCopy s.peat = some (0, r) ∧ (takeSeg s.peat 0).isSome = true ∧ s.peat.seals = []) ∧
    (healthDue { live with time := { live.time with ticks := 4320000000000 } } = true ∧
      healthDue { live with peat := { live.peat with levels := List.replicate 13 2 } } = false) ∧
    (let p := leBytes 8 0 ++ leBytes 2 128 ++ leBytes 6 0
     Admitted live hdr (hostCmd 0x0801 p []) ∧ leAt p 8 2 ≤ 128 ∧ leAt p 10 1 ≤ 1 ∧ leAt p 11 5 = 0) ∧
    Admitted live hdr (hostCmd 0x0802 (List.replicate 32 0) []) :=
  ⟨⟨_, rfl, by decide, by decide⟩, by decide, by decide +kernel, ⟨admitted _ _ _ live_like rfl rfl, by decide⟩, admitted _ _ _ live_like rfl rfl⟩

/-- A command at the front of the queue; the memory of reset. -/
theorem test_steps_meet :
    ({ State.reset with pending := [.aonClk] } : State).pending = .aonClk :: [] ∧ State.reset.pending = [] ∧
    memWf State.reset.mem.cells = true := by decide

/-- R454, R255: TIME_NOW_S is a row of the map; a frame header and a list of units within the widths. -/
theorem test_encodings_meet :
    (rTimeNowS ∈ blockRows .time ∧ rTimeNowS.dims = [] ∧ rowExists rTimeNowS 0 = true) ∧
    (hdr7.type < 16 ∧ bitOf hdr7.fault 14 = false ∧ hdr7.len ≤ 1024 ∧ hdr7.clean = true) ∧
    (unitOk unit0.u = true ∧ unit0.u.data.length % 16 = 0 ∧ (unitBytes unit0.u).length ≤ 1024) := by decide +kernel

set_option maxRecDepth 20000 in
/-- A Wisp frame with a claim equal to this module's, and one with a higher claim. -/
theorem test_wisp_rx_meets :
    (datagramBody (wispBytes 0x101 4265177081)).isSome = true ∧ (datagramBody (wispBytes 0x202 3989506554)).isSome = true ∧
    (let b := ((wispBytes 0x202 0).drop 4).take 48
     leAt b 0 1 = 1 ∧ leAt b 12 4 = 0x202 ∧ inPair paired = true ∧ leAt b 2 2 = paired.red.partner ∧ bodyOfPair paired b = true ∧
      bodyAgrees paired b = true ∧ paired.red.claim < 0x202 ∧ periodNo paired ≤ paired.red.period) := by decide +kernel

/-! ### Results of one step -/

/-- The state that a command leaves. -/
def after (c : Instr) (s : State) : State :=
  match exec c s with
  | .next t => t
  | _ => s

/-- The value that an instruction of tile 0 leaves in s1, with 2 and 3 in s2 and s3. -/
def s1After (c : Instr) (w : W64) (a b : W32) : Nat :=
  (sGet (tileAt (after c (withCode { runner with s := [(2, a), (3, b)] } w)) 0) 1).toNat

theorem test_add_wraps : s1After (.add 0) (wordOf 0x10 1 2 3 0 0) 0xFFFFFFFF#32 2#32 = 1 := by decide +kernel
theorem test_sra_takes_low_five_bits : s1After (.sra 0) (wordOf 0x17 1 2 3 0 0) 0x80000000#32 33#32 = 0xC0000000 := by decide +kernel
theorem test_mulhu : s1After (.mulhu 0) (wordOf 0x19 1 2 3 0 0) 0xFFFFFFFF#32 0xFFFFFFFF#32 = 0xFFFFFFFE := by decide +kernel
theorem test_slt_signed : s1After (.slt 0) (wordOf 0x1A 1 2 3 0 0) 0xFFFFFFFF#32 0#32 = 1 := by decide +kernel
theorem test_sltu_unsigned : s1After (.sltu 0) (wordOf 0x1B 1 2 3 0 0) 0xFFFFFFFF#32 0#32 = 0 := by decide +kernel
/-- R124: JAL leaves the address of the next instruction. -/
theorem test_jal_links : s1After (.jal 0) (wordOf 0x47 1 0 0 0 2) 0#32 0#32 = 8 := by decide +kernel
/-- R119: s0 discards a write. -/
theorem test_s0_discards : (sGet (tileAt (after (.li 0) (withCode runner (wordOf 0x2E 0 0 0 0 7))) 0) 0).toNat = 0 := by decide +kernel
/-- R117, R138: the all-zero word raises ILLEGAL at its own address. -/
theorem test_illegal_word : (tileAt (after (.illegalWord 0) (withCode runner 0#64)) 0).trap = some ⟨1, 0, 0, 0, 0⟩ := by decide +kernel
/-- R221: an object counts modulo 2^64. -/
theorem test_sync_add_wraps :
    (syncGet (after (.syncAddWrite hdr 3 (2 ^ 64 - 1)) { live with sync := { live.sync with objs := [(3, 2#64)] } }) 3).toNat = 1 := by
  decide +kernel
/-- R437, R439: GEN_IDENTIFY answers OK with 80 bytes. -/
theorem test_identify : ((after (.genIdentify { hdr with session := 0 } []) live).host.out.map (fun r => (r.opcode, r.status, r.payload.length))) =
    [(0x0101, 0, 80)] := by decide +kernel
/-- R452: an opcode that the table does not give answers BAD_OPCODE. -/
theorem test_bad_opcode : ((after (.badOpcode hdr 0x0999 []) live).host.out.map (fun r => r.status)) = [4] := by decide +kernel
/-- R468: a tick is 20 ns. -/
theorem test_tick : (after .timeTick live).time.ns = 20 := by decide +kernel
/-- R98: TILE_CTRL RESTORE of a tile that is not RETIRED sets CMD_REJ. -/
theorem test_restore_rejected : (tileAt (after (.tileCtrlRestore hdr 5) live) 5).cmdRej = true := by decide +kernel
/-- FIPS 180-4: SHA-384 of "abc" begins with 0xCB00753F. -/
theorem test_sha384 : (sha384 [0x61, 0x62, 0x63]).take 4 = [0xCB, 0x00, 0x75, 0x3F] := by decide +kernel
/-- CRC-32C of "123456789". -/
theorem test_crc32c : crc32c [0x31, 0x32, 0x33, 0x34, 0x35, 0x36, 0x37, 0x38, 0x39] = 0xE3069283 := by decide +kernel
/-- R66, R125: in binary32, 1 + 1 is 2 and sets no flag. -/
theorem test_fp_add : fpAdd 0x3F800000#32 0x3F800000#32 = (0x40000000#32, 0#6) := by decide +kernel

end Sys2Proof.Tests
end

/-! ### O59: every step leaves the rest of the queue and memory's canonical form -/

namespace Sys2Proof.Machine

/-- The queue holds `P`, and the bytes of memory are in their canonical form. -/
structure Kept (P : List Instr) (s : State) : Prop where
  queue : s.pending = P
  wf : memWf s.mem.cells = true

/-- A step that goes on, to a state with the queue and the form of memory kept. -/
inductive GoesOn (P : List Instr) : Result → Prop
  | next {s : State} (hs : Kept P s) : GoesOn P (.next s)

section Rules

variable {P : List Instr} {s t : State} {α β : Type}

protected theorem Kept.goes (hs : Kept P s) : GoesOn P (.next s) := .next hs

section Updates

variable {fresh : Nat} {regs : Cells W64} {rwo : List Nat} {peat : Peat} {tiles : List Tile} {job : Job}
  {wse : Wse} {sync : Sync} {fab : Fab} {coll : Coll} {red : Red} {pups : Pups} {host : HostIf} {time : TimeB}
  {pwr : Pwr} {light : List Chiplet} {mar : List MarEngine} {cal : Cal} {fw : Fw} {rst : Rst} {m : Mem}

/-- An update of any field but the queue and memory. -/
protected theorem Kept.frame (hs : Kept P s) :
    Kept P ⟨s.pending, fresh, regs, rwo, peat, tiles, job, s.mem, wse, sync, fab, coll, red, pups, host, time,
      pwr, light, mar, cal, fw, rst⟩ :=
  ⟨hs.queue, hs.wf⟩

/-- An update of memory to one whose bytes are in their canonical form. -/
protected theorem Kept.withMem (hs : Kept P s) (hm : memWf m.cells = true) :
    Kept P ⟨s.pending, fresh, regs, rwo, peat, tiles, job, m, wse, sync, fab, coll, red, pups, host, time,
      pwr, light, mar, cal, fw, rst⟩ :=
  ⟨hs.queue, hm⟩

/-- An update of what memory holds beside its bytes. -/
protected theorem Kept.marks {words gran : Cells Mark} {strips : List Strip} {slices : Cells SliceRep}
    {errValid : Bool} {errType errWhere : Nat} {migrate : List (Nat × Nat)} (hs : Kept P s) :
    Kept P ⟨s.pending, fresh, regs, rwo, peat, tiles, job,
      ⟨s.mem.cells, words, gran, strips, slices, errValid, errType, errWhere, migrate⟩, wse, sync, fab, coll,
      red, pups, host, time, pwr, light, mar, cal, fw, rst⟩ :=
  hs.withMem hs.wf

end Updates

section Branches

variable {c : Prop} [Decidable c]

protected theorem Kept.ite {a b : State} (ha : Kept P a) (hb : Kept P b) : Kept P (if c then a else b) := by
  split
  · exact ha
  · exact hb

protected theorem Kept.iteFst {a b : State × α} (ha : Kept P a.1) (hb : Kept P b.1) :
    Kept P (if c then a else b).1 := by
  split
  · exact ha
  · exact hb

/-- A state that a branch changes further. -/
protected theorem Kept.when (hs : Kept P s) (hf : Kept P s → Kept P t) : Kept P (if c then t else s) :=
  .ite (hf hs) hs

/-- A state that the other branch changes further. -/
protected theorem Kept.unless (hs : Kept P s) (hf : Kept P s → Kept P t) : Kept P (if c then s else t) :=
  .ite hs (hf hs)

end Branches

protected theorem Kept.forEach {xs : List α} {f : α → State → State} (hs : Kept P s)
    (hf : ∀ {x s}, Kept P s → Kept P (f x s)) : Kept P (forEach xs f s) := by
  unfold Machine.forEach
  induction xs generalizing s with
  | nil => exact hs
  | cons x xs ih => exact ih (hf hs)

/-- A list of things taken in turn, with what is gathered beside the state. -/
protected theorem Kept.foldlFst {xs : List β} {f : State × α → β → State × α} {p : State × α}
    (hp : Kept P p.1) (hf : ∀ {p x}, Kept P p.1 → Kept P (f p x).1) : Kept P (xs.foldl f p).1 := by
  induction xs generalizing p with
  | nil => exact hp
  | cons x xs ih => exact ih (hf hp)

/-- The state of a pair that a match has taken apart. -/
protected theorem Kept.of_fst {p : State × α} {a : α} (hp : Kept P p.1) (he : p = (s, a)) : Kept P s := by
  rw [he] at hp
  exact hp

protected theorem Kept.of_snd {p : α × State} {a : α} (hp : Kept P p.2) (he : p = (a, s)) : Kept P s := by
  rw [he] at hp
  exact hp

protected theorem Kept.of_some (hs : Kept P s) (he : some s = some t) : Kept P t := Option.some.inj he ▸ hs

end Rules

theorem memWf_filter {m : List Host.Cell} {p : Host.Cell → Bool} (hm : memWf m = true) :
    memWf (m.filter p) = true :=
  Cells.wf_filter 0 m p hm

section Operations

variable {P : List Instr} {s : State} {a bank c cause chunk claim ctx d dest dn dpa e f g i index inst k key
  kind l level limit m n next off old op p plane q rank reason result row src st start strip t type unit v w :
  Nat} {h : Header} {u : TileUnit} {cmd : HostCmd} {b : Bulk} {new ue : Bool} {body bs data payload : List Byte}
  {de : StreamDesc} {x : InUnit} {r : RegRow} {ix ran : List Nat} {rs : List (Nat × Nat × Nat)}

/-! #### `Machine/RegMap` -/

protected theorem Kept.regPut (hs : Kept P s) : Kept P (regPut s r inst ix v) := hs.frame

protected theorem Kept.regPutField {hi lo : Nat} (hs : Kept P s) : Kept P (regPutField s r inst ix hi lo v) :=
  hs.regPut

protected theorem Kept.bumpBy (hs : Kept P s) : Kept P (bumpBy s r inst ix n) := hs.regPut

protected theorem Kept.bump (hs : Kept P s) : Kept P (bump s r inst ix) := hs.bumpBy

/-! #### `Machine/Ops` -/

protected theorem Kept.drawFree (hs : Kept P s) : Kept P (drawFree s).2 := hs.frame

protected theorem Kept.emit {code source : Nat} (hs : Kept P s) : Kept P (emit code source payload s) := by
  unfold emit
  split
  · exact hs.frame.bump
  · exact .ite hs.frame hs.frame.bump

protected theorem Kept.setTile {x : Tile} (hs : Kept P s) : Kept P (setTile t x s) := hs.frame

protected theorem Kept.updTile {f : Tile → Tile} (hs : Kept P s) : Kept P (updTile t f s) := hs.setTile

protected theorem Kept.wakeWaits {v : W64} (hs : Kept P s) : Kept P (wakeWaits i v s) := hs.frame

protected theorem Kept.syncPut {v : W64} (hs : Kept P s) : Kept P (syncPut i v s) := hs.frame.wakeWaits

protected theorem Kept.syncAdd {n : W64} (hs : Kept P s) : Kept P (syncAdd i n s) := hs.syncPut.bump

protected theorem Kept.syncSet {v : W64} (hs : Kept P s) : Kept P (syncSet i v s) := hs.syncPut.bump

protected theorem Kept.raiseSource (hs : Kept P s) : Kept P (raiseSource i s) := hs.frame

protected theorem Kept.localReset (hs : Kept P s) : Kept P (localReset i unit level s) := hs.frame.bump.emit

/-! #### `Machine/CalOps` -/

protected theorem Kept.dropVol (hs : Kept P s) : Kept P (dropVol kind index s) := hs.frame

protected theorem Kept.calAdd {data : List Int} (hs : Kept P s) : Kept P (calAdd kind index data s).1 :=
  .iteFst hs.frame (.iteFst hs.frame.bump.emit hs)

protected theorem Kept.calResult {store : Bool} {data : List Int} (hs : Kept P s) :
    Kept P (calResult store kind index data s).1 := by
  unfold calResult
  refine .iteFst ?_ hs.dropVol.frame
  dsimp only
  split
  · exact hs.calAdd.dropVol
  · exact hs.calAdd

protected theorem Kept.calEnd {gen : Nat} (hs : Kept P s) : Kept P (calEnd kind index result gen s).1 :=
  .ite hs.frame.bump.emit hs.frame.bump.emit

/-! #### `Machine/LightOps` -/

protected theorem Kept.updChip {f : Chiplet → Chiplet} (hs : Kept P s) : Kept P (updChip c f s) := hs.frame

protected theorem Kept.updLaser {f : Laser → Laser} (hs : Kept P s) : Kept P (updLaser c n f s) := hs.updChip

protected theorem Kept.updRing {r : Nat} {f : Ring → Ring} (hs : Kept P s) : Kept P (updRing c r f s) :=
  hs.updChip

protected theorem Kept.updEye {g : Eye → Eye} (hs : Kept P s) : Kept P (updEye c f g s) := hs.updChip

protected theorem Kept.loadString {v : Int} (hs : Kept P s) : Kept P (loadString e i v s) := hs.frame

protected theorem Kept.moveDrive {d : Int} (hs : Kept P s) : Kept P (moveDrive c n d s) := hs.frame

protected theorem Kept.acquireLaser (hs : Kept P s) : Kept P (acquireLaser c n k s) := hs.updLaser.loadString

protected theorem Kept.darkenLaser (hs : Kept P s) : Kept P (darkenLaser c n s) := hs.updLaser

protected theorem Kept.openLaser (hs : Kept P s) : Kept P (openLaser c n s) := by
  unfold openLaser
  dsimp only
  split
  · exact hs
  · exact hs.when (·.updLaser)

protected theorem Kept.dimLaser (hs : Kept P s) : Kept P (dimLaser c n s) := hs.updLaser

protected theorem Kept.dimLane (hs : Kept P s) : Kept P (dimLane i s) := by
  unfold dimLane
  split
  · exact hs.dimLaser
  · exact hs

protected theorem Kept.brightenLane (hs : Kept P s) : Kept P (brightenLane i s) := by
  unfold brightenLane
  split
  · exact hs.when (·.updLaser)
  · exact hs

protected theorem Kept.giveSlot {new : Nat} (hs : Kept P s) : Kept P (giveSlot c old new e s) :=
  hs.updLaser.updLaser

protected theorem Kept.countSwap (hs : Kept P s) : Kept P (countSwap s) := hs.frame

protected theorem Kept.scanRing {r : Nat} (hs : Kept P s) : Kept P (scanRing c r k s) :=
  hs.unless (·.updRing.loadString)

protected theorem Kept.lockRing {r : Nat} (hs : Kept P s) : Kept P (lockRing c r s) := hs.updRing

protected theorem Kept.prebiasRing {r : Nat} (hs : Kept P s) : Kept P (prebiasRing c r s) :=
  hs.unless (·.updRing.loadString)

/-! #### `Machine/FabBase` -/

protected theorem Kept.updLane {f : Lane → Lane} (hs : Kept P s) : Kept P (updLane i f s) := hs.frame

protected theorem Kept.updRx {f : RxCh → RxCh} (hs : Kept P s) : Kept P (updRx i f s) := hs.frame

protected theorem Kept.updSlot {f : PlanSlot → PlanSlot} (hs : Kept P s) : Kept P (updSlot n f s) := hs.frame

protected theorem Kept.updSet {f : LaneSet → LaneSet} (hs : Kept P s) : Kept P (updSet n d new f s) :=
  hs.updSlot

protected theorem Kept.placeUnit {u : OutUnit} (hs : Kept P s) : Kept P (placeUnit n d u s) := hs.updSet

protected theorem Kept.placeFirst {u : OutUnit} (hs : Kept P s) : Kept P (placeFirst n d u s) := hs.updSet

protected theorem Kept.sendUnit {u : OutUnit} (hs : Kept P s) : Kept P (sendUnit d u s) :=
  hs.forEach (·.placeFirst)

protected theorem Kept.filterUnits {keep : Nat → OutUnit → Bool} (hs : Kept P s) :
    Kept P (filterUnits keep s) :=
  hs.frame

protected theorem Kept.fabErr {channel : Nat} (hs : Kept P s) :
    Kept P (fabErr reason plane channel src dest s) :=
  hs.regPut

protected theorem Kept.fabCount (hs : Kept P s) : Kept P (fabCount plane i s) := hs.bump

/-! #### `Machine/TileLife` -/

protected theorem Kept.clearWords (hs : Kept P s) : Kept P (clearWords a n s) := hs.marks

protected theorem Kept.wipeScratch (hs : Kept P s) : Kept P (wipeScratch t s) :=
  (hs.withMem (memWf_memClear _ _ _ hs.wf)).clearWords

protected theorem Kept.applyL1 (hs : Kept P s) : Kept P (applyL1 t s) := hs.updTile.wipeScratch

protected theorem Kept.wipeSlice (hs : Kept P s) : Kept P (wipeSlice t s) :=
  (hs.withMem (memWf_memClear _ _ _ hs.wf)).clearWords

protected theorem Kept.dropSlice (hs : Kept P s) : Kept P (dropSlice t s) := hs.unless (·.wipeSlice)

protected theorem Kept.awaitSlice (hs : Kept P s) : Kept P (awaitSlice t l s) := hs.unless (·.marks)

protected theorem Kept.unloadFor (hs : Kept P s) : Kept P (unloadFor t s) := hs.when (·.frame)

protected theorem Kept.retireTile (hs : Kept P s) : Kept P (retireTile t s) := by
  unfold retireTile
  dsimp only
  split
  · exact hs.unloadFor.updTile.frame.dropSlice.emit
  · split
    · exact hs.unloadFor.updTile.frame.awaitSlice.dropSlice.updTile.emit
    · exact hs.unloadFor.updTile.frame.awaitSlice.dropSlice.emit.emit

protected theorem Kept.haltTile (hs : Kept P s) : Kept P (haltTile t s) := hs.frame.updTile

protected theorem Kept.stopTile (hs : Kept P s) : Kept P (stopTile t s) :=
  hs.when (·.setTile.when (·.haltTile))

protected theorem Kept.noteEnd {e : JobEnd} (hs : Kept P s) : Kept P (noteEnd e s) := hs.when (·.frame)

protected theorem Kept.collEnd {status peer : Nat} {i : Inst} (hs : Kept P s) :
    Kept P (collEnd status peer i s) :=
  hs.frame.unless (·.emit)

protected theorem Kept.stopNow (hs : Kept P s) : Kept P (stopNow s) :=
  (hs.forEach (·.stopTile)).frame.forEach (·.collEnd)

protected theorem Kept.stopJob (hs : Kept P s) : Kept P (stopJob s) := .ite hs (.ite hs.frame hs.stopNow)

protected theorem Kept.settleStop (hs : Kept P s) : Kept P (settleStop s) := hs.when (·.frame.stopNow)

protected theorem Kept.endJob {e : JobEnd} (hs : Kept P s) : Kept P (endJob e s) := hs.noteEnd.stopJob

protected theorem Kept.startTest {k : TestKind} (hs : Kept P s) : Kept P (startTest t k s) := by
  unfold startTest
  exact hs.unloadFor.applyL1.updTile

protected theorem Kept.applyPolicy (hs : Kept P s) : Kept P (applyPolicy t s) := by
  unfold applyPolicy
  refine .ite ?_ hs
  split
  · exact hs
  · exact hs.retireTile
  · exact hs.startTest

protected theorem Kept.tileFaultActive (hs : Kept P s) : Kept P (tileFaultActive s) := hs.frame

protected theorem Kept.faultTile {src : FaultSrc} (hs : Kept P s) : Kept P (faultTile t src s) :=
  .ite hs.updTile (.ite hs.updTile.updTile.emit.updTile.emit.retireTile (.ite
    (hs.updTile.updTile.unloadFor.applyL1.updTile.emit.when (·.endJob)).raiseSource (.ite
    (hs.updTile.updTile.unloadFor.applyL1.updTile.emit.when (·.endJob)).localReset.tileFaultActive
    (hs.updTile.updTile.unloadFor.applyL1.updTile.emit.when
    (·.endJob)).localReset.applyPolicy.tileFaultActive)))

protected theorem Kept.retireWhenFree (hs : Kept P s) : Kept P (retireWhenFree t s) :=
  .ite hs (.ite hs.setTile hs.retireTile)

/-! #### `Machine/RedOps` -/

protected theorem Kept.updAcc {f : AccEntry → AccEntry} (hs : Kept P s) : Kept P (updAcc src f s) := hs.frame

protected theorem Kept.updRed {f : Red → Red} (hs : Kept P s) : Kept P (updRed f s) := hs.frame

protected theorem Kept.sendDatagram {dest : Option Nat} (hs : Kept P s) : Kept P (sendDatagram dest body s) :=
  hs.forEach (·.updRed)

protected theorem Kept.sendClaim (hs : Kept P s) : Kept P (sendClaim type s) := hs.frame.sendDatagram

protected theorem Kept.sendNotice (hs : Kept P s) : Kept P (sendNotice src s) :=
  hs.unless (·.sendUnit.updRed.bump)

protected theorem Kept.enterFenced (hs : Kept P s) : Kept P (enterFenced cause claim s) :=
  .ite hs (hs.frame.updRed.filterUnits.frame.forEach (·.collEnd)).endJob.emit

protected theorem Kept.seePairClaim {b : Nat} (hs : Kept P s) : Kept P (seePairClaim cause a b claim s) :=
  hs.when (·.updRed.when (·.enterFenced))

protected theorem Kept.claimApplied {b new : Nat} (hs : Kept P s) : Kept P (claimApplied a b old new s) :=
  hs.bump.emit

protected theorem Kept.applyTakeover {partner : Nat} (hs : Kept P s) :
    Kept P (applyTakeover src partner claim s) :=
  hs.when (·.updAcc.updAcc.claimApplied)

protected theorem Kept.applyAnnounce {partner prio : Nat} {twin : Bool} (hs : Kept P s) :
    Kept P (applyAnnounce src partner prio claim twin s) :=
  hs.when (·.updAcc.claimApplied)

protected theorem Kept.applyHeaderClaim (hs : Kept P s) : Kept P (applyHeaderClaim src claim s) :=
  hs.when (·.applyTakeover.seePairClaim)

/-! #### `Machine/Memory` -/

protected theorem Kept.updStrip {f : Strip → Strip} (hs : Kept P s) : Kept P (updStrip n f s) := hs.marks

protected theorem Kept.noteErr {where_ : Nat} (hs : Kept P s) : Kept P (noteErr type where_ s) := hs.marks

protected theorem Kept.setGran {m : Mark} (hs : Kept P s) : Kept P (setGran g m s) := hs.marks

protected theorem Kept.degradeStrip (hs : Kept P s) : Kept P (degradeStrip n cause s) :=
  hs.when (·.updStrip.emit)

protected theorem Kept.spoilBulks (hs : Kept P s) : Kept P (spoilBulks n s) := hs.frame

protected theorem Kept.offlineStrip (hs : Kept P s) : Kept P (offlineStrip n cause s) :=
  hs.unless (·.updStrip.spoilBulks.emit)

protected theorem Kept.granCe (hs : Kept P s) : Kept P (granCe g s) := hs.setGran.updStrip.noteErr.emit

protected theorem Kept.granUe (hs : Kept P s) : Kept P (granUe g s) := hs.setGran.updStrip.noteErr.emit

protected theorem Kept.retireGran (hs : Kept P s) : Kept P (retireGran g s) := by
  unfold retireGran
  split
  · exact hs.granCe
  · exact hs.granUe
  · exact hs

protected theorem Kept.settleStrip (hs : Kept P s) : Kept P (settleStrip n s) :=
  .ite (hs.when (·.offlineStrip)).offlineStrip (hs.when (·.offlineStrip))

protected theorem Kept.retireRow (hs : Kept P s) : Kept P (retireRow n row s) :=
  .ite hs.settleStrip (.ite ((hs.unless (·.forEach (·.retireGran))).frame.updStrip.emit.when
    (·.degradeStrip)).settleStrip (hs.unless (·.forEach
    (·.retireGran))).frame.updStrip.emit.degradeStrip.settleStrip)

protected theorem Kept.countRowCe (hs : Kept P s) : Kept P (countRowCe n row s) :=
  hs.updStrip.when (·.retireRow)

protected theorem Kept.readGran (hs : Kept P s) : Kept P (readGran g s).1 := by
  unfold readGran
  refine .iteFst hs ?_
  split
  · exact hs
  · exact hs.noteErr
  · exact hs.granCe.countRowCe
  · exact hs.granUe.retireRow

protected theorem Kept.readGrans {gs : List Nat} (hs : Kept P s) : Kept P (readGrans gs s).1 :=
  hs.foldlFst (·.readGran)

protected theorem Kept.ddrRead (hs : Kept P s) : Kept P (ddrRead dpa n s).1 := hs.readGrans

protected theorem Kept.clearGrans (hs : Kept P s) : Kept P (clearGrans dpa n s) := hs.marks

/-- R170, R172: the bytes that reach their rows are laid down in order. -/
protected theorem Kept.ddrWrite (hs : Kept P s) : Kept P (ddrWrite dpa bs s).1 := by
  unfold ddrWrite
  dsimp only
  split
  · exact hs.clearGrans.withMem (memWf_memWrite _ _ _ hs.clearGrans.wf)
  · exact hs.forEach fun hs => hs.clearGrans.withMem (memWf_memWrite _ _ _ hs.clearGrans.wf)

protected theorem Kept.setWord {m : Mark} (hs : Kept P s) : Kept P (setWord w m s) := hs.marks

protected theorem Kept.scratchCe (hs : Kept P s) : Kept P (scratchCe t s) :=
  hs.updTile.emit.when (·.retireWhenFree)

protected theorem Kept.scratchCheck (hs : Kept P s) : Kept P (scratchCheck t off n s).1 := by
  unfold scratchCheck
  refine hs.foldlFst ?_
  intro _ _ hs
  split
  · exact hs
  · exact hs.setWord.scratchCe
  · exact hs

protected theorem Kept.updSlice {f : SliceRep → SliceRep} (hs : Kept P s) : Kept P (updSlice t f s) :=
  hs.marks

protected theorem Kept.noSpare (hs : Kept P s) : Kept P (noSpare t s) := hs.updSlice.emit

protected theorem Kept.sparesOut (hs : Kept P s) : Kept P (sparesOut t s) := hs.noSpare.retireWhenFree

protected theorem Kept.countRepair (hs : Kept P s) : Kept P (countRepair s) := hs.frame

protected theorem Kept.wordCe (hs : Kept P s) : Kept P (wordCe t off s) := hs.setWord.updSlice.noteErr.emit

protected theorem Kept.wordUe (hs : Kept P s) : Kept P (wordUe t off s) := hs.setWord.noteErr.emit

protected theorem Kept.copyWord (hs : Kept P s) : Kept P (copyWord t w s) := by
  unfold copyWord
  split
  · exact hs.wordCe
  · exact hs.wordUe
  · exact hs

protected theorem Kept.repairRow (hs : Kept P s) : Kept P (repairRow t bank row s) :=
  .ite hs.sparesOut (hs.forEach (·.copyWord)).updSlice.countRepair.emit

protected theorem Kept.wantColumn {col : Nat} (hs : Kept P s) : Kept P (wantColumn t bank col s) :=
  .ite hs (.ite hs.sparesOut hs.updSlice)

protected theorem Kept.rewriteBank (hs : Kept P s) : Kept P (rewriteBank t bank s) := hs.marks

protected theorem Kept.repairColumn {col : Nat} (hs : Kept P s) : Kept P (repairColumn t bank col s) :=
  hs.rewriteBank.updSlice.countRepair.emit

protected theorem Kept.sliceCe {bit : Nat} (hs : Kept P s) : Kept P (sliceCe t off bit s) :=
  .ite (hs.wordCe.updSlice.when (·.wantColumn)).repairRow (hs.wordCe.updSlice.when (·.wantColumn))

protected theorem Kept.sliceUe (hs : Kept P s) : Kept P (sliceUe t off s) := hs.wordUe.unless (·.repairRow)

protected theorem Kept.sliceCheck (hs : Kept P s) : Kept P (sliceCheck t off n s).1 := by
  unfold sliceCheck
  refine hs.foldlFst ?_
  intro _ _ hs
  dsimp only
  split
  · exact hs
  · exact hs.setWord.sliceCe
  · exact hs.sliceUe

/-- R179: the words' marks are settled first, and the bytes are then laid down. -/
protected theorem Kept.sramWrite {key : Nat} {ce : Nat → Nat → State → State} (hs : Kept P s)
    (hce : ∀ {w b s}, Kept P s → Kept P (ce w b s)) : Kept P (sramWrite key bs ce s) := by
  have hw : ∀ {ws : List Nat}, Kept P (ws.foldl (fun st w =>
      if decide (key ≤ w * 16 ∧ w * 16 + 16 ≤ key + bs.length) then setWord w .clean st
      else match Cells.get .clean st.mem.words w with
        | .single b => ce (w * 16) b (setWord w .clean st)
        | .double => setWord w .bad st
        | _ => st) s) := by
    intro ws
    refine Kept.forEach (xs := ws) hs ?_
    intro w s hs
    refine .ite hs.setWord ?_
    split
    · exact hce hs.setWord
    · exact hs.setWord
    · exact hs
  exact hw.withMem (memWf_memWrite _ _ _ hw.wf)

protected theorem Kept.scratchWrite (hs : Kept P s) : Kept P (scratchWrite t off bs s) :=
  hs.sramWrite (·.scratchCe)

protected theorem Kept.sliceWrite (hs : Kept P s) : Kept P (sliceWrite t off bs s) := hs.sramWrite (·.sliceCe)

protected theorem Kept.tileLoad (hs : Kept P s) : Kept P (tileLoad t a n s).1 := by
  unfold tileLoad
  split
  · exact hs
  · refine .iteFst hs ?_
    dsimp only
    split
    · exact hs.scratchCheck
    · exact .iteFst hs.scratchCheck hs.scratchCheck.faultTile
  · refine .iteFst hs ?_
    dsimp only
    split <;> exact hs.sliceCheck
  · refine .iteFst hs ?_
    dsimp only
    split <;> exact hs.ddrRead

protected theorem Kept.storeBytes (hs : Kept P s) : Kept P (storeBytes t a bs s) := by
  unfold storeBytes
  split
  · exact hs
  · exact hs.when (·.scratchWrite)
  · exact hs.when (·.sliceWrite)
  · exact hs.ddrWrite

protected theorem Kept.tileStore (hs : Kept P s) : Kept P (tileStore t a bs s).1 := by
  unfold tileStore
  split
  · exact hs
  · exact hs.storeBytes

protected theorem Kept.spoilKeys {ks : List Nat} (hs : Kept P s) : Kept P (spoilKeys ks s) := by
  have hw : ∀ {m : List Host.Cell}, memWf m = true →
      memWf (ks.foldl (fun m k => memWrite m k [Config.overlapByte s.fresh k]) m) = true := by
    induction ks with
    | nil => exact id
    | cons k ks ih => exact fun hm => ih (memWf_memWrite _ _ _ hm)
  exact hs.unless (·.withMem (hw hs.wf))

protected theorem Kept.strike {ups : List Upset} (hs : Kept P s) : Kept P (strike ups s) := by
  unfold strike
  refine hs.forEach ?_
  intro _ _ hs
  dsimp only
  split
  · exact hs.setGran
  · exact hs.setWord
  · exact hs.setWord

/-! #### `Machine/Issue` -/

protected theorem Kept.fetchWord (hs : Kept P s) : Kept P (fetchWord t s).1 := by
  unfold fetchWord
  refine .iteFst ?_ hs
  split
  next heq => exact hs.scratchCheck.of_fst heq
  next heq => exact (hs.scratchCheck.of_fst heq).faultTile

protected theorem Kept.nextInsn (hs : Kept P s) : Kept P (nextInsn t s).1 := by
  unfold nextInsn
  split
  next heq => exact hs.fetchWord.of_fst heq
  next heq => exact .iteFst (hs.fetchWord.of_fst heq) (hs.fetchWord.of_fst heq)

protected theorem Kept.runInsn {f : Insn → State → State} (hs : Kept P s)
    (hf : ∀ {a : Insn} {s : State}, Kept P s → Kept P (f a s)) : Kept P (runInsn op t f s) := by
  unfold runInsn
  split
  next heq => exact .ite (hf (hs.nextInsn.of_fst heq)) hs
  next heq => exact hs.unless (·.nextInsn.of_fst heq)

protected theorem Kept.raiseExc {pc addr flags : Nat} (hs : Kept P s) :
    Kept P (raiseExc t cause unit pc addr flags s) :=
  hs.unless (·.when (·.setTile.noteEnd))

protected theorem Kept.raiseHere {addr : Nat} (hs : Kept P s) : Kept P (raiseHere t cause addr s) :=
  hs.raiseExc

protected theorem Kept.goTo {target : Int} (hs : Kept P s) : Kept P (goTo t target s) :=
  .ite hs.setTile hs.setTile.raiseExc

protected theorem Kept.stepOver (hs : Kept P s) : Kept P (stepOver t s) := hs.goTo

protected theorem Kept.jumpBy {imm : Nat} (hs : Kept P s) : Kept P (jumpBy t imm s) := hs.goTo

protected theorem Kept.aluReg {f : W32 → W32 → W32} (hs : Kept P s) : Kept P (aluReg op f t s) :=
  hs.runInsn (·.updTile.stepOver)

protected theorem Kept.aluImm {f : W32 → W32 → W32} (hs : Kept P s) : Kept P (aluImm op f t s) :=
  hs.runInsn (·.updTile.stepOver)

protected theorem Kept.branchOn {c : W32 → W32 → Bool} (hs : Kept P s) : Kept P (branchOn op c t s) :=
  hs.runInsn fun hs => .ite hs.jumpBy hs.stepOver

protected theorem Kept.simpleInsn {f : Insn → Tile → Tile} (hs : Kept P s) : Kept P (simpleInsn op f t s) :=
  hs.runInsn (·.updTile.stepOver)

/-- R122: a load whose strip is TRAINING leaves even what fetching has counted. -/
protected theorem Kept.scalarLoad {put : Insn → List Byte → Tile → Tile} (hs : Kept P s) :
    Kept P (scalarLoad op n put t s) := by
  refine hs.runInsn ?_
  intro _ _ hs0
  refine .ite hs0.raiseHere ?_
  split
  next heq => exact (hs0.tileLoad.of_fst heq).updTile.stepOver
  next heq => exact (hs0.tileLoad.of_fst heq).raiseHere
  next heq => exact (hs0.tileLoad.of_fst heq).faultTile
  · exact hs

protected theorem Kept.scalarStore {val : Insn → Tile → Nat} (hs : Kept P s) :
    Kept P (scalarStore op n val t s) := by
  refine hs.runInsn ?_
  intro _ _ hs0
  refine .ite hs0.raiseHere ?_
  split
  next heq => exact (hs0.tileStore.of_fst heq).updTile.stepOver
  next heq => exact (hs0.tileStore.of_fst heq).raiseHere
  next heq => exact (hs0.tileStore.of_fst heq).faultTile
  · exact hs

protected theorem Kept.issueTo (hs : Kept P s) : Kept P (issueTo op u t s) := by
  unfold issueTo
  split
  next heq => exact hs.unless (·.fetchWord.of_fst heq)
  next heq => exact .ite (hs.fetchWord.of_fst heq).setTile.stepOver hs

/-! #### `Machine/Units` -/

/-- What an entry of a queue comes to keeps the queue of commands and the form of memory. -/
def RanKept (P : List Instr) : Ran → Prop
  | .done s _ => Kept P s
  | .exc s _ _ => Kept P s
  | .fault s _ => Kept P s
  | .held => True

protected theorem RanKept.ite {c : Prop} [Decidable c] {a b : Ran} (ha : RanKept P a) (hb : RanKept P b) :
    RanKept P (if c then a else b) := by
  split
  · exact ha
  · exact hb

protected theorem Kept.vectorLoad {al : Nat} {i : Insn} {f : List Byte → Tile → Tile × Flags} (hs : Kept P s) :
    RanKept P (vectorLoad t n al i f s) := by
  unfold vectorLoad
  dsimp only
  split
  · exact hs
  · split
    next heq => exact (hs.tileLoad.of_fst heq).setTile
    next heq => exact hs.tileLoad.of_fst heq
    next heq => exact hs.tileLoad.of_fst heq
    · trivial

protected theorem Kept.vectorStore {al : Nat} {i : Insn} {f : Tile → List Byte × Flags × BitVec 16}
    (hs : Kept P s) : RanKept P (vectorStore t n al i f s) := by
  unfold vectorStore
  dsimp only
  split
  · exact hs
  · split
    · exact hs
    · trivial
    · exact hs.storeBytes.updTile

protected theorem Kept.runVector {i : Insn} (hs : Kept P s) : RanKept P (runVector t i s) := by
  unfold runVector
  dsimp only
  split
  · exact hs.setTile
  · split_ifs
    · exact hs.vectorLoad
    · exact hs.vectorStore
    · exact hs.vectorStore
    · exact hs.vectorLoad

protected theorem Kept.readBlocks {addrs : List Nat} (hs : Kept P s) :
    Kept P (readBlocks t n addrs s).st := by
  have hr : ∀ {r : OperandRead}, Kept P r.st → Kept P (addrs.foldl (fun r a =>
      match tileLoad t a n r.st with
      | (s', .ok bs) => { r with st := s', blocks := r.blocks ++ [bs] }
      | (s', e) => { st := s', blocks := r.blocks ++ [[]], bad := worstOf r.bad (some e) }) r).st := by
    induction addrs with
    | nil => exact id
    | cons b addrs ih =>
      intro r hr
      refine ih ?_
      dsimp only
      split
      next he => exact hr.tileLoad.of_fst he
      next he => exact hr.tileLoad.of_fst he
  exact hr (r := { st := s }) hs

/-- R66, R127: only the operands' blocks are read. -/
protected theorem Kept.runMma {i : Insn} (hs : Kept P s) : RanKept P (runMma t i s) := by
  unfold runMma
  dsimp only
  refine .ite hs (.ite hs ?_)
  split
  · exact hs
  · refine .ite hs ?_
    split
    · exact hs.readBlocks.readBlocks
    · trivial
    · refine .ite hs.readBlocks.readBlocks ?_
      split
      · exact hs.readBlocks.readBlocks
      · exact hs.readBlocks.readBlocks.setTile

protected theorem Kept.runAccpack {i : Insn} (hs : Kept P s) : RanKept P (runAccpack t i s) := by
  unfold runAccpack
  dsimp only
  generalize (List.range 128).map
    (fun r => (aGet (tileAt s t) i.d).toNat + r * (sGet (tileAt s t) i.b).toNat) = addrs
  split
  · exact hs
  · split
    · exact hs
    · exact Kept.updTile
        (Kept.forEach (f := fun (p : Nat × List Byte) st => storeBytes t p.1 p.2 st) hs (·.storeBytes))

protected theorem Kept.runMatrix {i : Insn} (hs : Kept P s) : RanKept P (runMatrix t i s) := by
  unfold runMatrix
  dsimp only
  split_ifs
  · exact hs.setTile
  · exact hs.runMma
  · exact hs.setTile
  · exact hs.runAccpack
  · exact hs
  · exact hs.setTile
  · exact hs.setTile

protected theorem Kept.movRows {fs ts b : Nat} {s0 : State} (hs : Kept P s) :
    Kept P (movRows t n fs ts s0 k a b s).1 := by
  induction k generalizing s a b with
  | zero => exact hs
  | succ k ih =>
    unfold movRows
    split
    · rename_i hl
      have hs1 := hs.tileLoad.of_fst hl
      split
      next hw => exact ih (hs1.tileStore.of_fst hw)
      · exact hs1.tileStore
    · exact hs.tileLoad

protected theorem Kept.runMov {i : Insn} (hs : Kept P s) : RanKept P (runMov t i s) := by
  unfold runMov
  dsimp only
  refine .ite hs (.ite hs ?_)
  split
  · exact hs
  · refine .ite hs ?_
    split
    next heq => exact (hs.movRows.of_fst heq).spoilKeys.when (·.syncAdd)
    next heq => exact hs.movRows.of_fst heq
    next heq => exact hs.movRows.of_fst heq
    · trivial

protected theorem Kept.runMover {i : Insn} (hs : Kept P s) : RanKept P (runMover t i s) := by
  unfold runMover
  split
  · exact hs.updTile
  · exact hs.runMov

protected theorem Kept.dropEntry (hs : Kept P s) : Kept P (dropEntry t u k s) := hs.updTile

protected theorem Kept.raiseFlags {pc : Nat} {fl : Flags} (hs : Kept P s) :
    Kept P (raiseFlags t unit pc fl s) :=
  hs.updTile.unless (·.raiseExc)

protected theorem Kept.settleEntry {unit : Nat} {y : QEntry} {r : Ran} (hs : Kept P s) (hr : RanKept P r) :
    Kept P (settleEntry t u unit k y s r) := by
  cases r with
  | done s' fl => exact Kept.dropEntry (Kept.raiseFlags hr)
  | exc s' c ad => exact Kept.dropEntry (Kept.raiseExc hr)
  | fault s' src => exact Kept.faultTile hr
  | held => exact hs

/-! #### `Machine/CollBase` -/

protected theorem Kept.engineRead (hs : Kept P s) : Kept P (engineRead a n s).1 := by
  unfold engineRead
  split
  · exact hs.ddrRead
  · exact .iteFst hs hs.sliceCheck
  · exact hs

protected theorem Kept.engineWrite (hs : Kept P s) : Kept P (engineWrite a bs s) := hs.storeBytes

protected theorem Kept.readElems {fmt : Nat} (hs : Kept P s) : Kept P (readElems fmt a e n s).1 :=
  hs.engineRead

protected theorem Kept.updColl {f : Coll → Coll} (hs : Kept P s) : Kept P (updColl f s) := hs.frame

protected theorem Kept.updInst {f : Inst → Inst} (hs : Kept P s) : Kept P (updInst ctx f s) := hs.updColl

protected theorem Kept.collCount (hs : Kept P s) : Kept P (collCount i s) := hs.bump

protected theorem Kept.ownElems {i : Inst} (hs : Kept P s) : Kept P (ownElems i k s).1 := hs.readElems

protected theorem Kept.openSlot (hs : Kept P s) : Kept P (openSlot ctx k s) := by
  unfold openSlot
  split
  · exact hs
  · exact hs.ownElems.updInst

protected theorem Kept.closeSlot (hs : Kept P s) : Kept P (closeSlot ctx k s) := by
  unfold closeSlot
  split
  · exact hs
  · split
    · exact hs.when (·.engineWrite.updInst)
    · exact hs

protected theorem Kept.sendCtl {i : Inst} {sub total : Nat} (hs : Kept P s) :
    Kept P (sendCtl dest i sub off total data s) :=
  hs.updColl

protected theorem Kept.takeSlots (hs : Kept P s) : Kept P (takeSlots ctx s) := by
  unfold takeSlots
  split
  · exact hs
  · exact hs.unless (·.forEach (·.openSlot))

protected theorem Kept.grantCredit (hs : Kept P s) : Kept P (grantCredit ctx s) := by
  unfold grantCredit
  split
  · exact hs
  · exact hs.unless (·.forEach (·.when (·.updInst.sendCtl)))

protected theorem Kept.pumpColl (hs : Kept P s) : Kept P (pumpColl s) := hs.forEach (·.takeSlots.grantCredit)

/-! #### `Machine/CollTx` -/

protected theorem Kept.takeSeq (hs : Kept P s) : Kept P (takeSeq d s).1 := by
  unfold takeSeq
  dsimp only
  exact hs.updColl

protected theorem Kept.sendPiece {i : Inst} {p : CollPiece} (hs : Kept P s) : Kept P (sendPiece i d p s).2 :=
  hs.takeSeq.collCount

protected theorem Kept.contribution {i : Inst} (hs : Kept P s) : Kept P (contribution i rank e n s).1 :=
  hs.readElems

protected theorem Kept.ringPiece {i : Inst} {p : CollPeer} {y : CollPiece} {s' : State} (hs : Kept P s)
    (he : ringPiece i p s = some (y, s')) : Kept P s' := by
  unfold ringPiece at he
  obtain ⟨-, he⟩ := Option.ite_none_left_eq_some.1 he
  split at he
  · cases he
    exact hs.updInst
  · obtain ⟨-, he⟩ := Option.ite_none_left_eq_some.1 he
    cases he
    exact hs.readElems.updInst

protected theorem Kept.streamElems {i : Inst} {pos : Nat} (hs : Kept P s) :
    Kept P (streamElems i rank pos n s).1 :=
  .iteFst hs.readElems (.iteFst hs.readElems hs.readElems)

protected theorem Kept.dataPiece {i : Inst} {p : CollPeer} {y : CollPiece × Nat × State} (hs : Kept P s)
    (he : dataPiece i p k l s = some y) : Kept P y.2.2 := by
  obtain ⟨-, he⟩ := Option.ite_none_left_eq_some.1 he
  cases he
  exact hs.streamElems

protected theorem Kept.proposePiece {i : Inst} {p : CollPeer} {y : CollPiece} {s' : State} (hs : Kept P s)
    (he : proposePiece i p s = some (y, s')) : Kept P s' := by
  obtain ⟨-, he⟩ := Option.ite_none_left_eq_some.1 he
  cases he
  exact Kept.updInst (Kept.foldlFst (p := (s, [])) hs (·.contribution))

protected theorem Kept.instPiece {i : Inst} {y : CollPiece} {s' : State} (hs : Kept P s)
    (he : instPiece i d s = some (y, s')) : Kept P s' := by
  unfold instPiece at he
  dsimp only at he
  split at he
  · cases he
  · split at he
    · exact hs.ringPiece he
    · split at he
      · obtain ⟨z, hz, hy⟩ := Option.map_eq_some_iff.1 he
        cases hy
        exact (hs.dataPiece hz).updInst.bumpBy
      · split at he
        · rename_i hp
          cases he
          split at hp
          · exact hs.proposePiece hp
          · cases hp
        · obtain ⟨z, hz, hy⟩ := Option.map_eq_some_iff.1 he
          cases hy
          exact (hs.dataPiece hz).updInst

protected theorem Kept.firstPiece {is : List Inst} {y : OutUnit} {s' : State} (hs : Kept P s)
    (he : firstPiece d s is = some (y, s')) : Kept P s' := by
  induction is with
  | nil => cases he
  | cons i is ih =>
    unfold firstPiece at he
    split at he
    next hp => exact (hs.instPiece hp).sendPiece.of_snd (Option.some.inj he)
    · exact ih he

protected theorem Kept.sendAgreed {i : Inst} {group first : Nat} {es : List Nat} (hs : Kept P s) :
    Kept P (sendAgreed i group start first es s) :=
  hs.forEach (·.sendCtl)

protected theorem Kept.postponeBurst {i : Inst} {b : Burst} (hs : Kept P s) : Kept P (postponeBurst i b s) :=
  hs.updColl.sendAgreed

protected theorem Kept.sendCtlUnit {i : Inst} {u : CtlUnit} (hs : Kept P s) : Kept P (sendCtlUnit i u s).2 :=
  hs.updColl.sendPiece

protected theorem Kept.nextCollUnit {y : OutUnit} {s' : State} (hs : Kept P s)
    (he : nextCollUnit n d s = some (y, s')) : Kept P s' := by
  unfold nextCollUnit at he
  dsimp only at he
  split at he
  · cases he
  · split at he
    · split at he
      · split at he
        · exact hs.sendCtlUnit.of_snd (Option.some.inj he)
        · obtain ⟨z, hz, hy⟩ := Option.map_eq_some_iff.1 he
          exact hs.postponeBurst.sendCtlUnit.of_snd hy
      · cases he
    · exact hs.firstPiece he

/-! #### `Machine/CollRx` -/

protected theorem Kept.scheduleBurst {i : Inst} {spans : List (Nat × Nat)} (hs : Kept P s) :
    Kept P (scheduleBurst i g spans s) :=
  hs.updColl.sendAgreed

protected theorem Kept.dealBurst {spans : List (Nat × Nat)} (hs : Kept P s) :
    Kept P (dealBurst ctx g spans s) := by
  unfold dealBurst
  split
  · exact hs
  · exact (hs.when (·.updColl.scheduleBurst)).scheduleBurst.updColl.updInst

protected theorem Kept.dealLoop (hs : Kept P s) : Kept P (dealLoop ctx n s) := by
  induction n generalizing s with
  | zero => exact hs
  | succ n ih =>
    unfold dealLoop
    split
    · exact hs
    · split
      · exact hs
      · split
        · exact hs
        · exact ih hs.dealBurst

protected theorem Kept.dealSpans (hs : Kept P s) : Kept P (dealSpans s) := hs.forEach (·.dealLoop)

protected theorem Kept.takeSpan {i : Inst} {span : Nat} {nan : Bool} (hs : Kept P s) :
    Kept P (takeSpan i span nan s) :=
  hs.updInst.closeSlot

protected theorem Kept.settleSpan {x : SpanExp} (hs : Kept P s) : Kept P (settleSpan ctx x s) := by
  unfold settleSpan
  split
  · exact hs
  · exact hs.when (·.sendAgreed.updInst.takeSpan)

protected theorem Kept.applySkew {skew : Nat} (hs : Kept P s) : Kept P (applySkew p k skew s) := by
  unfold applySkew
  split
  · exact hs
  · exact hs.frame

protected theorem Kept.resendBurst (hs : Kept P s) : Kept P (resendBurst ctx m start plane s) := by
  unfold resendBurst
  split
  · exact hs
  · split
    · exact hs
    · exact hs.updInst

/-- A unit that is applied keeps the queue and the form of memory. -/
def TakenKept (P : List Instr) : Taken → Prop
  | .ok s => Kept P s
  | .error _ => True

protected theorem TakenKept.ite {c : Prop} [Decidable c] {a b : Taken} (ha : TakenKept P a) (hb : TakenKept P b) :
    TakenKept P (if c then a else b) := by
  split
  · exact ha
  · exact hb

protected theorem TakenKept.map {f : State → State} {r : Taken} (hr : TakenKept P r)
    (hf : ∀ {s}, Kept P s → Kept P (f s)) : TakenKept P (r.map f) := by
  cases r with
  | ok s => exact hf hr
  | error _ => trivial

protected theorem Kept.takeDirect {i : Inst} {p : CollPeer} (hs : Kept P s) :
    TakenKept P (takeDirect i p off n data s) := by
  unfold takeDirect
  dsimp only
  split
  · trivial
  · exact .ite trivial (.ite trivial (.ite trivial (Kept.ite hs.updInst.updInst.closeSlot hs.updInst.engineWrite)))

protected theorem Kept.takeRing {i : Inst} {p : CollPeer} {step : Nat} (hs : Kept P s) :
    TakenKept P (takeRing i p step off n data s) :=
  .ite trivial (Kept.ite (.ite hs.updInst.readElems.updInst
      (.ite hs.updInst.readElems.engineWrite.updInst hs.updInst.readElems.engineWrite))
    (.ite hs.updInst.engineWrite.updInst hs.updInst.engineWrite))

protected theorem Kept.takeProposals {i : Inst} {p : CollPeer} {first : Nat} (hs : Kept P s) :
    TakenKept P (takeProposals i p first n data s) := by
  refine .ite trivial ?_
  dsimp only
  split
  · exact (hs.updInst.forEach (·.settleSpan)).dealSpans
  · exact hs.updInst

protected theorem Kept.takeAgreed {i : Inst} {p : CollPeer} {first : Nat} (hs : Kept P s) :
    TakenKept P (takeAgreed i p first n data s) :=
  .ite trivial (.ite hs hs.updInst)

protected theorem Kept.takeResend {i : Inst} {p : CollPeer} (hs : Kept P s) :
    TakenKept P (takeResend i p off n data s) := by
  refine .ite ?_ (hs.forEach (·.resendBurst))
  split
  · trivial
  · exact hs.updInst

protected theorem Kept.takeUnit {i : Inst} {p : CollPeer} {y : FabUnit} (hs : Kept P s) :
    TakenKept P (takeUnit i p y s) := by
  unfold takeUnit
  dsimp only
  split
  · split
    · exact hs.takeRing
    · exact hs.takeDirect
  · exact hs.updInst
  · exact hs.takeProposals
  · exact hs.takeAgreed
  · exact hs.forEach (·.applySkew)
  · exact hs.takeResend
  · trivial

/-- R321: a unit is applied where it is waited for, or discarded. -/
protected theorem Kept.collApply {y : FabUnit} (hs : Kept P s) : Kept P (collApply src y s) := by
  unfold collApply
  dsimp only
  split
  · rename_i s1 heq
    have hk : TakenKept P (.ok s1) := by
      rw [← heq]
      split
      · split
        · exact hs.collCount.takeUnit.map (·.pumpColl)
        · trivial
      · exact .ite hs.collCount.updColl trivial
    exact Kept.bump hk
  · exact hs.collCount.collCount
  · exact hs.collCount.bump

/-! #### `Machine/FabOps` -/

protected theorem Kept.resendLane (hs : Kept P s) : Kept P (resendLane i s) := by
  unfold resendLane
  dsimp only
  split
  · exact hs
  · exact hs.updSet.updLane

protected theorem Kept.ackSet {ack : Nat} (hs : Kept P s) : Kept P (ackSet n d new ack s) := by
  unfold ackSet
  split
  · exact hs
  · exact hs.when (·.updSet.frame)

protected theorem Kept.markLost (hs : Kept P s) : Kept P (markLost i s) := by
  unfold markLost
  dsimp only
  split
  · exact hs
  · exact hs.updSet

protected theorem Kept.darkenLane (hs : Kept P s) : Kept P (darkenLane i s) := by
  unfold darkenLane
  split
  · exact hs.darkenLaser
  · exact hs

protected theorem Kept.faultLane (hs : Kept P s) : Kept P (faultLane i reason s) :=
  .ite hs (.ite (hs.unless (·.darkenLane.updLane)) (hs.markLost.resendLane.updLane.unless
    (·.darkenLane)).fabErr.fabCount.emit)

protected theorem Kept.faultRx (hs : Kept P s) : Kept P (faultRx i reason src dest s) :=
  hs.unless (·.updRx.fabErr.fabCount)

protected theorem Kept.losePeer {n : Option Nat} (hs : Kept P s) : Kept P (losePeer n d s) := hs.frame

protected theorem Kept.failAll {status : Nat} (hs : Kept P s) : Kept P (failAll status s) := hs.frame

protected theorem Kept.plannedSwap {trigger : Nat} (hs : Kept P s) : Kept P (plannedSwap c n trigger s) := by
  unfold plannedSwap
  dsimp only
  split
  · exact (hs.giveSlot.updLaser.when (·.openLaser)).countSwap.bump.emit
  · exact hs

protected theorem Kept.relightLane (hs : Kept P s) : Kept P (relightLane i k s) := by
  unfold relightLane
  dsimp only
  split
  · exact hs
  · exact .ite hs.plannedSwap (.ite hs (.ite hs (.ite hs.openLaser hs.acquireLaser)))

protected theorem Kept.releaseLane {next : Option (Nat × Phase)} (hs : Kept P s) :
    Kept P (releaseLane n next i s) := by
  unfold releaseLane
  dsimp only
  split
  · exact hs.resendLane.updLane
  · split
    · refine Kept.updLane ?_
      split
      · exact hs.resendLane.updLaser
      · exact hs.resendLane
    · exact hs.resendLane.relightLane.updLane

protected theorem Kept.releaseRx {next : Option (Nat × Phase)} (hs : Kept P s) :
    Kept P (releaseRx n next i s) := by
  unfold releaseRx
  dsimp only
  split
  · exact hs.updRx
  · split
    · exact hs.prebiasRing.updRx
    · exact (hs.unless (·.scanRing)).updRx

protected theorem Kept.recordDisarm (hs : Kept P s) : Kept P (recordDisarm n reason s) := hs.emit

protected theorem Kept.cutPuts (hs : Kept P s) : Kept P (cutPuts n s) := hs.frame

protected theorem Kept.retargetSwap (hs : Kept P s) : Kept P (retargetSwap i s) := by
  unfold retargetSwap
  split
  · exact hs
  · split
    · exact hs
    · exact hs.when (·.acquireLaser)

protected theorem Kept.retargetAll (hs : Kept P s) : Kept P (retargetAll n s) := hs.forEach (·.retargetSwap)

protected theorem Kept.dropPlan (hs : Kept P s) : Kept P (dropPlan n reason s) :=
  .ite ((hs.cutPuts.forEach (·.releaseLane)).forEach (·.releaseRx)).updSlot.retargetAll.recordDisarm.settleStop hs

protected theorem Kept.settleSync (hs : Kept P s) : Kept P (settleSync n s) := by
  unfold settleSync
  dsimp only
  split
  · exact hs.when (·.updSlot)
  · exact hs

protected theorem Kept.finishSwitch (hs : Kept P s) : Kept P (finishSwitch n s) := by
  unfold finishSwitch
  refine .ite ?_ hs
  dsimp only
  split
  · exact hs.frame.updSlot.retargetAll.settleSync.settleStop
  · exact hs.frame.updSlot.retargetAll.recordDisarm.settleStop
  · exact hs.frame

protected theorem Kept.noteSpineWait (hs : Kept P s) : Kept P (noteSpineWait n s) := by
  unfold noteSpineWait
  dsimp only
  split
  · exact hs
  · exact hs.forEach (·.frame.emit)

protected theorem Kept.releaseAll {lanes rxs : List Nat} (hs : Kept P s) :
    Kept P (releaseAll n lanes rxs s) :=
  ((hs.forEach (·.releaseLane)).forEach (·.releaseRx)).finishSwitch

protected theorem Kept.releaseFree (hs : Kept P s) : Kept P (releaseFree n s) := hs.releaseAll

protected theorem Kept.startSwitch {goal : SwitchTo} (hs : Kept P s) : Kept P (startSwitch n goal s) := by
  unfold startSwitch
  refine Kept.releaseFree ?_
  split
  · exact hs.updSlot.noteSpineWait.updSlot
  · exact hs.updSlot.noteSpineWait

/-! #### `Machine/TimeOps` -/

protected theorem Kept.updTime {f : TimeB → TimeB} (hs : Kept P s) : Kept P (updTime f s) := hs.frame

protected theorem Kept.updDomain {f : Domain → Domain} (hs : Kept P s) : Kept P (updDomain m f s) :=
  hs.updTime

protected theorem Kept.timeCount (hs : Kept P s) : Kept P (timeCount m i s) := hs.bump

protected theorem Kept.newCorr (hs : Kept P s) : Kept P (newCorr s) := by
  unfold newCorr
  exact hs.drawFree.updTime

protected theorem Kept.timeUnits {u : Nat} (hs : Kept P s) : Kept P (timeUnits u s) := hs.updTime

protected theorem Kept.stepTime {d : Int} (hs : Kept P s) : Kept P (stepTime d s) := by
  unfold stepTime
  exact hs.frame.timeUnits.updTime

protected theorem Kept.stepTo (hs : Kept P s) : Kept P (stepTo m s) := hs.stepTime.emit

protected theorem Kept.follow (hs : Kept P s) : Kept P (follow m s) := (hs.when (·.stepTo)).updTime.newCorr

protected theorem Kept.selectSource (hs : Kept P s) : Kept P (selectSource s) :=
  .ite hs (.ite hs.updTime.emit hs.updTime.emit.follow)

protected theorem Kept.loseDomain (hs : Kept P s) : Kept P (loseDomain m cause s) := by
  unfold loseDomain
  dsimp only
  split
  · exact hs.updDomain.emit.selectSource
  · exact hs.updDomain
  · exact hs

/-! #### `Machine/HostCore` -/

protected theorem Kept.status (hs : Kept P s) : Kept P (status st s).1 := hs

protected theorem Kept.updHost {f : HostIf → HostIf} (hs : Kept P s) : Kept P (updHost f s) := hs.frame

protected theorem Kept.hostCount (hs : Kept P s) : Kept P (hostCount i s) := hs.bump

protected theorem Kept.sendPacket {p : Reply} (hs : Kept P s) : Kept P (sendPacket p s) := hs.updHost.bump

protected theorem Kept.sendReply {dst : ReplyTo} (hs : Kept P s) :
    Kept P (sendReply h op dst st payload s) := by
  unfold sendReply
  split
  · exact hs.sendPacket
  · exact hs

protected theorem Kept.finishCmd {r : CmdRef} (hs : Kept P s) : Kept P (finishCmd r st payload s) := by
  unfold finishCmd
  split
  · exact hs
  · exact (hs.forEach (·.sendReply)).updHost

protected theorem Kept.dropRefs (hs : Kept P s) : Kept P (dropRefs s) := hs.frame

protected theorem Kept.closeSession (hs : Kept P s) : Kept P (closeSession reason s) :=
  .ite (hs.unless (·.forEach (·.finishCmd))).updHost.dropRefs.emit hs

protected theorem Kept.drawNonce (hs : Kept P s) : Kept P (drawNonce s) := by
  unfold drawNonce
  exact hs.drawFree.updHost

protected theorem Kept.openSession (hs : Kept P s) : Kept P (openSession h n s) := hs.updHost.emit

protected theorem Kept.updPort {f : Port → Port} (hs : Kept P s) : Kept P (updPort n f s) := hs.updHost

protected theorem Kept.settleNet (hs : Kept P s) : Kept P (settleNet m s) :=
  hs.unless (·.updHost.emit.when (·.loseDomain))

protected theorem Kept.dropPort (hs : Kept P s) : Kept P (dropPort n s) :=
  hs.when (·.updPort.bump.emit.settleNet)

/-! #### `Machine/PlanOps` -/

protected theorem Kept.placePlan {pl : Plan} (hs : Kept P s) : Kept P (placePlan n pl s) := hs.updSlot.emit

protected theorem Kept.readStaged (hs : Kept P s) : Kept P (readStaged dpa n s).1 :=
  .iteFst hs (.iteFst hs.ddrRead hs.ddrRead)

protected theorem Kept.planLoad (hs : Kept P s) : Kept P (planLoad h cmd s).1 := by
  unfold planLoad
  refine .iteFst hs.status (.iteFst hs.status ?_)
  dsimp only
  split
  · exact hs.readStaged
  · split
    · exact hs.readStaged
    · exact hs.readStaged.placePlan

protected theorem Kept.armPlan {pl : Plan} {t0 bias : Nat} (hs : Kept P s) :
    Kept P (armPlan n pl t0 bias s) :=
  hs.updSlot.frame.startSwitch.emit

protected theorem Kept.disarmPlan (hs : Kept P s) : Kept P (disarmPlan n s).1 :=
  .iteFst hs.status (.iteFst hs.status (.iteFst hs.updSlot.status hs.startSwitch.status))

protected theorem Kept.planArm (hs : Kept P s) : Kept P (planArm h cmd s).1 := by
  unfold planArm
  refine .iteFst hs.status (.iteFst hs.disarmPlan ?_)
  split
  · exact hs.status
  · split
    · exact hs.status
    · exact hs.armPlan.status
  · exact hs.status

protected theorem Kept.darkWindow (hs : Kept P s) : Kept P (darkWindow h cmd s).1 :=
  .iteFst hs.status (.iteFst (.iteFst hs.status hs.frame.status) (.iteFst hs.status hs.frame.status))

/-! #### `Machine/RedRows` -/

protected theorem Kept.redCount (hs : Kept P s) : Kept P (redCount i s) := hs.bump

protected theorem Kept.unpair (hs : Kept P s) : Kept P (unpair s) := hs.unless (·.updRed.emit)

protected theorem Kept.pairConfigure (hs : Kept P s) : Kept P (pairConfigure h cmd s).1 := by
  unfold pairConfigure
  dsimp only
  split
  · exact hs.status
  · exact .iteFst hs.unpair.status hs.updRed.sendClaim.emit.status

protected theorem Kept.pairRejoin (hs : Kept P s) : Kept P (pairRejoin h cmd s).1 :=
  .iteFst hs.status (.iteFst hs.status hs.updRed.emit.status)

protected theorem Kept.publishTakeover (hs : Kept P s) : Kept P (publishTakeover s) :=
  .ite hs.emit hs.updRed.updAcc.updAcc.sendClaim.emit

protected theorem Kept.dropEntriesTo (hs : Kept P s) : Kept P (dropEntriesTo d s) := by
  unfold dropEntriesTo
  exact hs.frame.filterUnits

protected theorem Kept.declarePartner (hs : Kept P s) : Kept P (declarePartner s) :=
  .ite (hs.updRed.emit.when (·.publishTakeover)).updRed.losePeer.dropEntriesTo (hs.updRed.emit.when
    (·.publishTakeover))

protected theorem Kept.redTakeover (hs : Kept P s) : Kept P (redTakeover s) :=
  .ite hs.publishTakeover hs.updRed

protected theorem Kept.accountPeriod (hs : Kept P s) : Kept P (accountPeriod s) := by
  unfold accountPeriod
  exact (hs.unless (·.updRed)).updRed

protected theorem Kept.sendWisp (hs : Kept P s) : Kept P (sendWisp s) := by
  unfold sendWisp
  exact (Kept.ite (hs.when (·.sendUnit.redCount)).redCount (hs.when (·.sendUnit.redCount))).sendDatagram.updRed

protected theorem Kept.execWispPeriod (hs : Kept P s) : GoesOn P (execWispPeriod s) :=
  (Kept.ite (Kept.ite (hs.accountPeriod.when (·.updRed)).declarePartner (hs.accountPeriod.when
    (·.updRed))).sendWisp hs).goes

protected theorem Kept.takeInbox {f : InUnit → Bool} {y : InUnit} {s' : State} (hs : Kept P s)
    (he : takeInbox f s = some (y, s')) : Kept P s' := by
  unfold takeInbox at he
  split at he
  · cases he
  · cases he
    exact hs.frame

protected theorem Kept.takeMessage {types : List Nat} {eth : Option (List Byte)} {y : List Byte}
    {s' : State} (hs : Kept P s) (he : takeMessage k types eth s = some (y, s')) : Kept P s' := by
  unfold takeMessage at he
  split at he
  · split at he
    · split at he
      · cases he
        exact hs
      · cases he
    · cases he
      exact hs.redCount
  · obtain ⟨z, hz, hy⟩ := Option.map_eq_some_iff.1 he
    cases hy
    exact hs.takeInbox hz

protected theorem Kept.mirrorReport {gen : Nat} {refused : Bool} (hs : Kept P s) :
    Kept P (mirrorReport gen refused s) := by
  unfold mirrorReport
  split
  · exact hs
  · exact .ite (hs.updRed.when (·.syncAdd)).emit (hs.when (·.updRed.emit))

protected theorem Kept.hearWisp {eth good : Bool} (hs : Kept P s) : Kept P (hearWisp eth good s) := hs.updRed

protected theorem Kept.wispFrom {eth : Bool} {b : List Byte} (hs : Kept P s) : Kept P (wispFrom eth b s) :=
  .ite hs (.ite (.ite (hs.when (·.hearWisp)).updRed.emit (hs.when (·.hearWisp))) (hs.hearWisp.updRed.when
    (·.updRed.emit)).mirrorReport.seePairClaim)

protected theorem Kept.execWispRx {eth : Option (List Byte)} (hs : Kept P s) :
    GoesOn P (execWispRx eth s) := by
  unfold execWispRx
  refine Kept.goes ?_
  split
  next heq => exact .ite (hs.takeMessage heq) (hs.takeMessage heq).redCount.wispFrom
  · exact hs

protected theorem Kept.claimMessage {b : List Byte} (hs : Kept P s) : Kept P (claimMessage b s) := by
  unfold claimMessage
  dsimp only
  split
  · exact hs.applyAnnounce.seePairClaim
  · exact hs.applyTakeover.seePairClaim
  · exact hs.redCount.seePairClaim

protected theorem Kept.execClaimMsgRx {eth : Option (List Byte)} (hs : Kept P s) :
    GoesOn P (execClaimMsgRx eth s) := by
  unfold execClaimMsgRx
  refine Kept.goes ?_
  split
  next heq => exact .ite (hs.takeMessage heq) (hs.takeMessage heq).claimMessage
  · exact hs

protected theorem Kept.execAnnounceTimer (hs : Kept P s) : GoesOn P (execAnnounceTimer s) :=
  (Kept.ite (.ite hs.sendDatagram hs.sendClaim) hs).goes

protected theorem Kept.accEntryWrite (hs : Kept P s) : Kept P (accEntryWrite v s) := .ite hs.updRed hs.updAcc

protected theorem Kept.startMirror (hs : Kept P s) : Kept P (startMirror s) := by
  unfold startMirror
  dsimp only
  split
  · exact hs.updRed.redCount.placeUnit
  · exact hs.updRed.redCount

protected theorem Kept.mirrorNow (hs : Kept P s) : Kept P (mirrorNow s) :=
  .ite hs.startMirror (hs.when (·.updRed))

protected theorem Kept.redCtrl (hs : Kept P s) : Kept P (redCtrl v s) :=
  .ite (hs.when (·.redTakeover)).mirrorNow (hs.when (·.redTakeover))

protected theorem Kept.growThresh (hs : Kept P s) : Kept P (growThresh s) := hs.regPut

protected theorem Kept.execMirrorPassStart (hs : Kept P s) : GoesOn P (execMirrorPassStart s) :=
  (Kept.ite (.ite hs.updRed.startMirror (hs.when (·.growThresh.startMirror))) (hs.when
    (·.growThresh.updRed))).goes

protected theorem Kept.mirrorUnit {y : OutUnit} {s' : State} (hs : Kept P s)
    (he : mirrorUnit s = some (y, s')) : Kept P s' := by
  unfold mirrorUnit at he
  dsimp only at he
  split at he
  · cases he
  · split at he
    · cases he
    · cases he
      refine .ite ?_ hs.ddrRead.updRed.bumpBy
      split
      · exact hs.ddrRead.updRed.bumpBy.ddrWrite
      · exact hs.ddrRead.updRed.bumpBy

protected theorem Kept.execMirrorCommit (hs : Kept P s) : GoesOn P (execMirrorCommit s) := by
  unfold execMirrorCommit
  refine Kept.goes ?_
  split
  · refine .ite ?_ hs
    split
    · exact hs.updRed.placeUnit
    · exact hs
  · exact hs

protected theorem Kept.mirrorBegin {d : List Byte} (hs : Kept P s) : Kept P (mirrorBegin d s) :=
  .ite hs.updRed hs.updRed

protected theorem Kept.mirrorData {u : FabUnit} (hs : Kept P s) : Kept P (mirrorData u s) := by
  unfold mirrorData
  split
  · exact hs.when (·.ddrWrite.updRed)
  · exact hs

protected theorem Kept.execMirrorUnitRx (hs : Kept P s) : GoesOn P (execMirrorUnitRx s) := by
  unfold execMirrorUnitRx
  refine Kept.goes ?_
  split
  · exact hs
  next heq => exact .ite (hs.takeInbox heq) (.ite (hs.takeInbox heq).mirrorBegin (.ite (hs.takeInbox heq).mirrorData
      (hs.takeInbox heq).sendNotice))

protected theorem Kept.execMirrorCommitRx (hs : Kept P s) : GoesOn P (execMirrorCommitRx s) := by
  refine Kept.goes ?_
  split
  · exact hs
  · rename_i htaken
    have h := hs.takeInbox htaken
    split
    · exact h.when (·.updRed)
    · exact h

/-! #### `Machine/RemOps` -/

protected theorem Kept.syncCount (hs : Kept P s) : Kept P (syncCount i s) := hs.bump

protected theorem Kept.remoteCheck {outside : Bool} {s' : State} (hs : Kept P s)
    (he : remoteCheck x outside s = some s') : Kept P s' := by
  unfold remoteCheck at he
  dsimp only at he
  split at he
  · exact hs.syncCount.emit.of_some he
  · split at he
    · exact hs.syncCount.emit.sendNotice.of_some he
    · split at he
      · exact hs.syncCount.emit.of_some he
      · split at he
        · exact (hs.syncCount.unless (·.frame.emit)).of_some he
        · cases he

protected theorem Kept.remoteAdd {o : Nat} {n : W64} (hs : Kept P s) : Kept P (remoteAdd o n s) := hs.syncPut

protected theorem Kept.noteRefused (hs : Kept P s) : Kept P (noteRefused x s) := hs.when (·.frame)

protected theorem Kept.takeFput (hs : Kept P s) : Kept P (takeFput key x s) :=
  .ite hs.syncCount (.ite ((hs.when (·.storeBytes)).syncCount.frame.unless (·.remoteAdd)) (hs.when
    (·.storeBytes)).frame)

protected theorem Kept.takeFsig (hs : Kept P s) : Kept P (takeFsig key x s) := hs.frame.syncCount.remoteAdd

protected theorem Kept.placeUnits {opseq : Nat} {us : List FabUnit} (hs : Kept P s) :
    Kept P (placeUnits n d l opseq us s) :=
  hs.forEach (·.placeUnit)

protected theorem Kept.useOp (hs : Kept P s) : Kept P (useOp d l s) := hs.frame

protected theorem Kept.fputRead (hs : Kept P s) : Kept P (fputRead t a n s).1 := .iteFst hs hs.tileLoad

protected theorem Kept.runFput {i : Insn} (hs : Kept P s) : RanKept P (runFput t i s) := by
  unfold runFput
  dsimp only
  split
  · exact hs
  · split
    · exact hs
    · split
      · exact hs
      · split
        · split
          · rename_i hr
            have hs1 := hs.fputRead.of_fst hr
            split
            next hw => exact (Kept.iteFst hs1 hs1.tileStore).of_fst hw |>.unless (·.syncAdd)
            next hw => exact (Kept.iteFst hs1 hs1.tileStore).of_fst hw
            next hw => exact (Kept.iteFst hs1 hs1.tileStore).of_fst hw
            · trivial
          next hr => exact hs.fputRead.of_fst hr
          next hr => exact hs.fputRead.of_fst hr
          · trivial
        · split
          · exact hs
          · split
            · trivial
            · split
              next hr => exact (hs.fputRead.of_fst hr).useOp.placeUnits
              next hr => exact hs.fputRead.of_fst hr
              next hr => exact hs.fputRead.of_fst hr
              · trivial

protected theorem Kept.runFsig {i : Insn} (hs : Kept P s) : RanKept P (runFsig t i s) := by
  unfold runFsig
  dsimp only
  split
  · exact hs
  · split
    · exact hs.syncAdd
    · split
      · exact hs
      · split
        · trivial
        · exact hs.useOp.placeUnits

protected theorem Kept.runCpost {i : Insn} (hs : Kept P s) : RanKept P (runCpost t i s) := by
  unfold runCpost
  dsimp only
  split
  · exact hs
  · split
    · trivial
    · split
      · trivial
      · exact hs.frame

protected theorem Kept.runFabric {i : Insn} (hs : Kept P s) : RanKept P (runFabric t i s) := by
  unfold runFabric
  split_ifs
  · exact hs.runCpost
  · exact hs.runFput
  · exact hs.runFsig

protected theorem Kept.notePut {x : Tile} {e : QEntry} {s0 : State} (hs : Kept P s) :
    Kept P (notePut x e s0 s) :=
  hs.frame

protected theorem Kept.fabricHead (hs : Kept P s) : Kept P (fabricHead t s) := by
  unfold fabricHead
  dsimp only
  split
  · exact hs
  · refine .ite (hs.unless (·.unless (·.dropEntry))) (.ite hs ?_)
    have hr : ∀ {i : Insn}, RanKept P (runFabric t i s) := hs.runFabric
    split
    · rename_i heq
      have hd := heq ▸ hr
      exact .ite (Kept.notePut hd).updTile (hs.settleEntry hd)
    · exact hs.settleEntry hr

protected theorem Kept.restartFput {s' : State} (hs : Kept P s) (he : restartFput x s = some s') :
    Kept P s' := by
  unfold restartFput at he
  dsimp only at he
  split at he
  · split at he
    · exact hs.of_some he
    · split at he
      · split at he
        · cases he
        · exact hs.of_some he
      · split at he
        next hr => exact (hs.fputRead.of_fst hr).placeUnits.updTile.of_some he
        next hr => exact (hs.fputRead.of_fst hr).raiseExc.of_some he
        next hr => exact (hs.fputRead.of_fst hr).faultTile.of_some he
        · cases he
  · exact hs.of_some he

protected theorem Kept.applyRemote (hs : Kept P s) : Kept P (applyRemote x s) := by
  have hget : Kept P ((restartFput x s).getD s) := by
    cases he : restartFput x s with
    | none => exact hs
    | some s' => exact hs.restartFput he
  unfold applyRemote
  dsimp only
  refine .ite hs ?_
  split
  next heq => exact (hs.remoteCheck heq).noteRefused
  · exact .ite hget (.ite (hs.when (·.frame)).syncCount
      (.ite (hs.when (·.frame)).takeFput (hs.when (·.frame)).takeFsig))

/-! #### `Machine/CollRows` -/

protected theorem Kept.localCopy {i : Inst} (hs : Kept P s) : Kept P (localCopy i s) := by
  unfold localCopy
  dsimp only
  split
  · exact hs.readElems.engineWrite
  · exact hs.readElems.engineWrite
  · exact hs.when (·.readElems.engineWrite)
  · exact hs

protected theorem Kept.failInst {i : Inst} {status peer : Nat} (hs : Kept P s) :
    Kept P (failInst i status peer s) :=
  (hs.collEnd.unless (·.endJob)).pumpColl.dealSpans

protected theorem Kept.beginInst {i : Inst} (hs : Kept P s) : Kept P (beginInst i s) :=
  hs.updColl.updInst.localCopy.pumpColl

protected theorem Kept.execCollInstanceStart (hs : Kept P s) : GoesOn P (execCollInstanceStart c s) := by
  unfold execCollInstanceStart
  refine Kept.goes ?_
  split
  · exact hs
  · refine .ite hs ?_
    split
    · exact hs.failInst
    · exact hs.unless (·.beginInst)

protected theorem Kept.execCollUnitRx (hs : Kept P s) : GoesOn P (execCollUnitRx s) := by
  refine Kept.goes ?_
  split
  · exact hs
  · rename_i htaken
    have h := hs.takeInbox htaken
    refine .ite hs ?_
    split
    next hheld => exact h.remoteCheck hheld
    · exact .ite h.syncCount h.updColl.collApply

protected theorem Kept.completeInst {i : Inst} (hs : Kept P s) : Kept P (completeInst i s) :=
  (Kept.ite (hs.updColl.when (·.syncAdd)).syncAdd (hs.updColl.when (·.syncAdd))).pumpColl.dealSpans

protected theorem Kept.execCollInstanceComplete (hs : Kept P s) :
    GoesOn P (execCollInstanceComplete c s) := by
  unfold execCollInstanceComplete
  refine Kept.goes ?_
  split
  · exact hs.when (·.completeInst)
  · exact hs

protected theorem Kept.execCollInstanceEnd (hs : Kept P s) : GoesOn P (execCollInstanceEnd c s) := by
  unfold execCollInstanceEnd
  refine Kept.goes ?_
  split
  · split
    · exact hs.failInst
    · exact hs.failInst
    · exact hs
  · exact hs

protected theorem Kept.execCollTimeout (hs : Kept P s) : GoesOn P (execCollTimeout c s) := by
  unfold execCollTimeout
  refine Kept.goes ?_
  split
  · exact hs.when (·.failInst)
  · exact hs

protected theorem Kept.burstLevels {i : Inst} {xs : List SpanTx} (hs : Kept P s) :
    Kept P (burstLevels i rank xs s).1 := by
  unfold burstLevels
  refine hs.foldlFst ?_
  intro _ _ hs
  split
  · exact hs.contribution
  · exact hs

protected theorem Kept.launchBurst {owner : Nat} (hs : Kept P s) :
    Kept P (launchBurst ctx g start owner s) := by
  unfold launchBurst
  split
  · exact hs
  · exact hs.burstLevels.updColl.updInst

protected theorem Kept.noteSkew {m : FibreSeen} (hs : Kept P s) : Kept P (noteSkew rs m s) :=
  hs.forEach (·.when (·.regPut))

protected theorem Kept.nameDiscard (hs : Kept P s) : Kept P (nameDiscard i s) :=
  .ite hs.updColl hs.updColl.updRx.scanRing.emit

protected theorem Kept.discardFibre {b : Burst} {why slot : Nat} (hs : Kept P s) :
    Kept P (discardFibre b p rs why slot s) := by
  unfold discardFibre
  dsimp only
  split
  · refine .ite ?_ ?_
    · split
      · exact hs.collCount.emit.nameDiscard
      · exact hs.collCount.emit.updColl
    · refine Kept.forEach ?_ (·.sendCtl)
      split
      · exact hs.collCount.emit.nameDiscard
      · exact hs.collCount.emit.updColl
  · split
    · exact hs.collCount.emit.nameDiscard
    · exact hs.collCount.emit.updColl

protected theorem Kept.degradeFibre {b : Burst} {skew : Nat} (hs : Kept P s) :
    Kept P (degradeFibre b p skew s) :=
  hs.collCount.emit.unless (·.updColl)

protected theorem Kept.checkFibre {b : Burst} {m : FibreSeen} (hs : Kept P s) :
    Kept P (checkFibre b f m s).1 := by
  unfold checkFibre
  refine .iteFst hs ?_
  dsimp only
  split
  · exact hs.noteSkew.discardFibre
  · exact hs.noteSkew.updColl.when (·.degradeFibre)

protected theorem Kept.addSpan {i : Inst} {j span : Nat} {kept : List (List Nat × FibreSeen)}
    (hs : Kept P s) : Kept P (addSpan i j span e kept s) :=
  hs.updInst.closeSlot

protected theorem Kept.reportSkew {i : Inst} (hs : Kept P s) : Kept P (reportSkew i g s) :=
  hs.forEach (·.unless (·.sendCtl))

protected theorem Kept.trainGroups (hs : Kept P s) : Kept P (trainGroups n s) := hs.updColl.dealSpans

protected theorem Kept.afterSwitch {old : State} (hs : Kept P s) :
    Kept P (afterSwitch n old s) :=
  hs.when (·.trainGroups)

protected theorem Kept.releaseSums (hs : Kept P s) : Kept P (releaseSums s) :=
  hs.forEach fun hs => hs.when (·.releaseFree.afterSwitch)

protected theorem Kept.execOsumBurstEnd {fs : List FibreSeen} (hs : Kept P s) :
    GoesOn P (execOsumBurstEnd g fs s) := by
  refine Kept.goes ?_
  split
  · exact hs.releaseSums.dealSpans
  · dsimp only
    generalize hr : List.foldl (α := State × List (List Nat × FibreSeen)) _ _ (List.range 4) = r
    have h : Kept P r.1 := hr ▸ Kept.foldlFst (hs.updColl.collCount) (fun h => h.checkFibre)
    split
    · exact h.releaseSums.dealSpans
    · refine Kept.dealSpans (Kept.pumpColl (Kept.releaseSums ?_))
      exact ((h.forEach fun h => by split; exacts [h.addSpan, h]).updColl).when (·.reportSkew)

protected theorem Kept.rebuildSegment (hs : Kept P s) : Kept P (rebuildSegment ctx rank k s) := by
  unfold rebuildSegment
  split
  · exact hs
  · exact (hs.updInst.when (·.ownElems.updInst)).forEach (·.sendCtl)

protected theorem Kept.execCollSegRestart {seg : Nat} (hs : Kept P s) :
    GoesOn P (execCollSegRestart c rank seg s) := by
  unfold execCollSegRestart
  refine Kept.goes ?_
  split
  · exact hs
  · split
    · exact hs.when (·.collCount.rebuildSegment.emit)
    · exact hs

protected theorem Kept.cancelBursts (hs : Kept P s) : Kept P (cancelBursts n s) := by
  unfold cancelBursts
  exact hs.updColl

/-! #### `Machine/FabTx` -/

protected theorem Kept.nextUnits (hs : Kept P s) : Kept P (nextUnits n d new s).2 := by
  unfold nextUnits
  split
  · exact hs
  · rename_i heq
    split
    · rename_i heq
      split
      · exact hs
      · split
        next heq => exact hs.nextCollUnit heq
        · rename_i heq
          split
          · split
            next heq => exact hs.mirrorUnit heq
            · exact hs
          · exact hs
    · exact hs.updSet

protected theorem Kept.putFrame {h : FrameHdr} (hs : Kept P s) : Kept P (putFrame i h payload s) := hs.updLane

protected theorem Kept.sendData {h : FrameHdr} {lsn : Nat} {us : List OutUnit} {again : Bool}
    (hs : Kept P s) : Kept P (sendData i n d new h lsn us again s) :=
  (hs.updSet.when (·.fabCount)).fabCount.putFrame

protected theorem Kept.setFrame {x : LaneSet} (hs : Kept P s) : Kept P (setFrame i n d new x s) := by
  unfold setFrame
  refine .ite hs.updSet.putFrame (.ite hs.updSet.putFrame ?_)
  split
  · split
    · refine Kept.sendData ?_
      split
      · exact hs.frame.updLane.updSet.fabCount
      · exact hs.frame.updLane.updSet
    · exact hs.updSet.updSet.putFrame
  · rename_i heq
    refine .ite ?_ hs.updSet.putFrame
    split
    · exact hs.updSet.putFrame
    next heq => exact (hs.nextUnits.of_snd heq).updLane.updSet.sendData

protected theorem Kept.execLaneFrameTx (hs : Kept P s) : GoesOn P (execLaneFrameTx i s) := by
  unfold execLaneFrameTx
  refine Kept.goes (.ite hs (.ite hs.putFrame ?_))
  split
  · split
    · exact hs.setFrame
    · exact hs.putFrame
  · exact hs.putFrame

/-! #### `Machine/FabRx` -/

protected theorem Kept.wrongRing {h : FrameHdr} (hs : Kept P s) : Kept P (wrongRing i h s) :=
  hs.unless (·.faultRx.updRx.emit.bump.updRing.scanRing.when (·.updRing.emit))

protected theorem Kept.wrongSource {h : FrameHdr} (hs : Kept P s) : Kept P (wrongSource i h s) :=
  .ite hs (.ite hs.updRx hs.faultRx.updRx.emit)

protected theorem Kept.noteDisc {h : FrameHdr} (hs : Kept P s) : Kept P (noteDisc i h payload s) :=
  hs.unless (·.frame)

protected theorem Kept.nakSet {lsn : Nat} (hs : Kept P s) : Kept P (nakSet n d new lsn s) := hs.updSet

protected theorem Kept.faultReport {field : Nat} (hs : Kept P s) : Kept P (faultReport src field s) := by
  unfold faultReport
  refine .ite hs ?_
  dsimp only
  split
  · exact hs.faultLane
  · exact hs

protected theorem Kept.actOn {h : FrameHdr} (hs : Kept P s) : Kept P (actOn i n h s) :=
  (hs.when (·.ackSet.when (·.nakSet))).faultReport.updRx.unless (·.applyHeaderClaim)

protected theorem Kept.deliver (hs : Kept P s) : Kept P (deliver n d new k s) := by
  induction k generalizing s with
  | zero => exact hs
  | succ k ih =>
    unfold deliver
    split
    · exact hs
    · split
      · exact hs
      · exact ih (hs.updSet.when (·.fabCount)).fabCount.frame

protected theorem Kept.takeData {h : FrameHdr} (hs : Kept P s) : Kept P (takeData i n h body s) := by
  unfold takeData
  dsimp only
  split
  · exact hs
  · exact .ite hs.fabCount hs.updSet.deliver

protected theorem Kept.inService {h : FrameHdr} (hs : Kept P s) : Kept P (inService i n h body s) :=
  .ite hs.actOn.fabCount (.ite (hs.actOn.unless (·.updSet)).takeData (hs.actOn.unless (·.updSet)))

protected theorem Kept.checkFrame {h : FrameHdr} (hs : Kept P s) : Kept P (checkFrame i h body s) := by
  unfold checkFrame
  refine .ite (.ite hs.fabErr.fabCount.wrongRing (.ite hs.fabErr.fabCount.wrongSource hs.noteDisc)) ?_
  refine .ite hs.fabErr.fabCount.emit (.ite hs.fabErr.fabCount.wrongRing ?_)
  refine .ite hs.fabErr.fabCount.wrongSource (.ite hs ?_)
  split
  · exact hs.inService
  · exact hs

protected theorem Kept.noteUncorr (hs : Kept P s) : Kept P (noteUncorr i s) := hs.updRx

protected theorem Kept.execLaneFrameRx {line : List Byte} (hs : Kept P s) :
    GoesOn P (execLaneFrameRx i line s) := by
  unfold execLaneFrameRx
  refine Kept.goes (.ite hs ?_)
  split
  · exact hs.fabCount.noteUncorr
  · exact .ite hs.bumpBy.fabCount (.ite hs.bumpBy.fabCount hs.bumpBy.checkFrame)

/-! #### `Machine/FabRows` -/

protected theorem Kept.noteGap {relAt : Nat} (hs : Kept P s) : Kept P (noteGap relAt s) := hs.frame

protected theorem Kept.execMarkerLockGained (hs : Kept P s) : GoesOn P (execMarkerLockGained i s) :=
  (hs.unless (·.lockRing.updRx.when (·.updRx.noteGap))).goes

protected theorem Kept.execLos (hs : Kept P s) : GoesOn P (execLos i s) :=
  (hs.unless (·.updRx.when (·.faultRx.when (·.emit)))).goes

protected theorem Kept.updSets {f : LaneSet → LaneSet} (hs : Kept P s) : Kept P (updSets n d f s) :=
  hs.updSet.updSet

protected theorem Kept.trainAgain (hs : Kept P s) : Kept P (trainAgain p s) := hs.when (·.updColl)

protected theorem Kept.recordReadmit {channel : Nat} (hs : Kept P s) : Kept P (recordReadmit i channel s) :=
  hs.emit

protected theorem Kept.readmitLane (hs : Kept P s) : Kept P (readmitLane i s) := by
  unfold readmitLane
  dsimp only
  split
  · exact hs
  · exact hs.when (·.updLane.recordReadmit.trainAgain)

protected theorem Kept.readmitRx (hs : Kept P s) : Kept P (readmitRx i s) :=
  hs.when (·.updRx.recordReadmit.trainAgain.when (·.updColl.dealSpans))

protected theorem Kept.execLaneReadmit {rx : Bool} (hs : Kept P s) : GoesOn P (execLaneReadmit rx i s) :=
  (Kept.ite hs (.ite hs.readmitRx hs.readmitLane)).goes

protected theorem Kept.execLanesetDead (hs : Kept P s) : GoesOn P (execLanesetDead n d s) :=
  (hs.unless (·.emit.losePeer.dropEntriesTo.updSet.frame)).goes

protected theorem Kept.fabricDiscover (hs : Kept P s) : Kept P (fabricDiscover h cmd s).1 :=
  .iteFst hs.status (.iteFst hs.status (hs.forEach (·.regPut)).frame)

protected theorem Kept.tuneRound {r : Nat} (hs : Kept P s) : Kept P (tuneRound r i s) := by
  unfold tuneRound
  refine Kept.updRx (.ite ?_ ?_)
  · refine Kept.updLane ?_
    dsimp only
    split
    · exact hs.unless (·.acquireLaser)
    · exact hs
  · refine Kept.scanRing (Kept.updLane ?_)
    dsimp only
    split
    · exact hs.unless (·.acquireLaser)
    · exact hs

protected theorem Kept.execDiscoveryRound (hs : Kept P s) : GoesOn P (execDiscoveryRound s) :=
  (Kept.ite (hs.frame.forEach (·.tuneRound)) (hs.when (·.frame.forEach (·.tuneRound)))).goes

protected theorem Kept.enterQuarantine {why : Nat} (hs : Kept P s) : Kept P (enterQuarantine why s) := by
  unfold enterQuarantine
  exact (hs.frame.forEach (·.dropPlan)).failAll.emit

protected theorem Kept.recordSlots {slots : List (Nat × Nat × Neigh)} (hs : Kept P s) :
    Kept P (recordSlots slots s) :=
  hs.forEach fun hs => .ite hs.emit (hs.when (·.emit))

protected theorem Kept.recordDups (hs : Kept P s) : Kept P (recordDups s) := by
  unfold recordDups
  refine hs.forEach ?_
  intro _ _ hs
  dsimp only
  split
  · exact hs.emit
  · exact hs

protected theorem Kept.execDiscoveryEnd (hs : Kept P s) : GoesOn P (execDiscoveryEnd s) := by
  unfold execDiscoveryEnd
  refine Kept.goes ?_
  refine .ite ?_ hs
  refine .ite ?_ ?_
  · refine Kept.finishCmd (Kept.emit ?_)
    split
    · exact hs.recordSlots.recordDups.frame.enterQuarantine
    · exact hs.recordSlots.recordDups.frame.when (·.frame)
  · refine Kept.finishCmd (Kept.emit ?_)
    split
    · exact hs.recordSlots.recordDups.frame.enterQuarantine
    · exact hs.recordSlots.recordDups.frame.when (·.frame)

/-! #### `Machine/Health` -/

protected theorem Kept.noteLevels (hs : Kept P s) : Kept P (noteLevels s) := hs.frame

protected theorem Kept.writeHealth (hs : Kept P s) : Kept P (writeHealth s) := hs.frame.emit

/-! #### `Machine/LogRows` -/

protected theorem Kept.updPeat {f : Peat → Peat} (hs : Kept P s) : Kept P (updPeat f s) := hs.frame

protected theorem Kept.ringWrite {r : LogRec} (hs : Kept P s) : Kept P (ringWrite r s) := hs.frame.bump

protected theorem Kept.writeLost (hs : Kept P s) : Kept P (writeLost s) := hs.when (·.frame.ringWrite)

protected theorem Kept.execRecordWrite (hs : Kept P s) : GoesOn P (execRecordWrite s) := by
  unfold execRecordWrite
  split
  · exact hs.goes
  · exact hs.updPeat.ringWrite.writeLost.goes

protected theorem Kept.execCoalesceWindowEnd (hs : Kept P s) : GoesOn P (execCoalesceWindowEnd s) := by
  unfold execCoalesceWindowEnd
  split
  · split
    · exact hs.goes
    · exact hs.updPeat.goes
  · exact hs.goes

protected theorem Kept.execEvtHealth (hs : Kept P s) : GoesOn P (execEvtHealth s) :=
  (Kept.ite hs.writeHealth hs.noteLevels).goes

protected theorem Kept.flashWrite {torn : Bool} (hs : Kept P s) : Kept P (flashWrite q bs torn s) := by
  unfold flashWrite
  split
  · exact hs
  · exact hs.frame.bump

protected theorem Kept.skipLost {upTo : Nat} (hs : Kept P s) : Kept P (skipLost upTo s) :=
  hs.when (·.flashWrite.updPeat.bumpBy)

protected theorem Kept.answerSeals (hs : Kept P s) : Kept P (answerSeals s) := by
  unfold answerSeals
  split
  · exact hs
  · exact hs.when (·.updPeat.finishCmd)

protected theorem Kept.copyRecord {bad : Bool} (hs : Kept P s) : Kept P (copyRecord bad s) := by
  unfold copyRecord
  split
  · exact hs
  · refine .ite ?_ hs
    split
    · exact hs
    · exact .ite hs.updPeat.emit hs.skipLost.flashWrite.updPeat.answerSeals

protected theorem Kept.countTorn (hs : Kept P s) : Kept P (countTorn s) := hs.unless (·.updPeat.bumpBy)

protected theorem Kept.evtRead (hs : Kept P s) : Kept P (evtRead h cmd s).1 :=
  .iteFst hs.status (hs.when (·.countTorn))

protected theorem Kept.evtSeal (hs : Kept P s) : Kept P (evtSeal h cmd s).1 := hs.frame

/-! #### `Machine/FwOps` -/

protected theorem Kept.updFw {f : Fw → Fw} (hs : Kept P s) : Kept P (updFw f s) := hs.frame

protected theorem Kept.updFwSlot {f : FwSlot → FwSlot} (hs : Kept P s) : Kept P (updFwSlot n f s) := hs.updFw

protected theorem Kept.setSlot {c : SlotState} (hs : Kept P s) : Kept P (setSlot n c s) := hs.updFwSlot

protected theorem Kept.supCount (hs : Kept P s) : Kept P (supCount i s) := hs.bump

protected theorem Kept.journal {t : JournalType} {new elapsed : Nat} (hs : Kept P s) :
    Kept P (journal t old new limit elapsed s) :=
  hs.updFw

protected theorem Kept.handover (hs : Kept P s) : Kept P (handover s) := hs.frame.supCount.emit

protected theorem Kept.migrateSettings {format : Nat} (hs : Kept P s) : Kept P (migrateSettings format s) :=
  hs.updFw.emit

protected theorem Kept.revertTrial {how : State → State} (hs : Kept P s)
    (hhow : ∀ {s : State}, Kept P s → Kept P (how s)) : Kept P (revertTrial cause how s) :=
  (hhow hs).journal.setSlot.setSlot.updFw.supCount.emit

protected theorem Kept.activate {outcome : Nat} (hs : Kept P s) : Kept P (activate n limit outcome s).1 :=
  .iteFst hs.journal.updFw.journal.status (.iteFst hs.journal.updFw.journal.status (.iteFst
    hs.journal.updFw.journal.emit.status (.iteFst
    (hs.journal.updFw.migrateSettings.handover.journal.setSlot.setSlot.updFw.supCount.emit.updFw.emit.revertTrial
    (·.handover)).status
    hs.journal.updFw.migrateSettings.handover.journal.setSlot.setSlot.updFw.supCount.emit.status)))

protected theorem Kept.tryActivate {outcome : Nat} (hs : Kept P s) :
    Kept P (tryActivate n limit outcome s).1 := by
  unfold tryActivate
  refine .iteFst hs.status ?_
  refine .iteFst ?_ (.iteFst hs.status (.iteFst hs.status hs.activate))
  refine Kept.status (Kept.raiseSource (Kept.updFw (Kept.supCount ?_)))
  split
  · exact hs.journal.journal.setSlot.setSlot
  · exact hs.journal.journal.setSlot.setSlot
  · exact hs.journal.journal.setSlot.setSlot
  · exact hs.journal.journal.setSlot

protected theorem Kept.fwBlock (hs : Kept P s) : Kept P (fwBlock h cmd s).1 := by
  unfold fwBlock
  refine .iteFst hs.status (.iteFst hs.status (.iteFst hs.status ?_))
  dsimp only
  split
  · exact .iteFst (hs.when (·.updFwSlot.emit)).status (hs.when (·.updFwSlot.emit)).status
  · exact ((hs.when (·.updFwSlot.emit)).supCount.updFwSlot.when (·.setSlot)).status

protected theorem Kept.fwVerify (hs : Kept P s) : Kept P (fwVerify h cmd s).1 := by
  unfold fwVerify
  refine .iteFst hs.status (.iteFst hs.status ?_)
  split <;> exact hs.supCount.setSlot.emit

protected theorem Kept.fwActivate (hs : Kept P s) : Kept P (fwActivate h cmd s).1 :=
  .iteFst hs.status hs.tryActivate

protected theorem Kept.fwConfirm (hs : Kept P s) : Kept P (fwConfirm h cmd s).1 :=
  .iteFst hs.status (hs.journal.setSlot.setSlot.unless (·.updFw.emit)).updFw.supCount.emit.status

protected theorem Kept.fwRevert (hs : Kept P s) : Kept P (fwRevert h cmd s).1 :=
  .iteFst (.iteFst hs.status (hs.revertTrial (·.handover)).status) (.iteFst hs.status (.iteFst hs.status (.iteFst
    hs.status hs.tryActivate)))

protected theorem Kept.attestQuote (hs : Kept P s) : Kept P (attestQuote h cmd s).1 :=
  .iteFst hs.status (.iteFst hs hs)

protected theorem Kept.supSave (hs : Kept P s) : Kept P (supSave v s) := hs.when (·.updFw.supCount)

/-! #### `Machine/PwrOps` -/

protected theorem Kept.updPwr {f : Pwr → Pwr} (hs : Kept P s) : Kept P (updPwr f s) := hs.frame

protected theorem Kept.setRequest {f : Pwr → Pwr} (hs : Kept P s) : Kept P (setRequest f s) :=
  hs.updPwr.unless (·.updPwr.emit)

protected theorem Kept.pwrSetPlevel (hs : Kept P s) : Kept P (pwrSetPlevel h cmd s).1 :=
  .iteFst hs.status hs.setRequest.status

protected theorem Kept.execPlevelChange {late : List Nat} (hs : Kept P s) :
    GoesOn P (execPlevelChange late s) :=
  (Kept.ite hs (hs.forEach (·.faultTile)).updPwr.bump).goes

protected theorem Kept.dimAll (hs : Kept P s) : Kept P (dimAll s) := hs.forEach (·.dimLane)

protected theorem Kept.brightenAll (hs : Kept P s) : Kept P (brightenAll s) := hs.forEach (·.brightenLane)

protected theorem Kept.chipletsOff (hs : Kept P s) : Kept P (chipletsOff s) := hs.frame

protected theorem Kept.lightUp (hs : Kept P s) : Kept P (lightUp s) := by
  unfold lightUp
  refine Kept.forEach ?_ (·.forEach (·.prebiasRing))
  refine hs.forEach ?_
  intro _ _ hs
  refine hs.forEach ?_
  intro _ _ hs
  split
  · exact hs.acquireLaser
  · exact hs

protected theorem Kept.islandsOff (hs : Kept P s) : Kept P (islandsOff s) :=
  hs.withMem (memWf_filter hs.wf)

protected theorem Kept.slicesOff (hs : Kept P s) : Kept P (slicesOff s) :=
  hs.withMem (memWf_filter hs.wf)

protected theorem Kept.portsOff {f : Nat → Bool} (hs : Kept P s) : Kept P (portsOff f s) :=
  hs.forEach (·.dropPort)

protected theorem Kept.enterStep (hs : Kept P s) : Kept P (enterStep k s) := by
  unfold enterStep
  split
  · exact hs.dimAll
  · exact hs.islandsOff
  · exact hs.islandsOff.slicesOff.chipletsOff.portsOff
  · exact hs.portsOff.withMem rfl
  · exact hs

protected theorem Kept.transReply {t : PwrTrans} (hs : Kept P s) : Kept P (transReply t st payload s) := by
  unfold transReply
  split
  · exact hs.finishCmd
  · exact hs

protected theorem Kept.transOver {state : Nat} (hs : Kept P s) : Kept P (transOver result state s) :=
  hs.updPwr

protected theorem Kept.completeTrans {t : PwrTrans} (hs : Kept P s) : Kept P (completeTrans t s) :=
  hs.transOver.bump.emit.transReply

protected theorem Kept.restartBlocks {t : PwrTrans} (hs : Kept P s) : Kept P (restartBlocks t ran s) :=
  .ite (hs.when (·.lightUp)).brightenAll (hs.when (·.lightUp))

protected theorem Kept.refuseTrans {t : PwrTrans} {block : Nat} (hs : Kept P s) :
    Kept P (refuseTrans t ran block reason st payload s) :=
  hs.transOver.restartBlocks.bump.updPwr.emit.transReply

protected theorem Kept.abandonTrans {t : PwrTrans} (hs : Kept P s) : Kept P (abandonTrans t ran k s) :=
  hs.transOver.restartBlocks.bump.emit.transReply

protected theorem Kept.runEntry {tr : PwrTrans} {ks : List Nat} (hs : Kept P s) :
    Kept P (runEntry tr ran ks s) := by
  induction ks generalizing s ran with
  | nil => exact hs.completeTrans
  | cons k ks ih =>
    unfold runEntry
    split
    · exact hs.refuseTrans
    · exact .ite hs.updPwr (.ite (.ite hs.completeTrans.enterStep hs.enterStep.completeTrans)
        (.ite hs.enterStep.abandonTrans (ih hs.enterStep)))

protected theorem Kept.runExit {t : PwrTrans} (hs : Kept P s) : Kept P (runExit t s) :=
  .ite hs.raiseSource ((hs.when (·.lightUp)).completeTrans.when (·.brightenAll))

protected theorem Kept.startTrans {target : Nat} {cmd : Option CmdRef} (hs : Kept P s) :
    Kept P (startTrans target cmd s) := by
  unfold startTrans
  refine .ite ?_ (.ite hs.updPwr.runEntry hs.runExit)
  split
  · exact hs.finishCmd
  · exact hs.updPwr.emit

protected theorem Kept.pwrSetState (hs : Kept P s) : Kept P (pwrSetState h cmd s).1 :=
  .iteFst hs.status (.iteFst (.iteFst hs.status hs.updPwr.status) hs.startTrans)

protected theorem Kept.resumePwr (hs : Kept P s) : Kept P (resumePwr s) := by
  unfold resumePwr
  split
  · exact hs.runEntry
  · exact hs

protected theorem Kept.execPwrPendingStart (hs : Kept P s) : GoesOn P (execPwrPendingStart s) := by
  unfold execPwrPendingStart
  refine Kept.goes ?_
  split
  · exact hs.when (·.updPwr.startTrans)
  · exact hs

protected theorem Kept.latchWake (hs : Kept P s) : Kept P (latchWake w s) := hs.when (·.updPwr)

protected theorem Kept.execWakeReplay (hs : Kept P s) : GoesOn P (execWakeReplay s) := by
  unfold execWakeReplay
  refine Kept.goes ?_
  split
  · exact hs
  · exact hs.unless (·.updPwr.unless (·.bump.emit.runExit))

protected theorem Kept.pwrPad (hs : Kept P s) : Kept P (pwrPad v s) := hs.when (·.updPwr.emit)

protected theorem Kept.execVinOutOfRange {mv : Nat} {fault : Bool} (hs : Kept P s) :
    GoesOn P (execVinOutOfRange mv fault s) :=
  (Kept.ite hs ((hs.unless (·.emit)).updPwr.when (·.raiseSource))).goes

protected theorem Kept.vbusAt {mv : Nat} (hs : Kept P s) : Kept P (vbusAt mv s) := hs.updPwr

/-! #### `Machine/FwRows` -/

protected theorem Kept.switchOver {pass : Bool} (hs : Kept P s) : Kept P (switchOver pass s) :=
  .ite ((hs.frame.emit.unless (·.emit)).revertTrial fun hs => hs) (hs.frame.emit.unless (·.emit))

protected theorem Kept.execSupSwitchover {pass : Bool} (hs : Kept P s) :
    GoesOn P (execSupSwitchover pass s) :=
  (Kept.ite hs (.ite hs.updFw.updHost.raiseSource hs.switchOver)).goes

protected theorem Kept.execStandbySelftest {pass : Bool} (hs : Kept P s) :
    GoesOn P (execStandbySelftest pass s) :=
  (Kept.ite (.ite (hs.when (·.frame)) hs.frame.emit) hs).goes

protected theorem Kept.execProbationRuntime (hs : Kept P s) : GoesOn P (execProbationRuntime s) := by
  unfold execProbationRuntime
  refine Kept.goes ?_
  split
  · exact hs.when (·.updFw.journal)
  · exact hs

protected theorem Kept.execProbationExpiry (hs : Kept P s) : GoesOn P (execProbationExpiry s) := by
  unfold execProbationExpiry
  refine Kept.goes ?_
  split
  · exact hs.when (·.revertTrial (·.handover))
  · exact hs

protected theorem Kept.smbResult {r : Nat} (hs : Kept P s) : Kept P (smbResult r s) := hs.updFw

protected theorem Kept.execSmbusWarmReset {data : Nat} (hs : Kept P s) :
    GoesOn P (execSmbusWarmReset data s) :=
  (Kept.ite (.ite hs.smbResult.raiseSource hs.smbResult) hs).goes

protected theorem Kept.execSmbusColdReset {data : Nat} (hs : Kept P s) :
    GoesOn P (execSmbusColdReset data s) :=
  (Kept.ite (.ite hs.smbResult.raiseSource hs.smbResult) hs).goes

protected theorem Kept.setOwner {key : List Byte} (hs : Kept P s) : Kept P (setOwner key s) :=
  hs.updFw.smbResult.closeSession.emit

protected theorem Kept.execOwnerInstall (hs : Kept P s) : GoesOn P (execOwnerInstall data s) :=
  (Kept.ite hs (.ite hs.smbResult (.ite (.ite hs.setOwner hs.smbResult) (.ite hs.updFw.smbResult
    hs.smbResult)))).goes

protected theorem Kept.execOwnerInstallChecked (hs : Kept P s) : GoesOn P (execOwnerInstallChecked s) := by
  unfold execOwnerInstallChecked
  refine Kept.goes ?_
  split
  · exact hs
  · exact .ite hs.setOwner hs.updFw.smbResult

protected theorem Kept.execOwnerClear (hs : Kept P s) : GoesOn P (execOwnerClear s) := by
  unfold execOwnerClear
  refine Kept.goes (.ite hs (.ite hs.smbResult ?_))
  split
  · exact .ite hs.setOwner hs.smbResult
  · exact hs.smbResult

/-! #### `Machine/MemRows` -/

protected theorem Kept.execMr4Poll {answered : Bool} {hot : Bool} (hs : Kept P s) :
    GoesOn P (execMr4Poll n answered hot s) :=
  (Kept.ite hs (.ite (hs.updStrip.frame.when (·.emit)) (hs.updStrip.when (·.offlineStrip)))).goes

protected theorem Kept.zeroStrip (hs : Kept P s) : Kept P (zeroStrip n s) :=
  hs.withMem (memWf_memClear _ _ _ hs.wf)

protected theorem Kept.pprRows {r : StripTrain} (hs : Kept P s) : Kept P (pprRows n r s) :=
  hs.updStrip.forEach (·.emit)

protected theorem Kept.bringUpStrip {r : StripTrain} (hs : Kept P s) : Kept P (bringUpStrip n r s) :=
  .ite (hs.unless (·.emit)).emit.updStrip.offlineStrip (.ite (hs.unless
    (·.emit)).updStrip.pprRows.zeroStrip.updStrip.offlineStrip ((hs.unless
    (·.emit)).updStrip.pprRows.zeroStrip.updStrip.when (·.degradeStrip)))

protected theorem Kept.stripRestore {r : StripTrain} (hs : Kept P s) : Kept P (stripRestore n r s) :=
  hs.when (·.updStrip.bringUpStrip.unless (·.emit))

protected theorem Kept.stripOffline (hs : Kept P s) : Kept P (stripOffline n s) := hs.offlineStrip

protected theorem Kept.retireAddr (hs : Kept P s) : Kept P (retireAddr dpa s) := hs.retireRow

/-! #### `Machine/BulkOps` -/

protected theorem Kept.updBulk {f : Bulk → Bulk} (hs : Kept P s) : Kept P (updBulk q f s) := hs.updHost

protected theorem Kept.endBulk (hs : Kept P s) : Kept P (endBulk b st payload s) := hs.updHost.finishCmd

protected theorem Kept.touchSession (hs : Kept P s) : Kept P (touchSession h s) := by
  unfold touchSession
  exact hs.updHost

protected theorem Kept.sendBulk {c : CmdRef} (hs : Kept P s) : Kept P (sendBulk n op c payload s) := by
  unfold sendBulk
  split
  · exact hs.sendPacket
  · exact hs

protected theorem Kept.sendAck (hs : Kept P s) : Kept P (sendAck b s) := by
  unfold sendAck
  dsimp only
  split
  · exact hs.updBulk.sendBulk
  · exact hs.updBulk

protected theorem Kept.storeBlock (hs : Kept P s) : Kept P (storeBlock b k data s).1 := by
  unfold storeBlock
  dsimp only
  split
  · exact hs.ddrWrite.spoilKeys
  · exact (hs.when (·.sliceWrite)).spoilKeys
  · exact (hs.when (·.scratchWrite)).spoilKeys

protected theorem Kept.loadRange (hs : Kept P s) : Kept P (loadRange b a n s).1 := by
  unfold loadRange
  split
  · exact hs.ddrRead
  · exact .iteFst hs hs.sliceCheck
  · exact .iteFst hs hs.scratchCheck

protected theorem Kept.sendBlock (hs : Kept P s) : Kept P (sendBlock b k p s) :=
  (Kept.ite hs.loadRange.hostCount hs.loadRange.updBulk).updHost.bumpBy.sendBulk

protected theorem Kept.pumpRead (hs : Kept P s) : Kept P (pumpRead q n s) := by
  induction n generalizing s with
  | zero => exact hs
  | succ n ih =>
    unfold pumpRead
    split
    · exact .ite (ih hs.sendBlock) hs
    · exact hs

protected theorem Kept.resendBlocks {ks : List Nat} (hs : Kept P s) : Kept P (resendBlocks q ks s) := by
  unfold resendBlocks
  refine hs.forEach ?_
  intro _ _ hs
  split
  · exact hs.sendBlock
  · exact hs

protected theorem Kept.bulkStart {write : Bool} (hs : Kept P s) : Kept P (bulkStart write h cmd s).1 := by
  unfold bulkStart
  dsimp only
  split
  · exact hs.status
  · exact .ite hs.updHost.sendAck hs.updHost.pumpRead

/-! #### `Machine/MarOps` -/

protected theorem Kept.updEng {f : MarEngine → MarEngine} (hs : Kept P s) : Kept P (updEng e f s) := hs.frame

protected theorem Kept.updStr {f : Str → Str} (hs : Kept P s) : Kept P (updStr e i f s) := hs.updEng

protected theorem Kept.marReject (hs : Kept P s) : Kept P (marReject e s) := hs.updEng

protected theorem Kept.marCount (hs : Kept P s) : Kept P (marCount e i s) := hs.bump

protected theorem Kept.commitReg (hs : Kept P s) : Kept P (commitReg r e ix s) := by
  unfold commitReg
  exact hs.updEng

protected theorem Kept.countSkip {inc : Int} (hs : Kept P s) : Kept P (countSkip e inc s) :=
  hs.unless (·.marCount)

protected theorem Kept.closeStr (hs : Kept P s) : Kept P (closeStr e i s) := hs.updStr

protected theorem Kept.policyElem {safe : Bool} {good : Int} (hs : Kept P s) :
    Kept P (policyElem e i safe good s) := by
  unfold policyElem
  refine .ite ?_ (.ite (.ite hs.prebiasRing hs.updRing.updStr) hs)
  refine Kept.emit ?_
  split
  · exact hs.dimLaser.updLaser.faultLane
  · exact hs.dimLaser.updLaser

protected theorem Kept.marRecord {code : Nat} (hs : Kept P s) : Kept P (marRecord code e i s) := hs.emit

protected theorem Kept.faultStr (hs : Kept P s) : Kept P (faultStr e i cause s) :=
  hs.marCount.marRecord.updStr.updStr.policyElem

protected theorem Kept.sampleClosed {parity : Bool} (hs : Kept P s) : Kept P (sampleClosed e i parity s) :=
  .ite hs.updStr.faultStr (hs.updStr.when (·.countSkip)).updStr

protected theorem Kept.sampleStr {parity : Bool} (hs : Kept P s) : Kept P (sampleStr e i parity s) :=
  .ite hs.updStr.updStr (.ite (.ite hs.updStr.updStr.updStr hs.updStr.updStr.closeStr.sampleClosed) (.ite
    hs.updStr.sampleClosed (.ite hs.updStr (hs.updStr.when (·.countSkip)).updStr)))

protected theorem Kept.syncStr (hs : Kept P s) : Kept P (syncStr e i s) :=
  .ite (.ite hs.updStr hs.closeStr) (hs.when (·.updStr))

protected theorem Kept.actuate {u : Int} (hs : Kept P s) : Kept P (actuate e i u s) :=
  .ite (.ite hs (.ite (hs.when (·.bump)).updLaser.updStr (hs.when (·.regPutField.updStr)))) (.ite hs.setRequest
    (.ite hs.setRequest (hs.when (·.setRequest))))

protected theorem Kept.manualDrive {u : Int} (hs : Kept P s) : Kept P (manualDrive e i u s) :=
  hs.when (·.updLaser)

protected theorem Kept.applyOutput (hs : Kept P s) : Kept P (applyOutput e i s) := by
  unfold applyOutput
  split
  · exact hs.manualDrive.updStr.actuate
  · exact hs

protected theorem Kept.driveHeaters (hs : Kept P s) : Kept P (driveHeaters e f s) :=
  hs.forEach (·.updStr.updEng)

protected theorem Kept.takeReading {r : SensorRead} (hs : Kept P s) : Kept P (takeReading e r s) :=
  hs.unless (·.forEach (·.updStr))

protected theorem Kept.innerReading (hs : Kept P s) : Kept P (innerReading e i s) :=
  .ite hs.updStr (hs.when (·.updStr))

protected theorem Kept.marTick {reads : List SensorRead} {parity : List Nat} (hs : Kept P s) :
    Kept P (marTick e reads parity s) := by
  unfold marTick
  exact ((((Kept.ite (((hs.forEach (·.syncStr)).forEach (·.applyOutput)).forEach (·.driveHeaters)) ((hs.forEach
    (·.syncStr)).forEach (·.applyOutput))).forEach (·.takeReading)).forEach (·.innerReading)).forEach
    (·.sampleStr)).updEng

protected theorem Kept.marCommit {mask : Nat} (hs : Kept P s) : Kept P (marCommit e i mask s) :=
  .ite hs.marReject (hs.forEach (·.commitReg.forEach (·.commitReg))).updStr.marCount

protected theorem Kept.marLutCommit (hs : Kept P s) : Kept P (marLutCommit e t s) :=
  (hs.forEach (·.commitReg)).marCount

protected theorem Kept.marXtCommit (hs : Kept P s) : Kept P (marXtCommit e f s) :=
  .ite hs.marReject (hs.forEach (·.forEach (·.commitReg))).commitReg.marCount

protected theorem Kept.rearmStr (hs : Kept P s) : Kept P (rearmStr e i s).1 :=
  .iteFst hs.marCount.marRecord (.iteFst (hs.updStr.closeStr.marCount.marRecord.updLaser.when (·.acquireLaser))
    (.iteFst hs.updStr.closeStr.marCount.marRecord.updRing hs.updStr.closeStr.marCount.marRecord))

protected theorem Kept.rearm (hs : Kept P s) : Kept P (rearm e i s).1 := hs.foldlFst (·.rearmStr)

protected theorem Kept.loopRearm (hs : Kept P s) : Kept P (loopRearm h cmd s).1 := .iteFst hs.status hs.rearm

protected theorem Kept.marCmd (hs : Kept P s) : Kept P (marCmd e v s) :=
  .ite hs.marReject (.ite (hs.when (·.rearm)) (.ite (hs.when (·.marCommit)) (.ite hs.marLutCommit (hs.when
    (·.marXtCommit)))))

protected theorem Kept.strCfgWrite (hs : Kept P s) : Kept P (strCfgWrite e i v s) :=
  .ite hs.marReject hs.regPut

protected theorem Kept.strIoWrite (hs : Kept P s) : Kept P (strIoWrite e i v s) := hs.unless (·.regPut)

/-! #### `Machine/LightRows` -/

protected theorem Kept.lightCount (hs : Kept P s) : Kept P (lightCount c i s) := hs.bump

protected theorem Kept.refereeDark (hs : Kept P s) : Kept P (refereeDark c n s) := by
  unfold refereeDark
  refine Kept.acquireLaser ?_
  split
  · exact hs.faultLane
  · exact hs

protected theorem Kept.seekChannel {passed : Bool} (hs : Kept P s) :
    Kept P (seekChannel c n f passed index s) :=
  .ite hs (.ite hs.acquireLaser (.ite hs.moveDrive (hs.when (·.moveDrive))))

protected theorem Kept.judge {r : LaserRead} (hs : Kept P s) : Kept P (judge c r s) :=
  .ite hs.updLaser.lightCount.emit.refereeDark (hs.updLaser.when (·.seekChannel))

protected theorem Kept.passReads (hs : Kept P s) : Kept P (passReads c n s) := by
  unfold passReads
  exact hs.lightCount.lightCount.drawFree.updLaser

protected theorem Kept.calibrateBus {b : Nat} {pass : Bool} (hs : Kept P s) :
    Kept P (calibrateBus c b pass s) :=
  .ite hs.updChip (.ite (hs.updChip.updChip.forEach (·.refereeDark)).emit hs.updChip)

protected theorem Kept.execRefereeRead {b : Nat} {cal : Option Bool} {reads : List LaserRead}
    (hs : Kept P s) : GoesOn P (execRefereeRead c b cal reads s) := by
  unfold execRefereeRead
  refine Kept.goes ?_
  refine .ite ?_ hs
  refine Kept.forEach ?_ (·.judge)
  refine Kept.lightCount ?_
  split
  · exact hs.calibrateBus
  · exact hs

protected theorem Kept.scheduleSwap (hs : Kept P s) : Kept P (scheduleSwap c n s) := by
  unfold scheduleSwap
  dsimp only
  split
  · exact hs.updLaser.updLaser.acquireLaser
  · exact hs.emit
  · exact hs

protected theorem Kept.forceSwap {code : LaserCode} (hs : Kept P s) : Kept P (forceSwap c n code s) := by
  unfold forceSwap
  split
  · exact hs.updLaser
  · dsimp only
    split
    · exact (hs.unless (·.faultLane)).updLaser
    · exact (Kept.ite ((hs.unless (·.faultLane)).forEach (·.updLaser)).giveSlot.updLaser.openLaser ((hs.unless
        (·.faultLane)).forEach (·.updLaser)).giveSlot.updLaser.acquireLaser).countSwap.lightCount.emit

protected theorem Kept.failLaser (hs : Kept P s) : Kept P (failLaser c n s) :=
  .ite hs.emit.forceSwap (hs.emit.updLaser.forEach (·.updLaser.scheduleSwap))

protected theorem Kept.execSwapThreshold {launch : Int} (hs : Kept P s) :
    GoesOn P (execSwapThreshold c n launch s) := by
  unfold execSwapThreshold
  refine Kept.goes ?_
  dsimp only
  split
  · exact hs.when (·.scheduleSwap)
  · exact hs

protected theorem Kept.execPlannedSwap (hs : Kept P s) : GoesOn P (execPlannedSwap c n s) := by
  unfold execPlannedSwap
  refine Kept.goes ?_
  split
  · refine .ite hs (.ite hs.faultLane.plannedSwap ?_)
    split
    · exact hs.when (·.acquireLaser)
    · exact hs
  · exact hs

protected theorem Kept.execLaserAcquire {ok : Bool} (hs : Kept P s) :
    GoesOn P (execLaserAcquire c n ok s) := by
  unfold execLaserAcquire
  refine Kept.goes (.ite hs ?_)
  refine .ite ?_ (.ite hs.lightCount.updLaser.failLaser hs.lightCount.updLaser.acquireLaser)
  dsimp only
  split
  · exact hs.passReads.updLaser.lightCount.emit.when (·.openLaser)
  · exact hs.passReads.updLaser.lightCount.emit

protected theorem Kept.endCheck {ok : Bool} (hs : Kept P s) : Kept P (endCheck c n ok s) :=
  .ite hs.acquireLaser.passReads.updLaser hs.acquireLaser.updLaser.lightCount.emit

protected theorem Kept.execSpareLaserCheck {ok : Bool} (hs : Kept P s) :
    GoesOn P (execSpareLaserCheck c n ok s) :=
  (Kept.ite hs.emit.endCheck (hs.when (·.endCheck))).goes

protected theorem Kept.lightReject (hs : Kept P s) : Kept P (lightReject c s) := hs.updChip

protected theorem Kept.lightSwap (hs : Kept P s) : Kept P (lightSwap c n s) :=
  .ite hs.lightReject hs.scheduleSwap

protected theorem Kept.lightRestore {ring : Bool} (hs : Kept P s) : Kept P (lightRestore c i ring s) :=
  .ite (.ite hs.lightReject hs.updRing.emit) (.ite hs.lightReject hs.updLaser.acquireLaser)

protected theorem Kept.lightCtrl (hs : Kept P s) : Kept P (lightCtrl c v s) :=
  .ite hs.lightReject (.ite hs.lightRestore (.ite (.ite hs.lightReject hs.lightSwap) hs))

protected theorem Kept.tripFibre (hs : Kept P s) : Kept P (tripFibre c cause f s) :=
  .ite hs.updEye (hs.updEye.forEach (·.dimLane.faultLane)).lightCount.emit

protected theorem Kept.execEyeTrip (hs : Kept P s) : GoesOn P (execEyeTrip c f cause s) :=
  (Kept.ite hs (.ite hs.tripFibre (hs.when (·.forEach (·.tripFibre))))).goes

protected theorem Kept.startRestore (hs : Kept P s) : Kept P (startRestore c f s) := hs.updEye

protected theorem Kept.eyeCtrl (hs : Kept P s) : Kept P (eyeCtrl c v s) :=
  hs.forEach fun hs => .ite (.ite hs.startRestore hs.updEye) hs

protected theorem Kept.execEyeRestoreDone (hs : Kept P s) : GoesOn P (execEyeRestoreDone c f s) :=
  (Kept.ite (hs.updEye.forEach (·.brightenLane)).emit hs).goes

/-! #### `Machine/CalRun` -/

protected theorem Kept.calFail (hs : Kept P s) : Kept P (calFail kind index result s).1 := hs.calEnd

protected theorem Kept.calDone {r : State × Option Nat} (hr : Kept P r.1) (hs : Kept P s) :
    Kept P (calDone kind index r s).1 := by
  unfold calDone
  split
  · exact hs.calFail
  · dsimp only
    exact hr.calEnd

protected theorem Kept.calRunLaser (hs : Kept P s) : Kept P (calRunLaser h cmd s).1 := by
  unfold calRunLaser
  refine .iteFst hs.status ?_
  split
  · exact .iteFst hs.status (.iteFst hs.calFail (.iteFst hs.faultLane.acquireLaser.calFail
      (hs.faultLane.acquireLaser.calResult.calDone hs.faultLane.acquireLaser)))
  · exact .iteFst hs.calFail (hs.calResult.calDone hs)

protected theorem Kept.calRunRing (hs : Kept P s) : Kept P (calRunRing h cmd s).1 :=
  .iteFst hs.status (.iteFst hs.status (.iteFst hs.calFail (hs.calResult.calDone hs)))

protected theorem Kept.stepOut (hs : Kept P s) : Kept P (stepOut i s) := hs.when (·.faultRx.updRx)

protected theorem Kept.loadMatrix {d : List Int} (hs : Kept P s) : Kept P (loadMatrix c f d s) :=
  (hs.forEach (·.forEach (·.regPut))).regPut

protected theorem Kept.calRunXtalk (hs : Kept P s) : Kept P (calRunXtalk h cmd s).1 :=
  .iteFst hs.status (.iteFst hs.status (.iteFst hs.calFail (.iteFst (hs.forEach (·.stepOut)).calFail (((hs.forEach
    (·.stepOut)).calResult.when (·.loadMatrix.marXtCommit)).calDone (hs.forEach (·.stepOut))))))

protected theorem Kept.setGroup (hs : Kept P s) : Kept P (setGroup g s) := by
  unfold setGroup
  refine hs.forEach ?_
  intro _ _ hs
  refine Kept.updRing ?_
  split
  · exact hs.updRx.updLane.updLaser
  · exact hs.updRx.updLane

protected theorem Kept.storeOsum {store : Bool} {xs : List (Nat × Nat × List Int)} {gen : Option Nat}
    (hs : Kept P s) : Kept P (storeOsum store g xs gen s).1 := by
  induction xs generalizing s gen with
  | nil => exact hs
  | cons x xs ih =>
    unfold storeOsum
    dsimp only
    split
    · exact hs
    · exact ih (hs.calResult.when (·.regPut))

protected theorem Kept.calRunOsum (hs : Kept P s) : Kept P (calRunOsum h cmd s).1 :=
  .iteFst hs.status (.iteFst hs.status (.iteFst hs.status (.iteFst hs.setGroup.calFail (.iteFst
    hs.setGroup.calFail (hs.setGroup.storeOsum.calDone hs.setGroup)))))

protected theorem Kept.uncalibrated (hs : Kept P s) : Kept P (uncalibrated kind index s) :=
  (Kept.ite (hs.frame.unless (·.forceSwap)) (hs.frame.when (·.updRing))).emit

protected theorem Kept.feedElem {d : List Int} (hs : Kept P s) : Kept P (feedElem kind index d s) :=
  .ite hs.loadMatrix.marXtCommit (.ite (hs.forEach (·.regPut)).marLutCommit (hs.when (·.regPut)))

protected theorem Kept.loadElem (hs : Kept P s) : Kept P (loadElem kind index s) := by
  unfold loadElem
  split
  · exact hs.feedElem
  · exact hs.uncalibrated

protected theorem Kept.loadCal {badField : List Nat} {badFactory : List (Nat × Nat)} (hs : Kept P s) :
    Kept P (loadCal badField badFactory s) := by
  unfold loadCal
  exact (((hs.frame.forEach (·.bump.emit)).forEach (·.bump.emit)).forEach (·.forEach (·.loadElem))).frame.emit

/-! #### `Machine/StreamOps` -/

protected theorem Kept.updStream {f : Stream → Stream} (hs : Kept P s) : Kept P (updStream d f s) := hs.frame

protected theorem Kept.wseErr (hs : Kept P s) : Kept P (wseErr type d dpa s) := hs.frame

protected theorem Kept.wseCount (hs : Kept P s) : Kept P (wseCount ue s) := hs.frame

protected theorem Kept.loseStrip {d : StreamDesc} {size : Nat} (hs : Kept P s) :
    Kept P (loseStrip dn d chunk strip dpa size next ue s).1 :=
  hs.wseErr.wseCount.emit

protected theorem Kept.spoilChunk {c : Chunk} (hs : Kept P s) :
    Kept P (spoilChunk dn chunk dpa ue c next s).1 :=
  hs.wseErr.wseCount.emit

protected theorem Kept.readRaw {d : StreamDesc} (hs : Kept P s) :
    Kept P (readRaw dn d chunk strip off s).1 := by
  unfold readRaw
  refine .iteFst hs.loseStrip ?_
  dsimp only
  split
  · exact .iteFst hs.ddrRead.bumpBy.spoilChunk hs.ddrRead.bumpBy
  · exact .iteFst hs.ddrRead.bumpBy.spoilChunk.spoilChunk hs.ddrRead.bumpBy.spoilChunk

/-- The read stands as a variable, so that no check of these branches runs it. -/
protected theorem Kept.readPacked {d : StreamDesc} (hs : Kept P s) :
    Kept P (readPacked dn d chunk strip off s).1 := by
  obtain ⟨read, hread, hd⟩ : ∃ f, f = ddrRead ∧ ∀ {dpa n t}, Kept P t → Kept P (f dpa n t).1 :=
    ⟨_, rfl, Kept.ddrRead⟩
  rw [readPacked, ← hread]
  refine .iteFst hs.loseStrip ?_
  dsimp only
  split
  · exact (hd hs).bumpBy.loseStrip
  · split
    · exact (hd hs).bumpBy.loseStrip
    · split
      · exact (hd (hd hs).bumpBy).bumpBy.spoilChunk
      · split
        · exact (hd (hd hs).bumpBy).bumpBy.spoilChunk
        · exact (hd (hd hs).bumpBy).bumpBy

protected theorem Kept.readChunk {d : StreamDesc} {p : Pass} (hs : Kept P s) :
    Kept P (readChunk dn d p s).1 := by
  unfold readChunk
  dsimp only
  split
  · exact hs.wseCount
  · exact .iteFst hs.readPacked hs.readRaw

protected theorem Kept.endPass (hs : Kept P s) : Kept P (endPass dn s) := hs.updStream

/-! #### `Machine/JobOps` -/

protected theorem Kept.readSlice (hs : Kept P s) : Kept P (readSlice t s) := hs.forEach (·.sliceCheck)

/-- R101: the bytes of one slice, moved to where another slice has been cleared, lie between the bytes
below and above it, and rise as they did. -/
protected theorem Kept.copySlice {m : Mem} {u : Nat} (hs : Kept P s) (hm : memWf m.cells = true) :
    Kept P (copySlice m t u s) := by
  have hc : Kept P (clearWords (sliceBase u) sliceSize { s with mem := { s.mem with
      cells := memClear s.mem.cells (sliceBase u) sliceSize } }) := hs.wipeSlice
  refine Kept.emit (Kept.forEach (hc.withMem ?_) (·.setWord))
  have hfree : ∀ c ∈ memClear s.mem.cells (sliceBase u) sliceSize,
      sliceBase u ≤ c.1 → sliceBase u + sliceSize ≤ c.1 := by
    intro c hc hle
    simp only [memClear, List.mem_append, List.mem_filter, decide_eq_true_eq] at hc
    omega
  have hcells := hc.wf
  unfold memWf at hm hcells ⊢
  refine Cells.wf_splice 0 _ _ _ (sliceBase u) (sliceBase u + sliceSize) (memWf_filter hcells) ?_
    (memWf_filter hcells) ?_ ?_ ?_
  · rw [Cells.wf_iff] at hm ⊢
    refine ⟨?_, ?_⟩
    · rw [List.pairwise_map]
      refine (hm.1.filter _).imp_of_mem ?_
      intro a b ha hb hab
      simp only [List.mem_filter, decide_eq_true_eq] at ha hb
      dsimp only
      omega
    · intro c hc
      obtain ⟨b, hb, rfl⟩ := List.mem_map.1 hc
      exact hm.2 b (List.mem_of_mem_filter hb)
  · intro c hc
    simpa using (List.mem_filter.1 hc).2
  · intro c hc
    obtain ⟨b, hb, rfl⟩ := List.mem_map.1 hc
    simp only [List.mem_filter, decide_eq_true_eq] at hb
    dsimp only
    omega
  · intro c hc
    have hle : sliceBase u ≤ c.1 := by simpa using (List.mem_filter.1 hc).2
    exact ⟨hfree c (List.mem_of_mem_filter hc) hle, hle⟩

/-- R101: every migration copies from memory as it stood when the slices had been read. -/
protected theorem Kept.migrateSlices (hs : Kept P s) : Kept P (migrateSlices s) := by
  have hr : Kept P (Machine.forEach (dueMigrations s) (fun p st =>
      if (tileAt st p.1).routerFailed then st else readSlice p.1 st) s) := hs.forEach (·.unless (·.readSlice))
  refine Kept.forEach (Kept.marks (Kept.forEach hr ?_)) (·.when (·.dropSlice))
  intro _ _ hs
  exact .ite hs.emit (hs.copySlice hr.wf)

protected theorem Kept.syncInit (hs : Kept P s) : Kept P (syncInit rs s) :=
  hs.frame.forEach (·.forEach (·.syncPut))

protected theorem Kept.placeTile {r : List Byte} (hs : Kept P s) : Kept P (placeTile bs r s) := by
  unfold placeTile
  split
  · exact hs
  · exact hs.unless (·.scratchWrite.scratchWrite)

protected theorem Kept.loadTiles {all : List Sect} {hits : List (Nat × FaultSrc)} (hs : Kept P s) :
    Kept P (loadTiles bs all hits s) :=
  (hs.migrateSlices.forEach (·.when (·.faultTile))).forEach (·.unless (·.placeTile))

protected theorem Kept.placeJob {all : List Sect} (hs : Kept P s) : Kept P (placeJob bs all s) :=
  (hs.forEach (·.placePlan)).syncInit.frame.emit

protected theorem Kept.jobLoad (hs : Kept P s) : Kept P (jobLoad h cmd s).1 := by
  unfold jobLoad
  refine .iteFst hs.status (.iteFst hs.status ?_)
  dsimp only
  split
  · exact hs.readStaged
  · split
    · exact hs.readStaged
    · split
      · exact hs.readStaged.emit
      · split
        · exact hs.readStaged.loadTiles.frame
        · exact hs.readStaged.loadTiles.placeJob

protected theorem Kept.jobLaunch (hs : Kept P s) : Kept P (jobLaunch h cmd s).1 := by
  unfold jobLaunch
  refine .iteFst hs.status (.iteFst hs.status (.iteFst hs.status (.iteFst hs.status (Kept.status ?_))))
  refine Kept.emit ?_
  refine Kept.forEach ?_ (·.regPut)
  refine hs.frame.forEach ?_
  intro _ _ hs
  split
  · exact hs.updTile
  · exact hs

protected theorem Kept.jobAbort (hs : Kept P s) : Kept P (jobAbort h cmd s).1 :=
  .iteFst hs.status (.iteFst hs.status (.iteFst hs.status hs.endJob.status))

protected theorem Kept.recordJobEnd {e : JobEnd} (hs : Kept P s) : Kept P (recordJobEnd e s) := hs.emit

protected theorem Kept.execJobEnd (hs : Kept P s) : GoesOn P (execJobEnd s) :=
  (Kept.ite ((hs.recordJobEnd.frame.forEach (·.updTile)).forEach fun hs => .ite (hs.when
    (·.applyPolicy)).retireTile (hs.when (·.applyPolicy))).tileFaultActive hs).goes

/-! #### `Machine/PhaseRows` -/

protected theorem Kept.planArmCmd (hs : Kept P s) : Kept P (planArmCmd h cmd s).1 := hs.planArm.afterSwitch

protected theorem Kept.noteLate (hs : Kept P s) : Kept P (noteLate n t s) := hs.unless (·.frame.emit)

protected theorem Kept.execPhaseTrigger (hs : Kept P s) : GoesOn P (execPhaseTrigger n s) := by
  unfold execPhaseTrigger
  refine Kept.goes (.ite hs (.ite hs.cancelBursts.startSwitch ?_))
  split
  · exact hs
  · refine Kept.afterSwitch (Kept.startSwitch (Kept.cancelBursts ?_))
    split
    · exact hs.noteLate
    · exact hs

protected theorem Kept.execLanesetClosed (hs : Kept P s) : GoesOn P (execLanesetClosed n d s) :=
  (hs.unless (·.updSet.releaseFree.afterSwitch)).goes

protected theorem Kept.execLaneRelease (hs : Kept P s) : GoesOn P (execLaneRelease n d s) := by
  unfold execLaneRelease
  refine Kept.goes ?_
  split
  · exact hs.when (·.releaseAll.afterSwitch)
  · exact hs

protected theorem Kept.execRetuneDone (hs : Kept P s) : GoesOn P (execRetuneDone i s) := by
  unfold execRetuneDone
  refine Kept.goes (.ite hs ?_)
  split
  · exact hs
  · exact .ite ((hs.when (·.openLaser)).updLane.when (·.noteGap)) hs

protected theorem Kept.execPhaseGapOverrun {rx : Bool} (hs : Kept P s) :
    GoesOn P (execPhaseGapOverrun rx i s) :=
  (Kept.ite (hs.when (·.faultRx.emit)) (hs.when (·.faultLane.emit))).goes

protected theorem Kept.darkElem (hs : Kept P s) : Kept P (darkElem i s) := hs.resendLane.updLane.updRx.dimLane

protected theorem Kept.execDarkWindowOpen (hs : Kept P s) : GoesOn P (execDarkWindowOpen s) := by
  unfold execDarkWindowOpen
  refine Kept.goes ?_
  dsimp only
  split
  · exact hs
  · exact (hs.frame.forEach (·.forEach (·.darkElem))).emit.releaseSums

protected theorem Kept.execDarkWindowClose (hs : Kept P s) : GoesOn P (execDarkWindowClose s) := by
  unfold execDarkWindowClose
  refine Kept.goes ?_
  dsimp only
  split
  · exact hs
  · exact (hs.frame.forEach (·.forEach (·.brightenLane))).emit

/-! #### `Machine/Scalar` -/

protected theorem Kept.execFence (hs : Kept P s) : GoesOn P (execFence t s) :=
  (hs.runInsn fun h => .ite h.stepOver hs).goes

protected theorem Kept.execGetc (hs : Kept P s) : GoesOn P (execGetc t s) :=
  (hs.runInsn (·.frame.updTile.stepOver)).goes

protected theorem Kept.execSeed (hs : Kept P s) : GoesOn P (execSeed t s) :=
  (hs.runInsn fun h => .ite hs h.updTile.stepOver).goes

protected theorem Kept.execLw {ups : List Upset} (hs : Kept P s) : GoesOn P (execLw t ups s) := by
  unfold execLw
  refine Kept.goes ?_
  split
  · exact hs.when (·.strike.scalarLoad)
  next heq => exact hs.unless (·.nextInsn.of_fst heq)

protected theorem Kept.execIllegalWord (hs : Kept P s) : GoesOn P (execIllegalWord t s) := by
  unfold execIllegalWord
  refine Kept.goes ?_
  split
  next heq => exact .ite hs (hs.fetchWord.of_fst heq).raiseHere
  next heq => exact hs.unless (·.fetchWord.of_fst heq)

protected theorem Kept.execJr (hs : Kept P s) : GoesOn P (execJr t s) :=
  (hs.runInsn fun hs => .ite hs.setTile hs.raiseHere).goes

/-! #### `Machine/TileRows` -/

protected theorem Kept.execTileTrapped (hs : Kept P s) : GoesOn P (execTileTrapped t s) := by
  unfold execTileTrapped
  refine Kept.goes ?_
  dsimp only
  split
  · exact hs
  · exact hs.when (·.setTile.haltTile.emit.stopJob)

protected theorem Kept.enterService (hs : Kept P s) : Kept P (enterService t s) :=
  .ite hs.updTile hs.updTile.dropSlice

protected theorem Kept.testPassed (hs : Kept P s) : Kept P (testPassed t s) :=
  .ite hs.updTile.updTile.enterService.emit hs.updTile.enterService

protected theorem Kept.testFailed {fails : BitVec 8} (hs : Kept P s) : Kept P (testFailed t fails s) :=
  (hs.updTile.when (·.updTile.emit)).emit.retireTile

protected theorem Kept.execTileSelftestDone {fails : BitVec 8} (hs : Kept P s) :
    GoesOn P (execTileSelftestDone t fails s) :=
  (Kept.ite (Kept.ite hs.testFailed (.ite hs.updTile.retireTile hs.testPassed)).tileFaultActive.resumePwr hs).goes

protected theorem Kept.rejectCmd (hs : Kept P s) : Kept P (rejectCmd t s) := hs.updTile

protected theorem Kept.tileSelftest (hs : Kept P s) : Kept P (tileSelftest t s) :=
  .ite hs.startTest.tileFaultActive hs.rejectCmd

protected theorem Kept.tileRetire (hs : Kept P s) : Kept P (tileRetire t s) :=
  .ite hs.retireTile.tileFaultActive hs.rejectCmd

protected theorem Kept.tileRestore (hs : Kept P s) : Kept P (tileRestore t s) :=
  .ite hs.startTest hs.rejectCmd

protected theorem Kept.tileCtrl (hs : Kept P s) : Kept P (tileCtrl t v s) := by
  unfold tileCtrl
  split
  · exact hs
  · exact hs.tileSelftest
  · exact hs.tileRetire
  · exact hs.tileRestore
  · exact hs.rejectCmd

/-! #### `Machine/Waits` -/

protected theorem Kept.growBy (hs : Kept P s) : Kept P (growBy r i n s) := hs.unless (·.bumpBy)

protected theorem Kept.countWaits (hs : Kept P s) : Kept P (countWaits s) :=
  hs.growBy.growBy.growBy.growBy.growBy.growBy.growBy.growBy

/-! #### `Machine/TimeRows` -/

protected theorem Kept.execTimeTick (hs : Kept P s) : GoesOn P (execTimeTick s) :=
  (hs.unless (·.countWaits.updTime.timeUnits)).goes

protected theorem Kept.applyTimeCfg (hs : Kept P s) : Kept P (applyTimeCfg m s) :=
  .ite hs.updDomain.selectSource (hs.when (·.updDomain))

protected theorem Kept.discardPtp (hs : Kept P s) : Kept P (discardPtp m s) := hs.unless (·.timeCount)

protected theorem Kept.execPtpAnnounceRx {port : Nat} {clock : Nat} {dom : Nat} {key : List Nat}
    (hs : Kept P s) : GoesOn P (execPtpAnnounceRx port clock dom key s) :=
  (Kept.ite hs (.ite hs.discardPtp (hs.updDomain.unless (·.updDomain.selectSource)))).goes

protected theorem Kept.execPtpSyncRx {port : Nat} {clock : Nat} {dom : Nat} {seq : Nat} {two : Bool}
    {origin : Int} (hs : Kept P s) : GoesOn P (execPtpSyncRx port clock dom seq two origin s) :=
  (Kept.ite hs (.ite hs.updDomain.timeCount hs.discardPtp)).goes

protected theorem Kept.execPtpFollowUpRx {port : Nat} {clock : Nat} {dom : Nat} {seq : Nat} {origin : Int}
    (hs : Kept P s) : GoesOn P (execPtpFollowUpRx port clock dom seq origin s) := by
  unfold execPtpFollowUpRx
  refine Kept.goes (.ite hs ?_)
  refine .ite ?_ hs.discardPtp
  split
  · exact .ite hs.updDomain.timeCount hs.discardPtp
  · exact hs.discardPtp

protected theorem Kept.checkDiff (hs : Kept P s) : Kept P (checkDiff s) := hs.when (·.emit)

protected theorem Kept.takeEstimate {off path pred : Int} (hs : Kept P s) :
    Kept P (takeEstimate m off path pred s) := by
  unfold takeEstimate
  dsimp only
  split
  · exact .ite hs.updDomain.loseDomain (hs.updDomain.when (·.follow)).checkDiff
  · exact hs.updDomain.when (·.updDomain.emit.selectSource.checkDiff)
  · exact hs.updDomain

protected theorem Kept.execPtpDelayRespRx {port : Nat} {clock : Nat} {dom : Nat} {seq : Nat} {rx : Int}
    {pred : Int} (hs : Kept P s) : GoesOn P (execPtpDelayRespRx port clock dom seq rx pred s) := by
  unfold execPtpDelayRespRx
  refine Kept.goes (.ite hs ?_)
  refine .ite ?_ hs.discardPtp
  split
  · exact .ite hs.updDomain.timeCount.takeEstimate hs.discardPtp
  · exact hs.discardPtp

protected theorem Kept.timeCtrl (hs : Kept P s) : Kept P (timeCtrl v s) :=
  .ite (.ite hs.updTime hs.stepTime.updTime) hs

protected theorem Kept.timeSetAlarm (hs : Kept P s) : Kept P (timeSetAlarm h cmd s).1 :=
  .iteFst hs.status (.iteFst hs.status hs.updTime.status)

protected theorem Kept.execAlarmFire (hs : Kept P s) : GoesOn P (execAlarmFire i s) :=
  (hs.when (·.updTime.when (·.latchWake.emit))).goes

/-! #### `Machine/RegRead` -/

protected theorem Kept.readReg (hs : Kept P s) : Kept P (readReg r inst ix s).1 := by
  unfold readReg
  refine .iteFst ?_ (.iteFst hs.frame hs)
  dsimp only
  exact hs.updTime

/-! #### `Machine/ResetOps` -/

protected theorem Kept.updRst {f : Rst → Rst} (hs : Kept P s) : Kept P (updRst f s) := hs.frame

protected theorem Kept.resetJob (hs : Kept P s) : Kept P (resetJob s) := (hs.when (·.recordJobEnd)).frame

protected theorem Kept.resetPlans (hs : Kept P s) : Kept P (resetPlans s) := hs.forEach (·.dropPlan)

protected theorem Kept.resetDisc (hs : Kept P s) : Kept P (resetDisc s) := hs.when (·.frame.finishCmd)

protected theorem Kept.resetTrans (hs : Kept P s) : Kept P (resetTrans s) := by
  unfold resetTrans
  split
  · exact hs.refuseTrans
  · exact hs

protected theorem Kept.warmReset (hs : Kept P s) : Kept P (warmReset s) := by
  have hr : Kept P (resetTrans (resetDisc (resetPlans (resetJob (dimAll s))))) :=
    hs.dimAll.resetJob.resetPlans.resetDisc.resetTrans
  unfold warmReset
  dsimp only
  generalize resetTrans (resetDisc (resetPlans (resetJob (dimAll s)))) = t at hr
  exact hr.withMem (memWf_filter hr.wf)

protected theorem Kept.coldState {l4 : Bool} (hs : Kept P s) : Kept P (coldState l4 s) := hs.withMem rfl

protected theorem Kept.coldReset {l4 : Bool} (hs : Kept P s) : Kept P (coldReset l4 s) := by
  unfold coldReset
  exact (hs.resetJob.resetPlans.when (·.emit)).frame.closeSession.portsOff.coldState.updRst

protected theorem Kept.runSequence (hs : Kept P s) : Kept P (runSequence level s) :=
  .ite (hs.when (·.frame)).updRst.bump.emit.warmReset (hs.when (·.frame)).updRst.bump.emit.coldReset

protected theorem Kept.assertSources {is : List Nat} (hs : Kept P s) : Kept P (assertSources is s) := by
  unfold assertSources
  exact (hs.updRst.when (·.runSequence)).updRst

protected theorem Kept.bootChoice (hs : Kept P s) : Kept P (bootChoice s) := by
  unfold bootChoice
  split
  · exact hs
  · split
    · exact .ite (hs.updFw.revertTrial fun hs => hs) hs.updFw.updFw
    · exact hs.updFw
    · exact hs.updFw

protected theorem Kept.bootChecked (hs : Kept P s) : Kept P (bootChecked s).1 := by
  have hr : Kept P (if s.fw.probation.isSome then revertTrial 3 id s else s) :=
    hs.when (·.revertTrial fun hs => hs)
  unfold bootChecked
  refine .iteFst hs (.iteFst ?_ hr)
  dsimp only
  exact hr.setSlot.updFw

protected theorem Kept.bootArea (hs : Kept P s) : Kept P (bootArea s) := by
  unfold bootArea
  dsimp only
  split
  · exact hs.updFw
  · exact hs

protected theorem Kept.bootFw (hs : Kept P s) : Kept P (bootFw s) :=
  .ite hs.bootChoice.bootChecked.updFw.emit (.ite hs.bootChoice.bootChecked.updFw.emit
    hs.bootChoice.bootChecked.updFw.bootArea.emit)

protected theorem Kept.loadSettings (hs : Kept P s) : Kept P (loadSettings s) := by
  unfold loadSettings
  refine hs.forEach ?_
  intro _ _ hs
  split
  · exact hs.when (·.regPut)
  · exact hs

protected theorem Kept.commitStages (hs : Kept P s) : Kept P (commitStages s) := hs.forEach (·.marCommit)

protected theorem Kept.bistRepair {used most : Nat} {fix : State → State} {p : State × Bool}
    (hp : Kept P p.1) (hfix : ∀ {s : State}, Kept P s → Kept P (fix s)) :
    Kept P (bistRepair t used most fix p).1 :=
  .iteFst hp.noSpare (hfix hp)

protected theorem Kept.bistSlice {b : BistFind} (hs : Kept P s) : Kept P (bistSlice b s) :=
  .ite hs (.ite ((hs.foldlFst (·.bistRepair (·.repairRow))).foldlFst (·.bistRepair
    (·.repairColumn))).updSlice.emit ((hs.foldlFst (·.bistRepair (·.repairRow))).foldlFst (·.bistRepair
    (·.repairColumn))))

protected theorem Kept.bringUpAll {trains : List StripTrain} (hs : Kept P s) : Kept P (bringUpAll trains s) :=
  hs.forEach (·.unless (·.bringUpStrip))

protected theorem Kept.stage3 {trains : List StripTrain} {bist : List BistFind} {badField : List Nat}
    {badFactory : List (Nat × Nat)} (hs : Kept P s) :
    Kept P (stage3 trains bist badField badFactory s) := by
  unfold stage3
  exact (Kept.ite (hs.drawNonce.bootFw.loadSettings.bringUpAll.forEach (·.bistSlice)).frame
    (hs.drawNonce.bootFw.loadSettings.bringUpAll.forEach
    (·.bistSlice)).commitStages.loadCal.lightUp.applyTimeCfg.applyTimeCfg).updRst

protected theorem Kept.settleTiles (hs : Kept P s) : Kept P (settleTiles s) :=
  hs.forEach fun hs => .ite hs.updTile.applyPolicy (.ite hs.updTile.applyPolicy.retireTile
    hs.updTile.applyPolicy.updTile)

protected theorem Kept.relight (hs : Kept P s) : Kept P (relight s) := hs.frame.brightenAll

protected theorem Kept.coldEnd (hs : Kept P s) : Kept P (coldEnd level s) :=
  (hs.updFw.when (·.updRst)).writeHealth

protected theorem Kept.resetUnit (hs : Kept P s) : Kept P (resetUnit i unit s) := by
  unfold resetUnit
  refine .ite ?_ hs
  refine .ite ?_ (hs.unless (·.scanRing))
  dsimp only
  split
  · exact hs.faultLane.when (·.acquireLaser)
  · exact hs.when (·.acquireLaser)

protected theorem Kept.absorb (hs : Kept P s) : Kept P (absorb unit s) := hs.updRst

protected theorem Kept.stage2 (hs : Kept P s) : Kept P (stage2 s) :=
  (Kept.ite hs.emit.updRst.settleTiles.tileFaultActive.relight
    hs.emit.updRst.settleTiles.tileFaultActive.coldEnd).forEach (·.resetUnit)

protected theorem Kept.restoreLog (hs : Kept P s) : Kept P (restoreLog s) := hs.frame.emit

protected theorem Kept.lastWrites {torn : Bool} (hs : Kept P s) : Kept P (lastWrites n torn s) :=
  .ite ((hs.flashWrite.forEach (·.flashWrite)).forEach (·.flashWrite)) (hs.flashWrite.forEach (·.flashWrite))

protected theorem Kept.powerOff (hs : Kept P s) : Kept P (powerOff s) := hs.coldState.frame

/-! #### `Machine/ResetRows` -/

protected theorem Kept.execResetL0 (hs : Kept P s) : GoesOn P (execResetL0 i unit s) :=
  (Kept.ite hs (.ite (hs.when (·.absorb)).raiseSource (.ite hs.updRst hs.localReset.resetUnit))).goes

protected theorem Kept.rstCtrl (hs : Kept P s) : Kept P (rstCtrl v s) :=
  .ite hs (.ite hs.raiseSource (hs.when (·.raiseSource)))

/-! #### `Machine/RegWrite` -/

protected theorem Kept.plainWrite (hs : Kept P s) : Kept P (plainWrite r inst ix v s) := hs.unless (·.regPut)

protected theorem Kept.onceWrite (hs : Kept P s) : Kept P (onceWrite r inst ix v s) :=
  hs.unless (·.frame.regPut)

protected theorem Kept.planeCfgWrite (hs : Kept P s) : Kept P (planeCfgWrite c f v s) :=
  .ite hs.frame hs.plainWrite

protected theorem Kept.modidWrite (hs : Kept P s) : Kept P (modidWrite v s) := .ite hs.frame hs.plainWrite

protected theorem Kept.causeWrite (hs : Kept P s) : Kept P (causeWrite v s) := hs.updRst.unless (·.updRst)

protected theorem Kept.trainOf {meas : List Int} (hs : Kept P s) : Kept P (trainOf n meas s).1 := by
  unfold trainOf
  split
  · exact hs
  · exact hs.drawFree

protected theorem Kept.stripCtrl {meas : List Int} (hs : Kept P s) : Kept P (stripCtrl v meas s) :=
  .ite (hs.when (·.trainOf.stripRestore)) (hs.when (·.stripOffline))

protected theorem Kept.asRepair {s' : State} (hs : Kept P s) (he : asRepair v s = some s') : Kept P s' := by
  obtain ⟨-, he⟩ := Option.ite_none_left_eq_some.1 he
  exact (Kept.ite hs.wantColumn hs.repairRow).of_some he

protected theorem Kept.portCfgWrite (hs : Kept P s) : Kept P (portCfgWrite n v s) :=
  hs.plainWrite.when (·.dropPort)

protected theorem Kept.alarmClear (hs : Kept P s) : Kept P (alarmClear v s) := hs.updTime

/-- R8: what a write of a register does, register by register. -/
protected theorem Kept.liveWrite {meas : List Int} {s' : State} (hs : Kept P s)
    (he : liveWrite r inst ix v meas s = some s') : Kept P s' := by
  unfold liveWrite at he
  dsimp only at he
  split at he
  · exact hs.updTile.of_some he
  · exact hs.updTile.of_some he
  · exact hs.updTile.of_some he
  · exact hs.updTile.of_some he
  · exact hs.tileCtrl.of_some he
  · exact hs.stripCtrl.of_some he
  · split at he
    · cases he
    · exact hs.retireAddr.of_some he
  · exact hs.marks.of_some he
  · exact hs.asRepair he
  · exact hs.frame.of_some he
  · exact hs.syncSet.of_some he
  · exact hs.syncAdd.of_some he
  · exact hs.frame.of_some he
  · exact hs.planeCfgWrite.of_some he
  · exact hs.modidWrite.of_some he
  · exact hs.frame.of_some he
  · exact (hs.when (·.regPutField)).of_some he
  · exact hs.lightCtrl.of_some he
  · exact hs.updChip.of_some he
  · exact hs.eyeCtrl.of_some he
  · exact hs.updEng.of_some he
  · exact hs.marCmd.of_some he
  · exact hs.strCfgWrite.of_some he
  · exact hs.strIoWrite.of_some he
  · exact hs.portCfgWrite.of_some he
  · exact hs.updTime.of_some he
  · exact hs.plainWrite.applyTimeCfg.of_some he
  · exact hs.timeCtrl.of_some he
  · exact hs.alarmClear.of_some he
  · exact hs.updPwr.of_some he
  · exact hs.updPwr.of_some he
  · exact hs.pwrPad.of_some he
  · exact hs.causeWrite.of_some he
  · exact hs.onceWrite.of_some he
  · exact hs.rstCtrl.of_some he
  · exact hs.updRed.of_some he
  · exact hs.redCtrl.of_some he
  · exact hs.accEntryWrite.of_some he
  · exact hs.supSave.of_some he
  · exact hs.plainWrite.of_some he

/-! #### `Machine/HostRun` -/

protected theorem Kept.genIdentify (hs : Kept P s) : Kept P (genIdentify h cmd s).1 := hs

protected theorem Kept.evalOpen {p : List Byte} (hs : Kept P s) : Kept P (evalOpen h p s).1 := by
  unfold evalOpen
  split
  · exact hs
  · exact .iteFst hs (.iteFst hs (hs.hostCount.unless (·.hostCount.emit)).updHost.drawNonce)

protected theorem Kept.takeSession {p : List Byte} (hs : Kept P s) : Kept P (takeSession h p s) :=
  hs.closeSession.openSession

protected theorem Kept.sessionOpenIn (hs : Kept P s) : Kept P (sessionOpenIn h cmd s).1 :=
  .iteFst hs.evalOpen.finishCmd.takeSession hs.evalOpen

protected theorem Kept.sessionClose (hs : Kept P s) : Kept P (sessionClose h cmd s).1 :=
  hs.finishCmd.closeSession

protected theorem Kept.sessionKeepalive (hs : Kept P s) : Kept P (sessionKeepalive h cmd s).1 := hs.status

protected theorem Kept.regRead (hs : Kept P s) : Kept P (regRead h cmd s).1 := by
  unfold regRead
  split
  · exact hs.status
  · exact .iteFst hs.status (.iteFst hs.status (.iteFst hs.status hs.readReg))

protected theorem Kept.regWrite (hs : Kept P s) : Kept P (regWrite h cmd s).1 := by
  unfold regWrite
  split
  · exact hs.status
  · rename_i heq
    refine .iteFst hs.status (.iteFst hs.status ?_)
    split
    next heq => exact (hs.liveWrite heq).status
    · exact hs.status

protected theorem Kept.syncSignal (hs : Kept P s) : Kept P (syncSignal h cmd s).1 :=
  .iteFst hs.status (.ite hs.syncAdd hs.syncSet)

protected theorem Kept.calRun (hs : Kept P s) : Kept P (calRun h cmd s).1 := by
  unfold calRun
  split
  · exact hs.calRunLaser
  · exact hs.calRunRing
  · exact hs.calRunXtalk
  · exact hs.calRunOsum
  · exact hs.status

protected theorem Kept.takeStale (hs : Kept P s) : Kept P (takeStale h s) :=
  hs.hostCount.when (·.emit.enterFenced)

protected theorem Kept.preCheck (hs : Kept P s) : Kept P (preCheck h cmd s).1 := by
  unfold preCheck
  refine .iteFst hs ?_
  split
  · exact hs
  · exact .iteFst hs.takeStale (.iteFst hs (.iteFst hs (.iteFst hs (.iteFst hs hs))))

protected theorem Kept.countRun (hs : Kept P s) : Kept P (countRun op s) := hs.unless (·.hostCount)

/-- The meaning that the table of opcodes names. -/
protected theorem Kept.cmdRun {op : Nat} {i : CmdInfo} (hs : Kept P s) (hi : cmdInfo op = some i) :
    Kept P (i.run h cmd s).1 := by
  unfold cmdInfo at hi
  split at hi
  · cases hi; exact hs.genIdentify (h := h) (cmd := cmd)
  · cases hi; exact hs.sessionOpenIn
  · cases hi; exact hs.sessionClose (cmd := cmd)
  · cases hi; exact hs.sessionKeepalive (h := h) (cmd := cmd)
  · cases hi; exact hs.regRead (h := h)
  · cases hi; exact hs.regWrite (h := h)
  · cases hi; exact hs.bulkStart
  · cases hi; exact hs.bulkStart
  · cases hi; exact hs.jobLoad (h := h)
  · cases hi; exact hs.jobLaunch (h := h)
  · cases hi; exact hs.jobAbort (h := h) (cmd := cmd)
  · cases hi; exact hs.syncSignal (h := h)
  · cases hi; exact hs.planLoad (h := h)
  · cases hi; exact hs.planArmCmd
  · cases hi; exact hs.darkWindow (h := h)
  · cases hi; exact hs.fabricDiscover
  · cases hi; exact hs.loopRearm (h := h)
  · cases hi; exact hs.calRun
  · cases hi; exact hs.pwrSetState
  · cases hi; exact hs.pwrSetPlevel (h := h)
  · cases hi; exact hs.timeSetAlarm (h := h)
  · cases hi; exact hs.evtRead (h := h)
  · cases hi; exact hs.evtSeal
  · cases hi; exact hs.fwBlock (h := h)
  · cases hi; exact hs.fwVerify (h := h)
  · cases hi; exact hs.fwActivate (h := h)
  · cases hi; exact hs.fwConfirm (h := h) (cmd := cmd)
  · cases hi; exact hs.fwRevert (h := h)
  · cases hi; exact hs.attestQuote (h := h)
  · cases hi; exact hs.pairConfigure (h := h)
  · cases hi; exact hs.pairRejoin (h := h)
  · cases hi

/-- The checks before a command pass only where the table names the opcode. -/
theorem cmdInfo_of_preCheck {i : CmdInfo} (hi : (preCheck h cmd s).2 = .inr i) : cmdInfo cmd.opcode = some i := by
  unfold preCheck at hi
  split at hi
  · cases hi
  · split at hi
    · cases hi
    · rename_i hj
      split_ifs at hi
      cases hi
      exact hj

/-- R446, R451: a command that is started runs its own meaning, whichever the table of opcodes names. -/
protected theorem Kept.runStart {copies : List ReplyTo} (hs : Kept P s) : Kept P (runStart h cmd copies s) := by
  unfold runStart
  dsimp only
  split
  · exact hs.updHost.preCheck.finishCmd
  · rename_i hi
    have hi := cmdInfo_of_preCheck hi
    split
    · exact Kept.finishCmd (Kept.cmdRun (Kept.countRun (Kept.preCheck hs.updHost)) hi)
    · exact Kept.cmdRun (Kept.countRun (Kept.preCheck hs.updHost)) hi

protected theorem Kept.startNext (hs : Kept P s) : Kept P (startNext s) := by
  unfold startNext
  split
  · exact hs
  · exact hs.when (·.updHost.runStart)

protected theorem Kept.startSeveral (hs : Kept P s) : Kept P (startSeveral n s) := by
  induction n generalizing s with
  | zero => exact hs
  | succ n ih => exact ih hs.startNext

protected theorem Kept.seqConflict (hs : Kept P s) : Kept P (seqConflict h s) := hs.hostCount.emit

protected theorem Kept.sequence (hs : Kept P s) : Kept P (sequence h cmd s) := by
  unfold sequence
  dsimp only
  split
  · exact .ite hs.seqConflict hs.updHost.hostCount
  · exact .ite hs.seqConflict hs.updHost.sendReply
  · exact .ite hs.seqConflict hs.sendReply
  · exact .ite (hs.updHost.when (·.startNext)) hs.hostCount.sendReply

protected theorem Kept.runLoose (hs : Kept P s) : Kept P (runLoose h cmd s) :=
  .ite hs.sendReply (.ite (.ite hs.hostCount.sendReply hs.sendReply) (.ite hs.sendReply (hs.evalOpen.when
    (·.takeSession)).sendReply))

protected theorem Kept.hostReceive (hs : Kept P s) : Kept P (hostReceive h cmd s) :=
  .ite hs (.ite (.ite hs.bump.runLoose hs.bump.hostCount.sendReply) (.ite hs.bump.sendReply
    hs.bump.touchSession.sequence))

/-! #### `Machine/RemRows` -/

/-- R115: an entry that its unit has carried out, with the function that carries it out. -/
protected theorem Kept.execQueueEntryCompletion {ups : List Upset} (hs : Kept P s) :
    GoesOn P (execQueueEntryCompletion t u k ups s) := by
  have h : Kept P (strike ups s) := hs.strike
  refine Kept.goes (.ite hs ?_)
  have hrun : ∀ (n : Nat) (f : Nat → Insn → State → Ran), (∀ i, RanKept P (f t i (strike ups s))) →
      Kept P (match (queueGet (tileAt s t) u)[k]? with
        | some e =>
          if k < startedCount (tileAt s t) u then
            match f t (insnOf e.word) (strike ups s) with
            | .held => s
            | r => settleEntry t u n k e (strike ups s) r
          else s
        | none => s) := by
    intro n f hf
    split
    · refine .ite ?_ hs
      split
      · exact hs
      · exact h.settleEntry (hf _)
    · exact hs
  cases u with
  | matrix => exact hrun 1 runMatrix fun _ => h.runMatrix
  | vector => exact hrun 2 runVector fun _ => h.runVector
  | mover => exact hrun 3 runMover fun _ => h.runMover
  | fabric => exact .ite h.fabricHead hs

protected theorem Kept.execFabricEntryRelease (hs : Kept P s) : GoesOn P (execFabricEntryRelease t s) := by
  unfold execFabricEntryRelease
  refine Kept.goes ?_
  dsimp only
  split
  · exact hs.when (·.fabricHead)
  · exact hs

protected theorem Kept.execRemoteOperationRx (hs : Kept P s) : GoesOn P (execRemoteOperationRx s) := by
  unfold execRemoteOperationRx
  refine Kept.goes ?_
  split
  · exact hs
  · exact hs.frame.applyRemote

protected theorem Kept.askRestart {failed : Nat} (hs : Kept P s) : Kept P (askRestart failed l n s) :=
  hs.placeFirst.frame.syncCount.emit

protected theorem Kept.leaveFput {failed : Nat} (hs : Kept P s) : Kept P (leaveFput failed l s) :=
  hs.frame.losePeer.losePeer

protected theorem Kept.execSyncTwinRestart {failed : Nat} (hs : Kept P s) :
    GoesOn P (execSyncTwinRestart failed l s) := by
  unfold execSyncTwinRestart
  refine Kept.goes ?_
  refine .ite ?_ hs
  refine .ite hs.leaveFput ?_
  split
  · exact hs
  · exact hs.askRestart

/-! #### `Machine/SessRows` -/

protected theorem Kept.answerIp {mine : Bool} {k : IpKind} {port target : Nat} (hs : Kept P s) :
    Kept P (answerIp mine k port src target data s) :=
  hs.unless (·.bump.when (·.updHost.bump))

protected theorem Kept.dropFrame {port : Nat} {counted : Bool} (hs : Kept P s) :
    Kept P (dropFrame port counted s) :=
  hs.unless (·.bump.when (·.bump))

protected theorem Kept.execZcpPacketDiscard {why : Discard} (hs : Kept P s) :
    GoesOn P (execZcpPacketDiscard why s) := by
  unfold execZcpPacketDiscard
  refine Kept.goes ?_
  refine .ite ?_ hs
  split
  · exact hs.hostCount
  · exact hs.hostCount
  · exact hs.hostCount
  · exact hs.dropFrame
  · exact hs.dropFrame
  · exact hs.dropFrame
  · exact hs.dropFrame
  · exact hs.dropFrame
  · exact hs.dropFrame
  · exact hs.dropFrame
  · exact hs.answerIp
  · exact hs.answerIp
  · exact hs.answerIp

protected theorem Kept.bulkPacket {f : Bulk → State → State} (hs : Kept P s)
    (hf : ∀ {a : Bulk} {s : State}, Kept P s → Kept P (f a s)) : Kept P (bulkPacket h f s) := by
  unfold bulkPacket
  refine .ite hs (.ite hs.bump ?_)
  dsimp only
  split
  · exact .ite hs.bump.touchSession.endBulk (hf hs.bump.touchSession)
  · exact hs.bump.touchSession

protected theorem Kept.takeBlock (hs : Kept P s) : Kept P (takeBlock k data b s) :=
  .ite hs (.ite hs.hostCount (.ite hs.hostCount (hs.unless (·.storeBlock.updBulk.bumpBy.when (·.sendAck)))))

protected theorem Kept.takeAck {window mask : Nat} (hs : Kept P s) : Kept P (takeAck next window mask b s) :=
  hs.unless (·.updBulk.resendBlocks.pumpRead)

protected theorem Kept.bulkEvent {f : Bulk → State → State} (hs : Kept P s)
    (hf : ∀ {a : Bulk} {s : State}, Kept P s → Kept P (f a s)) : Kept P (bulkEvent q f s) := by
  unfold bulkEvent
  split
  · exact .ite (hf hs) hs
  · exact hs

protected theorem Kept.execBulkResendTimeout {block : Nat} (hs : Kept P s) :
    GoesOn P (execBulkResendTimeout q block s) :=
  (hs.bulkEvent (·.when (·.resendBlocks))).goes

protected theorem Kept.execBulkDone (hs : Kept P s) : GoesOn P (execBulkDone q s) :=
  (hs.bulkEvent fun hs => .ite hs.endBulk (hs.when (·.endBulk))).goes

/-! #### `Machine/TileSync` -/

protected theorem Kept.execSstart (hs : Kept P s) : GoesOn P (execSstart t s) := by
  refine Kept.goes (hs.runInsn fun h => .ite hs ?_)
  split
  · exact h.raiseHere
  · exact .ite h.raiseHere
      (.ite h.frame.updStream.stepOver (.ite h.frame.updStream.stepOver hs))

protected theorem Kept.takeBuffer {dreg : Nat} {s' : State} (hs : Kept P s)
    (he : takeBuffer t d dreg s = some s') : Kept P s' := by
  unfold takeBuffer at he
  dsimp only at he
  split at he
  · split at he
    · split at he
      · exact hs.raiseHere.of_some he
      · exact hs.updStream.updTile.stepOver.of_some he
    · cases he
  · cases he

protected theorem Kept.execStake (hs : Kept P s) : GoesOn P (execStake t s) := by
  unfold execStake
  refine Kept.goes (hs.runInsn ?_)
  intro _ _ hs
  refine .ite hs.raiseHere ?_
  split
  next heq => exact hs.takeBuffer heq
  · exact hs.updTile

protected theorem Kept.execStakeSatisfied (hs : Kept P s) : GoesOn P (execStakeSatisfied t s) := by
  refine Kept.goes ?_
  split
  next d b _ =>
    cases hb : takeBuffer t d b s with
    | none => exact hs
    | some s' => exact hs.takeBuffer hb
  · exact hs

protected theorem Kept.execSfree (hs : Kept P s) : GoesOn P (execSfree t s) := by
  refine Kept.goes (hs.runInsn fun h => .ite hs (.ite h.raiseHere ?_))
  split
  · exact .ite h.updStream.stepOver h.raiseHere
  · exact h.raiseHere

/-- R134: the object is changed when the queues are empty, and until then nothing is. -/
protected theorem Kept.syncWrite {f : Nat → W64 → State → State} (hs : Kept P s)
    (hf : ∀ {i v s}, Kept P s → Kept P (f i v s)) : Kept P (syncWrite op f t s) :=
  hs.runInsn fun hs1 => .ite hs (.ite hs1.raiseHere (hf hs1).stepOver)

protected theorem Kept.execSyrd (hs : Kept P s) : GoesOn P (execSyrd t s) :=
  (hs.runInsn fun hs => .ite hs.raiseHere hs.updTile.stepOver).goes

protected theorem Kept.execSywait (hs : Kept P s) : GoesOn P (execSywait t s) :=
  (hs.runInsn fun hs => .ite hs.raiseHere (.ite hs.stepOver hs.updTile)).goes

/-! #### `Machine/WseRows` -/

protected theorem Kept.setPass {p : Pass} (hs : Kept P s) : Kept P (setPass d p s) := hs.updStream

protected theorem Kept.execWsePassBegin (hs : Kept P s) : GoesOn P (execWsePassBegin d s) := by
  unfold execWsePassBegin
  refine Kept.goes ?_
  split
  · exact hs.when (·.setPass)
  · exact hs

protected theorem Kept.execChunkStaged (hs : Kept P s) : GoesOn P (execChunkStaged d n s) := by
  unfold execChunkStaged
  refine Kept.goes ?_
  dsimp only
  split
  · split
    · exact hs
    · exact hs.when (·.unless (·.readChunk.updStream))
  · exact hs

protected theorem Kept.execChunkWriteStart (hs : Kept P s) : GoesOn P (execChunkWriteStart d s) := by
  unfold execChunkWriteStart
  refine Kept.goes ?_
  dsimp only
  split
  · refine .ite ?_ hs
    split
    · exact hs.setPass
    · exact hs.unless (·.readChunk.setPass)
  · exact hs

protected theorem Kept.execChunkFull (hs : Kept P s) : GoesOn P (execChunkFull d l s) := by
  unfold execChunkFull
  refine Kept.goes ?_
  split
  · refine .ite ?_ hs
    refine Kept.updStream ?_
    split
    · exact hs.when (·.scratchWrite.spoilKeys)
    · exact hs
  · exact hs

protected theorem Kept.markGrans {dpas : List Nat} (hs : Kept P s) : Kept P (markGrans dpas s) :=
  hs.forEach (·.unless (·.setGran))

protected theorem Kept.spillMember (hs : Kept P s) : Kept P (spillMember de t dpa s).1 :=
  .iteFst hs.ddrWrite.markGrans hs.sliceCheck.ddrWrite.markGrans

protected theorem Kept.fillMember (hs : Kept P s) : Kept P (fillMember de t dpa s).1 :=
  .iteFst hs.ddrRead (hs.ddrRead.sliceWrite.forEach (·.forEach (·.setWord)))

protected theorem Kept.moveSpill (hs : Kept P s) : Kept P (moveSpill d de s) := by
  unfold moveSpill
  dsimp only
  split
  · refine hs.foldlFst ?_
    intro _ _ hs
    split
    · exact hs
    · exact (Kept.iteFst hs.spillMember hs.fillMember).bumpBy
  · refine Kept.emit (Kept.wseCount (Kept.wseErr (hs.foldlFst ?_)))
    intro _ _ hs
    split
    · exact hs
    · exact (Kept.iteFst hs.spillMember hs.fillMember).bumpBy

protected theorem Kept.passAdd (hs : Kept P s) : Kept P (passAdd de s) := hs.when (·.syncAdd)

protected theorem Kept.execWsePassEnd (hs : Kept P s) : GoesOn P (execWsePassEnd d s) := by
  unfold execWsePassEnd
  refine Kept.goes ?_
  split
  · exact .ite hs (.ite (hs.when (·.endPass.passAdd)) (hs.unless (·.moveSpill.endPass.passAdd)))
  · exact hs

protected theorem Kept.execWsePassCancel (hs : Kept P s) : GoesOn P (execWsePassCancel d s) := by
  unfold execWsePassCancel
  refine Kept.goes ?_
  dsimp only
  split
  · exact hs.when (·.updStream.emit)
  · exact hs

/-! #### The arms of the dispatch -/

/-- Every instruction goes on, with the queue and the form of memory kept. -/
protected theorem Kept.exec {i : Instr} (hs : Kept P s) : GoesOn P (exec i s) := by
  cases i with
  | genIdentify | sessionOpen | sessionClose | sessionKeepalive | regRead | regWrite | bulkWrite
  | bulkRead | jobLoad | jobLaunch | jobAbort | syncSignal | planLoad | planArm | planDisarm
  | darkWindow | darkWindowCancel | fabricDiscover | loopRearm | calRunLaser | calRunRing | calRunXtalk
  | calRunOsum | pwrSetState | pwrSetPlevel | timeSetAlarm | evtRead | evtSeal | fwBlock | fwVerify
  | fwActivate | fwConfirm | fwRevert | attestQuote | pairConfigure | pairUnpair | pairRejoin
  | tileCtrlSelftest | tileCtrlRetire | tileCtrlRestore | tileSrngWrite | syncValueWrite | syncAddWrite
  | fabLightSwap | fabLightRestore | fabEyeCtrlRestore | marRearm | marCommit | marLutCommit
  | marXtCommit | timeNowSRead | timeSet | pwrPadRelease | rstCtrlCold | rstCtrlWarm | memRetireAddr
  | memStripOffline | memStripRestore | memAsRepairRow | memAsRepairColumn | redCtrlTakeover
  | redCtrlMirrorNow | redAccEntryWrite | supSave => exact hs.hostReceive.goes
  | bulkBlock => exact (hs.bulkPacket (·.takeBlock)).goes
  | bulkAck => exact (hs.bulkPacket (·.takeAck)).goes
  | bulkAckTimer => exact (hs.bulkEvent (·.when (·.sendAck))).goes
  | bulkResendTimeout => exact hs.execBulkResendTimeout
  | bulkDone => exact hs.execBulkDone
  | bulkTimeout => exact (hs.bulkEvent (·.endBulk.emit)).goes
  | zcpPacketDiscard => exact hs.execZcpPacketDiscard
  | badOpcode => exact (hs.when (·.hostReceive)).goes
  | heldCommandStart => exact hs.startNext.goes
  | sessionIdleTimeout => exact (hs.when (·.closeSession)).goes
  | nonceRefresh => exact (hs.when (·.drawNonce)).goes
  | sessionOpenEvalExpiry => exact hs.updHost.goes
  | portLinkUp => exact (hs.when (·.updPort.emit.settleNet)).goes
  | portLinkDown => exact (hs.when (·.dropPort)).goes
  | jobEnd => exact hs.execJobEnd
  | pwrPendingStart => exact hs.execPwrPendingStart
  | nop | setc | li | aadd | aaddi | alo | ahi | aget | amov => exact hs.simpleInsn.goes
  | halt => exact (hs.runInsn (·.updTile)).goes
  | tileHalted => exact (hs.when (·.haltTile)).goes
  | brk => exact (hs.runInsn (·.raiseHere)).goes
  | fence => exact hs.execFence
  | getc => exact hs.execGetc
  | seed => exact hs.execSeed
  | add | sub | and | or | xor | shl | shr | sra | mul | mulhu | slt | sltu | min | max =>
    exact hs.aluReg.goes
  | addi | subi | andi | ori | xori | shli | shri | srai | muli | mulhui | slti | sltui | mini | maxi =>
    exact hs.aluImm.goes
  | lw => exact hs.execLw
  | sw | sa => exact hs.scalarStore.goes
  | la => exact hs.scalarLoad.goes
  | tileTrapped => exact hs.execTileTrapped
  | illegalWord => exact hs.execIllegalWord
  | beq | bne | blt | bge | bltu | bgeu => exact hs.branchOn.goes
  | jmp => exact (hs.runInsn (·.jumpBy)).goes
  | jal => exact (hs.runInsn (·.updTile.jumpBy)).goes
  | jr => exact hs.execJr
  | vaddf | vsubf | vmulf | vmaxf | vminf | vfma | viadd | visub | vimul | vand | vor | vxor | vshl
  | vshr | vsra | vrcp | vrsqrt | vexp2 | vlog2 | vcvtfi | vcvtif | vbcast | vsumf | vmaxr | vld | vst
  | vpack | vunpk | mshape | mma | accz | accpack | accget | accput | mvshape | mov | cpost | fput
  | fsig => exact hs.issueTo.goes
  | sstart => exact hs.execSstart
  | stake => exact hs.execStake
  | stakeSatisfied => exact hs.execStakeSatisfied
  | sfree => exact hs.execSfree
  | syadd => exact (hs.syncWrite (·.syncAdd)).goes
  | syset => exact (hs.syncWrite (·.syncSet)).goes
  | syrd => exact hs.execSyrd
  | sywait => exact hs.execSywait
  | sywaitSatisfied => exact (hs.when (·.updTile.stepOver)).goes
  | fabricEntryRelease => exact hs.execFabricEntryRelease
  | tileSelftestDone => exact hs.execTileSelftestDone
  | tileFault => exact (hs.when (·.faultTile)).goes
  | spareTileSelftest => exact (hs.when (·.startTest)).goes
  | meshStall => exact (hs.when (·.updTile.emit)).goes
  | wsePassBegin => exact hs.execWsePassBegin
  | chunkWriteStart => exact hs.execChunkWriteStart
  | chunkFull => exact hs.execChunkFull
  | wsePassEnd => exact hs.execWsePassEnd
  | wsePassCancel => exact hs.execWsePassCancel
  | remoteOperationRx => exact hs.execRemoteOperationRx
  | syncTwinRestart => exact hs.execSyncTwinRestart
  | laneFrameTx => exact hs.execLaneFrameTx
  | laneFrameRx => exact hs.execLaneFrameRx
  | markerLockLost => exact (hs.unless (·.updRx.when (·.faultRx))).goes
  | los => exact hs.execLos
  | fecUncorrLimit | fecDegraded => exact (hs.when (·.faultRx)).goes
  | nakTimer | replayTimeout => exact hs.updSets.goes
  | laneFault => exact (hs.when (·.faultLane)).goes
  | laneReadmit => exact hs.execLaneReadmit
  | lanesetDead => exact hs.execLanesetDead
  | discoveryRound => exact hs.execDiscoveryRound
  | discoveryEnd => exact hs.execDiscoveryEnd
  | phaseTrigger => exact hs.execPhaseTrigger
  | lanesetClosed => exact hs.execLanesetClosed
  | laneRelease => exact hs.execLaneRelease
  | retuneDone => exact hs.execRetuneDone
  | phaseGapOverrun => exact hs.execPhaseGapOverrun
  | darkWindowOpen => exact hs.execDarkWindowOpen
  | darkWindowClose => exact hs.execDarkWindowClose
  | collInstanceStart => exact hs.execCollInstanceStart
  | collUnitRx => exact hs.execCollUnitRx
  | collInstanceComplete => exact hs.execCollInstanceComplete
  | collInstanceEnd => exact hs.execCollInstanceEnd
  | collTimeout => exact hs.execCollTimeout
  | osumBurstStart => exact (hs.updColl.forEach (·.launchBurst)).goes
  | osumBurstEnd g fs => exact hs.execOsumBurstEnd (g := g) (fs := fs)
  | collSegRestart => exact hs.execCollSegRestart
  | refereeRead => exact hs.execRefereeRead
  | laserAcquire => exact hs.execLaserAcquire
  | spareLaserCheck => exact hs.execSpareLaserCheck
  | swapThreshold => exact hs.execSwapThreshold
  | plannedSwap => exact hs.execPlannedSwap
  | forcedSwap => exact (hs.when (·.forceSwap)).goes
  | ringScan => exact (hs.when (·.lockRing)).goes
  | eyeTrip => exact hs.execEyeTrip
  | eyeRestoreStart => exact (hs.when (·.startRestore)).goes
  | eyeRestoreDone => exact hs.execEyeRestoreDone
  | marTick => exact (hs.when (·.marTick)).goes
  | timeTick => exact hs.execTimeTick
  | ptpSyncRx => exact hs.execPtpSyncRx
  | ptpFollowUpRx => exact hs.execPtpFollowUpRx
  | ptpDelayRespRx => exact hs.execPtpDelayRespRx
  | ptpAnnounceRx => exact hs.execPtpAnnounceRx
  | delayReq => exact (hs.when (·.updDomain.bump.timeCount)).goes
  | timeLost => exact (hs.when (·.loseDomain)).goes
  | timeListenReturn => exact (hs.when (·.updDomain)).goes
  | timeHoldoffExpiry => exact (hs.when (·.updDomain.selectSource)).goes
  | holdoverExpiry => exact (hs.when (·.updTime)).goes
  | alarmFire => exact hs.execAlarmFire
  | powerApply => exact (hs.unless (·.updPwr.restoreLog)).goes
  | inputLost => exact (hs.when (·.lastWrites.powerOff)).goes
  | vinOutOfRange => exact hs.execVinOutOfRange
  | vbusLow | vbusRecovered => exact (hs.when (·.vbusAt)).goes
  | plevelChange => exact hs.execPlevelChange
  | powerCapWindow => exact hs.updPwr.goes
  | thermalTrip => exact (hs.when (·.updPwr.emit.raiseSource)).goes
  | memHot => exact (hs.unless (·.setRequest)).goes
  | wakePin => exact hs.latchWake.goes
  | wakeReplay => exact hs.execWakeReplay
  | resetAssert => exact (hs.unless (·.updRst.assertSources)).goes
  | resetL0 => exact hs.execResetL0
  | aonClk => exact hs.updRst.raiseSource.goes
  | resetSourceRelease => exact (hs.when (·.updRst)).goes
  | resetStage4 => exact (hs.when (·.updRst.updFw)).goes
  | resetStage3 => exact (hs.when (·.stage3)).goes
  | resetStage2 => exact (hs.when (·.stage2)).goes
  | rstHold => exact (hs.when (·.updRst.emit)).goes
  | mr4Poll => exact hs.execMr4Poll
  | wck2dqCheck => exact hs.goes
  | lpddrScrub => exact (hs.when (·.strike.readGran)).goes
  | asColumnRepair => exact (hs.when (·.forEach (·.repairColumn))).goes
  | sliceScrub => exact (hs.when (·.strike.sliceCheck)).goes
  | wispPeriod => exact hs.execWispPeriod
  | wispRx => exact hs.execWispRx
  | claimMsgRx => exact hs.execClaimMsgRx
  | takeoverRepeat => exact (hs.when (·.updRed.sendClaim)).goes
  | announceTimer => exact hs.execAnnounceTimer
  | tableReady => exact (hs.when (·.updRed)).goes
  | mirrorPassStart => exact hs.execMirrorPassStart
  | mirrorCommit => exact hs.execMirrorCommit
  | mirrorCommitRx => exact hs.execMirrorCommitRx
  | mirrorUnitRx => exact hs.execMirrorUnitRx
  | supSwitchover => exact hs.execSupSwitchover
  | supSwitchback => exact (hs.when (·.handover.emit)).goes
  | standbySelftest => exact hs.execStandbySelftest
  | probationRuntime => exact hs.execProbationRuntime
  | probationExpiry => exact hs.execProbationExpiry
  | smbusStatus => exact (hs.when (·.updFw)).goes
  | smbusWake => exact (hs.when (·.smbResult.latchWake)).goes
  | smbusWarmReset => exact hs.execSmbusWarmReset
  | smbusColdReset => exact hs.execSmbusColdReset
  | ownerInstall => exact hs.execOwnerInstall
  | ownerInstallChecked => exact hs.execOwnerInstallChecked
  | ownerClear => exact hs.execOwnerClear
  | recoveryReq => exact (hs.when (·.updFw.smbResult)).goes
  | eventSubmit => exact hs.emit.goes
  | recordWrite => exact hs.execRecordWrite
  | coalesceWindowEnd => exact hs.execCoalesceWindowEnd
  | flashCopy => exact hs.copyRecord.goes
  | evtHealth => exact hs.execEvtHealth
  | queueEntryCompletion => exact hs.execQueueEntryCompletion
  | markerLockGained => exact hs.execMarkerLockGained
  | chunkStaged => exact hs.execChunkStaged
  | vinInRange => exact (hs.when (·.updPwr)).goes
  | inletHot => exact (hs.unless (·.updPwr.when (·.emit))).goes
  | commandHoldExpiry => exact (hs.when (·.updHost.startSeveral)).goes

end Operations

/-- Settles O59: what a step changes beside its own front of the queue keeps both (`Kept.exec`). -/
theorem everyStepKeepsMemoryCanonical : Obligations.EveryStepKeepsMemoryCanonical := by
  intro s hwf
  unfold step
  split
  next hq => exact ⟨s, rfl, hwf, by simp [hq]⟩
  next c rest hq =>
    have hkept : Kept rest { s with pending := rest } := ⟨rfl, hwf⟩
    have hgoes := hkept.exec (i := c)
    cases hr : exec c { s with pending := rest } with
    | next s' =>
      rw [hr] at hgoes
      cases hgoes with
      | next h => exact ⟨s', rfl, h.wf, by rw [h.queue, hq, List.tail_cons]⟩
    | _ => rw [hr] at hgoes; cases hgoes

end Sys2Proof.Machine

/-! ### O58: what reset leaves -/

namespace Sys2Proof.Machine

theorem getD_map_range {α : Type} (f : Nat → α) (d : α) {n t : Nat} (ht : t < n) :
    ((List.range n).map f).getD t d = f t := by
  simp [ht]

theorem tileAt_reset {t : Nat} (ht : t < 156) : tileAt State.reset t = Tile.reset t := getD_map_range _ _ ht

theorem slotAt_reset (n : Nat) : slotAt State.reset n = {} := List.getElem?_getD_replicate_default_eq ..

theorem laneAt_reset (i : Nat) : laneAt State.reset i = {} := List.getElem?_getD_replicate_default_eq ..

theorem rxAt_reset (i : Nat) : rxAt State.reset i = {} := List.getElem?_getD_replicate_default_eq ..

theorem laserAt_reset {c n : Nat} (hc : c < 8) (hn : n < 36) : laserAt State.reset c n = Laser.reset n := by
  have hchip : chipAt State.reset c = Chiplet.reset := List.getD_replicate _ hc
  rw [laserAt, hchip]
  exact getD_map_range _ _ hn

theorem portUp_reset (n : Nat) : portUp State.reset n = false :=
  congrArg Port.link (List.getElem?_getD_replicate_default_eq _ 8 n)

/-- A register that nothing has written stores its Reset value. -/
theorem regGet_reset (r : RegRow) (inst : Nat) (ix : List Nat) :
    regGet State.reset r inst ix = regReset r inst ix % 2 ^ 64 := BitVec.toNat_ofNat ..

/-- R91: row `y` of the grid holds twelve logical tiles. -/
theorem homeLogical_of_lt {x y : Nat} (hx : x < 12) (hy : y < 12) :
    Tile.homeLogical (13 * y + x) = some (12 * y + x) := by
  have hmod : (13 * y + x) % 13 = x := by omega
  have hdiv : (13 * y + x) / 13 = y := by omega
  rw [Tile.homeLogical, hmod, hdiv, if_pos ⟨hx, by omega⟩]

/-- R91: the tiles of column 12 are spares. -/
theorem homeLogical_column_12 (y : Nat) : Tile.homeLogical (13 * y + 12) = none :=
  if_neg (by omega)

/-- Settles O58: a clause is a lemma above about a part of the state after reset, or holds by evaluation. -/
theorem stateAfterReset : Obligations.StateAfterReset := by
  refine ⟨rfl, rfl, rfl, rfl, regGet_reset, rfl, ?_, ?_, ?_, fun _ => rfl, rfl, fun _ => rfl, rfl, rfl, rfl,
    ?_, ?_, ?_, ?_, rfl, rfl, portUp_reset, rfl, rfl, rfl, rfl, rfl, rfl, rfl, rfl, rfl, rfl, rfl, rfl, rfl⟩
  · intro y hy x hx
    rw [tileAt_reset (by omega)]
    exact homeLogical_of_lt hx hy
  · intro y hy
    rw [tileAt_reset (by omega)]
    exact homeLogical_column_12 y
  · intro t ht
    rw [tileAt_reset ht]
    exact ⟨rfl, rfl⟩
  · intro n
    rw [slotAt_reset]
  · intro i _
    rw [laneAt_reset, rxAt_reset]
    exact ⟨rfl, rfl⟩
  · intro c hc f hf k hk
    rw [laserAt_reset hc (by omega), Laser.reset, if_pos (by omega)]
  · intro c hc n hn hspare
    rw [laserAt_reset hc hn, Laser.reset, if_neg (by omega)]

end Sys2Proof.Machine

/-! ### O37: REG_READ -/

namespace Sys2Proof.Machine

section Reads

variable {s : State} {h : Header} {c : HostCmd} {p : List Byte} {r : RegRow} {inst : Nat} {ix : List Nat}

@[simp] theorem begun_fw : (begun h c s).fw = s.fw := by rw [begun_eq]

@[simp] theorem begun_time : (begun h c s).time = s.time := by rw [begun_eq]

@[simp] theorem begun_fresh : (begun h c s).fresh = s.fresh := by rw [begun_eq]

@[simp] theorem regOff_begun : regOff (begun h c s) r inst = regOff s r inst := by rw [begun_eq]; rfl

@[simp] theorem windowBusy_begun : windowBusy (begun h c s) r inst = windowBusy s r inst := by rw [begun_eq]; rfl

/-- The registers that an admitted command finds are those before it, but for the host interface's. -/
theorem Admitted.begun_stands (ha : Admitted s h c) : RegsStand s (begun h c s) :=
  Machine.begun_stands h c s ha.1.1

/-- A command that only answers leaves the state as it was. -/
theorem Admitted.completes_unchanged {i : CmdInfo} {st : Nat} {q : List Byte} (ha : Admitted s h c)
    (hi : cmdInfo c.opcode = some i) (hr : i.run h c (begun h c s) = (begun h c s, .reply st q)) :
    Completes (.next (hostReceive h c s)) s s h c st q :=
  admitted_completes ha hi hr rfl (begun_eq h c s) ha.begun_stands

/-- R453: REG_READ of a payload that names no register. -/
theorem regRead_unnamed (h : Header) (hn : namedReg c.payload = none) : regRead h c s = (s, .reply 5 []) := by
  simp only [regRead, hn, status]

/-- R505: REG_READ of a register whose block is powered off. -/
theorem regRead_off (h : Header) (hn : namedReg c.payload = some (r, inst, ix)) (hrec : s.fw.recovery = false)
    (hoff : regOff s r inst = true) : regRead h c s = (s, .reply 0x0602 []) := by
  simp only [regRead, hn, hrec, hoff, status, Bool.false_eq_true, false_and, if_false, if_true]

/-- R158: REG_READ of a window of a tile that is RUNNING or TESTING. -/
theorem regRead_busy (h : Header) (hn : namedReg c.payload = some (r, inst, ix)) (hrec : s.fw.recovery = false)
    (hoff : regOff s r inst = false) (hbusy : windowBusy s r inst = true) :
    regRead h c s = (s, .reply 1 []) := by
  simp only [regRead, hn, hrec, hoff, hbusy, status, Bool.false_eq_true, false_and, if_false, if_true]

/-- R453: REG_READ of any other register. -/
theorem regRead_value (h : Header) (hn : namedReg c.payload = some (r, inst, ix)) (hrec : s.fw.recovery = false)
    (hoff : regOff s r inst = false) (hbusy : windowBusy s r inst = false) :
    regRead h c s = ((readReg r inst ix s).1, .reply 0 (leBytes 8 (regValue s r inst ix))) := by
  simp only [regRead, hn, hrec, hoff, hbusy, Bool.false_eq_true, false_and, if_false]
  have hv : (readReg r inst ix s).2 = regValue s r inst ix := by
    unfold readReg
    dsimp only
    split_ifs <;> rfl
  rw [hv]

/-- R470: what a read leaves: the nanoseconds that TIME_NOW_S keeps, and the free values drawn. -/
theorem readReg_state : (readReg r inst ix s).1 = { s with
    time := { s.time with latch := if r.name = .TIME_NOW_S then s.time.ns else s.time.latch }
    fresh := s.fresh + if readsFree r ix then 1 else 0 } := by
  unfold readReg
  by_cases hname : r.name = .TIME_NOW_S
  · have hfree : readsFree r ix = false := by simp [readsFree, unreported, hname]
    simp [hname, hfree, updTime]
  · by_cases hfree : readsFree r ix <;> simp [hname, hfree]

/-- R453: REG_READ of a register that can be served. -/
theorem regRead_completes (ha : Admitted s h (hostCmd 0x0201 p [])) (hn : namedReg p = some (r, inst, ix))
    (hoff : regOff s r inst = false) (hbusy : windowBusy s r inst = false) :
    Completes (exec (.regRead h p) s) s
      { s with
        time := { s.time with latch := if r.name = .TIME_NOW_S then s.time.ns else s.time.latch }
        fresh := s.fresh + if readsFree r ix then 1 else 0 }
      h (hostCmd 0x0201 p []) 0 (leBytes 8 (regValue (begun h (hostCmd 0x0201 p []) s) r inst ix)) := by
  have hrec : s.fw.recovery = false := ha.2.2.2.1
  refine admitted_completes ha rfl
    (regRead_value h hn (by simpa using hrec) (by simpa using hoff) (by simpa using hbusy))
    ?_ ?_ ?_
  · rw [readReg_state]
  · rw [readReg_state, begun_eq]
  · rw [readReg_state]
    exact ha.begun_stands

/-- R225: SYNC_VALUE reads the value of its object. -/
theorem regValue_syncValue (s : State) (i : Nat) : regValue s rSyncValue 0 [i] = (syncGet s i).toNat :=
  Nat.mod_eq_of_lt (syncGet s i).isLt

theorem findReg_timeNowS : findReg (regAddr rTimeNowS 0 []) = some (rTimeNowS, 0, []) := by decide

/-- R470: TIME_NOW_S reads the seconds of the time in force. -/
theorem regValue_timeNowS (s : State) : regValue s rTimeNowS 0 [] = s.time.sec % 2 ^ 48 := by
  show fld 0 48 s.time.sec % 2 ^ 64 = _
  unfold fld
  omega

theorem namedReg_timeNowS :
    namedReg (leBytes 4 (regAddr rTimeNowS 0 []) ++ leBytes 1 8 ++ leBytes 3 0) = some (rTimeNowS, 0, []) := by
  decide

end Reads

/-- Settles O37: each case is the equation of `regRead` for it. -/
theorem registerReads : Obligations.RegisterReads := by
  refine ⟨?_, ?_, fun s i _ => regValue_syncValue s i⟩
  · intro s h p r inst ix ha
    have hrec : (begun h (hostCmd 0x0201 p []) s).fw.recovery = false := by simpa using ha.2.2.2.1
    refine ⟨fun hn => ha.completes_unchanged rfl (regRead_unnamed h hn), fun hn => ⟨fun hoff => ?_, fun hoff =>
      ⟨fun hbusy => ?_, fun hbusy => regRead_completes ha hn hoff hbusy⟩⟩⟩
    · exact ha.completes_unchanged rfl (regRead_off h hn hrec (by simpa using hoff))
    · exact ha.completes_unchanged rfl (regRead_busy h hn hrec (by simpa using hoff) (by simpa using hbusy))
  · intro s h ha
    have hread := regRead_completes ha namedReg_timeNowS rfl rfl
    rwa [regValue_timeNowS, begun_time] at hread

end Sys2Proof.Machine

/-! ### O5: the scalar loads and stores -/

namespace Sys2Proof.Machine

section Scalar

variable {s : State} {t n op a : Nat} {i : Insn}

/-- R122: a scalar load that meets no error, of an aligned address. -/
theorem scalarLoad_readable {put : Insn → List Byte → Tile → Tile} (h : Issues s t i) (hn : NextInCode s t)
    (ho : i.op = op) (ha : a = (effAddr (tileAt s t) i).toNat) (hal : a % n = 0) (hr : Readable s t a n)
    (hpc : ∀ bs x, (put i bs x).pc = x.pc) (hlen : ∀ bs x, (put i bs x).codeLen = x.codeLen) :
    scalarLoad op n put t s = advanced t (put i (bytesAt s t a n) (postUpdate i (tileAt s t))) s := by
  subst ha
  unfold scalarLoad
  rw [runInsn_of_issues op _ h ho]
  simp only [hal, ne_eq, not_true_eq_false, if_false, tileLoad_readable hr]
  rw [updTile_eq]
  refine stepOver_setTile t _ s h.lt ?_ ?_ ?_
  · rw [hlen, postUpdate_codeLen]
    exact h.short
  · rw [hpc, postUpdate_pc]
    exact h.aligned
  · rw [hlen, hpc, postUpdate_codeLen, postUpdate_pc]
    exact hn

/-- R123: a scalar load of an address that is not aligned, or of no memory, raises ALIGN or ADDRESS. -/
theorem scalarLoad_raises {put : Insn → List Byte → Tile → Tile} (h : Issues s t i)
    (ho : i.op = op) (ha : a = (effAddr (tileAt s t) i).toNat)
    (hbad : a % n ≠ 0 ∨ placeOf s t a n = .unmapped) :
    scalarLoad op n put t s = raiseHere t (if a % n = 0 then 4 else 3) a s := by
  subst ha
  unfold scalarLoad
  rw [runInsn_of_issues op _ h ho]
  by_cases hal : (effAddr (tileAt s t) i).toNat % n = 0
  · have hplace := hbad.resolve_left (not_not_intro hal)
    simp only [hal, ne_eq, not_true_eq_false, if_false, if_true, tileLoad, hplace]
  · simp only [hal, ne_eq, not_false_eq_true, if_true, if_false]

/-- R122: a scalar store that lands, of an aligned address. -/
theorem scalarStore_writable {val : Insn → Tile → Nat} (h : Issues s t i) (hn : NextInCode s t)
    (ho : i.op = op) (ha : a = (effAddr (tileAt s t) i).toNat) (hal : a % n = 0) (hsmall : n < 16)
    (hw : Writable s t a n) :
    scalarStore op n val t s = advanced t (postUpdate i (tileAt s t))
      (storedAt ((keyOf s t a n).getD 0) (leBytes n (val i (tileAt s t))) s) := by
  subst ha
  have hlen : (leBytes n (val i (tileAt s t))).length = n := leBytes_length _ _
  have hstore := tileStore_writable (bs := leBytes n (val i (tileAt s t))) (by rwa [hlen]) (by rwa [hlen])
  rw [hlen] at hstore
  unfold scalarStore
  rw [runInsn_of_issues op _ h ho]
  simp only [hal, ne_eq, not_true_eq_false, if_false, hstore]
  rw [updTile_eq]
  refine stepOver_setTile t _ _ h.lt ?_ ?_ ?_
  · rw [postUpdate_codeLen]
    exact h.short
  · rw [postUpdate_pc]
    exact h.aligned
  · rw [postUpdate_codeLen, postUpdate_pc]
    exact hn

/-- R123: a scalar store to an address that is not aligned, or of no memory, raises ALIGN or ADDRESS. -/
theorem scalarStore_raises {val : Insn → Tile → Nat} (h : Issues s t i)
    (ho : i.op = op) (ha : a = (effAddr (tileAt s t) i).toNat)
    (hbad : a % n ≠ 0 ∨ placeOf s t a n = .unmapped) :
    scalarStore op n val t s = raiseHere t (if a % n = 0 then 4 else 3) a s := by
  subst ha
  unfold scalarStore
  rw [runInsn_of_issues op _ h ho]
  by_cases hal : (effAddr (tileAt s t) i).toNat % n = 0
  · have hplace := hbad.resolve_left (not_not_intro hal)
    simp only [hal, ne_eq, not_true_eq_false, if_false, if_true, tileStore, storeCheck, leBytes_length, hplace]
  · simp only [hal, ne_eq, not_false_eq_true, if_true, if_false]

/-- R138: an exception at an address that a tile forms. -/
theorem raiseHere_takes_effAddr {x : Tile} (h : Issues s t i) (cause : Nat) (ha : a = (effAddr x i).toNat) :
    TakesException s (raiseHere t cause a s) t ⟨cause, 0, (tileAt s t).pc, a, 0⟩ := by
  have htakes := raiseHere_takes h cause a
  rwa [Nat.mod_eq_of_lt (ha ▸ (effAddr x i).isLt)] at htakes

/-- What a scalar store leaves where it lands. -/
theorem scalarStore_stores {val : Insn → Tile → Nat} (h : Issues s t i) (hn : NextInCode s t) (ho : i.op = op)
    (ha : a = (effAddr (tileAt s t) i).toNat) (hal : a % n = 0) (hsmall : n < 16) (hw : Writable s t a n) :
    ∃ s', (.next (scalarStore op n val t s) : Result) = .next s' ∧
      s' = advanced t (postUpdate i (tileAt s t)) { s with mem := s'.mem } ∧
      ∀ x, (memByte s'.mem.cells x).toNat =
        if (keyOf s t a n).getD 0 ≤ x ∧ x < (keyOf s t a n).getD 0 + n then
          val i (tileAt s t) / 256 ^ (x - (keyOf s t a n).getD 0) % 256
        else (memByte s.mem.cells x).toNat := by
  refine ⟨_, rfl, ?_⟩
  rw [scalarStore_writable h hn ho ha hal hsmall hw]
  exact ⟨rfl, fun x => memByte_stored _ _ _ _ x⟩

/-- LW, in the state that the upsets of its operand have struck. -/
theorem execLw_issues {ups : List Upset} (h : Issues s t i) (ho : i.op = 0x38) :
    execLw t ups s = .next
      (scalarLoad 0x38 4 (fun i bs x => sSet x i.d (BitVec.ofNat 32 (leVal bs))) t (strike ups s)) := by
  unfold execLw
  rw [nextInsn_of_issues h]
  simp only [ho, if_true]

end Scalar

/-- Settles O5: a load and a store by the place of the address, and the exceptions of the two checks before it. -/
theorem scalarLoadsAndStores : Obligations.ScalarLoadsAndStores := by
  intro s s1 t i ups a hs1 h h1 hn ha
  have htile : tileAt s1 t = tileAt s t := hs1 ▸ tileAt_strike ups s t
  have ha1 : a = (effAddr (tileAt s1 t) i).toNat := by rw [htile, ha]
  have hn1 : NextInCode s1 t := by rwa [NextInCode, htile]
  have hlw : i.op = 0x38 → exec (.lw t ups) s = .next
      (scalarLoad 0x38 4 (fun i bs x => sSet x i.d (BitVec.ofNat 32 (leVal bs))) t s1) :=
    fun ho => hs1 ▸ execLw_issues h ho
  refine ⟨?_, ?_, ?_, ?_, ?_, ?_, ?_, ?_⟩
  · intro ho hal hr
    rw [hlw ho, scalarLoad_readable h1 hn1 ho ha1 hal hr (fun _ _ => sSet_pc _ _ _)
      (fun _ _ => sSet_codeLen _ _ _), htile]
  · intro ho hal
    refine ⟨_, (hlw ho).trans (congrArg Host.Outcome.next (scalarLoad_raises h1 ho ha1 (.inl hal))), ?_⟩
    rw [if_neg hal, ← htile]
    exact raiseHere_takes_effAddr h1 3 ha1
  · intro ho hal hr
    exact congrArg Host.Outcome.next
      (scalarLoad_readable h hn ho ha hal hr (fun _ _ => aSet_pc _ _ _) (fun _ _ => aSet_codeLen _ _ _))
  · exact fun ho hal hw => scalarStore_stores h hn ho ha hal (by omega) hw
  · exact fun ho hal hw => scalarStore_stores h hn ho ha hal (by omega) hw
  · exact fun ho hbad => ⟨_, congrArg Host.Outcome.next (scalarStore_raises h ho ha hbad),
      raiseHere_takes_effAddr h _ ha⟩
  · exact fun ho hbad => ⟨_, congrArg Host.Outcome.next (scalarLoad_raises h ho ha hbad),
      raiseHere_takes_effAddr h _ ha⟩
  · exact fun ho hbad => ⟨_, congrArg Host.Outcome.next (scalarStore_raises h ho ha hbad),
      raiseHere_takes_effAddr h _ ha⟩

end Sys2Proof.Machine

/-! ### O43: TIME_CTRL.SET and the alarms whose instants it passes -/

namespace Sys2Proof.Machine

/-- A module that has come up at second 0, with session 1 open, an alarm enabled for second 1 and TIME_SET_S
holding 2. -/
def alarmAhead : State :=
  { State.reset with
    regs := [(regAddr rTimeSetS 0 [], 2#64)]
    time := { State.reset.time with alarms := [{ enable := true, sec := 1 }] }
    rst := { State.reset.rst with level := 0, point := 0 }
    fw := { State.reset.fw with running := true }
    host := { State.reset.host with ports := [⟨true, true, true, true⟩], open_ := true, session := 1 } }

/-- The first command of session 1. -/
def firstHeader : Header := ⟨0, 0, 1, 1, 0, 0⟩

theorem timeSet_admitted : Admitted alarmAhead firstHeader (writeOf rTimeCtrl 0 [] 1 []) := by
  refine ⟨?_, rfl, rfl, rfl, rfl, _, rfl, fun _ => rfl, rfl, fun _ => ?_⟩
  · unfold InTurn
    decide
  · exact Nat.zero_lt_succ 3

/-- The alarms of the state that an outcome goes on to. -/
def alarmsAfter : Result → List Alarm
  | .next s => s.time.alarms
  | _ => []

/-- R482: the step has carried the alarm's instant into the past, and the alarm is marked so. -/
theorem alarmsAfter_timeSet :
    alarmsAfter (exec (.timeSet firstHeader) alarmAhead) = [{ enable := true, sec := 1, passed := true }] := by decide

/-- Refutes O43: TIME_CTRL.SET marks an enabled alarm whose instant it passes (R482), so the alarms do not stand as
they were. -/
theorem not_otherRegisterWrites : ¬ Obligations.OtherRegisterWrites := by
  intro h
  obtain ⟨-, htime, -⟩ := h alarmAhead firstHeader
  obtain ⟨s', hnext, -, -, -, -, -, -, halarms⟩ := (htime timeSet_admitted).1 rfl rfl (by decide)
  have hpassed := alarmsAfter_timeSet
  rw [hnext, alarmsAfter, halarms] at hpassed
  exact absurd hpassed (by decide)

end Sys2Proof.Machine

/-! ### O45: JOB_ABORT and JOB_END -/

namespace Sys2Proof.Machine

section JobEnds

variable {s s' : State} {t u v : Nat} {h : Header} {c : HostCmd}

/-! #### JOB_ABORT -/

@[simp] theorem jobRunning_begun : jobRunning (begun h c s) = jobRunning s := by rw [begun_eq]; rfl

@[simp] theorem jobTrapping_begun : jobTrapping (begun h c s) = jobTrapping s := by rw [begun_eq]; rfl

@[simp] theorem switchBusy_begun : switchBusy (begun h c s) = switchBusy s := by rw [begun_eq]; rfl

@[simp] theorem begun_tiles : (begun h c s).tiles = s.tiles := by rw [begun_eq]

@[simp] theorem begun_job : (begun h c s).job = s.job := by rw [begun_eq]

@[simp] theorem begun_mem : (begun h c s).mem = s.mem := by rw [begun_eq]

@[simp] theorem begun_sync : (begun h c s).sync = s.sync := by rw [begun_eq]

/-- R154: JOB_ABORT where no job runs. -/
theorem jobAbort_idle (h : Header) (c : HostCmd) (hrun : jobRunning s = false) :
    jobAbort h c s = (s, .reply 0 []) := by
  simp only [jobAbort, hrun, status, Bool.not_false, if_true]

/-- R157: JOB_ABORT of a job that an exception is ending. -/
theorem jobAbort_trapping (h : Header) (c : HostCmd) (hrun : jobRunning s = true) (htrap : jobTrapping s = true) :
    jobAbort h c s = (s, .reply 0x0405 []) := by
  simp only [jobAbort, hrun, htrap, status, Bool.not_true, Bool.false_eq_true, if_false, if_true]

/-- R155: the state in which the end of a job by JOB_ABORT has been noted. -/
def abortNoted (s : State) : State :=
  { s with job := { s.job with ending := some ⟨1, 0, 0, 0⟩, endTick := s.time.ticks } }

/-- R154: JOB_ABORT of a job that nothing is ending. -/
theorem jobAbort_ends (h : Header) (c : HostCmd) (hrun : jobRunning s = true) (htrap : jobTrapping s = false)
    (hend : s.job.ending = none) : jobAbort h c s = (stopJob (abortNoted s), .reply 0 []) := by
  have hnote : noteEnd ⟨1, 0, 0, 0⟩ s = abortNoted s := by
    rw [noteEnd, if_pos ⟨hrun, by rw [endsFirst, hend]⟩, abortNoted]
  simp only [jobAbort, hrun, htrap, hend, status, endJob, hnote, Option.isSome_none, Bool.not_true,
    Bool.false_eq_true, if_false]

/-- What stopping a job at once leaves of the host interface. -/
theorem stopNow_host (s : State) : (stopNow s).host = s.host :=
  (forEach_keeps (·.host) _ (fun i x => collEnd_keeps (·.host) _ _ i (by simp) (fun _ _ => rfl) x) _ _).trans
    (forEach_keeps (·.host) _ (fun t x => stopTile_keeps (·.host) (fun _ _ _ => rfl) (fun _ _ => rfl) t x) _ _)

/-- R154: what is left where the end of the job has been noted and the job stopped at once. -/
theorem stopNow_abortNoted (h : Header) (c : HostCmd) (s : State) :
    (stopNow (abortNoted (begun h c s))).job = (abortNoted s).job ∧
    (∀ u, StopsTile s (stopNow (abortNoted (begun h c s))) u) ∧
    (stopNow (abortNoted (begun h c s))).coll.insts = [] ∧
    (stopNow (abortNoted (begun h c s))).wse.streams = [] ∧
    (stopNow (abortNoted (begun h c s))).mem = s.mem ∧ (stopNow (abortNoted (begun h c s))).sync = s.sync := by
  obtain ⟨htiles, hmem, hjob, hsync, hstreams, hinsts⟩ := stopNow_stops (abortNoted (begun h c s))
  have htile : ∀ u, tileAt (abortNoted (begun h c s)) u = tileAt s u := fun u =>
    congrArg (·.getD u noTile) begun_tiles
  refine ⟨hjob.trans ?_, fun u => ?_, hinsts, hstreams, hmem.trans begun_mem, hsync.trans begun_sync⟩
  · simp only [abortNoted, begun_job, begun_time]
  · have hu := htiles u
    rwa [StopsTile, htile] at hu

/-- R154: JOB_ABORT while no phase switch is in progress. -/
theorem jobAbort_at_once (ha : Admitted s h (hostCmd 0x0403 [] [])) (hrun : jobRunning s = true)
    (htrap : jobTrapping s = false) (hend : s.job.ending = none) (hbusy : switchBusy s = false) :
    ∃ s', exec (.jobAbort h []) s = .next s' ∧ Answers s s' h (hostCmd 0x0403 [] []) 0 [] ∧
      s'.job = { s.job with ending := some ⟨1, 0, 0, 0⟩, endTick := s.time.ticks } ∧
      (∀ u, StopsTile s s' u) ∧ s'.coll.insts = [] ∧ s'.wse.streams = [] ∧ s'.mem = s.mem ∧ s'.sync = s.sync := by
  have hrun' := (jobRunning_begun (h := h) (c := hostCmd 0x0403 [] [])).trans hrun
  have habort := jobAbort_ends h (hostCmd 0x0403 [] []) hrun' (jobTrapping_begun.trans htrap)
    ((congrArg Job.ending begun_job).trans hend)
  rw [stopJob_running (abortNoted _) hrun' (switchBusy_begun.trans hbusy)] at habort
  obtain ⟨s', hs', hans, heq, -⟩ := admitted_reply ha rfl habort (stopNow_host _)
  refine ⟨s', congrArg Host.Outcome.next hs', hans, ?_⟩
  rw [heq]
  exact stopNow_abortNoted h (hostCmd 0x0403 [] []) s

/-- R39: JOB_ABORT while a phase switch is in progress. -/
theorem jobAbort_waits (ha : Admitted s h (hostCmd 0x0403 [] [])) (hrun : jobRunning s = true)
    (htrap : jobTrapping s = false) (hend : s.job.ending = none) (hbusy : switchBusy s = true) :
    ∃ s', exec (.jobAbort h []) s = .next s' ∧ Answers s s' h (hostCmd 0x0403 [] []) 0 [] ∧
      s'.job = { s.job with ending := some ⟨1, 0, 0, 0⟩, endTick := s.time.ticks, stopDue := true } ∧
      s'.tiles = s.tiles ∧ s'.coll.insts = s.coll.insts := by
  have hrun' := (jobRunning_begun (h := h) (c := hostCmd 0x0403 [] [])).trans hrun
  have habort := jobAbort_ends h (hostCmd 0x0403 [] []) hrun' (jobTrapping_begun.trans htrap)
    ((congrArg Job.ending begun_job).trans hend)
  rw [stopJob_waits (abortNoted _) hrun' (switchBusy_begun.trans hbusy)] at habort
  obtain ⟨s', hs', hans, heq, -⟩ := admitted_reply ha rfl habort rfl
  refine ⟨s', congrArg Host.Outcome.next hs', hans, ?_⟩
  rw [heq, abortNoted, begun_eq]
  exact ⟨rfl, rfl, rfl⟩

/-! #### What retiring and testing a tile leave -/

/-- Nothing has changed but tiles, stored registers, the recorder and memory. -/
def TilesOnly (s s' : State) : Prop :=
  s' = { s with regs := s'.regs, peat := s'.peat, tiles := s'.tiles, mem := s'.mem }

theorem TilesOnly.refl (s : State) : TilesOnly s s := rfl

theorem TilesOnly.trans {s1 s2 s3 : State} (h12 : TilesOnly s1 s2) (h23 : TilesOnly s2 s3) : TilesOnly s1 s3 := by
  unfold TilesOnly at *
  rw [h12] at h23
  exact h23

theorem TilesOnly.unloaded (hs : TilesOnly s s') (hl : s.job.loaded = false) : s'.job.loaded = false := by
  rw [hs]
  exact hl

protected theorem TilesOnly.job (hs : TilesOnly s s') : s'.job = s.job := by rw [hs]

protected theorem TilesOnly.wse (hs : TilesOnly s s') : s'.wse = s.wse := by rw [hs]

protected theorem TilesOnly.sync (hs : TilesOnly s s') : s'.sync = s.sync := by rw [hs]

protected theorem TilesOnly.coll (hs : TilesOnly s s') : s'.coll = s.coll := by rw [hs]

protected theorem TilesOnly.emit {code source : Nat} {payload : List Byte} (hs : TilesOnly s s') :
    TilesOnly s (emit code source payload s') := by
  refine hs.trans ?_
  unfold Machine.emit
  split
  · rfl
  · split <;> rfl

protected theorem TilesOnly.updTile {f : Tile → Tile} (hs : TilesOnly s s') : TilesOnly s (updTile t f s') :=
  hs.trans rfl

protected theorem TilesOnly.setPeat {p : Peat} (hs : TilesOnly s s') : TilesOnly s { s' with peat := p } :=
  hs.trans rfl

protected theorem TilesOnly.dropSlice (hs : TilesOnly s s') : TilesOnly s (dropSlice t s') := by
  refine hs.trans ?_
  unfold Machine.dropSlice
  split <;> rfl

protected theorem TilesOnly.awaitSlice {l : Nat} (hs : TilesOnly s s') : TilesOnly s (awaitSlice t l s') := by
  refine hs.trans ?_
  unfold Machine.awaitSlice
  split <;> rfl

/-- R643: a job that is no longer loaded is not unloaded again. -/
theorem unloadFor_unloaded (hl : s.job.loaded = false) : unloadFor t s = s := by
  simp only [unloadFor, hl, Bool.false_eq_true, false_and, if_false]

/-- R94: what the retirement of a tile changes, once no job is loaded. -/
theorem retireTile_tilesOnly (t : Nat) (hl : s.job.loaded = false) : TilesOnly s (retireTile t s) := by
  unfold retireTile
  dsimp only
  rw [unloadFor_unloaded hl]
  split
  · exact (TilesOnly.refl s).updTile.setPeat.dropSlice.emit
  · split
    · exact (TilesOnly.refl s).updTile.setPeat.awaitSlice.dropSlice.updTile.emit
    · exact (TilesOnly.refl s).updTile.setPeat.awaitSlice.dropSlice.emit.emit

/-- R100: what the policy for a FAULTED tile changes, once no job is loaded. -/
theorem applyPolicy_tilesOnly (t : Nat) (hl : s.job.loaded = false) : TilesOnly s (applyPolicy t s) := by
  unfold applyPolicy
  dsimp only
  split
  · split
    · rfl
    · exact retireTile_tilesOnly t hl
    · rw [startTest, unloadFor_unloaded hl]
      rfl
  · rfl

theorem tileAt_updTile_ne (f : Tile → Tile) (hu : t ≠ u) : tileAt (updTile t f s) u = tileAt s u :=
  tileAt_setTile_ne _ _ _ _ hu

@[simp] theorem tileAt_dropSlice (t u : Nat) (s : State) : tileAt (dropSlice t s) u = tileAt s u := by
  unfold dropSlice
  split <;> rfl

@[simp] theorem tileAt_awaitSlice (t l u : Nat) (s : State) : tileAt (awaitSlice t l s) u = tileAt s u := by
  unfold awaitSlice
  split <;> rfl

/-- R94: the spare found is a SPARE tile. -/
theorem nearestSpare_spare (hn : nearestSpare s t = some v) : (tileAt s v).code = .spare := by
  unfold nearestSpare at hn
  refine List.foldlRecOn (motive := fun b => ∀ v ∈ b, (tileAt s v).code = .spare) _ _
    (fun _ hv => absurd hv (Option.not_mem_none _)) ?_ v hn
  intro b hb w hw
  have hspare : (tileAt s w).code = .spare := by simpa using (List.mem_filter.1 hw).2
  cases b with
  | none => simpa using hspare
  | some x =>
    dsimp only
    split
    · simpa using hspare
    · exact hb

/-- R94: the retirement of one tile leaves every other tile that is not SPARE. -/
theorem tileAt_retireTile_ne (hl : s.job.loaded = false) (hu : t ≠ u) (hc : (tileAt s u).code ≠ .spare) :
    tileAt (retireTile t s) u = tileAt s u := by
  have hother : ∀ (f : Tile → Tile) p, tileAt { updTile t f s with peat := p } u = tileAt s u :=
    fun f _ => tileAt_updTile_ne f hu
  unfold retireTile
  dsimp only
  rw [unloadFor_unloaded hl]
  split
  · rw [tileAt_emit, tileAt_dropSlice, hother]
  · split
    next hspare =>
      rw [tileAt_emit, tileAt_updTile_ne, tileAt_dropSlice, tileAt_awaitSlice, hother]
      rintro rfl
      have hcode := nearestSpare_spare hspare
      rw [tileAt_dropSlice, tileAt_awaitSlice, hother] at hcode
      exact hc hcode
    · rw [tileAt_emit, tileAt_emit, tileAt_dropSlice, tileAt_awaitSlice, hother]

/-- R100: the policy for one tile leaves every other tile that is not SPARE. -/
theorem tileAt_applyPolicy_ne (hl : s.job.loaded = false) (hu : t ≠ u) (hc : (tileAt s u).code ≠ .spare) :
    tileAt (applyPolicy t s) u = tileAt s u := by
  unfold applyPolicy
  dsimp only
  split
  · split
    · rfl
    · exact tileAt_retireTile_ne hl hu hc
    · rw [startTest, unloadFor_unloaded hl, tileAt_updTile_ne _ hu]
      exact tileAt_updTile_ne _ hu
  · rfl

theorem applyPolicy_not_faulted (hc : (tileAt s t).code ≠ .faulted) : applyPolicy t s = s := if_neg hc

/-! #### JOB_END -/

/-- R92: a tile that has halted is READY again. -/
def readied (x : Tile) : Tile := if x.code = .halted then { x with code := .ready } else x

theorem readied_of_halted {x : Tile} (hx : x.code = .halted) : readied x = { x with code := .ready } := if_pos hx

theorem readied_readied (x : Tile) : readied (readied x) = readied x := by
  unfold readied
  split <;> simp_all

theorem readied_faulted (x : Tile) : (readied x).code = .faulted ↔ x.code = .faulted := by
  unfold readied
  split <;> simp_all

theorem readied_retireDue (x : Tile) : (readied x).retireDue = x.retireDue := by
  unfold readied
  split <;> rfl

/-- The state of a job's end recorded, with no job and no stream. -/
def jobOver (s : State) : State :=
  { recordJobEnd (s.job.ending.getD ⟨0, 0, 0, 0⟩) s with
    job := { s.job with loaded := false, launched := false, ending := none }
    wse := { s.wse with streams := [] } }

/-- R100, R107: the policy is applied to tile `t`, unless a module-wide reset runs. -/
def policyDone (t : Nat) (s : State) : State := if s.rst.level = 0 then applyPolicy t s else s

/-- R100, R184: what waits in tile `t` for the end of a job is done. -/
def settleTile (t : Nat) (s : State) : State :=
  if (tileAt (policyDone t s) t).retireDue then retireTile t (policyDone t s) else policyDone t s

/-- The tiles of the job that has ended are READY. -/
def tilesReadied (s : State) : State := forEach (jobTiles s) (fun t => updTile t readied) (jobOver s)

theorem jobTiles_emit (code source : Nat) (payload : List Byte) (s : State) :
    jobTiles (emit code source payload s) = jobTiles s := by
  have hin : inJob (emit code source payload s) = inJob s := by
    funext t
    simp only [inJob, jobEntryOf, emit_job, tileAt_emit]
  rw [jobTiles, hin, emit_tiles, jobTiles]

@[simp] theorem tileFaultActive_job (s : State) : (tileFaultActive s).job = s.job := rfl
@[simp] theorem tileFaultActive_wse (s : State) : (tileFaultActive s).wse = s.wse := rfl
@[simp] theorem tileFaultActive_mem (s : State) : (tileFaultActive s).mem = s.mem := rfl
@[simp] theorem tileFaultActive_sync (s : State) : (tileFaultActive s).sync = s.sync := rfl
@[simp] theorem tileFaultActive_coll (s : State) : (tileFaultActive s).coll = s.coll := rfl
@[simp] theorem tileAt_tileFaultActive (s : State) (t : Nat) : tileAt (tileFaultActive s) t = tileAt s t := rfl

/-- R20: JOB_END of a job that has nothing left to do. -/
theorem execJobEnd_done (hd : jobDone s = true) :
    exec .jobEnd s = .next (tileFaultActive (forEach (List.range 156) settleTile (tilesReadied s))) := by
  have hjob : (recordJobEnd (s.job.ending.getD ⟨0, 0, 0, 0⟩) s).job = s.job := emit_job ..
  have hwse : (recordJobEnd (s.job.ending.getD ⟨0, 0, 0, 0⟩) s).wse = s.wse := emit_wse ..
  have hmine : jobTiles (recordJobEnd (s.job.ending.getD ⟨0, 0, 0, 0⟩) s) = jobTiles s := jobTiles_emit ..
  show execJobEnd s = _
  simp only [execJobEnd, hd, if_true, hjob, hwse, hmine]
  rfl

theorem policyDone_tilesOnly (t : Nat) (hl : s.job.loaded = false) : TilesOnly s (policyDone t s) := by
  unfold policyDone
  split
  · exact applyPolicy_tilesOnly t hl
  · rfl

theorem tileAt_policyDone_ne (hl : s.job.loaded = false) (hu : t ≠ u) (hc : (tileAt s u).code ≠ .spare) :
    tileAt (policyDone t s) u = tileAt s u := by
  unfold policyDone
  split
  · exact tileAt_applyPolicy_ne hl hu hc
  · rfl

/-- What settling a tile changes, once no job is loaded. -/
theorem settleTile_tilesOnly (t : Nat) (hl : s.job.loaded = false) : TilesOnly s (settleTile t s) := by
  have hpolicy := policyDone_tilesOnly t hl
  unfold settleTile
  split
  · exact hpolicy.trans (retireTile_tilesOnly t (hpolicy.unloaded hl))
  · exact hpolicy

/-- A tile that is neither FAULTED nor to be retired has nothing that waits for the end of a job. -/
theorem settleTile_idle (hc : (tileAt s t).code ≠ .faulted) (hr : (tileAt s t).retireDue = false) :
    settleTile t s = s := by
  have hpolicy : policyDone t s = s := by rw [policyDone, applyPolicy_not_faulted hc, ite_self]
  simp only [settleTile, hpolicy, hr, Bool.false_eq_true, if_false]

/-- Settling a tile leaves every other tile that is not SPARE. -/
theorem tileAt_settleTile_ne (hl : s.job.loaded = false) (hu : t ≠ u) (hc : (tileAt s u).code ≠ .spare) :
    tileAt (settleTile t s) u = tileAt s u := by
  have hpolicy := tileAt_policyDone_ne hl hu hc
  unfold settleTile
  split
  · rw [tileAt_retireTile_ne ((policyDone_tilesOnly t hl).unloaded hl) hu (by rwa [hpolicy]), hpolicy]
  · exact hpolicy

/-- A READY tile that is not to be retired stands while what waits for the end of a job is done. -/
theorem tileAt_settleTile_ready (t : Nat) (hl : s.job.loaded = false) (hc : (tileAt s u).code = .ready)
    (hr : (tileAt s u).retireDue = false) : tileAt (settleTile t s) u = tileAt s u := by
  by_cases htu : t = u
  · subst htu
    rw [settleTile_idle (by rw [hc]; decide) hr]
  · exact tileAt_settleTile_ne hl htu (by rw [hc]; decide)

theorem forEach_settleTile_tilesOnly (ts : List Nat) (hl : s.job.loaded = false) :
    TilesOnly s (forEach ts settleTile s) :=
  forEach_inv (TilesOnly s) settleTile (fun t _ hs => hs.trans (settleTile_tilesOnly t (hs.unloaded hl))) ts s rfl

theorem tileAt_forEach_settleTile_ready (ts : List Nat) (hl : s.job.loaded = false)
    (hc : (tileAt s u).code = .ready) (hr : (tileAt s u).retireDue = false) :
    tileAt (forEach ts settleTile s) u = tileAt s u := by
  refine (forEach_inv (fun x => x.job.loaded = false ∧ tileAt x u = tileAt s u) settleTile ?_ ts s ⟨hl, rfl⟩).2
  intro t x ⟨hx, hxu⟩
  have hready := tileAt_settleTile_ready (u := u) t hx (by rw [hxu, hc]) (by rw [hxu, hr])
  exact ⟨(settleTile_tilesOnly t hx).unloaded hx, hready.trans hxu⟩

theorem tileAt_updTile_self {f : Tile → Tile} (hf : f noTile = noTile) (t : Nat) (s : State) :
    tileAt (updTile t f s) t = f (tileAt s t) := by
  by_cases ht : t < s.tiles.length
  · exact tileAt_setTile_self _ _ _ ht
  · rw [tileAt_beyond s t (by omega), hf, updTile_eq, tileAt_beyond _ t (by rw [setTile_length]; omega)]

/-- A function that changes nothing twice, applied to tiles of a list. -/
theorem tileAt_forEach_updTile {f : Tile → Tile} (hnone : f noTile = noTile) (hf : ∀ x, f (f x) = f x)
    (ts : List Nat) (s : State) (u : Nat) :
    tileAt (forEach ts (fun t => updTile t f) s) u = if u ∈ ts then f (tileAt s u) else tileAt s u := by
  induction ts generalizing s with
  | nil => rfl
  | cons t ts ih =>
    rw [forEach_cons, ih]
    by_cases htu : t = u
    · subst htu
      rw [tileAt_updTile_self hnone, hf, ite_self, if_pos List.mem_cons_self]
    · rw [tileAt_updTile_ne f htu]
      simp only [List.mem_cons, Ne.symm htu, false_or]

theorem tilesReadied_tilesOnly (s : State) : TilesOnly (jobOver s) (tilesReadied s) :=
  forEach_inv (TilesOnly (jobOver s)) _ (fun _ _ hs => hs.updTile) (jobTiles s) _ rfl

theorem tileAt_jobOver (s : State) (u : Nat) : tileAt (jobOver s) u = tileAt s u := tileAt_emit ..

theorem tilesReadied_mem (s : State) : (tilesReadied s).mem = s.mem :=
  (forEach_keeps (·.mem) (fun t => updTile t readied) (fun _ _ => rfl) _ _).trans (emit_mem ..)

/-- R92: a tile when those of the job that had halted are READY again. -/
theorem tileAt_tilesReadied (s : State) (u : Nat) :
    tileAt (tilesReadied s) u = if u ∈ jobTiles s then readied (tileAt s u) else tileAt s u := by
  rw [tilesReadied, tileAt_forEach_updTile rfl readied_readied, tileAt_jobOver]

/-- R92, R184: where nothing waits for the end of the job in any tile, the tiles only return to READY. -/
theorem forEach_settleTile_idle (hidle : ∀ t < 156, (tileAt s t).retireDue = false ∧ (tileAt s t).code ≠ .faulted) :
    forEach (List.range 156) settleTile (tilesReadied s) = tilesReadied s := by
  refine foldl_fixed _ _ _ fun t ht => ?_
  obtain ⟨hdue, hcode⟩ := hidle t (List.mem_range.1 ht)
  refine settleTile_idle ?_ ?_
  · rw [tileAt_tilesReadied]
    split
    · exact (readied_faulted _).not.2 hcode
    · exact hcode
  · rw [tileAt_tilesReadied]
    split
    · exact (readied_retireDue _).trans hdue
    · exact hdue

/-- R20, R92, R184: what the end of a job leaves. -/
theorem jobEnd_leaves (hd : jobDone s = true) : ∃ s', exec .jobEnd s = .next s' ∧
    s'.job = { s.job with loaded := false, launched := false, ending := none } ∧ s'.wse.streams = [] ∧
    ((∀ t < 156, (tileAt s t).retireDue = false ∧ (tileAt s t).code ≠ .faulted) → s'.mem.cells = s.mem.cells) ∧
    s'.sync = s.sync ∧ s'.coll = s.coll ∧
    ∀ t ∈ jobTiles s, t < s.tiles.length → (tileAt s t).code = .halted → (tileAt s t).retireDue = false →
      tileAt s' t = { tileAt s t with code := .ready } := by
  have hready := tilesReadied_tilesOnly s
  have hl : (tilesReadied s).job.loaded = false := hready.unloaded rfl
  have hall := hready.trans (forEach_settleTile_tilesOnly (List.range 156) hl)
  refine ⟨_, execJobEnd_done hd, ?_, ?_, fun hidle => ?_, ?_, ?_, fun t hmine _ hhalt hdue => ?_⟩
  · rw [tileFaultActive_job, hall.job, jobOver]
  · rw [tileFaultActive_wse, hall.wse, jobOver]
  · rw [tileFaultActive_mem, forEach_settleTile_idle hidle, tilesReadied_mem]
  · rw [tileFaultActive_sync, hall.sync]
    exact emit_sync ..
  · rw [tileFaultActive_coll, hall.coll]
    exact emit_coll ..
  · have htile : tileAt (tilesReadied s) t = { tileAt s t with code := .ready } := by
      rw [tileAt_tilesReadied, if_pos hmine, readied_of_halted hhalt]
    rw [tileAt_tileFaultActive, ← htile]
    exact tileAt_forEach_settleTile_ready _ hl (by rw [htile]) (by rw [htile, hdue])

theorem jobEnd_not_done (hd : jobDone s = false) : exec .jobEnd s = .next s := by
  show execJobEnd s = _
  rw [execJobEnd, if_neg (by rw [hd]; decide)]

end JobEnds

/-- Settles O45: an abort by whether the job runs, is trapping and meets a phase switch, and the end of a job by
what is left to do. -/
theorem jobsEnd : Obligations.JobsEnd := by
  refine ⟨fun s h ha => ⟨fun hrun => ?_, fun hrun => ⟨fun htrap => ?_, fun htrap hend =>
    ⟨jobAbort_at_once ha hrun htrap hend, jobAbort_waits ha hrun htrap hend⟩⟩⟩,
    fun s => ⟨jobEnd_not_done, jobEnd_leaves⟩⟩
  · exact ha.completes_unchanged rfl (jobAbort_idle h (hostCmd 0x0403 [] []) (by rwa [jobRunning_begun]))
  · exact ha.completes_unchanged rfl
      (jobAbort_trapping h (hostCmd 0x0403 [] []) (by rwa [jobRunning_begun]) (by rwa [jobTrapping_begun]))

end Sys2Proof.Machine

/-! ### O30: the operations of other modules -/

namespace Sys2Proof.Machine

/-! #### Bytes stored where no error lies -/

section Stores

variable {s s1 : State} {t a d key : Nat} {bs : List Byte}

/-- Bytes have been written at a key of memory, and what memory holds beside its bytes alone may have changed too. -/
def Stored (key : Nat) (bs : List Byte) (s s1 : State) : Prop :=
  s1 = { s with mem := s1.mem } ∧ s1.mem.cells = memWrite s.mem.cells key bs

/-- Nothing but marks of words has changed, and a word that held no error holds none. -/
def MarksCleaned (s s1 : State) : Prop :=
  s1 = { s with mem := { s.mem with words := s1.mem.words } } ∧
  ∀ w, Cells.get .clean s.mem.words w = .clean → Cells.get .clean s1.mem.words w = .clean

theorem MarksCleaned.refl (s : State) : MarksCleaned s s := ⟨rfl, fun _ => id⟩

theorem MarksCleaned.setWord (hs : MarksCleaned s s1) (w : Nat) : MarksCleaned s (setWord w .clean s1) := by
  obtain ⟨hframe, hclean⟩ := hs
  refine ⟨by rw [hframe]; rfl, fun v hv => ?_⟩
  show Cells.get .clean (Cells.set .clean s1.mem.words w .clean) v = .clean
  rw [Cells.get_set]
  split
  · rfl
  · exact hclean v hv

theorem MarksCleaned.stored (hs : MarksCleaned s s1) (key : Nat) (bs : List Byte) :
    Stored key bs s { s1 with mem := { s1.mem with cells := memWrite s1.mem.cells key bs } } := by
  obtain ⟨hframe, -⟩ := hs
  rw [hframe]
  exact ⟨rfl, rfl⟩

/-- R179: a write of an SRAM that meets no error. -/
theorem sramWrite_clean (ce : Nat → Nat → State → State) (hc : CleanWords s key bs.length) :
    Stored key bs s (sramWrite key bs ce s) := by
  refine MarksCleaned.stored (List.foldlRecOn _ _ (.refl s) fun st hst w hw => ?_) key bs
  have hword := hst.2 w (hc w hw)
  split
  · exact hst.setWord w
  · rw [hword]
    exact hst

/-- R168: a write of LPDDR5X that meets no error and no row out of use. -/
theorem ddrWrite_clean (hc : CleanGrans s d bs.length) : Stored (ddrBase + d) bs s (ddrWrite d bs s).1 := by
  have hfree : (granRange d bs.length).filter (granBlocked s) = [] := by
    rw [List.filter_eq_nil_iff]
    intro g hg
    rw [(hc g hg).1]
    decide
  simp only [ddrWrite, hfree]
  exact ⟨rfl, rfl⟩

/-- R82: a store that lands. -/
theorem storeBytes_writable (hw : Writable s t a bs.length) :
    Stored ((keyOf s t a bs.length).getD 0) bs s (storeBytes t a bs s) := by
  rcases hw with ⟨u, o, hplace, -, hserves, hc⟩ | ⟨u, o, hplace, hserves, hc⟩ | ⟨d, hplace, -, hc⟩
  · simp only [storeBytes, keyOf, hplace, hserves, if_true]
    exact sramWrite_clean _ hc
  · simp only [storeBytes, keyOf, hplace, hserves, if_true]
    exact sramWrite_clean _ hc
  · simp only [storeBytes, keyOf, hplace]
    exact ddrWrite_clean hc

end Stores

/-! #### An operation that arrives -/

section Operations

variable {s : State} {x : InUnit} {rest : List InUnit} {o p key : Nat} {n : W64}

/-- What the module keeps of the stream of an operation (R229, R232). -/
def remoteOf (s : State) (x : InUnit) : RemoteIn := Cells.get {} s.sync.remote (streamKey s x.src x.u.stream)

/-- The state in which an operation has left the inbox. -/
def tookIn (rest : List InUnit) (s : State) : State := { s with fab := { s.fab with inbox := rest } }

/-- R234: the twin that had failed is heard again. -/
def twinHeard (x : InUnit) (s : State) : State :=
  if (remoteOf s x).lost = some x.src then
    { s with sync := { s.sync with
      remote := Cells.set {} s.sync.remote (streamKey s x.src x.u.stream) { remoteOf s x with lost := none } } }
  else s

/-- R229: the number of an operation is used. -/
def numberTaken (key : Nat) (x : InUnit) (s : State) : State :=
  { s with sync := { s.sync with
    remote := Cells.upd {} s.sync.remote key (fun r => { next := (x.u.opseq + 1) % 2 ^ 32, lost := r.lost }) } }

theorem twinHeard_frame (x : InUnit) (s : State) :
    twinHeard x s = { s with sync := { s.sync with remote := (twinHeard x s).sync.remote } } := by
  unfold twinHeard
  split <;> rfl

theorem twinHeard_of_lost_ne (hl : (remoteOf s x).lost ≠ some x.src) : twinHeard x s = s := if_neg hl

/-- Hearing a twin again leaves what is taken of its stream. -/
theorem twinHeard_remote (x : InUnit) (s : State) :
    (Cells.get {} (twinHeard x s).sync.remote (streamKey s x.src x.u.stream)).next = (remoteOf s x).next ∧
    (Cells.get {} (twinHeard x s).sync.remote (streamKey s x.src x.u.stream)).supplier = (remoteOf s x).supplier ∧
    (Cells.get {} (twinHeard x s).sync.remote (streamKey s x.src x.u.stream)).got = (remoteOf s x).got := by
  unfold twinHeard
  split
  · simp only [Cells.get_set_self, and_self]
  · exact ⟨rfl, rfl, rfl⟩

theorem numberTaken_next (key : Nat) (x : InUnit) (s : State) :
    (Cells.get {} (numberTaken key x s).sync.remote key).next = (x.u.opseq + 1) % 2 ^ 32 := by
  simp only [numberTaken, Cells.upd, Cells.get_set_self]

theorem syncGet_remoteAdd (o p : Nat) (n : W64) (s : State) :
    syncGet (remoteAdd o n s) p = if p = o then syncGet s o + n else syncGet s p := Cells.get_set ..

/-- R230: a unit of another module for this one passes its checks. -/
theorem remoteCheck_fromPeer (hp : FromPeer s x) : remoteCheck x false s = none := by
  obtain ⟨hdest, hclaim, hred⟩ := hp
  simp only [remoteCheck, hdest, hclaim, hred, ne_eq, not_true_eq_false, Bool.not_true, Bool.false_eq_true, if_false]

/-- R229 to R232: an FSIG, or the first unit of an FPUT, that passes its checks. -/
theorem applyRemote_fromPeer (hp : FromPeer s x) (hk : x.u.kind = 1 ∧ x.u.offset = 0 ∨ x.u.kind = 2)
    (ho : remoteObj x.u.object = true) :
    applyRemote x s =
      if seqBehind (remoteOf s x).next x.u.opseq then syncCount 4 (twinHeard x s)
      else if x.u.kind = 1 then takeFput (streamKey s x.src x.u.stream) x (twinHeard x s)
      else takeFsig (streamKey s x.src x.u.stream) x (twinHeard x s) := by
  have hcheck := remoteCheck_fromPeer hp
  unfold applyRemote
  rcases hk with ⟨hk, hoff⟩ | hk
  · simp only [refusedRest, hk, hoff, ho, hcheck, Nat.reduceEqDiff, ne_eq, not_true_eq_false, false_and, and_false,
      decide_false, Bool.not_true, Bool.and_false, Bool.false_eq_true, if_false, if_true]
    rfl
  · simp only [refusedRest, hk, ho, hcheck, Nat.reduceEqDiff, false_and, decide_false, Bool.not_true,
      Bool.false_eq_true, if_false]
    rfl

/-- R229: the operation at the front of the inbox is taken, where nothing holds it. -/
theorem exec_remoteOperationRx (hin : s.fab.inbox = x :: rest) (hop : isRemoteOp x.u = true)
    (hheld : opHeld s x = false) : exec .remoteOperationRx s = .next (applyRemote x (tookIn rest s)) := by
  have hnext : nextOpIn s [] s.fab.inbox = some x := by
    rw [hin]
    simp only [nextOpIn, hop, hheld, List.contains_nil, Bool.not_true, Bool.false_eq_true, if_false]
  show execRemoteOperationRx s = _
  simp only [execRemoteOperationRx, hnext]
  rw [hin, List.erase_cons_head, tookIn]

/-- R229: an FSIG that is next in its stream, or a copy, is not held. -/
theorem opHeld_fsig (hk : x.u.kind = 2)
    (hn : x.u.opseq = (remoteOf s x).next ∨ seqBehind (remoteOf s x).next x.u.opseq = true) : opHeld s x = false := by
  unfold opHeld
  rw [if_neg (by omega)]
  have hother : ∀ m, (decide (m ≠ x.src ∧ x.u.opseq ≠ (remoteOf s x).next) &&
      !seqBehind (remoteOf s x).next x.u.opseq) = false := by
    rcases hn with hn | hn <;> simp [hn]
  have hkind : decide (x.u.kind = 1) = false := by simp [hk]
  rw [hkind, Bool.false_and, Bool.or_false]
  split
  · exact hother _
  · rfl

/-- R172: an FPUT of a stream in which nothing is being taken, and whose bytes may be written, is not held. -/
theorem opHeld_fput (hk : x.u.kind = 1) (hsup : (remoteOf s x).supplier = none)
    (hw : Writable s 256 x.u.addr x.u.data.length) : opHeld s x = false := by
  unfold opHeld
  rw [if_neg (by omega)]
  have hsup' : (Cells.get {} s.sync.remote (streamKey s x.src x.u.stream)).supplier = none := hsup
  simp only [hsup', Bool.false_or]
  rcases hw with ⟨u, o, hplace, -⟩ | ⟨u, o, hplace, -⟩ | ⟨d, hplace, hd, -⟩
  · simp only [hplace, Bool.and_false]
  · simp only [hplace, Bool.and_false]
  · simp only [hplace, hd, Bool.and_false]

/-- R229: the number that a stream waits for is no copy. -/
theorem seqBehind_self (q : Nat) : seqBehind q q = false := by
  simp only [seqBehind, ne_eq, not_true_eq_false, decide_false, Bool.false_and]

theorem remoteObj_ne_zero (ho : remoteObj o = true) : o ≠ 0 := by
  rintro rfl
  exact absurd ho (by decide)

/-- R232: an FSIG that is next in its stream adds its number. -/
theorem fsig_applied (hin : s.fab.inbox = x :: rest) (hp : FromPeer s x) (hk : x.u.kind = 2)
    (ho : remoteObj x.u.object = true) (hseq : x.u.opseq = (remoteOf s x).next) :
    ∃ s', exec .remoteOperationRx s = .next s' ∧ s'.fab.inbox = rest ∧
      syncGet s' x.u.object = syncGet s x.u.object + BitVec.ofNat 64 x.u.addr ∧
      (∀ o, o ≠ x.u.object → syncGet s' o = syncGet s o) ∧
      (Cells.get {} s'.sync.remote (streamKey s x.src x.u.stream)).next = (x.u.opseq + 1) % 2 ^ 32 ∧
      s'.mem = s.mem := by
  refine ⟨_, exec_remoteOperationRx hin (by simp [isRemoteOp, hk]) (opHeld_fsig hk (.inl hseq)), ?_⟩
  have happly : applyRemote x (tookIn rest s) = remoteAdd x.u.object (BitVec.ofNat 64 x.u.addr) (syncCount 1
      (numberTaken (streamKey s x.src x.u.stream) x (twinHeard x (tookIn rest s)))) := by
    have hnext : seqBehind (remoteOf (tookIn rest s) x).next x.u.opseq = false := hseq ▸ seqBehind_self _
    rw [applyRemote_fromPeer (s := tookIn rest s) hp (.inr hk) ho, hnext, if_neg (by decide), if_neg (by omega)]
    rfl
  have hobjs : ∀ o, syncGet (syncCount 1
      (numberTaken (streamKey s x.src x.u.stream) x (twinHeard x (tookIn rest s)))) o = syncGet s o := by
    rw [twinHeard_frame]
    exact fun _ => rfl
  rw [happly]
  refine ⟨?_, ?_, fun o hne => ?_, numberTaken_next _ x _, ?_⟩
  · rw [twinHeard_frame]
    rfl
  · rw [syncGet_remoteAdd, if_pos rfl, hobjs]
  · rw [syncGet_remoteAdd, if_neg hne, hobjs]
  · rw [twinHeard_frame]
    rfl

/-- R231: the one unit of an FPUT is written, and counted as the whole of it. -/
theorem takeFput_whole (hseq : x.u.opseq = (Cells.get {} s.sync.remote key).next)
    (hsup : (Cells.get {} s.sync.remote key).supplier = none) (hgot : (Cells.get {} s.sync.remote key).got = 0)
    (hoff : x.u.offset = 0) (hdata : x.u.data ≠ []) (htotal : x.u.total = x.u.data.length)
    (hok : fputOk x.u.addr x.u.data.length = true) (ho : remoteObj x.u.object = true)
    (hw : Writable s 256 x.u.addr x.u.data.length) :
    takeFput key x s = remoteAdd x.u.object 1#64 (numberTaken key x
      (syncCount 1 (storeBytes 256 x.u.addr x.u.data s))) := by
  have hsync : (storeBytes 256 x.u.addr x.u.data s).sync = s.sync := by rw [(storeBytes_writable hw).1]
  have hremote : (syncCount 1 (storeBytes 256 x.u.addr x.u.data s)).sync.remote = s.sync.remote :=
    congrArg Sync.remote hsync
  have hfresh : ¬ (((Cells.get {} s.sync.remote key).supplier.isSome = true ∧
      (Cells.get {} s.sync.remote key).supplier ≠ some x.src) ∨ x.u.offset ≠ 0) := by
    simp [hsup, hoff]
  unfold takeFput
  simp only [if_pos hseq, if_neg hfresh, if_pos (And.intro hdata hok), if_neg (remoteObj_ne_zero ho), hgot,
    htotal, Nat.zero_add, Nat.le_refl, if_true]
  rw [numberTaken, Cells.upd, hremote]

/-- R231, R232: an FPUT of one unit that is next in its stream writes its bytes and adds 1. -/
theorem fput_applied (hin : s.fab.inbox = x :: rest) (hp : FromPeer s x) (hk : x.u.kind = 1)
    (hstream : x.u.stream ≠ 0xFF) (ho : remoteObj x.u.object = true) (hseq : x.u.opseq = (remoteOf s x).next)
    (hsup : (remoteOf s x).supplier = none) (hgot : (remoteOf s x).got = 0) (hoff : x.u.offset = 0)
    (hdata : x.u.data ≠ []) (htotal : x.u.total = x.u.data.length) (hok : fputOk x.u.addr x.u.data.length = true)
    (hw : Writable s 256 x.u.addr x.u.data.length) :
    ∃ s', exec .remoteOperationRx s = .next s' ∧ s'.fab.inbox = rest ∧
      syncGet s' x.u.object = syncGet s x.u.object + 1#64 ∧
      (Cells.get {} s'.sync.remote (streamKey s x.src x.u.stream)).next = (x.u.opseq + 1) % 2 ^ 32 ∧
      ∀ a, memByte s'.mem.cells a =
        if (keyOf s 256 x.u.addr x.u.data.length).getD 0 ≤ a ∧
            a < (keyOf s 256 x.u.addr x.u.data.length).getD 0 + x.u.data.length then
          x.u.data.getD (a - (keyOf s 256 x.u.addr x.u.data.length).getD 0) 0
        else memByte s.mem.cells a := by
  have hheard := twinHeard_frame x (tookIn rest s)
  obtain ⟨hnext1, hsup1, hgot1⟩ := twinHeard_remote x (tookIn rest s)
  have hw1 : Writable (twinHeard x (tookIn rest s)) 256 x.u.addr x.u.data.length := by
    rw [hheard]
    exact hw
  obtain ⟨hframe, hcells⟩ := storeBytes_writable hw1
  have happly : applyRemote x (tookIn rest s) = remoteAdd x.u.object 1#64 (numberTaken (streamKey s x.src x.u.stream) x
      (syncCount 1 (storeBytes 256 x.u.addr x.u.data (twinHeard x (tookIn rest s))))) := by
    have hnext : seqBehind (remoteOf (tookIn rest s) x).next x.u.opseq = false := hseq ▸ seqBehind_self _
    rw [applyRemote_fromPeer (s := tookIn rest s) hp (.inl ⟨hk, hoff⟩) ho, hnext, if_neg (by decide), if_pos hk]
    exact takeFput_whole (hseq.trans hnext1.symm) (hsup1.trans hsup) (hgot1.trans hgot) hoff hdata htotal hok ho hw1
  refine ⟨_, exec_remoteOperationRx hin (by simp [isRemoteOp, hk, hstream]) (opHeld_fput hk hsup hw), ?_⟩
  rw [happly]
  refine ⟨?_, ?_, numberTaken_next _ x _, fun a => ?_⟩
  · rw [hframe, hheard]
    rfl
  · rw [syncGet_remoteAdd, if_pos rfl, hframe, hheard]
    rfl
  · show memByte (storeBytes 256 x.u.addr x.u.data (twinHeard x (tookIn rest s))).mem.cells a = _
    rw [hcells, memByte_memWrite, hheard]
    rfl

/-- R229: a copy of an FSIG is discarded. -/
theorem fsig_copy (hin : s.fab.inbox = x :: rest) (hp : FromPeer s x) (hk : x.u.kind = 2)
    (ho : remoteObj x.u.object = true) (hcopy : seqBehind (remoteOf s x).next x.u.opseq = true)
    (hlost : (remoteOf s x).lost ≠ some x.src) :
    ∃ s', exec .remoteOperationRx s = .next s' ∧ s'.fab.inbox = rest ∧ s'.sync = s.sync ∧ s'.mem = s.mem := by
  refine ⟨_, exec_remoteOperationRx hin (by simp [isRemoteOp, hk]) (opHeld_fsig hk (.inr hcopy)), ?_⟩
  have hbehind : seqBehind (remoteOf (tookIn rest s) x).next x.u.opseq = true := hcopy
  rw [applyRemote_fromPeer (s := tookIn rest s) hp (.inr hk) ho, if_pos hbehind,
    twinHeard_of_lost_ne (s := tookIn rest s) hlost]
  exact ⟨rfl, rfl, rfl⟩

end Operations

/-! #### The restart from a twin -/

section Restart

variable {s : State} {n d failed l : Nat}

theorem findSet_mapSet {f : LaneSet → LaneSet} (hf : ∀ y, (f y).dest = y.dest) (sets : List LaneSet) :
    findSet (mapSet d f sets) d = (findSet sets d).map f := by
  induction sets with
  | nil => rfl
  | cons y sets ih =>
    unfold findSet mapSet at *
    by_cases hy : y.dest = d
    · simp [hy, hf]
    · simpa [hy] using ih

theorem slotAt_updSlot_self (f : PlanSlot → PlanSlot) (hn : n < s.fab.slots.length) :
    slotAt (updSlot n f s) n = f (slotAt s n) := by
  simp [slotAt, updSlot, hn]

theorem setAt_updSet_self {f : LaneSet → LaneSet} (hf : ∀ y, (f y).dest = y.dest) (hn : n < s.fab.slots.length) :
    setAt (updSet n d false f s) n d false = (setAt s n d false).map f := by
  simp only [setAt, updSet, slotAt_updSlot_self _ hn, Bool.false_eq_true, if_false]
  exact findSet_mapSet hf _

/-- R550: a unit placed ahead of the others of its set. -/
theorem setAt_placeFirst (u : OutUnit) (hn : n < s.fab.slots.length) :
    setAt (placeFirst n d u s) n d false = (setAt s n d false).map (fun y => { y with queue := u :: y.queue }) :=
  setAt_updSet_self (fun _ => rfl) hn

theorem reachSlot_lt (hn : reachSlot s d = some n) : n < 16 := List.mem_range.1 (List.mem_of_find?_eq_some hn)

/-- R234: what asks a twin for an FPUT from its first byte. -/
def restartUnit (s : State) (failed l : Nat) : OutUnit :=
  ⟨{ kind := 6, stream := l, opseq := (Cells.get {} s.sync.remote (streamKey s failed l)).next
     data := leBytes 2 (min failed (accOf s failed).partner) ++ leBytes 2 (max failed (accOf s failed).partner) ++
       List.replicate 12 0 }, .message⟩

/-- R234: the restart is placed ahead of what waits for the surviving twin. -/
theorem askRestart_queue {y : LaneSet} (hn : n < s.fab.slots.length)
    (hset : setAt s n (accOf s failed).partner false = some y) :
    setAt (askRestart failed l n s) n (accOf s failed).partner false =
      some { y with queue := restartUnit s failed l :: y.queue } := by
  have hfab : (askRestart failed l n s).fab =
      (placeFirst n (accOf s failed).partner (restartUnit s failed l) s).fab := emit_fab ..
  have hplaced : setAt (placeFirst n (accOf s failed).partner (restartUnit s failed l) s) n (accOf s failed).partner
      false = some { y with queue := restartUnit s failed l :: y.queue } := by
    rw [setAt_placeFirst _ hn, hset, Option.map_some]
  rw [← hplaced]
  simp only [setAt, slotAt, hfab]

/-- R234: the stream now waits for the surviving twin, from the first byte of the same operation. -/
theorem askRestart_remote (failed l n : Nat) (s : State) :
    Cells.get {} (askRestart failed l n s).sync.remote (streamKey s failed l) =
      { Cells.get {} s.sync.remote (streamKey s failed l) with
        supplier := some (accOf s failed).partner, got := 0, lost := some failed } := by
  have hsync : (askRestart failed l n s).sync = { s.sync with
      remote := Cells.set {} s.sync.remote (streamKey s failed l)
        { Cells.get {} s.sync.remote (streamKey s failed l) with
          supplier := some (accOf s failed).partner, got := 0, lost := some failed } } := emit_sync ..
  rw [hsync, Cells.get_set_self]

/-- R234: the restart of an FPUT whose twin has been declared failed. -/
theorem exec_syncTwinRestart (hv : (accOf s failed).valid = true) (ht : (accOf s failed).twin = true)
    (hsup : (Cells.get {} s.sync.remote (streamKey s failed l)).supplier = some failed)
    (hlost : (Cells.get {} s.sync.remote (streamKey s failed l)).lost ≠ some (accOf s failed).partner)
    (hred : s.red.state ≠ .fenced) (hn : reachSlot s (accOf s failed).partner = some n) :
    exec (.syncTwinRestart failed l) s = .next (askRestart failed l n s) := by
  show execSyncTwinRestart failed l s = _
  simp only [execSyncTwinRestart, hv, ht, hsup, hred, hlost, hn, ne_eq, not_false_eq_true, and_self, if_true, if_false]

end Restart

/-- Settles O30: an FSIG, an FPUT of one unit and a copy at the front of the inbox, and the restart from a twin. -/
theorem remoteOperations : Obligations.RemoteOperations := by
  refine ⟨?_, ?_⟩
  · rintro s x rest key r hin hp rfl rfl
    refine ⟨fsig_applied hin hp, ?_, fsig_copy hin hp⟩
    intro hk hstream ho hseq hsup hgot hoff hdata htotal _ hok hw
    exact fput_applied hin hp hk hstream ho hseq hsup hgot hoff hdata htotal hok hw
  · rintro s failed l e key n y hfab rfl hv ht rfl hsup hlost hred hn hset
    obtain ⟨-, -, hslots⟩ := hfab
    have hlt : n < s.fab.slots.length := hslots ▸ reachSlot_lt hn
    have hremote := askRestart_remote failed l n s
    exact ⟨_, exec_syncTwinRestart hv ht hsup hlost hred hn, by rw [hremote], by rw [hremote], by rw [hremote],
      restartUnit s failed l, y.queue, askRestart_queue hlt hset, rfl, rfl, rfl, rfl⟩

end Sys2Proof.Machine

/-! ### O3: the instructions that move values between registers -/

namespace Sys2Proof.Machine

section RegisterMoves

variable {s : State} {t : Nat} {i : Insn}

theorem bits_lt (v hi lo : Nat) : bits v hi lo < 2 ^ (hi + 1 - lo) := Nat.mod_lt _ (Nat.two_pow_pos _)

theorem Issues.imm_lt (h : Issues s t i) : i.imm < 2 ^ 32 := by
  obtain ⟨w, -, rfl, -⟩ := h
  exact bits_lt w.toNat 31 0

/-- R112: the X field of AGET is 0 or 1. -/
theorem Issues.aget_x (h : Issues s t i) (ho : i.op = 0x34) : i.x = 0 ∨ i.x = 1 := by
  obtain ⟨w, -, -, hok, -⟩ := h
  have hrow : opRow 0x34 = some ⟨0x34, none, .s, .a, .none, 1, 0⟩ := by decide
  have hand : i.x &&& 1 = i.x := by
    simp only [insnOk, ho, hrow, Bool.and_eq_true, decide_eq_true_eq] at hok
    exact hok.1.1.2
  rw [Nat.and_one_is_mod] at hand
  omega

/-- R120: ALO keeps bits 47:32. -/
theorem alo_exact (a : W48) {n : Nat} (hn : n < 2 ^ 32) :
    BitVec.ofNat 48 (a.toNat / 2 ^ 32 * 2 ^ 32 + n) = joinAddr (a.toNat / 2 ^ 32) n := by
  have ha := a.isLt
  rw [joinAddr, Nat.mod_eq_of_lt hn, Nat.mod_eq_of_lt (by omega : a.toNat / 2 ^ 32 < 2 ^ 16)]

/-- R120: AHI keeps bits 31:0. -/
theorem ahi_exact (a : W48) (n : Nat) :
    BitVec.ofNat 48 (a.toNat % 2 ^ 32 + n % 2 ^ 16 * 2 ^ 32) = joinAddr n a.toNat := by
  rw [joinAddr, Nat.add_comm]

/-- R120: AGET takes the low 32 or the high 16 bits. -/
theorem aget_exact (a : W48) {x : Nat} (hx : x = 0 ∨ x = 1) :
    BitVec.ofNat 32 (if bitOf x 0 then a.toNat / 2 ^ 32 else a.toNat) =
      BitVec.ofNat 32 (if x = 0 then a.toNat % 2 ^ 32 else a.toNat / 2 ^ 32) := by
  rcases hx with rfl | rfl
  · apply BitVec.eq_of_toNat_eq
    simp [bitOf]
  · simp [bitOf]

theorem setWidth_eq_ofNat {m : Nat} (n : Nat) (v : BitVec m) : BitVec.setWidth n v = BitVec.ofNat n v.toNat := by
  apply BitVec.eq_of_toNat_eq
  simp

/-- R59: what SEED and TILE_SRNG load for a number. -/
theorem srngLoad_ofNat (n : Nat) :
    srngLoad (BitVec.ofNat 16 n) = if n % 2 ^ 16 = 0 then 0xACE1#16 else BitVec.ofNat 16 n := by
  have hz : BitVec.ofNat 16 n = 0#16 ↔ n % 2 ^ 16 = 0 := by simp [← BitVec.toNat_inj]
  simp only [srngLoad, hz]

/-- An instruction that only changes its tile, to `x`. -/
theorem simple_leaves {r : Result} {op : Nat} {f : Insn → Tile → Tile} (x : Tile)
    (hr : r = .next (simpleInsn op f t s)) (h : Issues s t i) (hn : NextInCode s t) (ho : i.op = op)
    (hx : f i (tileAt s t) = x) (hpc : x.pc = (tileAt s t).pc) (hc : x.codeLen = (tileAt s t).codeLen) :
    r = .next (advanced t x s) := by
  subst hx
  rw [hr, simpleInsn_issues op f h hn ho hpc hc]

/-- R118: SEED, where no stochastic conversion is pending. -/
theorem seed_issues (h : Issues s t i) (hn : NextInCode s t) (ho : i.op = 0x07)
    (hq : ∀ e ∈ allEntries (tileAt s t), stochastic (insnOf e.word) = false) :
    exec (.seed t) s = .next (advanced t { tileAt s t with
      srng := if (sGet (tileAt s t) i.a).toNat % 2 ^ 16 = 0 then 0xACE1#16
        else BitVec.ofNat 16 (sGet (tileAt s t) i.a).toNat } s) := by
  have hidle : (allEntries (tileAt s t)).any (fun e => stochastic (insnOf e.word)) = false := by
    rw [List.any_eq_false]
    exact fun e he => by simp [hq e he]
  rw [← srngLoad_ofNat, ← setWidth_eq_ofNat]
  refine congrArg Host.Outcome.next ((runInsn_of_issues 0x07 _ h ho).trans ?_)
  dsimp only
  rw [hidle, updTile_eq]
  exact stepOver_setTile t _ s h.lt h.short h.aligned hn

/-- R119, R26: GETC, and the free value that it counts as drawn. -/
theorem getc_issues (h : Issues s t i) (hn : NextInCode s t) (ho : i.op = 0x05) :
    exec (.getc t) s = .next (advanced t (sSet (tileAt s t) i.d (ctlGet t i.a s)) { s with fresh := s.fresh + 1 }) := by
  refine congrArg Host.Outcome.next ((runInsn_of_issues 0x05 _ h ho).trans ?_)
  rw [updTile_eq]
  exact stepOver_setTile t _ _ h.lt (by rw [sSet_codeLen]; exact h.short) (by rw [sSet_pc]; exact h.aligned)
    (by rw [sSet_codeLen, sSet_pc]; exact hn)

theorem present_length_lt (s : State) : (present s).length < 2 ^ 32 := by
  have := List.length_filter_le (fun l => (physOf s l).isSome) (List.range 144)
  rw [List.length_range] at this
  unfold present
  omega

/-- R119: the control registers but c1, which is a free value. -/
theorem ctlGet_values (s : State) (t : Nat) :
    (ctlGet t 0 s).toNat = (tileAt s t).trapEn.toNat ∧
    (∀ l < 144, (tileAt s t).logical = some l → (ctlGet t 2 s).toNat = l) ∧
    (ctlGet t 3 s).toNat = (present s).length ∧
    (ctlGet t 4 s).toNat = (s.time.sec * 1000000000 + s.time.ns) % 2 ^ 32 ∧
    (ctlGet t 5 s).toNat = (tileAt s t).flags.toNat ∧
    (ctlGet t 6 s).toNat = regGet s rFabModid 0 [] % 2 ^ 16 ∧
    ctlGet t 7 s = (tileAt s t).arg := by
  have h6 (v : BitVec 6) : (BitVec.setWidth 32 v).toNat = v.toNat :=
    (BitVec.toNat_setWidth ..).trans (Nat.mod_eq_of_lt (by omega))
  refine ⟨h6 _, fun l hl hlog => ?_, ?_, ?_, h6 _, ?_, rfl⟩
  · simp only [ctlGet, hlog, BitVec.toNat_ofNat, Option.getD_some]
    omega
  · exact (BitVec.toNat_ofNat ..).trans (Nat.mod_eq_of_lt (present_length_lt s))
  · simp only [ctlGet, stampNow, nowNs, BitVec.toNat_ofNat, Nat.mod_mod]
  · simp only [ctlGet, regField, bits, BitVec.toNat_ofNat, Nat.pow_zero, Nat.div_one]
    omega

end RegisterMoves

/-- Settles O3: each instruction by what it does to its tile. -/
theorem registerMoves : Obligations.RegisterMoves := by
  refine ⟨fun s t i h hn => ⟨?nop, ?li, ?aadd, ?aaddi, ?alo, ?ahi, ?aget, ?amov, ?trapEnables, ?flags, seed_issues h hn⟩,
    fun s t i h hn ho => ?getc⟩
  case nop => exact fun ho => simple_leaves _ rfl h hn ho rfl rfl rfl
  case li => exact fun ho => simple_leaves _ rfl h hn ho rfl (sSet_pc ..) (sSet_codeLen ..)
  case aadd => exact fun ho => simple_leaves _ rfl h hn ho (by rw [sext48_add]) rfl rfl
  case aaddi => exact fun ho => simple_leaves _ rfl h hn ho (by rw [sext48_add]) rfl rfl
  case alo => exact fun ho => simple_leaves _ rfl h hn ho (by rw [alo_exact _ h.imm_lt]) rfl rfl
  case ahi => exact fun ho => simple_leaves _ rfl h hn ho (by rw [ahi_exact]) rfl rfl
  case aget =>
    exact fun ho => simple_leaves _ rfl h hn ho (congrArg (sSet _ i.d) (aget_exact _ (h.aget_x ho))) (sSet_pc ..)
      (sSet_codeLen ..)
  case amov => exact fun ho => simple_leaves _ rfl h hn ho rfl rfl rfl
  case trapEnables =>
    exact fun ho hd => simple_leaves _ rfl h hn ho (by rw [if_pos hd, setWidth_eq_ofNat]) rfl rfl
  case flags =>
    exact fun ho hd => simple_leaves _ rfl h hn ho (by rw [if_neg (by omega), setWidth_eq_ofNat]) rfl rfl
  case getc =>
    obtain ⟨h0, h2, h3, h4, h5, h6, h7⟩ := ctlGet_values s t
    refine ⟨_, getc_issues h hn ho, ?_, ?_, ?_, ?_, ?_, ?_, ?_⟩ <;> intro ha <;> rw [ha]
    exacts [h0, h2, h3, h4, h5, h6, h7]

end Sys2Proof.Machine

/-! ### O8: the vector entries on registers -/

namespace Sys2Proof.Machine

section VectorRegisters

variable {s : State} {t k : Nat} {e : QEntry} {i : Insn}

/-- R120, R121, R125: the lane-wise operations on two operands. -/
theorem laneOp_laneTable : ∀ r ∈ laneTable, laneOp r.1 = some r.2 := by
  have exact_lanes {f g : W32 → W32 → W32} (hfg : ∀ a b, f a b = g a b) :
      some (plain f) = some fun a b => (g a b, 0#6) :=
    congrArg some (funext fun a => funext fun b => congrArg (·, fNone) (hfg a b))
  simp only [laneTable, List.forall_mem_cons, List.not_mem_nil, false_implies, implies_true, and_true]
  exact ⟨rfl, rfl, rfl, rfl, rfl, exact_lanes add_exact, exact_lanes sub_exact, exact_lanes mul_exact,
    exact_lanes and_exact, exact_lanes or_exact, exact_lanes xor_exact, exact_lanes shl_exact,
    exact_lanes shr_exact, exact_lanes sra_exact⟩

/-- R68, R70, R71: the lane-wise operations on one operand. -/
theorem laneFn_laneTable1 : ∀ r ∈ laneTable1, laneOp r.1 = none ∧ laneFn r.1 = some r.2 := by
  simp only [laneTable1, List.forall_mem_cons, List.not_mem_nil, false_implies, implies_true, and_true]
  exact ⟨⟨rfl, rfl⟩, ⟨rfl, rfl⟩, ⟨rfl, rfl⟩, ⟨rfl, rfl⟩, ⟨rfl, rfl⟩, ⟨rfl, rfl⟩⟩

theorem vectorRegs_laneOp {x : Tile} {f : W32 → W32 → W32 × Flags} (hf : laneOp i.op = some f) :
    vectorRegs i x = some (vSet x i.d ((List.zipWith f (vGet x i.a) (operandB x i)).map (·.1)),
      flagsOf (List.zipWith f (vGet x i.a) (operandB x i))) := by
  simp only [vectorRegs, hf, lanesOut]

theorem vectorRegs_laneFn {x : Tile} {f : W32 → W32 × Flags} (hn : laneOp i.op = none) (hf : laneFn i.op = some f) :
    vectorRegs i x = some (vSet x i.d ((vGet x i.a).map (fun a => (f a).1)), flagsOf ((vGet x i.a).map f)) := by
  simp only [vectorRegs, hn, hf, lanesOut, List.map_map]
  rfl

/-- What a vector instruction on registers changes of its tile: a vector or a scalar register. -/
def RegisterSet (x y : Tile) : Prop := (∃ d v, y = vSet x d v) ∨ ∃ d v, y = sSet x d v

theorem RegisterSet.keeps {x y : Tile} (h : RegisterSet x y) : y.code = x.code ∧ y.trapEn = x.trapEn ∧ y.trap = x.trap := by
  obtain ⟨d, v, rfl⟩ | ⟨d, v, rfl⟩ := h
  · exact ⟨rfl, rfl, rfl⟩
  · unfold sSet
    split <;> exact ⟨rfl, rfl, rfl⟩

/-- The completion of an entry whose instruction sets a register. -/
theorem vectorRegs_leaves {y : Tile} {fl : Flags} (ups : List Upset) (h : EntryRuns s t .vector k e)
    (hv : vectorRegs (insnOf e.word) (tileAt s t) = some (y, fl)) (hy : RegisterSet (tileAt s t) y) :
    EntryLeaves s t .vector 2 k ups e y fl := by
  have hrun : runFor .vector t (insnOf e.word) (strike ups s) = .done (setTile t y (strike ups s)) fl := by
    simp only [runFor, runVector, tileAt_strike, hv]
  obtain ⟨hcode, hen, htrap⟩ := hy.keeps
  exact completion_leaves ups y fl h (by decide) hrun (hcode.trans h.2.1) hen htrap

end VectorRegisters

/-- Settles O8: each entry by the register that it sets. -/
theorem vectorRegisterResults : Obligations.VectorRegisterResults := by
  rintro s t k e ups i x h rfl rfl
  refine ⟨fun r hr ho => ?lanes, fun r hr ho => ?lanes1, fun ho => ?fma, fun ho => ?bcast, fun ho => ?sum, fun ho => ?max⟩
  case lanes => exact vectorRegs_leaves ups h (vectorRegs_laneOp (ho ▸ laneOp_laneTable r hr)) (.inl ⟨_, _, rfl⟩)
  case lanes1 =>
    obtain ⟨hnone, hsome⟩ := laneFn_laneTable1 r hr
    exact vectorRegs_leaves ups h (vectorRegs_laneFn (ho ▸ hnone) (ho ▸ hsome)) (.inl ⟨_, _, rfl⟩)
  case fma => exact vectorRegs_leaves ups h (by rw [vectorRegs, ho]; rfl) (.inl ⟨_, _, rfl⟩)
  case bcast => exact vectorRegs_leaves ups h (by rw [vectorRegs, ho]; rfl) (.inl ⟨_, _, rfl⟩)
  case sum => exact vectorRegs_leaves ups h (by rw [vectorRegs, ho]; rfl) (.inr ⟨_, _, rfl⟩)
  case max => exact vectorRegs_leaves ups h (by rw [vectorRegs, ho]; rfl) (.inr ⟨_, _, rfl⟩)

end Sys2Proof.Machine

/-! ### O11: the dense MMA -/

namespace Sys2Proof.Machine

section MatrixMultiply

variable {α β : Type} {s : State} {t size : Nat} {slice : Bool}

/-! #### Lists cut into pieces -/

theorem piecesOf_flatten {k : Nat} (xss : List (List α)) (hk : ∀ xs ∈ xss, xs.length = k) :
    piecesOf k xss.length xss.flatten = xss := by
  induction xss with
  | nil => rfl
  | cons xs xss ih =>
    have hx : xs.length = k := hk xs List.mem_cons_self
    rw [List.flatten_cons, List.length_cons, piecesOf, List.take_left' hx, List.drop_left' hx,
      ih fun ys hys => hk ys (List.mem_cons_of_mem _ hys)]

/-- An element of pieces of one length laid end to end. -/
theorem getElem?_flatMap_const {n : Nat} (f : α → List β) (xs : List α) (hn : ∀ x ∈ xs, (f x).length = n)
    (r : Nat) {c : Nat} (hc : c < n) : (xs.flatMap f)[n * r + c]? = xs[r]?.bind fun x => (f x)[c]? := by
  induction xs generalizing r with
  | nil => rfl
  | cons x xs ih =>
    have hx : (f x).length = n := hn x List.mem_cons_self
    rw [List.flatMap_cons]
    cases r with
    | zero => rw [List.getElem?_append_left (by omega)]; simp
    | succ r =>
      rw [List.getElem?_append_right (by rw [hx, Nat.mul_succ]; omega), hx,
        show n * (r + 1) + c - n = n * r + c by rw [Nat.mul_succ]; omega,
        ih (fun y hy => hn y (List.mem_cons_of_mem _ hy)), List.getElem?_cons_succ]

/-! #### Operands -/

/-- The blocks of an operand of `n` rows or columns of `kb` blocks. -/
def operandBlocks (s : State) (t fmt base stride n kb size : Nat) : List (List Block) :=
  (List.range n).map fun r => (List.range kb).map fun j =>
    blockOf fmt (bytesAt s t (operandAddr base stride size r j) size)

theorem forall_mem_operandAddrs {base stride n kb : Nat} {P : Nat → Prop}
    (hp : ∀ r < n, ∀ j < kb, P (operandAddr base stride size r j)) :
    ∀ addr ∈ (operandAddrs base stride n kb size).flatten, P addr := by
  intro addr haddr
  simp only [operandAddrs, List.mem_flatten, List.mem_map, List.mem_range] at haddr
  obtain ⟨_, ⟨r, hr, rfl⟩, hrow⟩ := haddr
  obtain ⟨j, hj, rfl⟩ := List.mem_map.1 hrow
  exact hp r hr j (List.mem_range.1 hj)

/-- R127: blocks that an MMA may read are not misplaced. -/
theorem misplaced_operandAt {addrs : List (List Nat)} (ho : ∀ a ∈ addrs.flatten, OperandAt s t a size slice) :
    misplaced s t size slice addrs = none := by
  refine List.find?_eq_none.2 fun a ha => ?_
  obtain ⟨-, ⟨o, hp⟩ | ⟨hs, o, hp⟩⟩ := ho a ha
  · simp [hp]
  · simp [hp, hs]

/-- Blocks that hold no error are read as they are, and nothing changes. -/
theorem readBlocks_readable {addrs : List Nat} (ho : ∀ a ∈ addrs, Readable s t a size) :
    readBlocks t size addrs s = { st := s, blocks := addrs.map (bytesAt s t · size) } := by
  have hfold (done : List (List Byte)) : addrs.foldl (fun r a =>
      match tileLoad t a size r.st with
      | (s', .ok bs) => { r with st := s', blocks := r.blocks ++ [bs] }
      | (s', e) => { st := s', blocks := r.blocks ++ [[]], bad := worstOf r.bad (some e) })
      ({ st := s, blocks := done } : OperandRead) = { st := s, blocks := done ++ addrs.map (bytesAt s t · size) } := by
    induction addrs generalizing done with
    | nil => simp
    | cons a addrs ih =>
      rw [List.foldl_cons, tileLoad_readable (ho a List.mem_cons_self)]
      dsimp only
      rw [ih fun b hb => ho b (List.mem_cons_of_mem _ hb)]
      simp
  exact (hfold []).trans (by simp)

/-- R127: the blocks of an operand, cut into its rows or columns. -/
theorem piecesOf_operand (s : State) (t fmt base stride n kb size : Nat) :
    piecesOf kb n (((operandAddrs base stride n kb size).flatten.map (bytesAt s t · size)).map (blockOf fmt)) =
      operandBlocks s t fmt base stride n kb size := by
  have hblocks : ((operandAddrs base stride n kb size).flatten.map (bytesAt s t · size)).map (blockOf fmt) =
      (operandBlocks s t fmt base stride n kb size).flatten := by
    simp only [operandAddrs, operandBlocks, operandAddr, List.map_flatten, List.map_map, Function.comp_def]
  have hcut := piecesOf_flatten (k := kb) (operandBlocks s t fmt base stride n kb size) (by simp [operandBlocks])
  rw [hblocks]
  rwa [show (operandBlocks s t fmt base stride n kb size).length = n by simp [operandBlocks]] at hcut

/-! #### The products -/

/-- R66: an element is folded over the pairs of blocks of its row and its column. -/
theorem mmaElem_map (fa fb : Nat) (z : W32) (row col : Nat → Block) (kb : Nat) :
    (mmaElem fa fb z ((List.range kb).map row) ((List.range kb).map col)).1 =
      (List.range kb).foldl (fun v j => (accStep fa fb v (row j) (col j)).1) z := by
  rw [mmaElem, List.zip_map', List.foldl_map]
  exact (List.foldl_hom Prod.fst (fun _ _ => rfl)).symm

theorem length_mmaAcc (fa fb : Nat) (acc : List W32) (rows cols : List (List Block)) :
    (mmaAcc fa fb acc rows cols).length = rows.length * cols.length := by
  simp [mmaAcc, List.length_flatMap]

/-- R127: the element of a row and a column. -/
theorem getElem?_mmaAcc (fa fb : Nat) (acc : List W32) {rows cols : List (List Block)} {r c : Nat}
    (hr : r < rows.length) (hcols : cols.length = 64) (hc : c < 64) :
    (mmaAcc fa fb acc rows cols)[64 * r + c]? = some (mmaElem fa fb (acc.getD (64 * r + c) 0#32) rows[r] cols[c]) := by
  rw [mmaAcc, getElem?_flatMap_const _ _ (by simp [hcols]) r hc]
  simp [hr, hcols, hc]

/-- R66, R127: each element that an MMA leaves. -/
theorem mmaAcc_operands (s : State) (t fa fb sa sb a b rs cs kb : Nat) (acc : List W32) {r c : Nat}
    (hr : r < 128) (hc : c < 64) :
    ((mmaAcc fa fb acc (operandBlocks s t fa a rs 128 kb sa) (operandBlocks s t fb b cs 64 kb sb)).map
      (·.1)).getD (64 * r + c) 0#32 = mmaSum s t fa fb sa sb a b rs cs kb r c (acc.getD (64 * r + c) 0#32) := by
  rw [List.getD_eq_getElem?_getD, List.getElem?_map,
    getElem?_mmaAcc fa fb acc (by simpa [operandBlocks] using hr) (by simp [operandBlocks]) hc]
  simp only [Option.map_some, Option.getD_some, operandBlocks, List.getElem_map, List.getElem_range, mmaElem_map]
  rfl

theorem getD_accZero (n : Nat) : accZero.getD n 0#32 = 0#32 := by
  unfold accZero
  rw [List.getD_eq_getElem?_getD, List.getElem?_replicate]
  split <;> rfl

/-- R66, R127: the elements that an MMA on dense operands leaves, with the flags of each. -/
def mmaDense (s : State) (t : Nat) (i : Insn) : List (W32 × Flags) :=
  let x := tileAt s t
  mmaAcc (i.x % 4) (i.x / 4 % 4) (if bitOf i.x 5 then accZero else accGet x i.d)
    (operandBlocks s t (i.x % 4) (aGet x i.a).toNat x.rowStride.toNat 128 i.imm (fmtBytes (i.x % 4)))
    (operandBlocks s t (i.x / 4 % 4) (aGet x i.b).toNat x.colStride.toNat 64 i.imm (fmtBytes (i.x / 4 % 4)))

theorem length_mmaDense (s : State) (t : Nat) (i : Insn) : (mmaDense s t i).length = 8192 := by
  simp [mmaDense, length_mmaAcc, operandBlocks]

/-- R127: an MMA on dense operands that may be read runs, and its reads change nothing. -/
theorem runMma_dense {i : Insn} (hsparse : bitOf i.x 4 = false)
    (ha : (aGet (tileAt s t) i.a).toNat % 2 = 0) (hb : (aGet (tileAt s t) i.b).toNat % 2 = 0)
    (hrs : (tileAt s t).rowStride.toNat % 2 = 0) (hcs : (tileAt s t).colStride.toNat % 2 = 0)
    (hrow : ∀ r < 128, ∀ j < i.imm, OperandAt s t (operandAddr (aGet (tileAt s t) i.a).toNat
      (tileAt s t).rowStride.toNat (fmtBytes (i.x % 4)) r j) (fmtBytes (i.x % 4)) true)
    (hcol : ∀ c < 64, ∀ j < i.imm, OperandAt s t (operandAddr (aGet (tileAt s t) i.b).toNat
      (tileAt s t).colStride.toNat (fmtBytes (i.x / 4 % 4)) c j) (fmtBytes (i.x / 4 % 4)) false) :
    runMma t i s = .done (setTile t (accSet (tileAt s t) i.d (lanesOut (mmaDense s t i)).1) s)
      (lanesOut (mmaDense s t i)).2 := by
  have hrows := forall_mem_operandAddrs (P := (OperandAt s t · (fmtBytes (i.x % 4)) true)) hrow
  have hcols := forall_mem_operandAddrs (P := (OperandAt s t · (fmtBytes (i.x / 4 % 4)) false)) hcol
  unfold runMma
  simp only [hsparse, Bool.false_eq_true, if_false, ha, hb, hrs, hcs, ne_eq, not_true, or_self,
    misplaced_operandAt hrows, misplaced_operandAt hcols, Option.or_none,
    readBlocks_readable fun addr haddr => (hrows addr haddr).1,
    readBlocks_readable fun addr haddr => (hcols addr haddr).1, worstOf, Bool.false_and, piecesOf_operand, mmaDense]

end MatrixMultiply

/-- Settles O11: the run of the entry leaves `mmaDense`, and each of its elements is the sum. -/
theorem matrixMultiply : Obligations.MatrixMultiply := by
  rintro s s1 t k e ups i x fa fb sa sb a b rs cs h rfl rfl hx ho hsparse rfl rfl - - rfl rfl rfl rfl rfl rfl
    ha hb hrs hcs hrow hcol
  have hx1 : x = tileAt (strike ups s) t := hx.trans (tileAt_strike ups s t).symm
  have hrun : runFor .matrix t (insnOf e.word) (strike ups s) = runMma t (insnOf e.word) (strike ups s) := by
    simp only [runFor, runMatrix, ho]
    rfl
  rw [hx1] at ha hb hrs hcs hrow hcol
  rw [runMma_dense hsparse ha hb hrs hcs hrow hcol, ← hx1, hx] at hrun
  refine ⟨_, _, hx ▸ completion_leaves ups _ _ h (by decide) hrun h.2.1 rfl rfl, ?_, fun r hr c hc => ?_⟩
  · exact (List.length_map ..).trans (length_mmaDense ..)
  · rw [hx1]
    refine (mmaAcc_operands (strike ups s) t _ _ _ _ _ _ _ _ _ _ hr hc).trans (congrArg _ ?_)
    split
    · exact getD_accZero _
    · rfl

end Sys2Proof.Machine

/-! ### O38: writes of TILE_CTRL and TILE_SRNG -/

namespace Sys2Proof.Machine

section TileRegisters

variable {s u : State} {h : Header} {c : HostCmd} {t l v : Nat} {r : RegRow} {k : TestKind} {P : State → Prop}

@[simp] theorem tileAt_begun : tileAt (begun h c s) t = tileAt s t := congrArg (·.getD t noTile) begun_tiles

/-! #### A write of a tile's register -/

/-- The registers of a tile whose writes act here. -/
def tileRegister (r : RegRow) : Prop := r = rTileCtrl ∨ r = rTileSrng

theorem findReg_tileRegister (hr : tileRegister r) (ht : t < 156) : findReg (regAddr r t []) = some (r, t, []) := by
  obtain rfl | rfl := hr <;> exact findReg_plain _ t ht (by decide) (by decide) (by decide) rfl

/-- R453: REG_WRITE to a register of a tile whose island is powered. -/
theorem regWrite_tileRegister (hr : tileRegister r) (ht : t < 156) (hp : s.pwr.current < 2) (hv : v < 2 ^ 32)
    (hl : liveWrite r t [] v [] s = some u) : regWrite h (writeOf r t [] v []) s = (u, .reply 0 []) := by
  have hw : r.width = 32 := by obtain rfl | rfl := hr <;> rfl
  have hblock : r.block = .tile := by obtain rfl | rfl := hr <;> rfl
  have haddr : regAddr r t [] < 2 ^ 32 := by
    obtain rfl | rfl := hr <;> simp only [regAddr, rowOffset, rTileCtrl, rTileSrng, blockBase] <;> simp <;> omega
  have hv64 : v < 2 ^ 64 := by omega
  have hoff : regOff s r t = false := by simpa [regOff, hblock] using hp
  obtain ⟨-, -, -, hval, -⟩ := writePayload_fields r t [] v haddr hv64 (by omega)
  unfold regWrite
  simp only [writeOf, namedReg_writePayload r t [] v haddr hv64 (by omega) (by omega) (findReg_tileRegister hr ht), hval,
    hw, hoff, hl, status]
  rw [if_neg (by omega), if_neg (by decide)]

/-- A write whose effect leaves the host interface to the answer. -/
theorem tileRegister_written (ha : Admitted s h (writeOf r t [] v [])) (hr : tileRegister r) (ht : t < 156)
    (hp : s.pwr.current < 2) (hv : v < 2 ^ 32)
    (hl : liveWrite r t [] v [] (begun h (writeOf r t [] v []) s) = some u)
    (hh : u.host = (begun h (writeOf r t [] v []) s).host) (hu : ∀ x m, P { u with host := x, regs := m }) :
    Written (.next (hostReceive h (writeOf r t [] v []) s)) s h (writeOf r t [] v []) P := by
  have hpwr : (begun h (writeOf r t [] v []) s).pwr.current < 2 := by rw [begun_eq]; exact hp
  obtain ⟨s', hs', hans, heq, -⟩ := admitted_reply ha rfl (regWrite_tileRegister (h := h) hr ht hpwr hv hl) hh
  exact ⟨s', congrArg Host.Outcome.next hs', hans, heq ▸ hu _ _⟩

/-- A write that changes its tile alone. -/
theorem tileRegister_completes {f : Tile → Tile} (ha : Admitted s h (writeOf r t [] v [])) (hr : tileRegister r)
    (ht : t < 156) (hp : s.pwr.current < 2) (hv : v < 2 ^ 32)
    (hl : liveWrite r t [] v [] (begun h (writeOf r t [] v []) s) = some (updTile t f (begun h (writeOf r t [] v []) s))) :
    Completes (.next (hostReceive h (writeOf r t [] v []) s)) s (setTile t (f (tileAt s t)) s) h
      (writeOf r t [] v []) 0 [] := by
  have hpwr : (begun h (writeOf r t [] v []) s).pwr.current < 2 := by rw [begun_eq]; exact hp
  refine admitted_completes ha rfl (regWrite_tileRegister (h := h) hr ht hpwr hv hl) rfl ?_ ha.begun_stands
  rw [updTile_eq, tileAt_begun, begun_eq]
  rfl

/-! #### The start of a self-test -/

theorem unloadFor_eq (t : Nat) (s : State) : unloadFor t s = { s with job := (unloadFor t s).job } := by
  unfold unloadFor
  split <;> rfl

@[simp] theorem unloadFor_host (t : Nat) (s : State) : (unloadFor t s).host = s.host := by rw [unloadFor_eq]

@[simp] theorem unloadFor_mem (t : Nat) (s : State) : (unloadFor t s).mem = s.mem := by rw [unloadFor_eq]

@[simp] theorem unloadFor_tiles (t : Nat) (s : State) : (unloadFor t s).tiles = s.tiles := by rw [unloadFor_eq]

@[simp] theorem tileAt_unloadFor (t w : Nat) (s : State) : tileAt (unloadFor t s) w = tileAt s w :=
  congrArg (·.getD w noTile) (unloadFor_tiles t s)

@[simp] theorem startTest_host (t : Nat) (k : TestKind) (s : State) : (startTest t k s).host = s.host :=
  unloadFor_host t s

/-- R92, R104: a self-test starts in a tile, and nothing else changes. -/
theorem startTest_starts (k : TestKind) (ht : t < s.tiles.length) : TestStarts s (startTest t k s) t k := by
  have htile : tileAt (startTest t k s) t = { islandL1 (tileAt s t) with
      code := .testing, test := k, testStopped := false, policyDue := none } := by
    have hl1 : tileAt (applyL1 t (unloadFor t s)) t = islandL1 (tileAt s t) := by
      show tileAt (updTile t islandL1 (unloadFor t s)) t = _
      rw [updTile_eq, tileAt_setTile_self _ _ _ (by simpa using ht), tileAt_unloadFor]
    have hlen : t < (applyL1 t (unloadFor t s)).tiles.length := by
      show t < (setTile t _ (unloadFor t s)).tiles.length
      rwa [setTile_length, unloadFor_tiles]
    rw [startTest, updTile_eq, tileAt_setTile_self _ _ _ hlen, hl1]
  refine ⟨by rw [htile], by rw [htile], by rw [htile]; rfl, by rw [htile]; rfl, by rw [htile]; rfl, fun w hw => ?_, fun a => ?_⟩
  · rw [startTest, tileAt_updTile_ne _ (Ne.symm hw)]
    show tileAt (updTile t islandL1 (unloadFor t s)) w = _
    rw [tileAt_updTile_ne _ (Ne.symm hw), tileAt_unloadFor]
  · show memByte (memClear (unloadFor t s).mem.cells _ _) a = _
    rw [memByte_memClear, unloadFor_mem]

/-- A self-test that a command has started, beside the command's own arrival and answer. -/
theorem TestStarts.written (hu : TestStarts (begun h c s) u t k) (x : HostIf) (m : Cells W64) :
    TestStarts s { u with host := x, regs := m } t k := by
  obtain ⟨hcode, htest, hlog, hpc, hsrng, hother, hmem⟩ := hu
  simp only [tileAt_begun, begun_mem] at hlog hother hmem
  exact ⟨hcode, htest, hlog, hpc, hsrng, hother, hmem⟩

/-! #### Retirement -/

/-- R94: the tile that a retirement leaves. -/
def retiredTile (x : Tile) : Tile :=
  { islandReset x with
    code := .retired, logical := none, former := x.logical.or x.former, policyDue := none, retireDue := false }

/-- R94, R181: the state in which a tile has been retired, and its number `l` not yet given on. -/
def numberFreed (t l : Nat) (s : State) : State :=
  let x := updTile t retiredTile (unloadFor t s)
  dropSlice t (awaitSlice t l { x with
    peat := { x.peat with totals := { x.peat.totals with tilesRetired := x.peat.totals.tilesRetired + 1 } } })

/-- R94, R96: the number of a retired tile goes to the nearest spare, or becomes absent. -/
def numberGiven (t l : Nat) (s : State) : State :=
  match nearestSpare s t with
  | some w => emit 0x1103 t [BitVec.ofNat 8 l, BitVec.ofNat 8 w]
      (updTile w (fun x => { x with code := .ready, logical := some l }) s)
  | none => emit 0x1105 t [BitVec.ofNat 8 l] (emit 0x1103 t [BitVec.ofNat 8 l, 0xFF] s)

theorem retireTile_numbered (hl : (tileAt s t).logical = some l) :
    retireTile t s = numberGiven t l (numberFreed t l s) := by
  unfold retireTile numberGiven
  simp only [tileAt_unloadFor, hl]
  rfl

@[simp] theorem dropSlice_tiles (t : Nat) (s : State) : (dropSlice t s).tiles = s.tiles := by
  unfold dropSlice
  split <;> rfl

@[simp] theorem dropSlice_host (t : Nat) (s : State) : (dropSlice t s).host = s.host := by
  unfold dropSlice
  split <;> rfl

@[simp] theorem awaitSlice_tiles (t l : Nat) (s : State) : (awaitSlice t l s).tiles = s.tiles := by
  unfold awaitSlice
  split <;> rfl

@[simp] theorem awaitSlice_host (t l : Nat) (s : State) : (awaitSlice t l s).host = s.host := by
  unfold awaitSlice
  split <;> rfl

theorem numberFreed_tiles (t l : Nat) (s : State) :
    (numberFreed t l s).tiles = (setTile t (retiredTile (tileAt s t)) s).tiles := by
  simp only [numberFreed, dropSlice_tiles, awaitSlice_tiles, updTile_eq, tileAt_unloadFor]
  exact congrArg (List.set · t _) (unloadFor_tiles t s)

theorem tileAt_numberFreed (t l w : Nat) (s : State) (ht : t < s.tiles.length) :
    tileAt (numberFreed t l s) w = if t = w then retiredTile (tileAt s t) else tileAt s w := by
  have hset : tileAt (numberFreed t l s) w = tileAt (setTile t (retiredTile (tileAt s t)) s) w :=
    congrArg (·.getD w noTile) (numberFreed_tiles t l s)
  simp only [hset, tileAt_setTile, ht, and_true]

theorem length_numberFreed (t l : Nat) (s : State) : (numberFreed t l s).tiles.length = s.tiles.length := by
  rw [numberFreed_tiles, setTile_length]

theorem numberFreed_host (t l : Nat) (s : State) : (numberFreed t l s).host = s.host := by
  simp [numberFreed]

/-- R99 step 5: a slice that waits to be copied is kept. -/
theorem numberFreed_cells (hm : ∀ q ∈ s.mem.migrate, q.2 ≠ l) : (numberFreed t l s).mem.cells = s.mem.cells := by
  have hany : s.mem.migrate.any (fun p => p.2 = l) = false := by simpa using hm
  unfold numberFreed dropSlice awaitSlice
  simp [hany]

/-- The choice of a spare looks at the SPARE tiles alone. -/
theorem nearestSpare_congr {s1 s2 : State} (hlen : s1.tiles.length = s2.tiles.length)
    (hcode : ∀ w, (tileAt s1 w).code = .spare ↔ (tileAt s2 w).code = .spare) (t : Nat) :
    nearestSpare s1 t = nearestSpare s2 t := by
  have hspares : spares s1 = spares s2 := by simp only [spares, hlen, hcode]
  unfold nearestSpare
  rw [hspares]

theorem nearestSpare_numberFreed (l : Nat) (ht : t < s.tiles.length) (hc : (tileAt s t).code ≠ .spare) :
    nearestSpare (numberFreed t l s) t = nearestSpare s t := by
  refine nearestSpare_congr (length_numberFreed t l s) (fun w => ?_) t
  rw [tileAt_numberFreed t l w s ht]
  split
  next hw => subst hw; simp [retiredTile, hc]
  next => rfl

@[simp] theorem retireTile_host (t : Nat) (s : State) : (retireTile t s).host = s.host := by
  cases hl : (tileAt s t).logical with
  | none =>
    unfold retireTile
    simp [hl]
  | some l =>
    rw [retireTile_numbered hl, numberGiven]
    split <;> simp [numberFreed_host]

/-- R94, R96: what the retirement of a tile with number `l` leaves. -/
def Retires (s s' : State) (t l : Nat) : Prop :=
  (tileAt s' t).code = .retired ∧ (tileAt s' t).logical = none ∧
  ((∀ q ∈ s.mem.migrate, q.2 ≠ l) → s'.mem.cells = s.mem.cells) ∧
  (nearestSpare s t = none → ∀ w, w ≠ t → tileAt s' w = tileAt s w) ∧
  ∀ w, nearestSpare s t = some w → tileAt s' w = { tileAt s w with code := .ready, logical := some l } ∧
    ∀ x, x ≠ t → x ≠ w → tileAt s' x = tileAt s x

theorem retireTile_retires (ht : t < s.tiles.length) (hl : (tileAt s t).logical = some l)
    (hc : (tileAt s t).code ≠ .spare) : Retires s (retireTile t s) t l := by
  have hfreed := fun w => tileAt_numberFreed t l w s ht
  have hself : tileAt (numberFreed t l s) t = retiredTile (tileAt s t) := by rw [hfreed, if_pos rfl]
  have hother : ∀ w, w ≠ t → tileAt (numberFreed t l s) w = tileAt s w := fun w hw => by rw [hfreed, if_neg (Ne.symm hw)]
  have hmem : (retireTile t s).mem = (numberFreed t l s).mem := by
    rw [retireTile_numbered hl, numberGiven]
    split <;> simp
  unfold Retires
  rw [hmem]
  cases hn : nearestSpare s t with
  | none =>
    have htile : ∀ w, tileAt (retireTile t s) w = tileAt (numberFreed t l s) w := fun w => by
      rw [retireTile_numbered hl, numberGiven, nearestSpare_numberFreed l ht hc, hn]
      simp
    simp only [htile, hself]
    exact ⟨rfl, rfl, numberFreed_cells, fun _ => hother, fun w hw => nomatch hw⟩
  | some w =>
    have hspare := nearestSpare_spare hn
    have hwt : w ≠ t := fun hw => hc (hw ▸ hspare)
    have hlt : w < (numberFreed t l s).tiles.length := by
      by_contra hge
      rw [tileAt_beyond s w (by rw [length_numberFreed] at hge; omega)] at hspare
      cases hspare
    have hgiven : ∀ x, tileAt (retireTile t s) x = tileAt (setTile w { tileAt s w with code := .ready, logical := some l }
        (numberFreed t l s)) x := fun x => by
      rw [retireTile_numbered hl, numberGiven, nearestSpare_numberFreed l ht hc, hn]
      simp only [tileAt_emit, updTile_eq, hother w hwt]
    simp only [hgiven, tileAt_setTile_ne _ _ _ _ hwt, hself]
    refine ⟨rfl, rfl, numberFreed_cells, fun hnone => (nomatch hnone), fun y hy => ?_⟩
    obtain rfl : w = y := Option.some.inj hy
    exact ⟨tileAt_setTile_self _ _ _ hlt, fun x hxt hxw =>
      (tileAt_setTile_ne _ _ _ _ (Ne.symm hxw)).trans (hother x hxt)⟩

/-- A retirement that a command has made, beside the command's own arrival and answer. -/
theorem Retires.written (hu : Retires (begun h c s) u t l) (x : HostIf) (m : Cells W64) :
    Retires s { u with host := x, regs := m } t l := by
  have hn : nearestSpare (begun h c s) t = nearestSpare s t :=
    nearestSpare_congr (by rw [begun_tiles]) (by simp) t
  show Retires s u t l
  simpa only [Retires, begun_mem, tileAt_begun, hn] using hu

end TileRegisters

/-- Settles O38: each command of TILE_CTRL from the states that allow it, and its refusal from the others. -/
theorem tileRegisterWrites : Obligations.TileRegisterWrites := by
  intro s h t hlen ht hp
  have ht' (v : Nat) : t < (begun h (writeOf rTileCtrl t [] v []) s).tiles.length := by
    rw [begun_tiles]
    omega
  refine ⟨fun ha => ⟨fun hc => ?_, fun hc => ?_⟩, fun ha => ⟨fun l hc hl => ?_, fun hr hf => ?_⟩,
    fun ha => ⟨fun hc => ?_, fun hc => ?_⟩, fun v hv ha => ?_⟩
  · refine tileRegister_written ha (.inl rfl) ht hp (by decide) (congrArg some (if_pos ?_)) (startTest_host t .plain _)
      (startTest_starts .plain (ht' 1)).written
    simpa only [tileAt_begun] using hc
  · refine tileRegister_completes ha (.inl rfl) ht hp (by decide) (congrArg some (if_neg ?_))
    rw [tileAt_begun]
    rcases hc with hc | hc | hc | hc <;> simp [hc]
  · refine tileRegister_written ha (.inl rfl) ht hp (by decide) (congrArg some (if_pos ?_)) (retireTile_host ..)
      (retireTile_retires (ht' 2) (by rwa [tileAt_begun]) ?_).written
    · simpa only [tileAt_begun] using hc
    · rw [tileAt_begun]
      rcases hc with hc | hc <;> simp [hc]
  · exact tileRegister_completes ha (.inl rfl) ht hp (by decide) (congrArg some (if_neg (by simp [hr, hf])))
  · exact tileRegister_written ha (.inl rfl) ht hp (by decide) (congrArg some (if_pos (by simpa using hc)))
      (startTest_host t .restore _) (startTest_starts .restore (ht' 4)).written
  · exact tileRegister_completes ha (.inl rfl) ht hp (by decide) (congrArg some (if_neg (by simpa using hc)))
  · have hwrite := tileRegister_completes (f := fun x => { x with srng := srngLoad (BitVec.ofNat 16 v) }) ha (.inr rfl)
      ht hp hv rfl
    rwa [srngLoad_ofNat] at hwrite

end Sys2Proof.Machine

/-! ### O44: JOB_LOAD and JOB_LAUNCH -/

namespace Sys2Proof.Machine

section StagedReads

variable {s s1 s2 : State} {a c code g n row source : Nat} {payload : List Byte}

/-- Reads of LPDDR5X leave everything but the marks and the state of strips, the recorder, the counters, and
the bulk transfers that meet an OFFLINE strip; the bytes stand. -/
def Staged (s s1 : State) : Prop :=
  s1 = { s with
    regs := s1.regs, peat := s1.peat, mem := { s1.mem with cells := s.mem.cells }
    host := { s.host with bulks := s1.host.bulks } }

theorem Staged.refl (s : State) : Staged s s := rfl

theorem Staged.trans (h1 : Staged s s1) (h2 : Staged s1 s2) : Staged s s2 := by
  unfold Staged at *
  rw [h1] at h2
  exact h2

theorem Staged.fields (hs : Staged s s1) : s1.host = { s.host with bulks := s1.host.bulks } ∧ s1.job = s.job ∧
    s1.tiles = s.tiles ∧ s1.mem.cells = s.mem.cells ∧ s1.sync = s.sync := by
  unfold Staged at hs
  rw [hs]
  exact ⟨rfl, rfl, rfl, rfl, rfl⟩

theorem Staged.when {p : Prop} [Decidable p] (hs : Staged s s1) (h2 : Staged s s2) :
    Staged s (if p then s2 else s1) := by
  split
  · exact h2
  · exact hs

protected theorem Staged.forEach {α : Type} {xs : List α} {f : α → State → State} (hs : Staged s s1)
    (hf : ∀ x s1, Staged s s1 → Staged s (f x s1)) : Staged s (forEach xs f s1) :=
  forEach_inv (Staged s) f hf xs s1 hs

protected theorem Staged.emit (hs : Staged s s1) : Staged s (emit code source payload s1) := by
  refine hs.trans ?_
  unfold Machine.emit
  split
  · rfl
  · split <;> rfl

protected theorem Staged.updStrip {f : Strip → Strip} (hs : Staged s s1) : Staged s (updStrip n f s1) := hs.trans rfl

protected theorem Staged.setGran {m : Mark} (hs : Staged s s1) : Staged s (setGran g m s1) := hs.trans rfl

protected theorem Staged.noteErr (hs : Staged s s1) : Staged s (noteErr c n s1) := hs.trans rfl

protected theorem Staged.spoilBulks (hs : Staged s s1) : Staged s (spoilBulks n s1) := hs.trans rfl

protected theorem Staged.setPeat {p : Peat} (hs : Staged s s1) : Staged s { s1 with peat := p } := hs.trans rfl

protected theorem Staged.granCe (hs : Staged s s1) : Staged s (granCe g s1) := hs.setGran.updStrip.noteErr.emit

protected theorem Staged.granUe (hs : Staged s s1) : Staged s (granUe g s1) := hs.setGran.updStrip.noteErr.emit

protected theorem Staged.retireGran (hs : Staged s s1) : Staged s (retireGran g s1) := by
  unfold Machine.retireGran
  split
  · exact hs.granCe
  · exact hs.granUe
  · exact hs

protected theorem Staged.degradeStrip (hs : Staged s s1) : Staged s (degradeStrip n c s1) :=
  hs.when hs.updStrip.emit

protected theorem Staged.offlineStrip (hs : Staged s s1) : Staged s (offlineStrip n c s1) := by
  unfold Machine.offlineStrip
  split
  · exact hs
  · exact hs.updStrip.spoilBulks.emit

protected theorem Staged.settleStrip (hs : Staged s s1) : Staged s (settleStrip n s1) := by
  have hlost := hs.when (p := 16 < (stripAt s1 n).lost.length) (hs.offlineStrip (n := n) (c := 3))
  exact hlost.when hlost.offlineStrip

protected theorem Staged.retireRow (hs : Staged s s1) : Staged s (retireRow n row s1) := by
  unfold Machine.retireRow
  dsimp only
  split
  · exact hs.settleStrip
  · have hread : Staged s (if (stripAt s1 n).code = .offline then s1 else
        Machine.forEach (rowGrans n row) Machine.retireGran s1) := by
      split
      · exact hs
      · exact hs.forEach fun _ _ => Staged.retireGran
    split
    · exact (hread.setPeat.updStrip.emit.when hread.setPeat.updStrip.emit.degradeStrip).settleStrip
    · exact hread.setPeat.updStrip.emit.degradeStrip.settleStrip

protected theorem Staged.countRowCe (hs : Staged s s1) : Staged s (countRowCe n row s1) :=
  hs.updStrip.when hs.updStrip.retireRow

protected theorem Staged.readGran (hs : Staged s s1) : Staged s (readGran g s1).1 := by
  unfold Machine.readGran
  dsimp only
  split
  · exact hs
  · split
    · exact hs
    · exact hs.noteErr
    · exact hs.granCe.countRowCe
    · exact hs.granUe.retireRow

protected theorem Staged.readGrans {gs : List Nat} (hs : Staged s s1) : Staged s (readGrans gs s1).1 :=
  List.foldlRecOn (motive := fun p : State × List Nat => Staged s p.1) gs _ hs fun _ hp _ _ => hp.readGran

/-- R174, R175: staged bytes are read from LPDDR5X. -/
theorem readStaged_staged (a n : Nat) (s : State) : Staged s (readStaged a n s).1 := by
  unfold readStaged
  split
  · exact .refl s
  · dsimp only
    split <;> exact (Staged.refl s).readGrans

end StagedReads

end Sys2Proof.Machine

namespace Sys2Proof.Machine

section HostStands

variable {s : State} {t : Nat}

/-! #### What placing an image in the tiles leaves of the host interface -/

theorem forEach_host {α : Type} {f : α → State → State} (hf : ∀ x s, (f x s).host = s.host) (xs : List α) (s : State) :
    (forEach xs f s).host = s.host :=
  forEach_keeps (·.host) f hf xs s

@[simp] theorem retireWhenFree_host (t : Nat) (s : State) : (retireWhenFree t s).host = s.host := by
  unfold retireWhenFree
  dsimp only
  split
  · rfl
  · split
    · rfl
    · exact retireTile_host t s

@[simp] theorem stopJob_host (s : State) : (stopJob s).host = s.host := by
  unfold stopJob
  split
  · rfl
  · split
    · rfl
    · exact stopNow_host s

@[simp] theorem noteEnd_host (e : JobEnd) (s : State) : (noteEnd e s).host = s.host := by
  unfold noteEnd
  split <;> rfl

@[simp] theorem applyPolicy_host (t : Nat) (s : State) : (applyPolicy t s).host = s.host := by
  unfold applyPolicy
  dsimp only
  split
  · split <;> simp
  · rfl

@[simp] theorem tileFaultActive_host (s : State) : (tileFaultActive s).host = s.host := rfl

@[simp] theorem applyL1_host (t : Nat) (s : State) : (applyL1 t s).host = s.host := rfl

@[simp] theorem localReset_host (i unit level : Nat) (s : State) : (localReset i unit level s).host = s.host :=
  emit_host ..

@[simp] theorem endJob_host (e : JobEnd) (s : State) : (endJob e s).host = s.host :=
  (stopJob_host _).trans (noteEnd_host e s)

/-- R99, R107: a fault of a tile. -/
@[simp] theorem faultTile_host (t : Nat) (src : FaultSrc) (s : State) : (faultTile t src s).host = s.host := by
  unfold faultTile
  dsimp only
  split
  · rfl
  · split
    · simp
    · split_ifs <;> simp

@[simp] theorem noSpare_host (t : Nat) (s : State) : (noSpare t s).host = s.host := emit_host ..

@[simp] theorem sparesOut_host (t : Nat) (s : State) : (sparesOut t s).host = s.host :=
  (retireWhenFree_host t _).trans (noSpare_host t s)

@[simp] theorem wordCe_host (t off : Nat) (s : State) : (wordCe t off s).host = s.host := emit_host ..

@[simp] theorem wordUe_host (t off : Nat) (s : State) : (wordUe t off s).host = s.host := emit_host ..

@[simp] theorem copyWord_host (t w : Nat) (s : State) : (copyWord t w s).host = s.host := by
  unfold copyWord
  split <;> simp

@[simp] theorem countRepair_host (s : State) : (countRepair s).host = s.host := rfl

@[simp] theorem repairRow_host (t bank row : Nat) (s : State) : (repairRow t bank row s).host = s.host := by
  unfold repairRow
  dsimp only
  split
  · exact sparesOut_host t s
  · rw [emit_host, countRepair_host, updSlice_host, forEach_host (copyWord_host t)]

@[simp] theorem wantColumn_host (t bank col : Nat) (s : State) : (wantColumn t bank col s).host = s.host := by
  unfold wantColumn
  dsimp only
  split_ifs
  · rfl
  · exact sparesOut_host t s
  · rfl

@[simp] theorem sliceCe_host (t off bit : Nat) (s : State) : (sliceCe t off bit s).host = s.host := by
  unfold sliceCe
  dsimp only
  split_ifs <;> simp

@[simp] theorem sliceUe_host (t off : Nat) (s : State) : (sliceUe t off s).host = s.host := by
  unfold sliceUe
  dsimp only
  split <;> simp

/-- R178: a slice range is read. -/
@[simp] theorem sliceCheck_host (t off n : Nat) (s : State) : (sliceCheck t off n s).1.host = s.host := by
  refine List.foldlRecOn (motive := fun p : State × List Nat => p.1.host = s.host) _ _ rfl fun p hp w _ => ?_
  dsimp only
  split
  · exact hp
  · exact (sliceCe_host ..).trans hp
  · exact (sliceUe_host ..).trans hp

/-- The host interface of two states is the same: a name for it, under which terms are compared as they stand. -/
def SameHost (s s1 : State) : Prop := s1.host = s.host

protected theorem SameHost.sliceCheck {s1 : State} {off n : Nat} (hs : SameHost s s1) :
    SameHost s (sliceCheck t off n s1).1 :=
  (sliceCheck_host ..).trans hs

@[simp] theorem readSlice_host (t : Nat) (s : State) : (readSlice t s).host = s.host := by
  unfold readSlice
  exact forEach_inv (SameHost s) _ (fun _ _ => SameHost.sliceCheck) _ s rfl

theorem withMem_host (m : Mem) (s : State) : ({ s with mem := m } : State).host = s.host := rfl

@[simp] theorem copySlice_host (m : Mem) (t u : Nat) (s : State) : (copySlice m t u s).host = s.host := by
  unfold copySlice
  dsimp only
  rw [emit_host, forEach_host fun _ _ => setWord_host .., withMem_host, clearWords_host]

/-- R101, R102: the migrations of slices. -/
@[simp] theorem migrateSlices_host (s : State) : (migrateSlices s).host = s.host := by
  unfold migrateSlices
  refine (forEach_host (fun p x => ?drop) _ _).trans
    ((forEach_host (fun p x => ?copy) _ _).trans (forEach_host (fun p x => ?read) _ s))
  all_goals
    split
    · simp
    · simp

@[simp] theorem scratchCe_host (t : Nat) (s : State) : (scratchCe t s).host = s.host := by
  unfold scratchCe
  dsimp only
  split <;> simp

/-- R179: bytes written to an SRAM, of which a corrected error leaves the host interface. -/
theorem sramWrite_host (key : Nat) (bs : List Byte) {ce : Nat → Nat → State → State}
    (hce : ∀ w b x, (ce w b x).host = x.host) (s : State) : (sramWrite key bs ce s).host = s.host := by
  unfold sramWrite
  dsimp only
  refine List.foldlRecOn (motive := fun x : State => x.host = s.host) _ _ rfl fun x hx w _ => ?_
  split
  · exact hx
  · split
    · exact (hce ..).trans hx
    · exact hx
    · exact hx

@[simp] theorem scratchWrite_host (t off : Nat) (bs : List Byte) (s : State) : (scratchWrite t off bs s).host = s.host :=
  sramWrite_host _ _ (fun _ _ _ => scratchCe_host ..) s

@[simp] theorem placeTile_host (bs r : List Byte) (s : State) : (placeTile bs r s).host = s.host := by
  unfold placeTile
  split
  · rfl
  · split
    · rfl
    · exact (scratchWrite_host ..).trans (scratchWrite_host ..)

/-- R151 steps 3 and 4. -/
@[simp] theorem loadTiles_host (bs : List Byte) (all : List Sect) (hits : List (Nat × FaultSrc)) (s : State) :
    (loadTiles bs all hits s).host = s.host := by
  unfold loadTiles
  refine (forEach_host (fun r x => ?place) _ _).trans
    ((forEach_host (fun r x => ?fault) _ _).trans (migrateSlices_host s))
  all_goals
    split
    · simp
    · simp

@[simp] theorem placePlan_host (n : Nat) (pl : Plan) (s : State) : (placePlan n pl s).host = s.host := emit_host ..

@[simp] theorem syncInit_host (rs : List (Nat × Nat × Nat)) (s : State) : (syncInit rs s).host = s.host :=
  forEach_host (fun _ _ => forEach_host (fun _ _ => syncPut_host ..) _ _) rs _

/-- R151 steps 4 and 5. -/
@[simp] theorem placeJob_host (bs : List Byte) (all : List Sect) (s : State) : (placeJob bs all s).host = s.host :=
  (emit_host ..).trans ((syncInit_host ..).trans (forEach_host (fun _ _ => placePlan_host ..) _ s))

end HostStands

end Sys2Proof.Machine

namespace Sys2Proof.Machine

section Loading

variable {s s1 u : State} {h : Header} {c : HostCmd} {st : Nat} {q bs : List Byte} {i : CmdInfo} {all : List Sect}

@[simp] theorem jobBusy_begun : jobBusy (begun h c s) = jobBusy s := by rw [begun_eq]; rfl

/-- R437, R446, R448: what a handler that answers comes to, where it may have spoiled bulk transfers. -/
theorem Admitted.answers (ha : Admitted s h c) (hi : cmdInfo c.opcode = some i)
    (hr : i.run h c (begun h c s) = (u, .reply st q))
    (hh : u.host = { (begun h c s).host with bulks := u.host.bulks }) :
    ∃ s', (.next (hostReceive h c s) : Result) = .next s' ∧ Answers s s' h c st q ∧
      s' = { u with host := s'.host, regs := s'.regs } := by
  obtain ⟨⟨-, hup, -, -, -, -, hseq, -, -, -, hstarted, -⟩, -⟩ := id ha
  rw [begun_host] at hh
  have hport : portUp u h.port = true := by
    show (u.host.ports.getD h.port {}).link = true
    rw [hh]
    exact hup
  have hrun := (hostReceive_admitted ha hi).trans (congrArg (fun r : State × Answer => match r.2 with
    | .reply st p => finishCmd (refOf h) st p r.1
    | .wait => r.1) hr)
  have hfinish := finishCmd_eq (s := s) (h := h) (c := c) _ st q hport (by rw [hh]) fun d hd => (hstarted d hd).1
  refine ⟨_, congrArg Host.Outcome.next (hrun.trans hfinish), ⟨?_, rfl, ?_, ?_, rfl⟩, rfl⟩
  · show u.host.out ++ _ = _
    rw [hh]
    rfl
  · show u.host.held = _
    rw [hh]
    rfl
  · show u.host.next = _
    rw [hh, hseq]

/-! #### JOB_LOAD -/

/-- R143: the operands of JOB_LOAD are in range. -/
def loadArgs (p : List Byte) : Prop :=
  leAt p 0 8 % 8 = 0 ∧ leAt p 8 4 ≤ 67108864 ∧ leAt p 0 8 + leAt p 8 4 ≤ ddrSize ∧ zeros p 12 4 = true

theorem not_loadArgs {p : List Byte} : ¬ loadArgs p ↔ leAt p 0 8 % 8 ≠ 0 ∨ 67108864 < leAt p 8 4 ∨
    ddrSize < leAt p 0 8 + leAt p 8 4 ∨ zeros p 12 4 = false := by
  simp only [loadArgs, not_and_or, not_le, Bool.not_eq_true, ne_eq]

theorem jobLoad_busy (h : Header) (c : HostCmd) (hb : jobBusy s = true) : jobLoad h c s = (s, .reply 1 []) := by
  simp only [jobLoad, hb, if_true, status]

theorem jobLoad_badArgs (h : Header) (hb : jobBusy s = false) (hp : ¬ loadArgs c.payload) :
    jobLoad h c s = (s, .reply 5 []) := by
  simp only [jobLoad, hb, not_loadArgs.1 hp, Bool.not_eq_true', Bool.false_eq_true, if_false, if_true, status]

/-- JOB_LOAD once its image has been read. -/
theorem jobLoad_read (h : Header) (hb : jobBusy s = false) (hp : loadArgs c.payload)
    (hread : readStaged (leAt c.payload 0 8) (leAt c.payload 8 4) s = (s1, .inr bs)) :
    (∀ f, imageFault s1 bs (leAt c.payload 8 4) = some f → jobLoad h c s = (s1, jobReply f)) ∧
    (imageFault s1 bs (leAt c.payload 8 4) = none → imageRoute s1 bs = none →
      (∀ o, leftReady (readyTiles bs (sections bs) s1) (loadTiles bs (sections bs) c.hits s1) = some o →
        jobLoad h c s = ({ loadTiles bs (sections bs) c.hits s1 with
          job := { (loadTiles bs (sections bs) c.hits s1).job with loaded := false } },
          jobReply (0x0401, ((sectOf (sections bs) 1).map (·.index)).getD 0xFFFF, o))) ∧
      (leftReady (readyTiles bs (sections bs) s1) (loadTiles bs (sections bs) c.hits s1) = none →
        jobLoad h c s = (placeJob bs (sections bs) (loadTiles bs (sections bs) c.hits s1), .reply 0 []))) := by
  have hargs := not_loadArgs.not_right.1 hp
  refine ⟨fun f hf => ?_, fun hf hroute => ⟨fun o ho => ?_, fun ho => ?_⟩⟩
  · simp only [jobLoad, hb, Bool.not_eq_true', hargs, Bool.false_eq_true, if_false, hread, hf]
  · simp only [jobLoad, hb, Bool.not_eq_true', hargs, Bool.false_eq_true, if_false, hread, hf, hroute, ho]
  · simp only [jobLoad, hb, Bool.not_eq_true', hargs, Bool.false_eq_true, if_false, hread, hf, hroute, ho]

/-- R151: what the reading of an image leaves. -/
theorem readStaged_keeps {a n : Nat} {r : Nat × List Byte ⊕ List Byte} (hread : readStaged a n (begun h c s) = (s1, r)) :
    s1.host = { (begun h c s).host with bulks := s1.host.bulks } ∧ s1.job = s.job ∧ s1.tiles = s.tiles ∧
    s1.mem.cells = s.mem.cells ∧ s1.sync = s.sync := by
  have hs := readStaged_staged a n (begun h c s)
  rw [hread] at hs
  simpa only [begun_job, begun_tiles, begun_mem, begun_sync] using hs.fields

theorem placeJob_job (bs : List Byte) (all : List Sect) (s : State) : (placeJob bs all s).job = {
    loaded := true, launched := false, ending := none, jobId := leAt bs 16 8
    tiles := (recsOf bs all 1 32).map (fun r => readJobTile r.2)
    groups := (recsOf bs all 2 24).map (fun r => (at1 r.2 0, groupMembers r.2))
    streams := (recsOf bs all 4 64).map (fun r => readStream r.2)
    colls := (recsOf bs all 6 64).map (fun r => readColl r.2) } := emit_job ..

theorem placeJob_streams (bs : List Byte) (all : List Sect) (s : State) : (placeJob bs all s).wse.streams = [] :=
  congrArg Wse.streams (emit_wse ..)

/-- R151, R644: JOB_LOAD of an image that its checks take. -/
theorem jobLoad_answers {p : List Byte} {hits : List (Nat × FaultSrc)} (ha : Admitted s h ⟨0x0401, p, [], hits⟩)
    (hb : jobBusy s = false) (hp : loadArgs p)
    (hread : readStaged (leAt p 0 8) (leAt p 8 4) (begun h ⟨0x0401, p, [], hits⟩ s) = (s1, .inr bs))
    (hall : all = sections bs) :
    (∀ f, imageFault s1 bs (leAt p 8 4) = some f → ∃ s', exec (.jobLoad h ⟨p, hits⟩) s = .next s' ∧
      Answers s s' h ⟨0x0401, p, [], hits⟩ f.1 (leBytes 2 f.2.1 ++ leBytes 4 f.2.2) ∧ s'.job = s.job ∧ s'.tiles = s.tiles ∧
      s'.mem.cells = s.mem.cells ∧ s'.sync = s.sync) ∧
    (imageFault s1 bs (leAt p 8 4) = none → imageRoute s1 bs = none →
      (leftReady (readyTiles bs all s1) (loadTiles bs all hits s1) = none →
        ∃ s', exec (.jobLoad h ⟨p, hits⟩) s = .next s' ∧ Answers s s' h ⟨0x0401, p, [], hits⟩ 0 [] ∧ s'.wse.streams = [] ∧
        s'.job = (placeJob bs all s1).job) ∧
      (∀ o, leftReady (readyTiles bs all s1) (loadTiles bs all hits s1) = some o →
        ∃ s', exec (.jobLoad h ⟨p, hits⟩) s = .next s' ∧ s'.job.loaded = false ∧
          Answers s s' h ⟨0x0401, p, [], hits⟩ 0x0401
            (leBytes 2 (((sectOf all 1).map (·.index)).getD 0xFFFF) ++ leBytes 4 o))) := by
  subst hall
  obtain ⟨hhost, hjob, htiles, hcells, hsync⟩ := readStaged_keeps hread
  obtain ⟨hfault, hload⟩ := jobLoad_read (c := ⟨0x0401, p, [], hits⟩) h (jobBusy_begun.trans hb) hp hread
  refine ⟨fun f hf => ?_, fun hf hroute => ⟨fun ho => ?_, fun o ho => ?_⟩⟩
  · obtain ⟨s', hs', hans, heq⟩ := ha.answers rfl (hfault f hf) hhost
    exact ⟨s', hs', hans, by rw [heq, hjob], by rw [heq, htiles], by rw [heq, hcells], by rw [heq, hsync]⟩
  · obtain ⟨s', hs', hans, heq⟩ := ha.answers rfl ((hload hf hroute).2 ho) (by rwa [placeJob_host, loadTiles_host])
    exact ⟨s', hs', hans, by rw [heq, placeJob_streams], by rw [heq, placeJob_job, placeJob_job]⟩
  · obtain ⟨s', hs', hans, heq⟩ := ha.answers rfl ((hload hf hroute).1 o ho) (by
      show (loadTiles bs (sections bs) hits s1).host = _
      rwa [loadTiles_host])
    exact ⟨s', hs', by rw [heq], hans⟩

end Loading

section Launching

variable {s st : State} {h : Header} {c : HostCmd} {u t l : Nat} {j : JobTile} {js : List JobTile}

/-! #### JOB_LAUNCH -/

theorem jobLaunch_busy (h : Header) (c : HostCmd) (hb : jobBusy s = true) : jobLaunch h c s = (s, .reply 1 []) := by
  simp only [jobLaunch, hb, if_true, status]

theorem jobLaunch_unloaded (h : Header) (c : HostCmd) (hb : jobBusy s = false) (hl : s.job.loaded = false) :
    jobLaunch h c s = (s, .reply 3 []) := by
  simp only [jobLaunch, hb, hl, status, Bool.false_eq_true, if_false, not_false_eq_true, if_true]

theorem jobLaunch_otherId (h : Header) (hb : jobBusy s = false) (hl : s.job.loaded = true)
    (hid : leAt c.payload 0 8 ≠ s.job.jobId) : jobLaunch h c s = (s, .reply 5 []) := by
  simp only [jobLaunch, hb, hl, hid, status, Bool.false_eq_true, if_false, not_true, ne_eq, not_false_eq_true, if_true]

theorem jobLaunch_unready (h : Header) (hb : jobBusy s = false) (hl : s.job.loaded = true)
    (hid : leAt c.payload 0 8 = s.job.jobId) (hr : ∃ t ∈ jobTiles s, (tileAt s t).code ≠ .ready) :
    jobLaunch h c s = (s, .reply 1 []) := by
  have hany : (jobTiles s).any (fun t => (tileAt s t).code ≠ .ready) = true := by simpa using hr
  simp only [jobLaunch, hb, hl, hid, hany, status, Bool.false_eq_true, if_false, not_true, ne_eq, if_true]

/-- R153: the launch of the tile that holds an entry's number. -/
def launchOne (j : JobTile) (s : State) : State :=
  match physOf s j.ltile with
  | some t => updTile t (launchTile j) s
  | none => s

/-- R152, R153: the state in which the job has been launched, and its tiles not yet. -/
def jobMarked (s : State) : State :=
  { s with
    job := { s.job with launched := true, ending := none, stopDue := false }
    wse := { s.wse with streams := [] }
    sync := { s.sync with puts := [] }
    coll := { s.coll with
      nums := [], early := s.coll.early.filter (fun e => Cells.get 0 s.coll.nums e.1 = 0) } }

/-- R152, R153: and the state in which they have, with the counters of the streams cleared. -/
def tilesLaunched (s : State) : State :=
  forEach (List.range 7) (fun i st => regPut st rWseCount 0 [i] 0) (forEach s.job.tiles launchOne (jobMarked s))

theorem forEach_launchOne (js : List JobTile) (s : State) :
    forEach js launchOne s = { s with tiles := (forEach js launchOne s).tiles } := by
  refine forEach_inv (fun x => x = { s with tiles := x.tiles }) launchOne (fun j x hx => ?_) js s rfl
  unfold launchOne
  split
  · rw [hx]
    rfl
  · exact hx

theorem forEach_regPut (xs : List Nat) (r : RegRow) (s : State) :
    forEach xs (fun i st => regPut st r 0 [i] 0) s =
      { s with regs := (forEach xs (fun i st => regPut st r 0 [i] 0) s).regs } := by
  refine forEach_inv (fun x => x = { s with regs := x.regs }) _ (fun i x hx => ?_) xs s rfl
  rw [hx]
  rfl

theorem tiles_then_regs {x y z : State} (hy : y = { x with tiles := y.tiles }) (hz : z = { y with regs := z.regs }) :
    z = { x with regs := z.regs, tiles := y.tiles } := by
  rw [hy] at hz
  exact hz

theorem tilesLaunched_eq (s : State) : tilesLaunched s =
    { jobMarked s with regs := (tilesLaunched s).regs, tiles := (forEach s.job.tiles launchOne (jobMarked s)).tiles } :=
  tiles_then_regs (forEach_launchOne ..) (forEach_regPut ..)

/-- R152: JOB_LAUNCH of a job whose tiles are READY. -/
theorem jobLaunch_launches (h : Header) (hb : jobBusy s = false) (hl : s.job.loaded = true)
    (hid : leAt c.payload 0 8 = s.job.jobId) (hr : ∀ t ∈ jobTiles s, (tileAt s t).code = .ready) :
    jobLaunch h c s = (emit 0x1111 0 (leBytes 8 (tilesLaunched s).job.jobId) (tilesLaunched s), .reply 0 []) := by
  unfold jobLaunch
  rw [if_neg (by simp [hb]), if_neg (by simp [hl]), if_neg (by simp [hid]), if_neg (by simpa using hr)]
  rfl

/-! #### The tiles of a launched job -/

theorem physOf_some (hp : physOf s l = some t) : t < s.tiles.length ∧ (tileAt s t).logical = some l :=
  ⟨List.mem_range.1 (List.mem_of_find?_eq_some hp), by simpa using List.find?_some hp⟩

/-- Where each number is depends on the numbers of the tiles alone. -/
theorem physOf_congr (hlen : st.tiles.length = s.tiles.length)
    (hlog : ∀ u, (tileAt st u).logical = (tileAt s u).logical) (l : Nat) : physOf st l = physOf s l := by
  simp only [physOf, hlen, hlog]

theorem tileAt_launchOne (j : JobTile) (s : State) (u : Nat) :
    tileAt (launchOne j s) u = if physOf s j.ltile = some u then launchTile j (tileAt s u) else tileAt s u := by
  unfold launchOne
  split
  next t ht =>
    obtain ⟨hlt, -⟩ := physOf_some ht
    rw [updTile_eq, tileAt_setTile, ht]
    by_cases htu : t = u
    · subst htu
      simp [hlt]
    · simp [htu]
  next hnone => simp [hnone]

theorem physOf_launchOne (j : JobTile) (s : State) (l : Nat) : physOf (launchOne j s) l = physOf s l := by
  refine physOf_congr ?_ (fun u => ?_) l
  · unfold launchOne
    split
    · exact setTile_length ..
    · rfl
  · rw [tileAt_launchOne]
    split <;> rfl

/-- R153: a tile after the launches of the entries whose numbers it holds. -/
theorem tileAt_forEach_launchOne (js : List JobTile) (s : State) (u : Nat) :
    tileAt (forEach js launchOne s) u =
      js.foldl (fun x j => if physOf s j.ltile = some u then launchTile j x else x) (tileAt s u) := by
  induction js generalizing s with
  | nil => rfl
  | cons j js ih =>
    rw [forEach_cons, ih, List.foldl_cons, tileAt_launchOne]
    simp only [physOf_launchOne]

theorem launchTile_launchTile (j : JobTile) (x : Tile) : launchTile j (launchTile j x) = launchTile j x := rfl

/-- A launch that is made once or more. -/
theorem foldl_launchTile {P : JobTile → Prop} [DecidablePred P] (hone : ∀ k ∈ js, P k → k = j) (hj : P j) (x : Tile) :
    js.foldl (fun x k => if P k then launchTile k x else x) x = if j ∈ js then launchTile j x else x := by
  induction js generalizing x with
  | nil => rfl
  | cons k js ih =>
    rw [List.foldl_cons, ih fun k' hk' => hone k' (List.mem_cons_of_mem _ hk')]
    by_cases hk : P k
    · obtain rfl := hone k List.mem_cons_self hk
      simp only [hk, if_true, List.mem_cons, true_or, launchTile_launchTile, ite_self]
    · have hjk : j ≠ k := fun hjk => hk (hjk ▸ hj)
      simp only [hk, if_false, List.mem_cons, hjk, false_or]

/-- A tile whose number an entry of the loaded job names is one of the job's. -/
theorem mem_jobTiles (hl : s.job.loaded = true) (hj : j ∈ s.job.tiles) (hp : physOf s j.ltile = some t) : t ∈ jobTiles s := by
  obtain ⟨hlt, hlog⟩ := physOf_some hp
  have hentry : (jobEntryOf s t).isSome = true := by
    simp only [jobEntryOf, hlog, List.find?_isSome]
    exact ⟨j, hj, by simp⟩
  exact List.mem_filter.2 ⟨List.mem_range.2 hlt, by rw [inJob, hl, hentry]; rfl⟩

theorem tileAt_tilesLaunched (s : State) (u : Nat) : tileAt (tilesLaunched s) u =
    s.job.tiles.foldl (fun x j => if physOf s j.ltile = some u then launchTile j x else x) (tileAt s u) := by
  rw [tilesLaunched_eq]
  exact tileAt_forEach_launchOne s.job.tiles (jobMarked s) u

/-- R152, R153: what JOB_LAUNCH leaves of the tiles. -/
theorem tilesLaunched_tiles (hl : s.job.loaded = true) :
    (∀ u, u ∉ jobTiles s → tileAt (tilesLaunched s) u = tileAt s u) ∧
    ∀ j ∈ s.job.tiles, (∀ k ∈ s.job.tiles, k.ltile = j.ltile → k = j) → ∀ t, physOf s j.ltile = some t →
      tileAt (tilesLaunched s) t = launchTile j (tileAt s t) := by
  refine ⟨fun u hu => ?_, fun j hj hone t ht => ?_⟩
  · rw [tileAt_tilesLaunched]
    exact foldl_fixed _ _ _ fun j hj => if_neg fun hp => hu (mem_jobTiles hl hj hp)
  · rw [tileAt_tilesLaunched, foldl_launchTile (j := j) (fun k hk hp => hone k hk ?_) ht, if_pos hj]
    exact Option.some.inj ((physOf_some hp).2.symm.trans (physOf_some ht).2)

/-- R59, R60: the seed of a tile. -/
theorem jobSeed_eq (j : JobTile) : jobSeed j = if j.seed % 65536 ≠ 0 then BitVec.ofNat 16 j.seed
    else if 0xACE1#16 ^^^ BitVec.ofNat 16 (j.ltile * 16) = 0#16 then 0xACE1#16
    else 0xACE1#16 ^^^ BitVec.ofNat 16 (j.ltile * 16) :=
  (ite_not ..).symm

/-- R152, R153: JOB_LAUNCH of a job whose tiles are READY, and its answer. -/
theorem jobLaunch_answers {p : List Byte} (ha : Admitted s h (hostCmd 0x0402 p [])) (hb : jobBusy s = false)
    (hl : s.job.loaded = true) (hid : leAt p 0 8 = s.job.jobId) (hr : ∀ t ∈ jobTiles s, (tileAt s t).code = .ready) :
    ∃ s', exec (.jobLaunch h p) s = .next s' ∧ Answers s s' h (hostCmd 0x0402 p []) 0 [] ∧
      s'.job = { s.job with launched := true, ending := none, stopDue := false } ∧
      s'.mem = s.mem ∧ s'.sync = { s.sync with puts := [] } ∧ s'.wse.streams = [] ∧
      (∀ u, u ∉ jobTiles s → tileAt s' u = tileAt s u) ∧
      ∀ j ∈ s.job.tiles, (∀ k ∈ s.job.tiles, k.ltile = j.ltile → k = j) → ∀ t, physOf s j.ltile = some t →
        tileAt s' t = launchTile j (tileAt s t) := by
  have hjob : (begun h (hostCmd 0x0402 p []) s).job = s.job := begun_job
  have hmine : jobTiles (begun h (hostCmd 0x0402 p []) s) = jobTiles s := by rw [begun_eq]; rfl
  have hphys : ∀ l, physOf (begun h (hostCmd 0x0402 p []) s) l = physOf s l :=
    physOf_congr (by rw [begun_tiles]) fun _ => by rw [tileAt_begun]
  have hrun := jobLaunch_launches (c := hostCmd 0x0402 p []) h (jobBusy_begun.trans hb) (by rwa [hjob]) (by rwa [hjob])
    (by simpa only [hmine, tileAt_begun] using hr)
  obtain ⟨hother, hown⟩ := tilesLaunched_tiles (s := begun h (hostCmd 0x0402 p []) s) (by rwa [hjob])
  have heq := tilesLaunched_eq (begun h (hostCmd 0x0402 p []) s)
  simp only [hmine, hjob, hphys, tileAt_begun] at hother hown
  generalize tilesLaunched (begun h (hostCmd 0x0402 p []) s) = x at hrun hother hown heq
  have hhost : x.host = (begun h (hostCmd 0x0402 p []) s).host := by rw [heq]; rfl
  obtain ⟨s', hs', hans, hs, -⟩ := admitted_reply ha rfl hrun (by rw [emit_host, hhost])
  have htile : ∀ u, tileAt s' u = tileAt x u := fun u => by
    rw [hs]
    exact tileAt_emit ..
  refine ⟨s', congrArg Host.Outcome.next hs', hans, ?_, ?_, ?_, ?_, fun u hu => (htile u).trans (hother u hu),
    fun j hj hone t ht => (htile t).trans (hown j hj hone t ht)⟩
  · rw [hs, emit_job, heq, jobMarked, hjob]
  · rw [hs, emit_mem, heq, jobMarked, begun_mem]
  · rw [hs, emit_sync, heq, jobMarked, begun_sync]
  · rw [hs, emit_wse, heq, jobMarked]

end Launching

/-- Settles O44: JOB_LOAD by what its checks find and what becomes of its tiles, JOB_LAUNCH by the first check that fails. -/
theorem jobsStart : Obligations.JobsStart := by
  refine ⟨?_, fun s h p ha => ⟨fun hb => ?_, fun hb hl => ?_, fun hb hl => ⟨fun hid => ?_, fun hid => ⟨fun hr => ?_, fun hr => ?_⟩⟩⟩⟩
  · rintro s s1 h p bs hits c all rfl ha
    refine ⟨fun hb => ?_, fun hb => ⟨fun hp => ?_, fun halign hlen hend hzero hread hall => ?_⟩⟩
    · exact ha.completes_unchanged rfl (jobLoad_busy h _ (by rwa [jobBusy_begun]))
    · exact ha.completes_unchanged rfl (jobLoad_badArgs h (by rwa [jobBusy_begun]) (not_loadArgs.2 hp))
    · have hload := jobLoad_answers ha hb ⟨halign, hlen, hend, hzero⟩ hread hall
      simpa only [placeJob_job] using hload
  · exact ha.completes_unchanged rfl (jobLaunch_busy h _ (by rwa [jobBusy_begun]))
  · exact ha.completes_unchanged rfl (jobLaunch_unloaded h _ (by rwa [jobBusy_begun]) (by rwa [begun_job]))
  · exact ha.completes_unchanged rfl
      (jobLaunch_otherId h (by rwa [jobBusy_begun]) (by rwa [begun_job]) (by rwa [begun_job]))
  · have hmine : jobTiles (begun h (hostCmd 0x0402 p []) s) = jobTiles s := by rw [begun_eq]; rfl
    exact ha.completes_unchanged rfl (jobLaunch_unready h (by rwa [jobBusy_begun]) (by rwa [begun_job])
      (by rwa [begun_job]) (by simpa only [hmine, tileAt_begun] using hr))
  · obtain ⟨s', hs', hans, hjob, hmem, hsync, hstreams, hother, hown⟩ := jobLaunch_answers ha hb hl hid hr
    refine ⟨s', hs', hans, hjob, hmem, hsync, hstreams, hother, fun j hj hone t ht => ?_⟩
    rw [hown j hj hone t ht, launchTile, jobSeed_eq]
    rfl

end Sys2Proof.Machine

/-! ### O15: self-tests, faults, spares and stalls -/

namespace Sys2Proof.Machine

section SelfTestEnds

variable {s : State} {t u : Nat} {fails : BitVec 8}

/-! #### Fields that the end of a self-test leaves -/

@[simp] theorem dropSlice_pwr (t : Nat) (s : State) : (dropSlice t s).pwr = s.pwr := by
  unfold dropSlice
  split <;> rfl

@[simp] theorem awaitSlice_pwr (t l : Nat) (s : State) : (awaitSlice t l s).pwr = s.pwr := by
  unfold awaitSlice
  split <;> rfl

@[simp] theorem unloadFor_pwr (t : Nat) (s : State) : (unloadFor t s).pwr = s.pwr := by rw [unloadFor_eq]

@[simp] theorem enterService_pwr (t : Nat) (s : State) : (enterService t s).pwr = s.pwr := by
  unfold enterService
  split <;> simp

@[simp] theorem retireTile_pwr (t : Nat) (s : State) : (retireTile t s).pwr = s.pwr := by
  cases hl : (tileAt s t).logical with
  | none =>
    unfold retireTile
    simp [hl]
  | some l =>
    rw [retireTile_numbered hl, numberGiven]
    split <;> simp [numberFreed]

/-- R508: no power transition waits for the test. -/
theorem resumePwr_idle (hp : s.pwr.trans = none) : resumePwr s = s := by
  unfold resumePwr
  rw [hp]

/-! #### A test that passes -/

/-- R92: a tile that has passed a test enters service, and no other tile changes. -/
theorem tileAt_enterService (ht : t < s.tiles.length) : tileAt (enterService t s) u =
    if t = u then { tileAt s t with code := if (tileAt s t).logical.isSome then .ready else .spare } else tileAt s u := by
  unfold enterService
  split
  · simp only [updTile_eq, tileAt_setTile, ht, and_true]
  · simp only [tileAt_dropSlice, updTile_eq, tileAt_setTile, ht, and_true]

/-- R181: a tile that has a number keeps its slice. -/
theorem enterService_numbered (hl : (tileAt s t).logical.isSome = true) : (enterService t s).mem = s.mem := by
  rw [enterService, if_pos hl]
  rfl

/-- R92: a test that is no RESTORE notes its pass and puts the tile into service. -/
theorem testPassed_plain (hr : (tileAt s t).test ≠ .restore) :
    testPassed t s = enterService t (updTile t (noteTest true 0#8 s) s) := if_neg hr

/-- R92, R105, R508: the end of a test without failed units, outside resets and power transitions. -/
theorem selftestDone_passed (hc : (tileAt s t).code = .testing) (hstop : (tileAt s t).testStopped = false)
    (hr : (tileAt s t).test ≠ .restore) (hlevel : s.rst.level = 0) (hb : (sliceAt s t).bistFail = false)
    (hp : s.pwr.trans = none) : exec (.tileSelftestDone t 0#8) s = .next (tileFaultActive (testPassed t s)) := by
  have hpwr : (tileFaultActive (testPassed t s)).pwr = s.pwr := by
    rw [testPassed_plain hr]
    exact enterService_pwr ..
  show execTileSelftestDone t 0#8 s = _
  simp only [execTileSelftestDone, testsNow, hc, hstop, hlevel, hb]
  simp [resumePwr_idle (hpwr ▸ hp)]

/-! #### A test that fails -/

/-- R110: the tile in which a test has failed, before it is retired. -/
def failedTile (fails : BitVec 8) (s : State) (x : Tile) : Tile :=
  let y := setErr 8 (noteTest false fails s x)
  if fails.getLsbD 5 then setErr 6 { y with routerFailed := true } else y

/-- R107, R110: the state in which a failed test has been noted and reported, before the tile is retired. -/
def failNoted (t : Nat) (fails : BitVec 8) (s : State) : State :=
  let x := updTile t (fun x => setErr 8 (noteTest false fails s x)) s
  let y := if fails.getLsbD 5 then
      let z := updTile t (fun x => setErr 6 { x with routerFailed := true }) x
      emit 0x1101 t (leBytes 1 t ++ leBytes 4 (tileAt z t).err.toNat) z
    else x
  emit 0x1104 t (leBytes 4 (2 ^ 31 + fails.toNat)) y

theorem testFailed_eq (t : Nat) (fails : BitVec 8) (s : State) :
    testFailed t fails s = retireTile t (failNoted t fails s) := rfl

theorem failedTile_keeps (fails : BitVec 8) (s : State) (x : Tile) : (failedTile fails s x).code = x.code ∧
    (failedTile fails s x).logical = x.logical ∧ (failedTile fails s x).stUnits = fails := by
  unfold failedTile
  dsimp only
  split <;> exact ⟨rfl, rfl, rfl⟩

theorem failNoted_tiles (fails : BitVec 8) (ht : t < s.tiles.length) :
    (failNoted t fails s).tiles = (setTile t (failedTile fails s (tileAt s t)) s).tiles := by
  unfold failNoted failedTile
  dsimp only
  split <;> simp [updTile_eq, ht]

theorem failNoted_pwr (t : Nat) (fails : BitVec 8) (s : State) : (failNoted t fails s).pwr = s.pwr := by
  unfold failNoted
  dsimp only
  split <;> simp

theorem tileAt_failNoted (fails : BitVec 8) (ht : t < s.tiles.length) (u : Nat) :
    tileAt (failNoted t fails s) u = if t = u then failedTile fails s (tileAt s t) else tileAt s u := by
  have hset : tileAt (failNoted t fails s) u = tileAt (setTile t (failedTile fails s (tileAt s t)) s) u :=
    congrArg (·.getD u noTile) (failNoted_tiles fails ht)
  simp only [hset, tileAt_setTile, ht, and_true]

/-- R92, R105, R508: the end of a test with failed units, outside resets and power transitions. -/
theorem selftestDone_failed (hc : (tileAt s t).code = .testing) (hstop : (tileAt s t).testStopped = false)
    (hf : fails ≠ 0#8) (hlevel : s.rst.level = 0) (hp : s.pwr.trans = none) :
    exec (.tileSelftestDone t fails) s = .next (tileFaultActive (retireTile t (failNoted t fails s))) := by
  have hpwr : (tileFaultActive (retireTile t (failNoted t fails s))).pwr = s.pwr :=
    (retireTile_pwr ..).trans (failNoted_pwr ..)
  show execTileSelftestDone t fails s = _
  simp only [execTileSelftestDone, testsNow, hc, hstop, hlevel, testFailed_eq]
  simp [hf, resumePwr_idle (hpwr ▸ hp)]

/-- R94: what a retirement leaves of the tile itself. -/
theorem tileAt_retireTile_self (ht : t < s.tiles.length) : tileAt (retireTile t s) t = retiredTile (tileAt s t) := by
  cases hl : (tileAt s t).logical with
  | none =>
    unfold retireTile
    simp only [tileAt_unloadFor, hl, tileAt_emit, tileAt_dropSlice]
    exact (tileAt_setTile_self _ _ _ (by simpa using ht)).trans (congrArg retiredTile (tileAt_unloadFor t t s))
  | some l =>
    have hself : tileAt (numberFreed t l s) t = retiredTile (tileAt s t) := by rw [tileAt_numberFreed _ _ _ _ ht, if_pos rfl]
    rw [retireTile_numbered hl, numberGiven]
    split
    next w hw =>
      have hwt : w ≠ t := by
        rintro rfl
        have hspare := nearestSpare_spare hw
        rw [hself] at hspare
        cases hspare
      rw [tileAt_emit, tileAt_updTile_ne _ hwt, hself]
    next => rw [tileAt_emit, tileAt_emit, hself]

/-- R92, R94: a tile whose test has failed is RETIRED, and its number goes to the spare nearest to it. -/
theorem failNoted_retires (ht : t < s.tiles.length) (hc : (tileAt s t).code ≠ .spare) :
    (tileAt (retireTile t (failNoted t fails s)) t).stUnits = fails ∧
    tileAt (retireTile t (failNoted t fails s)) t = retiredTile (tileAt (failNoted t fails s) t) ∧
    ∀ l, (tileAt s t).logical = some l → ∀ u, nearestSpare s t = some u →
      tileAt (retireTile t (failNoted t fails s)) u = { tileAt s u with code := .ready, logical := some l } := by
  have htile := tileAt_failNoted fails ht
  obtain ⟨hcode, hlog, hunits⟩ := failedTile_keeps fails s (tileAt s t)
  have hself : tileAt (failNoted t fails s) t = failedTile fails s (tileAt s t) := by rw [htile, if_pos rfl]
  have hlen : (failNoted t fails s).tiles.length = s.tiles.length := by rw [failNoted_tiles fails ht, setTile_length]
  have hretired := tileAt_retireTile_self (s := failNoted t fails s) (hlen ▸ ht)
  refine ⟨by rw [hretired, hself]; exact hunits, hretired, fun l hl u hu => ?_⟩
  have hnear : nearestSpare (failNoted t fails s) t = some u := by
    rw [← hu]
    refine nearestSpare_congr hlen (fun w => ?_) t
    rw [htile]
    split
    next hw => rw [hcode, hw]
    next => rfl
  have hut : t ≠ u := by
    rintro rfl
    exact hc (nearestSpare_spare hu)
  obtain ⟨-, -, -, -, hgiven⟩ := retireTile_retires (hlen ▸ ht) (by rw [hself, hlog, hl]) (by rwa [hself, hcode])
  rw [(hgiven u hnear).1, htile, if_neg hut]

end SelfTestEnds

section RunningFault

variable {s : State} {t : Nat} {src : FaultSrc} {e : JobEnd}

/-- R107, R110: a tile with a fault's marks. -/
def struckTile (src : FaultSrc) (x : Tile) : Tile :=
  { setErr (faultBit src) x with routerFailed := (setErr (faultBit src) x).routerFailed || src = .routerFault }

/-- R59, R99, R103, R107: the tile that a fault of a running one leaves. -/
def faultedTile (src : FaultSrc) (s : State) (x : Tile) : Tile :=
  let times := within s s.fw.tilePolicy.faultHours x.faultTimes ++ [runNs s]
  { islandL1 (struckTile src x) with
    code := .faulted, faultTimes := times
    policyDue := some (decide (atLeast1 s.fw.tilePolicy.faults ≤ times.length) || src = .routerFault) }

/-- R99, R107: the state in which a fault of a running tile has been reported, before the job ends. -/
def faultNoted (t : Nat) (src : FaultSrc) (s : State) : State :=
  emit 0x1101 t (leBytes 1 t ++ leBytes 4 (setErr (faultBit src) (tileAt s t)).err.toNat)
    (wipeScratch t (setTile t (faultedTile src s (tileAt s t)) s))

/-- R39, R155: the state in which a running job has met the fault of one of its tiles. -/
def faultEnds (t : Nat) (src : FaultSrc) (s : State) : State :=
  endJob ⟨3, t, (tileAt s t).logical.getD 0, 2 ^ faultBit src⟩ (faultNoted t src s)

theorem tileAt_faultNoted (src : FaultSrc) (ht : t < s.tiles.length) :
    tileAt (faultNoted t src s) t = faultedTile src s (tileAt s t) :=
  (tileAt_emit ..).trans (tileAt_setTile_self _ _ _ ht)

theorem faultNoted_job (t : Nat) (src : FaultSrc) (s : State) : (faultNoted t src s).job = s.job := emit_job ..

/-- A launched job stays loaded. -/
theorem unloadFor_launched (hrun : jobRunning s = true) : unloadFor t s = s := by
  obtain ⟨-, hlaunched⟩ := Bool.and_eq_true_iff.1 hrun
  exact if_neg fun ⟨_, hnot, _⟩ => hnot hlaunched

/-- A tile is of the job by its number. -/
theorem inJob_setTile {x : Tile} (ht : t < s.tiles.length) (hx : x.logical = (tileAt s t).logical) :
    inJob (setTile t x s) t = inJob s t := by
  simp only [inJob, jobEntryOf, setTile_job, tileAt_setTile_self t x s ht, hx]

/-- R75: a change of a tile once its island has been reset. -/
theorem updTile_applyL1 (f : Tile → Tile) (x : Tile) (ht : t < s.tiles.length) :
    updTile t f (applyL1 t (setTile t x s)) = wipeScratch t (setTile t (f (islandL1 x)) s) := by
  have hl1 : applyL1 t (setTile t x s) = wipeScratch t (setTile t (islandL1 x) s) := by
    rw [applyL1, updTile_eq, setTile_setTile, tileAt_setTile_self t x s ht]
  have hself : tileAt (wipeScratch t (setTile t (islandL1 x) s)) t = islandL1 x := tileAt_setTile_self _ _ _ ht
  rw [hl1, updTile_eq, hself]
  exact congrArg (wipeScratch t) (setTile_setTile t _ _ s)

/-- R99, R107: a fault in a RUNNING tile of the running job: the job ends, and the island's reset is noted or,
where the source has been raised to a module-wide level, that reset is asked for. -/
theorem faultTile_running (ht : t < s.tiles.length) (hc : (tileAt s t).code = .running) (hrun : jobRunning s = true)
    (hin : inJob s t = true) : faultTile t src s =
      if 2 ≤ sourceLevel (faultEnds t src s) 17 then raiseSource 17 (faultEnds t src s)
      else tileFaultActive (localReset 17 t 1 (faultEnds t src s)) := by
  have hfirst : tileAt (updTile t (setErr (faultBit src)) s) t = setErr (faultBit src) (tileAt s t) :=
    tileAt_setTile_self _ _ _ ht
  have hcode : (setErr (faultBit src) (tileAt s t)).code = .running := hc
  have hstruck : updTile t (fun x => { x with routerFailed := x.routerFailed || src = .routerFault })
      (updTile t (setErr (faultBit src)) s) = setTile t (struckTile src (tileAt s t)) s := by
    rw [updTile_eq, hfirst, updTile_eq, setTile_setTile]
    rfl
  have hstays : unloadFor t (setTile t (struckTile src (tileAt s t)) s) = setTile t (struckTile src (tileAt s t)) s :=
    unloadFor_launched hrun
  have hmine : (jobRunning (setTile t (struckTile src (tileAt s t)) s) &&
      inJob (setTile t (struckTile src (tileAt s t)) s) t) = true :=
    Bool.and_eq_true_iff.2 ⟨hrun, (inJob_setTile ht (x := struckTile src (tileAt s t)) rfl).trans hin⟩
  unfold faultTile
  dsimp only
  rw [hfirst, if_neg (by simp [hcode]), if_neg (by simp [hcode]), hstruck, hstays, updTile_applyL1 _ _ ht, hmine]
  simp only [hcode, decide_true, Bool.true_or, Bool.and_self, if_true, true_or]
  rfl

/-- R39, R155: the end of a running job notes its cause, and leaves a tile that is not RUNNING but for the
control registers that its windows show. -/
theorem endJob_notes (hrun : jobRunning s = true) (he : s.job.ending = none) (hc : (tileAt s t).code ≠ .running) :
    (endJob e s).job.ending = some e ∧
    tileAt (endJob e s) t = { tileAt s t with lastC := (tileAt (endJob e s) t).lastC } := by
  have hnote : noteEnd e s = { s with job := { s.job with ending := some e, endTick := s.time.ticks } } :=
    if_pos ⟨hrun, by simp [endsFirst, he]⟩
  unfold endJob
  rw [hnote]
  generalize hx : ({ s with job := { s.job with ending := some e, endTick := s.time.ticks } } : State) = x
  have hrun' : jobRunning x = true := by rw [← hx]; exact hrun
  have hend : x.job.ending = some e := by rw [← hx]
  have htile : tileAt x t = tileAt s t := by rw [← hx]; rfl
  cases hb : switchBusy x with
  | true =>
    rw [stopJob_waits x hrun' hb]
    exact ⟨hend, by rw [← htile]; rfl⟩
  | false =>
    obtain ⟨hstops, -, hjob, -⟩ := stopNow_stops x
    have hstop := hstops t
    rw [stopJob_running x hrun' hb]
    rw [StopsTile, htile, stopped, if_neg (by simp [hc])] at hstop
    exact ⟨by rw [hjob, hend], hstop⟩

/-- R107: what a fault of a running tile leaves, where a job runs on it and is not yet ending. -/
theorem faultTile_faults (ht : t < s.tiles.length) (hc : (tileAt s t).code = .running) (hrun : jobRunning s = true)
    (hin : inJob s t = true) (he : s.job.ending = none) :
    (∃ lastC, tileAt (faultTile t src s) t = { faultedTile src s (tileAt s t) with lastC := lastC }) ∧
    (faultTile t src s).job.ending = some ⟨3, t, (tileAt s t).logical.getD 0, 2 ^ faultBit src⟩ := by
  have hnoted := tileAt_faultNoted src ht
  have hjob := faultNoted_job t src s
  obtain ⟨hending, htile⟩ := endJob_notes (s := faultNoted t src s) (t := t)
    (e := ⟨3, t, (tileAt s t).logical.getD 0, 2 ^ faultBit src⟩) (by rwa [jobRunning, hjob]) (by rwa [hjob])
    (by rw [hnoted]; exact (by decide : TileCode.faulted ≠ .running))
  rw [hnoted] at htile
  rw [faultTile_running ht hc hrun hin]
  split
  · exact ⟨⟨_, htile⟩, hending⟩
  · rw [tileAt_tileFaultActive, tileFaultActive_job, localReset, tileAt_emit, emit_job]
    exact ⟨⟨_, htile⟩, hending⟩

end RunningFault

section SparesAndStalls

variable {s : State} {t : Nat}

/-- R100: a spare is due for a test once its hours have passed since the last. -/
theorem within_singleton {hours last : Nat} (hdue : last + max 1 hours * 3600000000000 ≤ runNs s) :
    within s hours [last] = [] := by
  have hhours : (if hours = 0 then 1 else hours) = max 1 hours := by
    split <;> omega
  rw [within, hhours, List.filter_singleton, decide_eq_false (by omega)]
  rfl

/-- R100: a SPARE tile that is due is tested, where no other is. -/
theorem spareTileSelftest_starts (hc : (tileAt s t).code = .spare)
    (hdue : (tileAt s t).lastTest + max 1 s.fw.tilePolicy.spareHours * 3600000000000 ≤ runNs s)
    (hone : ∀ x ∈ s.tiles, ¬ (x.code = .testing ∧ x.test = .spare)) :
    exec (.spareTileSelftest t) s = .next (startTest t .spare s) :=
  congrArg Host.Outcome.next (if_pos ⟨hc, within_singleton hdue, by simpa using hone⟩)

/-- R107, R110: a stall of the mesh is recorded in a tile. -/
theorem meshStall_records (ht : t < 156) (hl : regGet s rTileStallLimit t [] ≠ 0) :
    exec (.meshStall t) s = .next (emit 0x1106 t [] (updTile t (setErr 7) s)) :=
  congrArg Host.Outcome.next (if_pos ⟨ht, hl⟩)

end SparesAndStalls

/-- Settles O15: a self-test by its outcome, a fault in the running job, the test of a spare, and a stall. -/
theorem tileLife : Obligations.TileLife := by
  refine ⟨fun s t x ht hx hc hstop => ?_, fun s t src x ht hlen hx hc hrun hin he => ?_,
    fun s t ht hc hdue hone => ?_, fun s t ht hlen hl => ?_⟩
  · subst hx
    refine ⟨fun hr hlevel hb hp => ⟨_, selftestDone_passed hc hstop hr hlevel hb hp, ?_⟩,
      fun fails hf hlevel hp => ⟨_, selftestDone_failed hc hstop hf hlevel hp, ?_⟩⟩
    · have hself : tileAt (updTile t (noteTest true 0#8 s) s) t = noteTest true 0#8 s (tileAt s t) :=
        tileAt_setTile_self _ _ _ ht
      have htile := fun u => tileAt_enterService (s := updTile t (noteTest true 0#8 s) s) (t := t) (u := u)
        (by rwa [updTile_eq, setTile_length])
      rw [testPassed_plain hr]
      refine ⟨?_, fun u hu => ?_, fun hl => ?_⟩
      · rw [tileAt_tileFaultActive, htile, if_pos rfl, hself]
        rfl
      · rw [tileAt_tileFaultActive, htile, if_neg (Ne.symm hu), tileAt_updTile_ne _ (Ne.symm hu)]
      · exact enterService_numbered (by rwa [hself])
    · obtain ⟨hunits, hself, hgiven⟩ := failNoted_retires (fails := fails) ht (by rw [hc]; decide)
      simp only [tileAt_tileFaultActive]
      exact ⟨by rw [hself]; rfl, by rw [hself]; rfl, hunits, hgiven⟩
  · subst hx
    obtain ⟨⟨lastC, htile⟩, hending⟩ := faultTile_faults (src := src) (hlen ▸ ht) hc hrun hin he
    refine ⟨faultTile t src s, congrArg Host.Outcome.next (if_pos ht), ?_⟩
    rw [htile]
    exact ⟨rfl, rfl, rfl, rfl, rfl, hending⟩
  · obtain ⟨hcode, htest, -, -, -, hother, -⟩ := startTest_starts .spare ht
    exact ⟨_, spareTileSelftest_starts hc hdue hone, hcode, htest, hother⟩
  · refine ⟨_, meshStall_records ht hl, ?_, fun u hu => ?_, emit_mem ..⟩
    · rw [tileAt_emit, updTile_eq, tileAt_setTile_self _ _ _ (hlen ▸ ht)]
      rfl
    · rw [tileAt_emit, tileAt_updTile_ne _ (Ne.symm hu)]

end Sys2Proof.Machine

/-! ### O60: the module's encodings read back -/

namespace Sys2Proof.Machine

section RegisterAddresses

variable {r q : RegRow} {rs : List RegRow} {ds es : List (Nat × Nat)} {ix : List Nat} {b : RegBlock} {inst o δ : Nat}

/-! #### Indexes and offsets -/

/-- The part of a register's offset that its indexes make. -/
def indexOffset (ds : List (Nat × Nat)) (ix : List Nat) : Nat := ((ds.zip ix).map fun p => p.1.2 * p.2).sum

/-- The indexes of a register: one for each dimension, each below its count. -/
def InDims (ds : List (Nat × Nat)) (ix : List Nat) : Prop := ix.length = ds.length ∧ ∀ p ∈ ds.zip ix, p.2 < p.1.1

/-- The largest offset that indexes make. -/
def indexSpan (ds : List (Nat × Nat)) : Nat := (ds.map fun d => d.2 * (d.1 - 1)).sum

/-- The inner indexes of a register stay within the stride of each outer one. -/
def nested : List (Nat × Nat) → Bool
  | [] => true
  | d :: ds => decide (indexSpan ds < d.2) && nested ds

/-- No offset that `es` make beyond `δ` is one that `ds` make: it lies above them all, or the two share their
outermost stride and are apart within it. -/
def apart : List (Nat × Nat) → Nat → List (Nat × Nat) → Bool
  | d :: ds, δ, e :: es =>
    decide (indexSpan (d :: ds) < δ) || (decide (d.2 = e.2 ∧ δ + indexSpan es < d.2) && apart ds δ es)
  | ds, δ, _ => decide (indexSpan ds < δ)

theorem rowOffset_eq (r : RegRow) (ix : List Nat) : rowOffset r ix = r.off + indexOffset r.dims ix := by
  rw [rowOffset, indexOffset, List.sum_eq_foldl]

theorem InDims.nil (h : InDims [] ix) : ix = [] := List.eq_nil_of_length_eq_zero h.1

theorem InDims.cons {d : Nat × Nat} (h : InDims (d :: ds) ix) : ∃ i js, ix = i :: js ∧ i < d.1 ∧ InDims ds js := by
  obtain ⟨hlen, hlt⟩ := h
  cases ix with
  | nil => cases hlen
  | cons i js => exact ⟨i, js, rfl, hlt (d, i) (by simp), by simpa using hlen, fun p hp => hlt p (by simp [hp])⟩

theorem indexOffset_cons (d : Nat × Nat) (ds : List (Nat × Nat)) (i : Nat) (js : List Nat) :
    indexOffset (d :: ds) (i :: js) = d.2 * i + indexOffset ds js := by simp [indexOffset]

theorem indexSpan_cons (d : Nat × Nat) (ds : List (Nat × Nat)) :
    indexSpan (d :: ds) = d.2 * (d.1 - 1) + indexSpan ds := by simp [indexSpan]

theorem InDims.offset_le (h : InDims ds ix) : indexOffset ds ix ≤ indexSpan ds := by
  induction ds generalizing ix with
  | nil => simp [indexOffset]
  | cons d ds ih =>
    obtain ⟨i, js, rfl, hi, hjs⟩ := h.cons
    rw [indexOffset_cons, indexSpan_cons]
    exact Nat.add_le_add (Nat.mul_le_mul_left _ (by omega)) (ih hjs)

/-- A stride that what lies within it does not reach is divided out. -/
theorem split_stride {st i rest : Nat} (h : rest < st) : (st * i + rest) / st = i ∧ (st * i + rest) % st = rest := by
  rw [Nat.mul_add_div (by omega), Nat.mul_add_mod, Nat.div_eq_of_lt h, Nat.mod_eq_of_lt h]
  exact ⟨rfl, rfl⟩

/-- R454: the indexes of a register are read back from the offset that they make. -/
theorem splitIndex_indexOffset (hn : nested ds = true) (h : InDims ds ix) :
    splitIndex ds (indexOffset ds ix) = some ix := by
  induction ds generalizing ix with
  | nil => rw [h.nil]; rfl
  | cons d ds ih =>
    obtain ⟨i, js, rfl, hi, hjs⟩ := h.cons
    simp only [nested, Bool.and_eq_true, decide_eq_true_eq] at hn
    obtain ⟨hdiv, hmod⟩ := split_stride (i := i) (lt_of_le_of_lt hjs.offset_le hn.1)
    rw [indexOffset_cons, splitIndex, hdiv, hmod, if_pos hi, ih hn.2 hjs]

/-- An offset beyond the largest makes no indexes. -/
theorem splitIndex_beyond (h : indexSpan ds < o) : splitIndex ds o = none := by
  induction ds generalizing o with
  | nil => exact if_neg (by omega)
  | cons d ds ih =>
    rw [indexSpan_cons] at h
    unfold splitIndex
    split
    next hi =>
      have hle : d.2 * (o / d.2) ≤ d.2 * (d.1 - 1) := Nat.mul_le_mul_left _ (by omega)
      have hsplit := Nat.div_add_mod o d.2
      rw [ih (by omega)]
    next => rfl

theorem splitIndex_apart (ha : apart ds δ es = true) (h : InDims es ix) :
    splitIndex ds (δ + indexOffset es ix) = none := by
  have hbeyond (hs : indexSpan ds < δ) : splitIndex ds (δ + indexOffset es ix) = none := splitIndex_beyond (by omega)
  induction ds, δ, es using apart.induct generalizing ix with
  | case1 d ds δ e es ih =>
    simp only [apart, Bool.or_eq_true, Bool.and_eq_true, decide_eq_true_eq] at ha
    obtain hs | ⟨⟨hst, hin⟩, hrest⟩ := ha
    · exact hbeyond hs
    · obtain ⟨i, js, rfl, -, hjs⟩ := h.cons
      have hle := hjs.offset_le
      obtain ⟨hdiv, hmod⟩ := split_stride (i := i) (by omega : δ + indexOffset es js < d.2)
      have hnone := ih hrest hjs fun hs => splitIndex_beyond (by omega)
      rw [indexOffset_cons, ← hst, show δ + (d.2 * i + indexOffset es js) = d.2 * i + (δ + indexOffset es js) by omega,
        splitIndex, hdiv, hmod, hnone]
      exact ite_self _
  | case2 ds δ es hcase =>
    unfold apart at ha
    split at ha
    · exact (hcase _ _ _ _ rfl rfl).elim
    · exact hbeyond (of_decide_eq_true ha)

/-! #### The rows of a block -/

/-- No register of row `r` lies where row `q`, which is looked up first, has one. -/
def rowApart (q r : RegRow) : Bool :=
  decide (r.off + indexSpan r.dims < q.off) || (decide (q.off ≤ r.off) && apart q.dims (r.off - q.off) r.dims)

theorem blockRows_apart (b : RegBlock) : (blockRows b).Pairwise fun q r => rowApart q r = true := by
  cases b <;> decide

/-- R454: the rows of a block are the block's own, fit in its pages and nest their indexes. -/
theorem blockRows_fit (b : RegBlock) : ∀ r ∈ blockRows b, r.block = b ∧ nested r.dims = true ∧
    r.off + indexSpan r.dims < if b = .sync then 0x40000 else 0x10000 := by
  cases b <;> decide

theorem findRow_rowOffset (hp : rs.Pairwise fun q r => rowApart q r = true) (hr : r ∈ rs) (hn : nested r.dims = true)
    (h : InDims r.dims ix) : findRow rs (rowOffset r ix) = some (r, ix) := by
  rw [rowOffset_eq]
  induction rs with
  | nil => cases hr
  | cons q rs ih =>
    rw [List.pairwise_cons] at hp
    unfold findRow
    rcases List.mem_cons.1 hr with rfl | hr
    · rw [if_neg (by omega), Nat.add_sub_cancel_left, splitIndex_indexOffset hn h]
    · have hq := hp.1 r hr
      simp only [rowApart, Bool.or_eq_true, Bool.and_eq_true, decide_eq_true_eq] at hq
      have hle := h.offset_le
      obtain hbelow | ⟨hoff, hapart⟩ := hq
      · rw [if_pos (by omega), ih hp.2 hr]
      · rw [if_neg (by omega), show r.off + indexOffset r.dims ix - q.off = r.off - q.off + indexOffset r.dims ix by omega,
          splitIndex_apart hapart h]
        exact ih hp.2 hr

/-- R454: the address of a place in a block. -/
theorem findBlock_place (hi : inst < blockCount b) (ho : o < if b = .sync then 0x40000 else 0x10000) :
    findBlock (blockBase b + inst * 0x10000 + o) = some (b, inst, o) := by
  by_cases hs : b = .sync
  · subst hs
    obtain rfl : inst = 0 := by simpa [blockCount] using hi
    exact findBlock_sync o ho
  · exact findBlock_page b inst o hi (by simpa [hs] using ho) hs

/-- R454: the address of a register names it. -/
theorem findReg_regAddr (hr : r ∈ blockRows b) (hi : inst < blockCount b) (h : InDims r.dims ix)
    (he : rowExists r inst = true) : findReg (regAddr r inst ix) = some (r, inst, ix) := by
  obtain ⟨hb, hn, hfit⟩ := blockRows_fit b r hr
  have hoff : rowOffset r ix ≤ r.off + indexSpan r.dims := by
    rw [rowOffset_eq]
    exact Nat.add_le_add_left h.offset_le _
  unfold findReg regAddr
  rw [hb, findBlock_place hi (by omega)]
  simp only [findRow_rowOffset (blockRows_apart b) hr hn h, he, if_true]

end RegisterAddresses

section Words

/-! #### Instruction words -/

/-- R111: the fields of an instruction word. -/
theorem insnOf_fields {op d a b x imm : Nat} (hop : op < 256) (hd : d < 32) (ha : a < 32) (hb : b < 32) (hx : x < 512)
    (himm : imm < 2 ^ 32) :
    insnOf (BitVec.ofNat 64 (op * 2 ^ 56 + d * 2 ^ 51 + a * 2 ^ 46 + b * 2 ^ 41 + x * 2 ^ 32 + imm)) =
      ⟨op, d, a, b, x, imm⟩ := by
  simp only [insnOf, bits, BitVec.toNat_ofNat, Insn.mk.injEq]
  omega

end Words

section Frames

variable {n v k m : Nat} {as bs : List Byte} {h : FrameHdr} {u : FabUnit} {us : List FabUnit}

/-! #### Fields laid end to end -/

/-- The first of the fields, where it holds its number. -/
theorem leAt_field (hv : v < 256 ^ n) : leAt (leBytes n v ++ bs) 0 n = v :=
  (leAt_mid [] n v bs 0 rfl).trans (Nat.mod_eq_of_lt hv)

/-- A field is looked for beyond the fields before it. -/
theorem leAt_beyond (hk : n ≤ k) : leAt (leBytes n v ++ bs) k m = leAt bs (k - n) m := by
  have hlen := leBytes_length n v
  rw [leAt, leAt, List.drop_append, List.drop_eq_nil_of_le (by omega), List.nil_append, hlen]

/-! #### Frame headers -/

/-- R253: the three flags of byte 1. -/
theorem hdrFlags (a b c : Bool) :
    bitOf (b2n a + 2 * b2n b + 4 * b2n c) 0 = a ∧ bitOf (b2n a + 2 * b2n b + 4 * b2n c) 1 = b ∧
    bitOf (b2n a + 2 * b2n b + 4 * b2n c) 2 = c ∧ b2n a + 2 * b2n b + 4 * b2n c < 8 := by
  cases a <;> cases b <;> cases c <;> decide

/-- The fields of a header hold what their widths allow, and its reserved bits are 0. -/
structure FrameHdr.Fits (h : FrameHdr) : Prop where
  type : h.type < 16
  version : h.version < 16
  dest : h.dest < 65536
  src : h.src < 65536
  plane : h.plane < 32
  slot : h.slot < 8
  channel : h.channel < 32
  tag : h.tag < 1024
  lsn : h.lsn < 65536
  ack : h.ack < 65536
  nak : h.nak < 65536
  fault : h.fault < 65536
  faultBit : bitOf h.fault 14 = false
  len : h.len ≤ 1024
  claim : h.claim < 2 ^ 32
  clean : h.clean = true

/-- R251 to R253: a frame header holds its fields. -/
theorem readHdr_hdrBytes (hf : h.Fits) (bs : List Byte) : readHdr (hdrBytes h ++ bs) = h := by
  obtain ⟨hnak, hresent, hhold, hflags⟩ := hdrFlags h.nakValid h.resent h.hold
  obtain ⟨htype, hversion, hdest, hsrc, hplane, hslot, hchannel, htag, hlsn, hack, hnakv, hfault, hbit, hlen, hclaim,
    hclean⟩ := hf
  have htypes : (h.type + 16 * h.version) % 16 = h.type ∧ (h.type + 16 * h.version) / 16 = h.version := by omega
  have hplanes : (h.plane + 32 * h.slot) % 32 = h.plane ∧ (h.plane + 32 * h.slot) / 32 = h.slot := by omega
  simp (disch := omega) only [hdrBytes, readHdr, List.append_assoc, leAt_field, leAt_beyond, Nat.reduceSub, hnak, hresent,
    hhold, hflags, htypes, hplanes, Nat.mod_eq_of_lt hchannel, hchannel, htag, hlen, hbit, decide_true, Bool.not_false,
    Bool.and_true]
  rw [← hclean]

/-! #### Units of a payload -/

/-- R255: a unit that is valid and whose fields hold what their widths allow. -/
structure FabUnit.Fits (u : FabUnit) : Prop where
  ok : unitOk u = true
  stream : u.stream < 256
  opseq : u.opseq < 2 ^ 32
  addr : u.addr < 2 ^ 64
  offset : u.offset < 2 ^ 32
  total : u.total < 2 ^ 32
  object : u.object < 65536
  whole : u.data.length % 16 = 0
  short : u.data.length ≤ 992

/-- R255: the first 32 bytes of a unit, before its data. -/
def unitHdr (u : FabUnit) : List Byte :=
  leBytes 1 u.kind ++ leBytes 1 u.stream ++ leBytes 2 u.data.length ++ leBytes 4 u.opseq ++
  leBytes 8 u.addr ++ leBytes 4 u.offset ++ leBytes 4 u.total ++ leBytes 2 u.object ++ leBytes 6 u.ext

theorem unitBytes_eq (u : FabUnit) : unitBytes u = unitHdr u ++ u.data := rfl

@[simp] theorem unitHdr_length (u : FabUnit) : (unitHdr u).length = 32 := by simp [unitHdr]

@[simp] theorem unitBytes_length (u : FabUnit) : (unitBytes u).length = 32 + u.data.length := by simp [unitBytes_eq]

/-- R255: nothing is read of the zeros after the last unit. -/
theorem readUnits_zeros (n k : Nat) : readUnits n (List.replicate k 0) = ([], false) := by
  cases n with
  | zero => rfl
  | succ n =>
    have hkind : (List.replicate k (0 : Byte)).length < 32 ∨ leAt (List.replicate k 0) 0 1 = 0 := by
      cases k with
      | zero => exact .inl (by decide)
      | succ k => exact .inr rfl
    rw [readUnits, if_pos hkind]

/-- R255: the fields of the header of a unit. -/
theorem unitHdr_fields (hf : u.Fits) (hext : u.ext = 0) (hkind : u.kind ≤ 6) (bs : List Byte) :
    leAt (unitHdr u ++ bs) 0 1 = u.kind ∧ leAt (unitHdr u ++ bs) 1 1 = u.stream ∧
    leAt (unitHdr u ++ bs) 2 2 = u.data.length ∧ leAt (unitHdr u ++ bs) 4 4 = u.opseq ∧
    leAt (unitHdr u ++ bs) 8 8 = u.addr ∧ leAt (unitHdr u ++ bs) 16 4 = u.offset ∧
    leAt (unitHdr u ++ bs) 20 4 = u.total ∧ leAt (unitHdr u ++ bs) 24 2 = u.object ∧
    leAt (unitHdr u ++ bs) 26 6 = u.ext := by
  obtain ⟨-, hstream, hopseq, haddr, hoffset, htotal, hobject, -, hshort⟩ := hf
  simp (disch := omega) only [unitHdr, List.append_assoc, leAt_field, leAt_beyond, Nat.reduceSub, and_self]

theorem unitOk_bounds (hu : unitOk u = true) : (1 ≤ u.kind ∧ u.kind ≤ 6) ∧ u.ext = 0 := by
  simp only [unitOk, Bool.and_eq_true, decide_eq_true_eq] at hu
  exact hu.1

/-- R255: the first unit of a payload is read back, and the rest is read on. -/
theorem readUnits_unitBytes (hf : u.Fits) (n : Nat) (bs : List Byte) :
    readUnits (n + 1) (unitBytes u ++ bs) = (u :: (readUnits n bs).1, (readUnits n bs).2) := by
  obtain ⟨⟨hpos, hkind⟩, hext⟩ := unitOk_bounds hf.ok
  obtain ⟨hk, hst, hlen, hseq, haddr, hoff, htot, hobj, hex⟩ := unitHdr_fields hf hext hkind (u.data ++ bs)
  have hdata : (unitHdr u ++ (u.data ++ bs)).drop 32 = u.data ++ bs := List.drop_left' (unitHdr_length u)
  have hrest : (unitHdr u ++ (u.data ++ bs)).drop (32 + u.data.length) = bs := by
    rw [← List.drop_drop, hdata, List.drop_left]
  have hsize : (unitHdr u ++ (u.data ++ bs)).length = 32 + u.data.length + bs.length := by
    simp [Nat.add_assoc]
  have hgo : ¬ (32 + u.data.length + bs.length < 32 ∨ u.kind = 0) := by omega
  have hfits : 32 + u.data.length ≤ 32 + u.data.length + bs.length := by omega
  rw [unitBytes_eq, List.append_assoc, readUnits]
  simp only [hk, hst, hlen, hseq, haddr, hoff, htot, hobj, hex, hdata, hrest, hsize, if_neg hgo, List.take_left, hf.ok,
    hf.whole, hf.short, hfits, decide_true, Bool.and_self, if_true]

/-- R255: a payload of units is read back, with headers enough to read it. -/
theorem readUnits_flatMap (hf : ∀ u ∈ us, u.Fits) (hn : us.length ≤ n) :
    readUnits n (us.flatMap unitBytes ++ List.replicate k 0) = (us, false) := by
  induction us generalizing n with
  | nil => exact readUnits_zeros n k
  | cons u us ih =>
    obtain ⟨n, rfl⟩ : ∃ m, n = m + 1 := ⟨n - 1, by simp at hn; omega⟩
    rw [List.flatMap_cons, List.append_assoc, readUnits_unitBytes (hf u List.mem_cons_self),
      ih (fun v hv => hf v (List.mem_cons_of_mem _ hv)) (by simpa using hn)]

/-- R252: a payload of 1,024 bytes holds at most 32 units. -/
theorem length_le_of_flatMap (us : List FabUnit) : 32 * us.length ≤ (us.flatMap unitBytes).length := by
  induction us with
  | nil => simp
  | cons u us ih =>
    rw [List.flatMap_cons, List.length_append, unitBytes_length, List.length_cons]
    omega

end Frames

/-- Settles O60: each encoding by its own lemma above. -/
theorem encodingsReadBack : Obligations.EncodingsReadBack := by
  refine ⟨fun b r inst ix hr hi hlen hlt he => findReg_regAddr hr hi ⟨hlen, hlt⟩ he,
    fun op d a b x imm => insnOf_fields, ?_, ?_⟩
  · intro h bs h1 h2 h3 h4 h5 h6 h7 h8 h9 h10 h11 h12 h13 h14 h15 h16
    exact readHdr_hdrBytes ⟨h1, h2, h3, h4, h5, h6, h7, h8, h9, h10, h11, h12, h13, h14, h15, h16⟩ bs
  · intro us k hus hlen
    refine readUnits_flatMap (fun u hu => ?_) (by have := length_le_of_flatMap us; omega)
    obtain ⟨hok, hstream, hopseq, haddr, hoffset, htotal, hobject, hwhole, hshort⟩ := hus u hu
    exact ⟨hok, hstream, hopseq, haddr, hoffset, htotal, hobject, hwhole, hshort⟩

end Sys2Proof.Machine

/-! ### O2: scalar arithmetic -/

namespace Sys2Proof.Machine

/-- R121: the two forms of a scalar operation run it. -/
def RunsAlu (r : Nat × (Nat → Instr) × (Nat → Instr) × (W32 → W32 → W32)) : Prop :=
  (∀ t s, exec (r.2.1 t) s = .next (aluReg r.1 r.2.2.2 t s)) ∧
  ∀ t s, exec (r.2.2.1 t) s = .next (aluImm (r.1 + 0x10) r.2.2.2 t s)

/-- The two forms of an operation that the model gives as `g`. -/
theorem RunsAlu.of_exact {op : Nat} {reg imm : Nat → Instr} {f : W32 → W32 → W32} (g : W32 → W32 → W32)
    (hreg : ∀ t s, exec (reg t) s = .next (aluReg op g t s))
    (himm : ∀ t s, exec (imm t) s = .next (aluImm (op + 0x10) g t s)) (hfg : ∀ a b, g a b = f a b) :
    RunsAlu (op, reg, imm, f) := by
  obtain rfl : g = f := funext fun a => funext (hfg a)
  exact ⟨hreg, himm⟩

/-- R121: each row of the table is exact arithmetic. -/
theorem aluTable_runs : ∀ r ∈ aluTable, RunsAlu r := by
  simp only [aluTable, List.forall_mem_cons, List.not_mem_nil, false_implies, implies_true, and_true]
  refine ⟨?add, ?sub, ?and, ?or, ?xor, ?shl, ?shr, ?sra, ?mul, ?mulhu, ?slt, ?sltu, ?min, ?max⟩
  case add => exact .of_exact _ (fun _ _ => rfl) (fun _ _ => rfl) add_exact
  case sub => exact .of_exact _ (fun _ _ => rfl) (fun _ _ => rfl) sub_exact
  case and => exact .of_exact _ (fun _ _ => rfl) (fun _ _ => rfl) and_exact
  case or => exact .of_exact _ (fun _ _ => rfl) (fun _ _ => rfl) or_exact
  case xor => exact .of_exact _ (fun _ _ => rfl) (fun _ _ => rfl) xor_exact
  case shl => exact .of_exact _ (fun _ _ => rfl) (fun _ _ => rfl) shl_exact
  case shr => exact .of_exact _ (fun _ _ => rfl) (fun _ _ => rfl) shr_exact
  case sra => exact .of_exact _ (fun _ _ => rfl) (fun _ _ => rfl) sra_exact
  case mul => exact .of_exact _ (fun _ _ => rfl) (fun _ _ => rfl) mul_exact
  case mulhu => exact .of_exact _ (fun _ _ => rfl) (fun _ _ => rfl) mulHigh_exact
  case slt => exact .of_exact _ (fun _ _ => rfl) (fun _ _ => rfl) sltVal_exact
  case sltu => exact .of_exact _ (fun _ _ => rfl) (fun _ _ => rfl) sltuVal_exact
  case min => exact .of_exact _ (fun _ _ => rfl) (fun _ _ => rfl) minVal_exact
  case max => exact .of_exact _ (fun _ _ => rfl) (fun _ _ => rfl) maxVal_exact

/-- Settles O2: a scalar operation that issues runs the operation of its row. -/
theorem scalarArithmetic : Obligations.ScalarArithmetic := by
  intro r hr s t i h hn
  obtain ⟨hreg, himm⟩ := aluTable_runs r hr
  refine ⟨fun ho => ?_, fun ho => ?_⟩
  · rw [hreg, aluReg_issues r.1 _ h hn ho]
  · rw [himm, aluImm_issues (r.1 + 0x10) _ h hn ho]

end Sys2Proof.Machine

/-! ### O4: branches and jumps -/

namespace Sys2Proof.Machine

section Jumps

variable {s : State} {t a : Nat} {i : Insn}

/-- R124: an offset of a tile that has been changed meanwhile, to one that stands at the same word. -/
theorem jumpBy_setTile {x : Tile} (h : Issues s t i) (hpc : x.pc = (tileAt s t).pc)
    (hlen : x.codeLen = (tileAt s t).codeLen) (h0 : 0 ≤ branchTarget (tileAt s t) i)
    (h1 : branchTarget (tileAt s t) i < (tileAt s t).codeLen) :
    jumpBy t i.imm (setTile t x s) = jumped t x (branchTarget (tileAt s t) i).toNat s := by
  have hx : tileAt (setTile t x s) t = x := tileAt_setTile_self t x s h.lt
  unfold branchTarget at h0 h1 ⊢
  rw [← hpc] at h0 h1 ⊢
  rw [← hlen] at h1
  rw [jumpBy_inside t i.imm (setTile t x s) (by rw [hx, hlen]; exact h.short) (by rw [hx, hpc]; exact h.aligned)
    (by rwa [hx]) (by rwa [hx]), hx]
  exact setTile_setTile ..

theorem jumpBy_issues (h : Issues s t i) (h0 : 0 ≤ branchTarget (tileAt s t) i)
    (h1 : branchTarget (tileAt s t) i < (tileAt s t).codeLen) :
    jumpBy t i.imm s = jumped t (tileAt s t) (branchTarget (tileAt s t) i).toNat s :=
  jumpBy_inside t i.imm s h.short h.aligned h0 h1

/-- R121, R124: each row of the table branches on its condition. -/
theorem branchTable_runs : ∀ r ∈ branchTable, ∃ c : W32 → W32 → Bool,
    (∀ a b, c a b = true ↔ r.2.2 a b) ∧ ∀ t s, exec (r.2.1 t) s = .next (branchOn r.1 c t s) := by
  simp only [branchTable, List.forall_mem_cons, List.not_mem_nil, false_implies, implies_true, and_true]
  refine ⟨⟨_, ?beq, fun _ _ => rfl⟩, ⟨_, ?bne, fun _ _ => rfl⟩, ⟨_, ?blt, fun _ _ => rfl⟩, ⟨_, ?bge, fun _ _ => rfl⟩,
    ⟨_, ?bltu, fun _ _ => rfl⟩, ⟨_, ?bgeu, fun _ _ => rfl⟩⟩
  case beq => exact fun a b => beq_iff_eq.trans BitVec.toNat_inj.symm
  case bne => exact fun a b => bne_iff_ne.trans BitVec.toNat_inj.symm.not
  case blt => exact fun a b => by simp [BitVec.slt]
  case bge => exact fun a b => by simp [BitVec.slt]
  case bltu => exact fun a b => by simp [BitVec.ult]
  case bgeu => exact fun a b => by simp [BitVec.ult]

theorem jr_issues (h : Issues s t i) (ho : i.op = 0x48) (ha : a = (sGet (tileAt s t) i.a).toNat) :
    exec (.jr t) s = .next (if a % 8 = 0 ∧ a < (tileAt s t).codeLen then jumped t (tileAt s t) a s
      else raiseHere t 2 a s) := by
  subst ha
  exact congrArg Host.Outcome.next (runInsn_of_issues 0x48 _ h ho)

/-- R124: a JR to a word that may not be fetched. -/
theorem jr_raises (h : Issues s t i) (ho : i.op = 0x48) (ha : a = (sGet (tileAt s t) i.a).toNat)
    (hbad : ¬ (a % 8 = 0 ∧ a < (tileAt s t).codeLen)) :
    ∃ s', exec (.jr t) s = .next s' ∧ TakesException s s' t ⟨2, 0, (tileAt s t).pc, a, 0⟩ := by
  have hlt : a < 2 ^ 48 := ha ▸ (sGet (tileAt s t) i.a).isLt.trans (by decide)
  have htakes := raiseHere_takes h 2 a
  rw [Nat.mod_eq_of_lt hlt] at htakes
  exact ⟨_, by rw [jr_issues h ho ha, if_neg hbad], htakes⟩

end Jumps

/-- Settles O4: a branch by its condition, and each jump by its target. -/
theorem branchesAndJumps : Obligations.BranchesAndJumps := by
  refine ⟨?branches, fun s t i h => ⟨fun h0 h1 => ⟨fun ho => ?jmp, fun ho => ?jal⟩, fun ho => ⟨fun hok => ?jr,
    jr_raises h ho rfl⟩⟩⟩
  case branches =>
    intro r hr s t i h ho
    obtain ⟨c, hc, hcmd⟩ := branchTable_runs r hr
    refine ⟨fun hp h0 h1 => ?_, fun hp hn => ?_⟩
    · rw [hcmd, branchOn_taken r.1 c h ho ((hc _ _).2 hp), jumpBy_issues h h0 h1]
    · rw [hcmd, branchOn_passed r.1 c h ho (Bool.eq_false_iff.2 fun ht => hp ((hc _ _).1 ht)),
        stepOver_plain t s h.short h.aligned hn]
  case jmp =>
    exact congrArg Host.Outcome.next ((runInsn_of_issues 0x46 _ h ho).trans (jumpBy_issues h h0 h1))
  case jal =>
    exact congrArg Host.Outcome.next ((runInsn_of_issues 0x47 _ h ho).trans
      (jumpBy_setTile h (sSet_pc ..) (sSet_codeLen ..) h0 h1))
  case jr =>
    rw [jr_issues h ho rfl, if_pos hok]

end Sys2Proof.Machine

/-! ### O6: how a tile stops -/

namespace Sys2Proof.Machine

section TileStops

variable {s : State} {t u : Nat} {i : Insn} {w : W64} {tr : Trap}

/-- R138: an exception of the scalar core at a word that it fetches. -/
theorem Fetches.raiseHere_takes (h : Fetches s t w) (cause addr : Nat) :
    TakesException s (raiseHere t cause addr s) t ⟨cause, 0, (tileAt s t).pc, addr % 2 ^ 48, 0⟩ := by
  obtain ⟨ht, hcode, -, htrap, -, -, hin, hshort, -⟩ := h
  have hsize : scratchSize = 2 ^ 19 := by decide
  have htakes := raiseExc_takes s t cause 0 (tileAt s t).pc addr 0 ht (.inl hcode) htrap
  rwa [Nat.mod_eq_of_lt (by omega : (tileAt s t).pc < 2 ^ 19)] at htakes

/-- R138: BRK raises its number. -/
theorem brk_takes (h : Issues s t i) (ho : i.op = 0x03) :
    ∃ s', exec (.brk t) s = .next s' ∧ TakesException s s' t ⟨11, 0, (tileAt s t).pc, i.imm, 0⟩ := by
  have htakes := raiseHere_takes h 11 i.imm
  rw [Nat.mod_eq_of_lt (h.imm_lt.trans (by decide))] at htakes
  exact ⟨_, congrArg Host.Outcome.next (runInsn_of_issues 0x03 _ h ho), htakes⟩

theorem fence_issues (h : Issues s t i) (ho : i.op = 0x04) :
    exec (.fence t) s = .next (if fenceOpen i (tileAt s t) then stepOver t s else s) :=
  congrArg Host.Outcome.next (runInsn_of_issues 0x04 _ h ho)

/-- R117: a fence waits for no queue where each that it names is empty. -/
theorem fenceOpen_iff {x : Tile} : fenceOpen i x = true ↔ (bitOf i.x 0 = true → x.mq = []) ∧
    (bitOf i.x 1 = true → x.vq = []) ∧ (bitOf i.x 2 = true → x.oq = []) ∧ (bitOf i.x 3 = true → x.fq = []) := by
  have hqueue (b : Bool) (q : List QEntry) : (!b || q.isEmpty) = true ↔ (b = true → q = []) := by cases b <;> simp
  simp only [fenceOpen, Bool.and_eq_true, hqueue, and_assoc]

/-- R112: a word that is no instruction. -/
theorem illegalWord_takes (h : Fetches s t w) (hw : insnOk (insnOf w) = false) :
    ∃ s', exec (.illegalWord t) s = .next s' ∧ TakesException s s' t ⟨1, 0, (tileAt s t).pc, 0, 0⟩ := by
  refine ⟨raiseHere t 1 0 s, ?_, h.raiseHere_takes 1 0⟩
  show execIllegalWord t s = _
  simp only [execIllegalWord, fetchWord_of_fetches h, hw, Bool.false_eq_true, if_false]

/-- R142: a tile whose queues are empty halts. -/
theorem tileHalted_halts (hc : (tileAt s t).code = .running) (htrap : (tileAt s t).trap = none)
    (hwait : (tileAt s t).wait = .halt ∨ (tileAt s t).wait = .stop) (hq : allEntries (tileAt s t) = []) :
    exec (.tileHalted t) s = .next (haltTile t s) := by
  have hempty : queuesEmpty (tileAt s t) = true := List.isEmpty_iff.2 hq
  exact congrArg Host.Outcome.next (if_pos ⟨hc, htrap, hwait, hempty⟩)

/-! #### The end of an exception -/

/-- R140: the state in which the trap registers hold the exception and the tile is HALTED. -/
def trapHalted (t : Nat) (tr : Trap) (s : State) : State :=
  haltTile t (setTile t { tileAt s t with trap := none, trapValid := true, trapReg := tr } s)

/-- R140: the state in which the exception has been recorded besides. -/
def trapRecorded (t : Nat) (tr : Trap) (s : State) : State :=
  emit 0x110A t (leBytes 1 t ++ leBytes 1 ((tileAt s t).logical.getD 255) ++
    leBytes 4 (trapWord true tr) ++ leBytes 4 tr.pc ++ leBytes 6 tr.addr) (trapHalted t tr s)

/-- R140: TILE_TRAPPED records the exception and stops the job. -/
theorem tileTrapped_stops (hc : (tileAt s t).code = .running) (htrap : (tileAt s t).trap = some tr)
    (hq : allEntries (tileAt s t) = []) : exec (.tileTrapped t) s = .next (stopJob (trapRecorded t tr s)) := by
  have hempty : queuesEmpty (tileAt s t) = true := List.isEmpty_iff.2 hq
  show execTileTrapped t s = _
  simp only [execTileTrapped, htrap]
  rw [if_pos ⟨hc, hempty⟩]
  rfl

@[simp] theorem trapRecorded_mem : (trapRecorded t tr s).mem = s.mem := emit_mem ..

@[simp] theorem trapRecorded_job : (trapRecorded t tr s).job = s.job := emit_job ..

theorem trapRecorded_jobRunning : jobRunning (trapRecorded t tr s) = jobRunning s := by
  simp only [jobRunning, trapRecorded_job]

theorem trapRecorded_switchBusy : switchBusy (trapRecorded t tr s) = switchBusy s :=
  congrArg (fun f : Fab => f.slots.any fun p => p.switching.isSome) (emit_fab ..)

theorem tileAt_trapRecorded_ne (hu : u ≠ t) : tileAt (trapRecorded t tr s) u = tileAt s u := by
  rw [trapRecorded, tileAt_emit]
  exact (tileAt_updTile_ne _ hu.symm).trans (tileAt_setTile_ne _ _ _ _ hu.symm)

/-- R140, R158: the tile whose exception has been recorded. -/
theorem tileAt_trapRecorded (ht : t < s.tiles.length) : tileAt (trapRecorded t tr s) t = { tileAt s t with
    code := .halted, haltPc := (tileAt s t).pc, wait := .none, trap := none, trapValid := true, trapReg := tr
    lastC := (tileAt (trapRecorded t tr s) t).lastC } := by
  obtain ⟨l, hl⟩ := tileAt_haltTile t
    (setTile t { tileAt s t with trap := none, trapValid := true, trapReg := tr } s) (by simpa using ht)
  rw [tileAt_setTile_self _ _ _ ht] at hl
  rw [trapRecorded, tileAt_emit, trapHalted, hl]

/-- A tile that has halted stands as it is when the job stops. -/
theorem stopped_halted {x : Tile} (hx : x.code = .halted) : stopped x = x :=
  if_neg fun h => by rw [hx] at h; cases h.1

/-- R39, R140: what the end of an exception leaves of the job. -/
theorem stopJob_trapRecorded (s : State) :
    (jobRunning s = false → stopJob (trapRecorded t tr s) = trapRecorded t tr s) ∧
    (jobRunning s = true → switchBusy s = true → stopJob (trapRecorded t tr s) =
      { trapRecorded t tr s with job := { s.job with stopDue := true } }) ∧
    (jobRunning s = true → switchBusy s = false → stopJob (trapRecorded t tr s) = stopNow (trapRecorded t tr s)) := by
  refine ⟨fun hr => stopJob_idle _ (trapRecorded_jobRunning.trans hr), fun hr hb => ?_, fun hr hb =>
    stopJob_running _ (trapRecorded_jobRunning.trans hr) (trapRecorded_switchBusy.trans hb)⟩
  rw [stopJob_waits _ (trapRecorded_jobRunning.trans hr) (trapRecorded_switchBusy.trans hb), trapRecorded_job]

/-- R140, R154: a tile whose exception has been recorded stands when the job stops. -/
theorem tileAt_stopNow_trapRecorded (ht : t < s.tiles.length) :
    tileAt (stopNow (trapRecorded t tr s)) t = { tileAt s t with
      code := .halted, haltPc := (tileAt s t).pc, wait := .none, trap := none, trapValid := true, trapReg := tr
      lastC := (tileAt (stopNow (trapRecorded t tr s)) t).lastC } := by
  have hstops := (stopNow_stops (trapRecorded t tr s)).1 t
  have htile := tileAt_trapRecorded (tr := tr) ht
  rw [StopsTile, stopped_halted (by rw [htile]), htile] at hstops
  exact hstops

end TileStops

/-- Settles O6: each way to stop by its own lemma above. -/
theorem tileStops : Obligations.TileStops := by
  refine ⟨fun s t i h => ⟨fun ho => ?halt, brk_takes h, fun ho hn hm hv hmov hf => ?fenceOpen, fun ho hbit hm => ?fenceShut⟩,
    fun s t w h hw => illegalWord_takes h hw, fun s t ht hc htrap hwait hq => ⟨_, tileHalted_halts hc htrap hwait hq⟩,
    fun s t tr ht hc htrap hq => ⟨_, tileTrapped_stops hc htrap hq, ?trapped⟩⟩
  case halt => exact congrArg Host.Outcome.next (runInsn_of_issues 0x02 _ h ho)
  case fenceOpen =>
    rw [fence_issues h ho, if_pos (fenceOpen_iff.2 ⟨hm, hv, hmov, hf⟩), stepOver_plain t s h.short h.aligned hn]
  case fenceShut =>
    rw [fence_issues h ho, if_neg fun hopen => hm ((fenceOpen_iff.1 hopen).1 hbit)]
  case trapped =>
    obtain ⟨hidle, hwaits, hstops⟩ := stopJob_trapRecorded (t := t) (tr := tr) s
    cases hr : jobRunning s with
    | false =>
      rw [hidle hr]
      exact ⟨trapRecorded_mem, tileAt_trapRecorded ht, fun _ => trapRecorded_job, nofun, nofun⟩
    | true =>
      cases hb : switchBusy s with
      | true =>
        rw [hwaits hr hb]
        exact ⟨trapRecorded_mem, tileAt_trapRecorded ht, nofun, fun _ _ => rfl, nofun⟩
      | false =>
        rw [hstops hr hb]
        obtain ⟨htiles, hmem, hjob, -, hstreams, hinsts⟩ := stopNow_stops (trapRecorded t tr s)
        refine ⟨hmem.trans trapRecorded_mem, tileAt_stopNow_trapRecorded ht, nofun, nofun, fun _ _ =>
          ⟨hjob.trans trapRecorded_job, hstreams, hinsts, fun u hu => ?_⟩⟩
        have hu' := htiles u
        rwa [StopsTile, tileAt_trapRecorded_ne hu] at hu'

end Sys2Proof.Machine

/-! ### O7: the instructions that are handed to a queue -/

namespace Sys2Proof.Machine

section Queues

variable {s : State} {t op : Nat} {u : TileUnit} {w : W64}

@[simp] theorem queuePut_pc (x : Tile) (u : TileUnit) (q : List QEntry) : (queuePut x u q).pc = x.pc := by
  cases u <;> rfl

@[simp] theorem queuePut_codeLen (x : Tile) (u : TileUnit) (q : List QEntry) : (queuePut x u q).codeLen = x.codeLen := by
  cases u <;> rfl

/-- R115: each row of the table hands its instruction to its queue, of its depth. -/
theorem queueTable_issues : ∀ r ∈ queueTable, r.2.2.1 = queueDepth r.2.1 ∧
    ∀ t s, exec (r.2.2.2 t) s = .next (issueTo r.1 r.2.1 t s) := by
  simp only [queueTable, List.forall_mem_cons, List.not_mem_nil, false_implies, implies_true, and_true]
  and_intros
  all_goals intros; rfl

/-- R115: an instruction enters its queue, where there is room. -/
theorem issueTo_enters (h : Fetches s t w) (hn : NextInCode s t) (hok : insnOk (insnOf w) = true) (ho : (insnOf w).op = op)
    (hroom : (queueGet (tileAt s t) u).length < queueDepth u) :
    issueTo op u t s = advanced t
      { queuePut (tileAt s t) u (queueGet (tileAt s t) u ++
          [{ word := w, pc := (tileAt s t).pc, seq := (tileAt s t).issued }]) with
        issued := (tileAt s t).issued + 1 } s := by
  have hfetch := fetchWord_of_fetches h
  obtain ⟨ht, -, -, -, -, haligned, -, hshort, -⟩ := h
  unfold issueTo
  simp only [hfetch]
  rw [if_pos ⟨hok, ho, hroom⟩]
  exact stepOver_setTile t _ s ht (by simpa using hshort) (by simpa using haligned)
    (by rw [queuePut_pc, queuePut_codeLen]; exact hn)

/-- R115: an instruction waits for a full queue. -/
theorem issueTo_full (h : Fetches s t w) (hfull : queueDepth u ≤ (queueGet (tileAt s t) u).length) :
    issueTo op u t s = s := by
  unfold issueTo
  simp only [fetchWord_of_fetches h]
  exact if_neg fun hroom => by omega

end Queues

/-- Settles O7: each row of the table is a use of `issueTo`. -/
theorem queuedInstructionsEnterTheirQueue : Obligations.QueuedInstructionsEnterTheirQueue := by
  intro r hr s t w h hok ho
  obtain ⟨hdepth, hexec⟩ := queueTable_issues r hr
  rw [hdepth]
  refine ⟨fun hroom hn => ?_, fun hfull => ?_⟩
  · rw [hexec, issueTo_enters h hn hok ho hroom]
  · rw [hexec, issueTo_full h hfull]

end Sys2Proof.Machine

/-! ### O9: matrix and mover entries on registers -/

namespace Sys2Proof.Machine

section MatrixRegisters

variable {s : State} {t k cause addr : Nat} {u : TileUnit} {e : QEntry} {x : Tile}

theorem EntryRuns.lt (h : EntryRuns s t u k e) : t < s.tiles.length := h.1

theorem EntryRuns.running (h : EntryRuns s t u k e) : (tileAt s t).code = .running := h.2.1

@[simp] theorem raiseExc_length (t cause unit pc addr flags : Nat) (s : State) :
    (raiseExc t cause unit pc addr flags s).tiles.length = s.tiles.length := by
  have hnote (j : JobEnd) (s : State) : (noteEnd j s).tiles = s.tiles := by
    unfold noteEnd
    split <;> rfl
  unfold raiseExc
  dsimp only
  split
  · rfl
  · split
    · rw [hnote, setTile_length]
    · rfl

/-- R138 to R140: an entry that raises an exception, in a tile that holds none. -/
theorem completion_raises (ups : List Upset) (h : EntryRuns s t u k e) (hu : u ≠ .fabric)
    (hr : runFor u t (insnOf e.word) (strike ups s) = .exc (strike ups s) cause addr)
    (htrap : (tileAt s t).trap = none) (hpc : e.pc < 2 ^ 19) (haddr : addr < 2 ^ 48) :
    ∃ s', exec (.queueEntryCompletion t u k ups) s = .next s' ∧
      tileAt s' t = withoutEntry u k (dropUnstarted { tileAt s t with
        wait := .stop, trap := some ⟨cause, unitNo u, e.pc, addr, 0⟩ }) := by
  refine ⟨_, completion_run ups h hu hr nofun, ?_⟩
  have hcode := h.running
  have ht1 : t < (strike ups s).tiles.length := by rw [strike_tiles]; exact h.lt
  obtain ⟨htile, -⟩ := raiseExc_takes (strike ups s) t cause (unitNo u) e.pc addr 0 ht1
    (by rw [tileAt_strike]; exact .inl hcode) (by rw [tileAt_strike]; exact htrap)
  rw [tileAt_strike, Nat.mod_eq_of_lt hpc, Nat.mod_eq_of_lt haddr, ← hcode] at htile
  rw [settleEntry, dropEntry, updTile_eq, tileAt_setTile_self _ _ _ (by rwa [raiseExc_length]), htile]
  rfl

/-- R130: a matrix instruction other than MMA and ACCPACK, by its opcode. -/
theorem runMatrix_registers (t : Nat) (i : Insn) (s : State) :
    (i.op = 0x90 → runMatrix t i s =
      .done (setTile t { tileAt s t with
        rowStride := sGet (tileAt s t) i.a, colStride := sGet (tileAt s t) i.b } s) fNone) ∧
    (i.op = 0x93 → runMatrix t i s = .done (setTile t (accSet (tileAt s t) i.d accZero) s) fNone) ∧
    (i.op = 0x95 → (sGet (tileAt s t) i.b).toNat ≤ 127 → runMatrix t i s =
      .done (setTile t (vSet (tileAt s t) i.d (accRow (tileAt s t) i.a (sGet (tileAt s t) i.b).toNat)) s) fNone) ∧
    (i.op = 0x96 → (sGet (tileAt s t) i.b).toNat ≤ 127 → runMatrix t i s =
      .done (setTile t (accSet (tileAt s t) i.d
        ((accGet (tileAt s t) i.d).take (64 * (sGet (tileAt s t) i.b).toNat) ++ vGet (tileAt s t) i.a ++
          (accGet (tileAt s t) i.d).drop (64 * (sGet (tileAt s t) i.b).toNat + 64))) s) fNone) ∧
    (i.op = 0x95 ∨ i.op = 0x96 → 127 < (sGet (tileAt s t) i.b).toNat → runMatrix t i s = .exc s 5 0) := by
  unfold runMatrix
  refine ⟨fun ho => ?_, fun ho => ?_, fun ho hrow => ?_, fun ho hrow => ?_, fun ho hrow => ?_⟩
  · simp [ho]
  · simp [ho]
  · simp [ho, Nat.not_lt.2 hrow]
  · simp [ho, Nat.not_lt.2 hrow]
  · rcases ho with ho | ho <;> simp [ho, hrow]

/-- A matrix entry that changes only registers of its tile. -/
theorem matrix_leaves (ups : List Upset) (h : EntryRuns s t .matrix k e)
    (hr : runMatrix t (insnOf e.word) (strike ups s) = .done (setTile t x (strike ups s)) fNone)
    (hcode : x.code = (tileAt s t).code) (hen : x.trapEn = (tileAt s t).trapEn) (htrap : x.trap = (tileAt s t).trap) :
    EntryLeaves s t .matrix 1 k ups e x 0#6 :=
  completion_leaves ups x _ h (by decide) hr (hcode.trans h.running) hen htrap

end MatrixRegisters

/-- Settles O9: each entry by what its run comes to. -/
theorem matrixRegisterResults : Obligations.MatrixRegisterResults := by
  rintro s t k e ups i x rfl rfl
  refine ⟨fun h => ?matrix, fun h ho => ?mvshape⟩
  case matrix =>
    obtain ⟨hshape, hzero, hget, hput, hbad⟩ := runMatrix_registers t (insnOf e.word) (strike ups s)
    simp only [tileAt_strike] at hshape hzero hget hput hbad
    refine ⟨fun ho => matrix_leaves ups h (hshape ho) rfl rfl rfl, fun ho => matrix_leaves ups h (hzero ho) rfl rfl rfl,
      fun ho hrow => matrix_leaves ups h (hget ho hrow) rfl rfl rfl,
      fun ho hrow => matrix_leaves ups h (hput ho hrow) rfl rfl rfl, fun ho hrow htrap hpc => ?_⟩
    exact completion_raises ups h (by decide) (hbad ho hrow) htrap hpc (by decide)
  case mvshape =>
    refine completion_leaves ups _ _ h (by decide) ?_ h.running rfl rfl
    simp only [runFor, runMover, ho, if_true, updTile_eq, tileAt_strike]
    rfl

end Sys2Proof.Machine

/-! ### O10: the vector entries on memory -/

namespace Sys2Proof.Machine

section VectorMemory

variable {s s1 : State} {t k a m n j : Nat} {e : QEntry} {i : Insn} {x : Tile}

/-! #### Parts of a range -/

/-- R81: the place of bytes in a tile's window. -/
def windowPlace (u o n : Nat) : Place :=
  if o + n ≤ scratchSize then .scratch u o
  else if sliceOff ≤ o ∧ o + n ≤ sliceOff + sliceSize then .slice u (o - sliceOff)
  else .unmapped

/-- R81, R82: the place of one byte or more. -/
theorem placeOf_eq (s : State) (t a : Nat) (hn : 0 < n) : placeOf s t a n =
    if a + n ≤ scratchSize then .scratch t a
    else if sliceOff ≤ a ∧ a + n ≤ sliceOff + sliceSize then .slice t (a - sliceOff)
    else if ddrBase ≤ a ∧ a + n ≤ ddrBase + ddrSize then .ddr (a - ddrBase)
    else if windowBase ≤ a ∧ a < windowBase + 144 * windowStride then
      match physOf s ((a - windowBase) / windowStride) with
      | none => .unmapped
      | some u => windowPlace u ((a - windowBase) % windowStride) n
    else .unmapped := by
  rw [placeOf, max_eq_left (by omega : 1 ≤ n)]
  rfl

/-- A place `j` bytes further on. -/
def Place.further (j : Nat) : Place → Place
  | .scratch u o => .scratch u (o + j)
  | .slice u o => .slice u (o + j)
  | .ddr d => .ddr (d + j)
  | .unmapped => .unmapped

theorem windowPlace_part {u o : Nat} (hp : windowPlace u o n ≠ .unmapped) (hj : j + m ≤ n) (hm : 0 < m) :
    windowPlace u (o + j) m = (windowPlace u o n).further j := by
  have hsize : scratchSize < sliceOff := by decide
  unfold windowPlace at *
  by_cases hscratch : o + n ≤ scratchSize
  · rw [if_pos hscratch, if_pos (by omega), Place.further]
  · rw [if_neg hscratch] at hp ⊢
    by_cases hslice : sliceOff ≤ o ∧ o + n ≤ sliceOff + sliceSize
    · rw [if_pos hslice, if_neg (by omega), if_pos (by omega), Place.further, Nat.sub_add_comm hslice.1]
    · exact absurd (if_neg hslice) hp

/-- R82: a part of a range that lies in one region lies as far into it. -/
theorem placeOf_part (hp : placeOf s t a n ≠ .unmapped) (hj : j + m ≤ n) (hm : 0 < m) :
    placeOf s t (a + j) m = (placeOf s t a n).further j := by
  have hsize : scratchSize < sliceOff ∧ sliceOff + sliceSize < windowBase ∧
    windowBase + 144 * windowStride < ddrBase ∧ 0 < windowStride ∧ sliceOff + sliceSize < windowStride := by decide
  rw [placeOf_eq s t a (by omega)] at hp ⊢
  rw [placeOf_eq s t (a + j) hm]
  by_cases hscratch : a + n ≤ scratchSize
  · rw [if_pos hscratch, if_pos (by omega), Place.further]
  rw [if_neg hscratch] at hp ⊢
  by_cases hslice : sliceOff ≤ a ∧ a + n ≤ sliceOff + sliceSize
  · rw [if_pos hslice, if_neg (by omega), if_pos (by omega), Place.further, Nat.sub_add_comm hslice.1]
  rw [if_neg hslice] at hp ⊢
  by_cases hddr : ddrBase ≤ a ∧ a + n ≤ ddrBase + ddrSize
  · rw [if_pos hddr, if_neg (by omega), if_neg (by omega), if_pos (by omega), Place.further, Nat.sub_add_comm hddr.1]
  rw [if_neg hddr] at hp ⊢
  by_cases hwin : windowBase ≤ a ∧ a < windowBase + 144 * windowStride
  · rw [if_pos hwin] at hp ⊢
    cases hphys : physOf s ((a - windowBase) / windowStride) with
    | none => rw [hphys] at hp; exact absurd rfl hp
    | some u =>
      simp only [hphys] at hp ⊢
      have hin : (a - windowBase) % windowStride + n ≤ sliceOff + sliceSize := by
        by_contra hout
        exact hp (by rw [windowPlace, if_neg (by omega), if_neg (by omega)])
      have hstep : a + j - windowBase =
          (a - windowBase) % windowStride + j + windowStride * ((a - windowBase) / windowStride) := by
        have := Nat.mod_add_div (a - windowBase) windowStride
        omega
      have hdiv : (a + j - windowBase) / windowStride = (a - windowBase) / windowStride := by
        rw [hstep, Nat.add_mul_div_left _ _ hsize.2.2.2.1, Nat.div_eq_of_lt (by omega), Nat.zero_add]
      have hmod : (a + j - windowBase) % windowStride = (a - windowBase) % windowStride + j := by
        rw [hstep, Nat.add_mul_mod_self_left, Nat.mod_eq_of_lt (by omega)]
      have hend : a + j < windowBase + 144 * windowStride := by
        have hlt : (a - windowBase) / windowStride < 144 := (Nat.div_lt_iff_lt_mul hsize.2.2.2.1).2 (by omega)
        rw [← hdiv, Nat.div_lt_iff_lt_mul hsize.2.2.2.1] at hlt
        omega
      rw [if_neg (by omega), if_neg (by omega), if_neg (by omega), if_pos (by omega), hdiv, hphys, hmod]
      exact windowPlace_part hp hj hm
  · exact absurd (if_neg hwin) hp

theorem keyOf_part (hp : placeOf s t a n ≠ .unmapped) (hj : j + m ≤ n) (hm : 0 < m) :
    (keyOf s t (a + j) m).getD 0 = (keyOf s t a n).getD 0 + j := by
  unfold keyOf
  rw [placeOf_part hp hj hm]
  cases hplace : placeOf s t a n with
  | unmapped => exact absurd hplace hp
  | _ => simp only [Place.further, Option.getD_some, Nat.add_assoc]

theorem Readable.mapped (h : Readable s t a n) : placeOf s t a n ≠ .unmapped := by
  obtain ⟨u, o, hp, -⟩ | ⟨u, o, hp, -⟩ | ⟨d, hp, -⟩ := h <;> rw [hp] <;> nofun

theorem memRead_add (c : List Host.Cell) (key p q : Nat) :
    memRead c key (p + q) = memRead c key p ++ memRead c (key + p) q := by
  induction p generalizing key with
  | zero => rw [Nat.zero_add]; rfl
  | succ p ih => rw [Nat.succ_add, memRead, memRead, ih, List.cons_append, Nat.add_assoc, Nat.add_comm 1 p]

/-- R5: the words of a range of memory. -/
theorem wordsOf_memRead (c : List Host.Cell) (key n : Nat) :
    wordsOf n (memRead c key (4 * n)) = (List.range n).map fun j => BitVec.ofNat 32 (leVal (memRead c (key + 4 * j) 4)) := by
  induction n generalizing key with
  | zero => rfl
  | succ n ih =>
    have hlen : (memRead c key 4).length = 4 := memRead_length ..
    have hrest (j : Nat) : key + 4 + 4 * j = key + 4 * (j + 1) := by omega
    rw [show 4 * (n + 1) = 4 + 4 * n by omega, memRead_add, wordsOf, leAt, List.drop_zero, List.take_left' hlen,
      List.drop_left' hlen, ih, List.range_succ_eq_map, List.map_cons, List.map_map]
    simp only [hrest, Function.comp_def, Nat.succ_eq_add_one, Nat.mul_zero, Nat.add_zero]

/-- R122: the 64 words that a vector load reads. -/
theorem wordsOf_bytesAt (hr : Readable s t a 256) :
    wordsOf 64 (bytesAt s t a 256) = (List.range 64).map fun j => BitVec.ofNat 32 (leVal (bytesAt s t (a + 4 * j) 4)) := by
  refine (wordsOf_memRead _ _ 64).trans (List.map_congr_left fun j hj => ?_)
  have hj' := List.mem_range.1 hj
  rw [bytesAt, keyOf_part hr.mapped (by omega) (by decide)]

/-! #### Loads -/

@[simp] theorem postUpdate_code (i : Insn) (x : Tile) : (postUpdate i x).code = x.code := by unfold postUpdate; split <;> rfl

@[simp] theorem postUpdate_trapEn (i : Insn) (x : Tile) : (postUpdate i x).trapEn = x.trapEn := by
  unfold postUpdate; split <;> rfl

@[simp] theorem postUpdate_trap (i : Insn) (x : Tile) : (postUpdate i x).trap = x.trap := by unfold postUpdate; split <;> rfl

@[simp] theorem postUpdate_flags (i : Insn) (x : Tile) : (postUpdate i x).flags = x.flags := by
  unfold postUpdate; split <;> rfl

@[simp] theorem postUpdate_srng (i : Insn) (x : Tile) : (postUpdate i x).srng = x.srng := by unfold postUpdate; split <;> rfl

/-- A store that sets no flag and leaves the generator changes its tile by POST alone. -/
theorem postUpdate_stands (i : Insn) (x : Tile) :
    { postUpdate i x with srng := x.srng, flags := (postUpdate i x).flags ||| fNone } = postUpdate i x := by
  rw [show (postUpdate i x).flags ||| fNone = (postUpdate i x).flags from BitVec.or_zero, ← postUpdate_srng i x]

/-- R122: a vector load that meets no error, of an aligned address. -/
theorem vectorLoad_readable {al : Nat} {f : List Byte → Tile → Tile × Flags} (hal : a % al = 0)
    (ha : a = (effAddr (tileAt s t) i).toNat) (hr : Readable s t a n) :
    vectorLoad t n al i f s = .done (setTile t (f (bytesAt s t a n) (postUpdate i (tileAt s t))).1 s)
      (f (bytesAt s t a n) (postUpdate i (tileAt s t))).2 := by
  subst ha
  simp only [vectorLoad, hal, ne_eq, not_true_eq_false, if_false, tileLoad_readable hr]

/-- R120: the memory instructions of the vector queue are not on registers alone. -/
theorem vectorRegs_memory (ho : i.op = 0x7A ∨ i.op = 0x7B ∨ i.op = 0x7C ∨ i.op = 0x7D) (x : Tile) :
    vectorRegs i x = none := by
  rcases ho with ho | ho | ho | ho <;> simp [vectorRegs, laneOp, laneFn, ho]

/-- R122, R126: the memory instructions of the vector queue, by opcode. -/
theorem runVector_memory (t : Nat) (i : Insn) (s : State) :
    (i.op = 0x7A → runVector t i s = vectorLoad t 256 16 i (fun bs x => (vSet x i.d (wordsOf 64 bs), fNone)) s) ∧
    (i.op = 0x7B → runVector t i s = vectorStore t 256 16 i
      (fun x => ((vGet x i.b).flatMap (fun w => leBytes 4 w.toNat), fNone, x.srng)) s) ∧
    (i.op = 0x7C → runVector t i s = vectorStore t (2 * fmtBytes (i.x % 4)) 2 i
      (fun x => packLanes i (vGet x i.b) x.srng) s) ∧
    (i.op = 0x7D → runVector t i s = vectorLoad t (2 * fmtBytes (i.x % 4)) 2 i (fun bs x =>
      (vSet x i.d ((decodeBlock (i.x % 4) (blockOf (i.x % 4) (bs.take (fmtBytes (i.x % 4))))).1 ++
          (decodeBlock (i.x % 4) (blockOf (i.x % 4) (bs.drop (fmtBytes (i.x % 4))))).1),
        (decodeBlock (i.x % 4) (blockOf (i.x % 4) (bs.take (fmtBytes (i.x % 4))))).2 |||
          (decodeBlock (i.x % 4) (blockOf (i.x % 4) (bs.drop (fmtBytes (i.x % 4))))).2)) s) := by
  refine ⟨fun ho => ?_, fun ho => ?_, fun ho => ?_, fun ho => ?_⟩
  all_goals
    unfold runVector
    rw [vectorRegs_memory (by omega)]
    simp [ho]

/-- A vector load sets a register of the tile, after POST. -/
theorem vectorLoad_leaves {v : List W32} {fl : Flags} {ups : List Upset} {d : Nat} (h : EntryRuns s t .vector k e)
    (hr : runVector t (insnOf e.word) (strike ups s) =
      .done (setTile t (vSet (postUpdate i (tileAt s t)) d v) (strike ups s)) fl) :
    EntryLeaves s t .vector 2 k ups e (vSet (postUpdate i (tileAt s t)) d v) fl :=
  completion_leaves ups _ fl h (by decide) hr ((postUpdate_code ..).trans h.running) (postUpdate_trapEn ..)
    (postUpdate_trap ..)

/-! #### Stores -/

theorem storeCheck_writable (hw : Writable s t a n) : storeCheck t a n s = none := by
  obtain ⟨u, o, hp, hcode, -⟩ | ⟨u, o, hp, -⟩ | ⟨d, hp, hheld, -⟩ := hw
  · simp [storeCheck, hp, hcode]
  · simp [storeCheck, hp]
  · simp [storeCheck, hp, hheld]

theorem vectorStore_writable {al : Nat} {f : Tile → List Byte × Flags × BitVec 16} (hal : a % al = 0)
    (ha : a = (effAddr (tileAt s t) i).toNat) (hw : Writable s t a n) :
    vectorStore t n al i f s = .done (updTile t (fun y => { postUpdate i y with srng := (f (tileAt s t)).2.2 })
      (storeBytes t a (f (tileAt s t)).1 s)) (f (tileAt s t)).2.1 := by
  subst ha
  simp only [vectorStore, hal, ne_eq, not_true_eq_false, if_false, storeCheck_writable hw]

theorem Stored.tileAt {key u : Nat} {bs : List Byte} (h : Stored key bs s s1) : tileAt s1 u = tileAt s u := by
  rw [h.1]
  rfl

/-- R122, R126: what an entry leaves that stores bytes and then changes its tile. -/
theorem completion_stores {ups : List Upset} {bs : List Byte} {key : Nat} {f : Tile → Tile} {fl : Flags}
    (h : EntryRuns s t .vector k e) (hs : Stored key bs (strike ups s) s1)
    (hr : runVector t (insnOf e.word) (strike ups s) = .done (updTile t f s1) fl)
    (hfl : fl &&& (f (tileAt s t)).trapEn = 0#6) :
    ∃ s', exec (.queueEntryCompletion t .vector k ups) s = .next s' ∧
      (∀ u, tileAt s' u = if u = t then
        withoutEntry .vector k { f (tileAt s t) with flags := (f (tileAt s t)).flags ||| fl } else tileAt s u) ∧
      ∀ c, memByte s'.mem.cells c =
        if key ≤ c ∧ c < key + bs.length then bs.getD (c - key) 0 else memByte (strike ups s).mem.cells c := by
  refine ⟨_, completion_run ups h (by decide) hr nofun, ?_⟩
  have htile (u : Nat) : tileAt s1 u = tileAt s u := hs.tileAt.trans (tileAt_strike ..)
  have ht : t < s1.tiles.length := by
    rw [hs.1]
    exact (strike_tiles ups s).symm ▸ h.lt
  have hsettle : settleEntry t .vector (unitNo .vector) k e (strike ups s) (.done (updTile t f s1) fl) =
      setTile t (withoutEntry .vector k { f (tileAt s t) with flags := (f (tileAt s t)).flags ||| fl }) s1 := by
    simp only [settleEntry, raiseFlags, dropEntry, updTile_eq, tileAt_setTile_self _ _ _ ht, setTile_setTile, htile, hfl,
      if_true, withoutEntry]
  rw [hsettle]
  refine ⟨fun u => ?_, fun c => ?_⟩
  · rw [tileAt_setTile, htile]
    simp only [ht, and_true, eq_comm]
  · rw [setTile_mem, hs.2, memByte_memWrite]

/-- R5: a byte of words laid end to end. -/
theorem words_getD {ws : List W32} {c : Nat} (hc : c < 4 * ws.length) :
    ((ws.flatMap fun w => leBytes 4 w.toNat).getD c 0).toNat = (ws.getD (c / 4) 0#32).toNat / 256 ^ (c % 4) % 256 := by
  have hmod : c % 4 < 4 := Nat.mod_lt _ (by decide)
  have hget := getElem?_flatMap_const (fun w : W32 => leBytes 4 w.toNat) ws (fun w _ => leBytes_length ..) (c / 4) hmod
  rw [Nat.div_add_mod] at hget
  have hin : c / 4 < ws.length := by omega
  rw [List.getD_eq_getElem?_getD, hget, List.getElem?_eq_getElem hin, Option.bind_some, ← List.getD_eq_getElem?_getD,
    leBytes_getD _ _ _ hmod, List.getD_eq_getElem _ _ hin]

/-- R123: a vector load or store of an address that is not aligned. -/
theorem runVector_misaligned (ho : i.op = 0x7A ∨ i.op = 0x7B) (ha : a = (effAddr (tileAt s t) i).toNat)
    (hal : a % 16 ≠ 0) : runVector t i s = .exc s 3 a := by
  subst ha
  obtain ⟨hld, hst, -⟩ := runVector_memory t i s
  obtain ho | ho := ho
  · rw [hld ho]
    exact if_pos hal
  · rw [hst ho]
    exact if_pos hal

end VectorMemory

/-- Settles O10: a load by what it reads, a store by the bytes that it lays down. -/
theorem vectorMemoryResults : Obligations.VectorMemoryResults := by
  rintro s s1 t k e ups i x a h rfl rfl rfl ha
  have hea : a = (effAddr (tileAt (strike ups s) t) (insnOf e.word)).toNat := by rw [ha, tileAt_strike]
  obtain ⟨hvld, hvst, hvpack, hvunpk⟩ := runVector_memory t (insnOf e.word) (strike ups s)
  refine ⟨fun ho hal hr => ?vld, fun ho hal _ hr b0 b1 hb hlen => ?vunpk, fun ho hal hlen hw => ?vst,
    fun ho hal _ bs fl g hpack hlen hw hfl => ?vpack, fun ho hal htrap hpc => ?align⟩
  case vld =>
    refine vectorLoad_leaves h ((hvld ho).trans ?_)
    rw [vectorLoad_readable hal hea hr, tileAt_strike]
    simp only [wordsOf_bytesAt hr]
    rfl
  case vunpk =>
    refine vectorLoad_leaves h ((hvunpk ho).trans ?_)
    rw [vectorLoad_readable hal hea hr, tileAt_strike]
    simp only [hb, List.take_left' hlen, List.drop_left' hlen]
  case vst =>
    obtain ⟨bs, hbs⟩ : ∃ bs, bs = (vGet (tileAt s t) (insnOf e.word).b).flatMap fun w => leBytes 4 w.toNat :=
      ⟨_, rfl⟩
    have hbytes : bs.length = 256 := by simp [hbs, List.length_flatMap, hlen]
    have hstored := storeBytes_writable (bs := bs) (hbytes.symm ▸ hw)
    have hrun := (hvst ho).trans (vectorStore_writable hal hea hw)
    simp only [tileAt_strike, ← hbs] at hrun
    obtain ⟨s', hs', htile, hmem⟩ := completion_stores h hstored hrun BitVec.zero_and
    rw [hbytes] at hmem
    refine ⟨s', hs', fun u => ?_, fun c => ?_⟩
    · rw [htile, postUpdate_stands]
    · rw [hmem]
      split
      next hc => exact hbs ▸ words_getD (by omega)
      next => rfl
  case vpack =>
    have hrun := (hvpack ho).trans (vectorStore_writable hal hea (hlen ▸ hw))
    simp only [tileAt_strike, hpack] at hrun
    obtain ⟨s', hs', htile, hmem⟩ := completion_stores h (storeBytes_writable hw) hrun (by rwa [postUpdate_trapEn])
    refine ⟨s', hs', fun u => ?_, hmem⟩
    rw [htile, postUpdate_flags]
  case align =>
    have hlt : a < 2 ^ 48 := ha ▸ (effAddr _ _).isLt
    exact completion_raises ups h (by decide) (runVector_misaligned ho hea hal) htrap hpc hlt

end Sys2Proof.Machine

/-! ### O12: MOV -/

namespace Sys2Proof.Machine

section SyncObjects

variable {s : State} {o p u : Nat} {v : W64}

/-! #### The operations on a sync object -/

@[simp] theorem syncGet_updTile (t : Nat) (f : Tile → Tile) (s : State) : syncGet (updTile t f s) o = syncGet s o := rfl

@[simp] theorem syncGet_setTile (t : Nat) (x : Tile) (s : State) : syncGet (setTile t x s) o = syncGet s o := rfl

/-- R220: an object that is set, and the others. -/
theorem syncGet_syncSet (o : Nat) (v : W64) (s : State) (p : Nat) :
    syncGet (syncSet o v s) p = if p = o then v else syncGet s p := Cells.get_set ..

/-- R220: an object that is added to, and the others. -/
theorem syncGet_syncAdd (o : Nat) (v : W64) (s : State) (p : Nat) :
    syncGet (syncAdd o v s) p = if p = o then syncGet s o + v else syncGet s p := Cells.get_set ..

end SyncObjects

section Rewrites

variable {s s1 s2 : State} {t a n key d : Nat} {bs : List Byte}

/-! #### Stores that clean what they cover -/

/-- Nothing has changed but the bytes and marks of memory, and what held no error holds none. -/
structure Rewritten (s s1 : State) : Prop where
  frame : s1 = { s with mem := { s.mem with cells := s1.mem.cells, words := s1.mem.words, gran := s1.mem.gran } }
  words : ∀ w, Cells.get .clean s.mem.words w = .clean → Cells.get .clean s1.mem.words w = .clean
  gran : ∀ g, Cells.get .clean s.mem.gran g = .clean → Cells.get .clean s1.mem.gran g = .clean

theorem Rewritten.refl (s : State) : Rewritten s s := ⟨rfl, fun _ => id, fun _ => id⟩

theorem Rewritten.trans (h : Rewritten s s1) (h' : Rewritten s1 s2) : Rewritten s s2 := by
  refine ⟨?_, fun w hw => h'.words w (h.words w hw), fun g hg => h'.gran g (h.gran g hg)⟩
  have hframe := h'.frame
  rw [h.frame] at hframe
  exact hframe

theorem Rewritten.placeOf (h : Rewritten s s1) : placeOf s1 t a n = placeOf s t a n := by rw [h.frame]; rfl

theorem Rewritten.tileAt (h : Rewritten s s1) : tileAt s1 t = tileAt s t := by rw [h.frame]; rfl

theorem Rewritten.hitsCode (h : Rewritten s s1) (u o : Nat) : hitsCode s1 u o = hitsCode s u o := by rw [h.frame]; rfl

theorem Rewritten.ddrHeld (h : Rewritten s s1) : ddrHeld d n s1 = ddrHeld d n s := by rw [h.frame]; rfl

theorem Rewritten.cleanWords (h : Rewritten s s1) (hc : CleanWords s key n) : CleanWords s1 key n :=
  fun w hw => h.words w (hc w hw)

theorem Rewritten.cleanGrans (h : Rewritten s s1) (hc : CleanGrans s d n) : CleanGrans s1 d n := by
  intro g hg
  obtain ⟨hfree, hclean⟩ := hc g hg
  refine ⟨?_, h.gran g hclean⟩
  rw [← hfree, h.frame]
  rfl

theorem Rewritten.readable (h : Rewritten s s1) (hr : Readable s t a n) : Readable s1 t a n := by
  unfold Readable at *
  simp only [h.placeOf, h.tileAt, h.ddrHeld]
  obtain ⟨u, o, hp, hu, hc⟩ | ⟨u, o, hp, hu, hc⟩ | ⟨d, hp, hh, hc⟩ := hr
  · exact .inl ⟨u, o, hp, hu, h.cleanWords hc⟩
  · exact .inr (.inl ⟨u, o, hp, hu, h.cleanWords hc⟩)
  · exact .inr (.inr ⟨d, hp, hh, h.cleanGrans hc⟩)

theorem Rewritten.writable (h : Rewritten s s1) (hw : Writable s t a n) : Writable s1 t a n := by
  unfold Writable at *
  simp only [h.placeOf, h.tileAt, h.ddrHeld, h.hitsCode]
  obtain ⟨u, o, hp, hh, hu, hc⟩ | ⟨u, o, hp, hu, hc⟩ | ⟨d, hp, hh, hc⟩ := hw
  · exact .inl ⟨u, o, hp, hh, hu, h.cleanWords hc⟩
  · exact .inr (.inl ⟨u, o, hp, hu, h.cleanWords hc⟩)
  · exact .inr (.inr ⟨d, hp, hh, h.cleanGrans hc⟩)

theorem Rewritten.keyOf (h : Rewritten s s1) : keyOf s1 t a n = keyOf s t a n := by
  unfold Machine.keyOf
  rw [h.placeOf]

theorem MarksCleaned.rewritten {m : List Host.Cell} (h : MarksCleaned s s1) :
    Rewritten s { s1 with mem := { s1.mem with cells := m } } := by
  obtain ⟨hframe, hwords⟩ := h
  refine ⟨by rw [hframe], hwords, fun g hg => ?_⟩
  rw [hframe]
  exact hg

/-- R179: a write of an SRAM that meets no error leaves none. -/
theorem sramWrite_rewrites (ce : Nat → Nat → State → State) (hc : CleanWords s key bs.length) :
    Rewritten s (sramWrite key bs ce s) := by
  refine MarksCleaned.rewritten (List.foldlRecOn _ _ (.refl s) fun st hst w hw => ?_)
  have hword := hst.2 w (hc w hw)
  split
  · exact hst.setWord w
  · rw [hword]
    exact hst

/-- R168: marks that a write covers are cleared, and no other changes. -/
theorem clearGrans_clean {g : Nat} (hg : Cells.get .clean s.mem.gran g = .clean) :
    Cells.get .clean (clearGrans d n s).mem.gran g = .clean := by
  by_cases hcover : d ≤ g * 64 ∧ g * 64 + 64 ≤ d + n
  · refine Cells.get_absent _ fun c hc hcg => ?_
    have hkept := (List.mem_filter.1 hc).2
    rw [hcg] at hkept
    simp [hcover] at hkept
  · refine (Cells.get_filter _ _ _ fun c _ hcg => ?_).trans hg
    rw [hcg, decide_eq_false hcover]
    rfl

theorem CleanGrans.unblocked (hc : CleanGrans s d n) : (granRange d n).filter (granBlocked s) = [] :=
  List.filter_eq_nil_iff.2 fun g hg => Bool.not_eq_true _ ▸ (hc g hg).1

/-- R168: a write of LPDDR5X that meets no error leaves none. -/
theorem ddrWrite_rewrites (hc : CleanGrans s d bs.length) : Rewritten s (ddrWrite d bs s).1 := by
  simp only [ddrWrite, hc.unblocked]
  exact ⟨rfl, fun _ => id, fun g hg => clearGrans_clean hg⟩

/-- R82: a store that lands leaves no error where there was none. -/
theorem storeBytes_rewrites (hw : Writable s t a bs.length) : Rewritten s (storeBytes t a bs s) := by
  obtain ⟨u, o, hplace, -, hserves, hc⟩ | ⟨u, o, hplace, hserves, hc⟩ | ⟨d, hplace, -, hc⟩ := hw
  · simp only [storeBytes, hplace, hserves, if_true]
    exact sramWrite_rewrites _ hc
  · simp only [storeBytes, hplace, hserves, if_true]
    exact sramWrite_rewrites _ hc
  · simp only [storeBytes, hplace]
    exact ddrWrite_rewrites hc

theorem tileStore_lands (hw : Writable s t a bs.length) : tileStore t a bs s = (storeBytes t a bs s, .ok []) := by
  simp only [tileStore, storeCheck_writable hw]

end Rewrites

section Copies

variable {m m0 : List Host.Cell} {n rows c : Nat} {src dst : Nat → Nat}

/-! #### Rows copied -/

/-- R131: the bytes of memory after rows of `n` bytes have been copied in order, from what `m0` held. -/
def copied (m0 : List Host.Cell) (n : Nat) : Nat → (Nat → Nat) → (Nat → Nat) → List Host.Cell → List Host.Cell
  | 0, _, _, m => m
  | r + 1, src, dst, m =>
    copied m0 n r (fun q => src (q + 1)) (fun q => dst (q + 1)) (memWrite m (dst 0) (memRead m0 (src 0) n))

theorem memByte_copied_outside (hout : ∀ r < rows, c < dst r ∨ dst r + n ≤ c) :
    memByte (copied m0 n rows src dst m) c = memByte m c := by
  induction rows generalizing src dst m with
  | zero => rfl
  | succ rows ih =>
    have h0 := hout 0 (by omega)
    rw [copied, ih fun r hr => hout (r + 1) (by omega), memByte_memWrite, memRead_length, if_neg (by omega)]

/-- R131: a byte of a row that no other row overlaps. -/
theorem memByte_copied {r j : Nat} (hr : r < rows) (hj : j < n)
    (hapart : ∀ r < rows, ∀ q < rows, r ≠ q → dst r + n ≤ dst q ∨ dst q + n ≤ dst r) :
    memByte (copied m0 n rows src dst m) (dst r + j) = memByte m0 (src r + j) := by
  induction rows generalizing src dst m r with
  | zero => omega
  | succ rows ih =>
    rw [copied]
    cases r with
    | zero =>
      rw [memByte_copied_outside fun q hq => by have := hapart 0 hr (q + 1) (by omega) (by omega); omega,
        memByte_memWrite, memRead_length, if_pos (by omega), Nat.add_sub_cancel_left, memRead_getD _ _ _ _ hj]
    | succ r =>
      exact ih (src := fun q => src (q + 1)) (dst := fun q => dst (q + 1)) (by omega) fun r hr q hq hne =>
        hapart (r + 1) (by omega) (q + 1) (by omega) (by omega)

end Copies

section Moves

variable {s s0 s1 : State} {t k n fs ts a b rows : Nat} {src dst : Nat → Nat} {e : QEntry} {i : Insn}

/-! #### A MOV whose rows do not overlap -/

/-- R131: the rows of a copy may be read and written, and these are their keys. -/
def RowsOk (s : State) (t n fs ts a b rows : Nat) (src dst : Nat → Nat) : Prop :=
  (∀ r < rows, Readable s t (a + r * fs) n ∧ keyOf s t (a + r * fs) n = some (src r)) ∧
  ∀ r < rows, Writable s t (b + r * ts) n ∧ keyOf s t (b + r * ts) n = some (dst r)

theorem RowsOk.tail (h : RowsOk s t n fs ts a b (rows + 1) src dst) :
    RowsOk s t n fs ts (a + fs) (b + ts) rows (fun r => src (r + 1)) (fun r => dst (r + 1)) := by
  obtain ⟨hread, hwrite⟩ := h
  have hnext (c st r : Nat) : c + st + r * st = c + (r + 1) * st := by rw [Nat.succ_mul]; omega
  refine ⟨fun r hr => ?_, fun r hr => ?_⟩
  · rw [hnext]
    exact hread (r + 1) (by omega)
  · rw [hnext]
    exact hwrite (r + 1) (by omega)

/-- R131: rows that may be read and written are copied in order. -/
theorem movRows_lands (hs : Rewritten s0 s) (hok : RowsOk s0 t n fs ts a b rows src dst) :
    ∃ s1, movRows t n fs ts s0 rows a b s = (s1, .ok []) ∧ Rewritten s0 s1 ∧
      s1.mem.cells = copied s0.mem.cells n rows src dst s.mem.cells := by
  induction rows generalizing s a b src dst with
  | zero => exact ⟨s, rfl, hs, rfl⟩
  | succ rows ih =>
    obtain ⟨hread, hsrc⟩ : Readable s0 t a n ∧ keyOf s0 t a n = some (src 0) := by simpa using hok.1 0 (by omega)
    obtain ⟨hwrite, hdst⟩ : Writable s0 t b n ∧ keyOf s0 t b n = some (dst 0) := by simpa using hok.2 0 (by omega)
    have hlen : (memRead s0.mem.cells (src 0) n).length = n := memRead_length ..
    have hw : Writable s t b (memRead s0.mem.cells (src 0) n).length := by
      rw [hlen]
      exact hs.writable hwrite
    have hstored := (storeBytes_writable hw).2
    rw [hlen, hs.keyOf, hdst, Option.getD_some] at hstored
    obtain ⟨s1, hrun, hs1, hcells⟩ := ih (hs.trans (storeBytes_rewrites hw)) hok.tail
    refine ⟨s1, ?_, hs1, ?_⟩
    · rw [movRows, tileLoad_readable (hs.readable hread)]
      simp only [hsrc, Option.map_some, Option.getD_some, tileStore_lands hw, hrun]
    · rw [hcells, hstored]
      rfl

theorem readRefused_readable (h : Readable s t a n) : readRefused s t a n = false := by
  have hserves (u : Nat) (hu : u = t ∨ serving (tileAt s u) = true) :
      (decide (u ≠ t) && !serving (tileAt s u)) = false := by
    obtain hu | hu := hu <;> simp [hu]
  obtain ⟨u, o, hp, hu, -⟩ | ⟨u, o, hp, hu, -⟩ | ⟨d, hp, -⟩ := h
  · simp only [readRefused, hp, hserves u hu]
  · simp only [readRefused, hp, hserves u hu]
  · simp only [readRefused, hp]

/-- R138: rows that may be read and written raise no ADDRESS. -/
theorem movAddress_none (hok : RowsOk s t n fs ts a b rows src dst) : movAddress s t n a b fs ts rows = none := by
  refine List.findSome?_eq_none_iff.2 fun r hr => ?_
  have hr' := List.mem_range.1 hr
  simp only [readRefused_readable (hok.1 r hr').1, storeCheck_writable (hok.2 r hr').1, Bool.false_eq_true, if_false]

/-- R131: rows that no source row overlaps hold nothing undefined. -/
theorem overlapKeys_apart {ks : List (Option Nat)} {d : Nat} (h : ∀ k, some k ∈ ks → d + n ≤ k ∨ k + n ≤ d) :
    overlapKeys ks (some d) n = [] := by
  have hnear : (ks.filterMap fun o => o.filter fun k => decide (k < d + n ∧ d < k + n)) = [] := by
    refine List.filterMap_eq_nil_iff.2 fun o ho => ?_
    cases o with
    | none => rfl
    | some k => exact Option.filter_some_neg (by have := h k ho; simp; omega)
  simp only [overlapKeys, hnear, List.any_nil, Bool.false_eq_true, if_false, List.filterMap_none]

theorem spoilKeys_nil (s : State) : spoilKeys [] s = s := rfl

theorem settleEntry_done (t : Nat) (u : TileUnit) (unit k : Nat) (e : QEntry) (s s1 : State) :
    settleEntry t u unit k e s (.done s1 fNone) =
      updTile t (fun x => queuePut x u ((queueGet x u).eraseIdx k))
        (updTile t (fun x => { x with flags := x.flags ||| fNone }) s1) := by
  have hnone (f : Flags) : fNone &&& f = 0#6 := BitVec.zero_and
  simp only [settleEntry, raiseFlags, hnone, if_true, dropEntry]

/-- R131: a MOV of tile `x` copies `rows` rows of `n` bytes, `fs` and `ts` apart, all of whole lines. -/
structure MoveOf (x : Tile) (i : Insn) (n rows fs ts : Nat) : Prop where
  length : n = (sGet x i.d).toNat
  lines : n % 16 = 0
  least : 16 ≤ n
  count : rows = if bitOf i.x 0 then x.mvRows.toNat else 1
  nonempty : 1 ≤ rows
  most : rows ≤ 65535
  srcStep : fs = if bitOf i.x 0 then x.mvSrc.toNat else 0
  dstStep : ts = if bitOf i.x 0 then x.mvDst.toNat else 0
  srcLines : fs % 16 = 0
  dstLines : ts % 16 = 0
  srcAddr : (aGet x i.a).toNat % 16 = 0
  dstAddr : (aGet x i.b).toNat % 16 = 0

/-- R131: a MOV whose rows may be read and written, and do not overlap. -/
theorem runMov_lands {x : Tile} (hx : x = tileAt s t) (hm : MoveOf x i n rows fs ts)
    (hok : RowsOk s t n fs ts (aGet x i.a).toNat (aGet x i.b).toNat rows src dst)
    (hapart : ∀ r < rows, ∀ q < rows, dst r + n ≤ src q ∨ src q + n ≤ dst r) :
    ∃ s1, runMov t i s = .done (if bitOf i.x 1 then syncAdd i.imm 1#64 s1 else s1) fNone ∧ Rewritten s s1 ∧
      s1.mem.cells = copied s.mem.cells n rows src dst s.mem.cells := by
  obtain ⟨hn, hn16, hn0, hrows, h1, h2, hfs, hts, hfs16, hts16, ha, hb⟩ := hm
  obtain ⟨s1, hrun, hs1, hcells⟩ := movRows_lands (.refl s) hok
  have hover : (List.range rows).flatMap (fun r => overlapKeys
      ((List.range rows).map fun r => keyOf s t ((aGet x i.a).toNat + r * fs) n)
      (keyOf s t ((aGet x i.b).toNat + r * ts) n) n) = [] := by
    refine List.flatMap_eq_nil_iff.2 fun r hr => ?_
    have hr' := List.mem_range.1 hr
    rw [(hok.2 r hr').2]
    refine overlapKeys_apart fun key hkey => ?_
    obtain ⟨q, hq, hsrc⟩ := List.mem_map.1 hkey
    rw [(hok.1 q (List.mem_range.1 hq)).2, Option.some.injEq] at hsrc
    exact hsrc ▸ hapart r hr' q (List.mem_range.1 hq)
  have hcount : ¬ (rows < 1 ∨ 65535 < rows) := by omega
  have hoperand : ¬ (n % 16 ≠ 0 ∨ n < 16 ∨ fs % 16 ≠ 0 ∨ ts % 16 ≠ 0 ∨ rows < 1 ∨ 65535 < rows) := by omega
  refine ⟨s1, ?_, hs1, hcells⟩
  unfold runMov
  simp only [← hx, ← hn, ← hrows, ← hfs, ← hts, ha, hb, ne_eq, not_true_eq_false, if_false, if_neg hcount, movAddress_none hok,
    hrun, hover, spoilKeys_nil]
  rw [if_neg hoperand]

theorem strike_sync (ups : List Upset) (s : State) : (strike ups s).sync = s.sync := by
  unfold strike
  refine forEach_keeps (·.sync) _ (fun u x => ?_) ups s
  dsimp only
  split <;> rfl

end Moves

/-- Settles O12: the run of the entry copies its rows in order; none overlaps another or a source row. -/
theorem moverCopies : Obligations.MoverCopies := by
  rintro s s1 t k e ups i x n rows fs ts src dst h rfl rfl rfl ho hn hn16 hn0 hrows h1 h2 hfs hts hfs16 hts16 ha hb
    hread hwrite hapart
  obtain ⟨s2, hrun, hs2, hcells⟩ := runMov_lands (tileAt_strike ups s t).symm
    ⟨hn, hn16, hn0, hrows, h1, h2, hfs, hts, hfs16, hts16, ha, hb⟩ ⟨hread, hwrite⟩ fun r hr q hq => (hapart r hr q hq).1
  have hmove : runFor .mover t (insnOf e.word) (strike ups s) = runMov t (insnOf e.word) (strike ups s) := by
    simp only [runFor, runMover, ho]
    rfl
  refine ⟨_, completion_run ups h (by decide) (hmove.trans hrun) nofun, ?_⟩
  have hmem : (if bitOf (insnOf e.word).x 1 then syncAdd (insnOf e.word).imm 1#64 s2 else s2).mem = s2.mem := by
    split <;> rfl
  have hsync : s2.sync = s.sync := by
    rw [hs2.frame]
    exact strike_sync ups s
  have hobj (o : Nat) : syncGet s2 o = syncGet s o := congrArg (fun y : Sync => Cells.get 0#64 y.objs o) hsync
  rw [settleEntry_done]
  refine ⟨fun r hr j hj => ?copied, fun c hc => ?outside, fun hbit => ⟨?sync, fun u => ?tiles⟩, fun hbit =>
    ⟨?added, fun o hne => ?others⟩⟩
  case copied =>
    rw [updTile_mem, updTile_mem, hmem, hcells]
    exact memByte_copied hr hj fun r hr q hq => (hapart r hr q hq).2
  case outside =>
    rw [updTile_mem, updTile_mem, hmem, hcells, memByte_copied_outside hc]
  case sync =>
    rw [updTile_sync, updTile_sync, hbit]
    exact hsync
  case tiles =>
    have htile (u : Nat) : tileAt s2 u = tileAt s u := hs2.tileAt.trans (tileAt_strike ..)
    have ht : t < s2.tiles.length := by
      rw [hs2.frame]
      exact (strike_tiles ups s).symm ▸ h.lt
    have hflags : (tileAt s t).flags ||| fNone = (tileAt s t).flags := BitVec.or_zero
    simp only [hbit, Bool.false_eq_true, if_false, updTile_eq, tileAt_setTile_self _ _ _ ht, setTile_setTile, htile, hflags]
    rw [tileAt_setTile, htile]
    simp only [ht, and_true, eq_comm]
    rfl
  case added =>
    rw [syncGet_updTile, syncGet_updTile, hbit, if_pos rfl, syncGet_syncAdd, if_pos rfl, hobj]
  case others =>
    rw [syncGet_updTile, syncGet_updTile, hbit, if_pos rfl, syncGet_syncAdd, if_neg hne, hobj]

end Sys2Proof.Machine

/-! ### O13: the sync instructions -/

namespace Sys2Proof.Machine

section SyncInstructions

variable {s : State} {t o : Nat} {i : Insn} {v : W64}

/-! #### Waits that an operation ends -/

/-- R222: what an operation on a sync object leaves of a tile. -/
theorem tileAt_wakeWaits (o : Nat) (v : W64) (s : State) (u : Nat) :
    tileAt (wakeWaits o v s) u = woken o v (tileAt s u) := by
  show (s.tiles.map (woken o v)).getD u (woken o v noTile) = _
  exact List.getD_map ..

theorem woken_of_idle {x : Tile} (hx : x.wait = .none) : woken o v x = x := by rw [woken, hx]

theorem wakeWaits_length (o : Nat) (v : W64) (s : State) : (wakeWaits o v s).tiles.length = s.tiles.length :=
  List.length_map ..

/-- R220: an operation of a source in this module leaves its object at a value. -/
theorem syncSet_leaves (o : Nat) (v : W64) (s : State) :
    (∀ u, tileAt (syncSet o v s) u = woken o v (tileAt s u)) ∧ (syncSet o v s).tiles.length = s.tiles.length :=
  ⟨fun u => tileAt_wakeWaits o v _ u, wakeWaits_length o v _⟩

theorem syncAdd_eq_syncSet (o : Nat) (n : W64) (s : State) : syncAdd o n s = syncSet o (syncGet s o + n) s := rfl

/-- R220, R222: what a tile leaves that sets an object and goes on. -/
theorem stepOver_syncSet (h : Issues s t i) (hn : NextInCode s t) (o : Nat) (v : W64) :
    tileAt (stepOver t (syncSet o v s)) t = { tileAt s t with pc := (tileAt s t).pc + 8 } ∧
    SyncLeaves s (stepOver t (syncSet o v s)) t o v := by
  have hwait : (tileAt s t).wait = .none := by
    obtain ⟨w, ⟨-, -, hwait, -⟩, -⟩ := h
    exact hwait
  obtain ⟨htiles, hlen⟩ := syncSet_leaves o v s
  have ht : t < (syncSet o v s).tiles.length := by rw [hlen]; exact h.lt
  have hself : tileAt (syncSet o v s) t = tileAt s t := (htiles t).trans (woken_of_idle hwait)
  rw [stepOver_plain t (syncSet o v s) (by rw [hself]; exact h.short) (by rw [hself]; exact h.aligned)
    (by rw [NextInCode, hself]; exact hn), hself]
  refine ⟨tileAt_setTile_self _ _ _ ht, ?_, fun p hp => ?_, fun u hu => ?_, rfl⟩
  · exact (syncGet_syncSet o v s o).trans (if_pos rfl)
  · exact (syncGet_syncSet o v s p).trans (if_neg hp)
  · exact (tileAt_setTile_ne _ _ _ _ hu.symm).trans (htiles u)

/-! #### The instructions -/

/-- R134: SYADD or SYSET that issues. -/
theorem syncWrite_issues {op : Nat} {f : Nat → W64 → State → State} (h : Issues s t i) (ho : i.op = op)
    (hobj : o = syncObj (tileAt s t) i) (hv : v = BitVec.ofNat 64 (sGet (tileAt s t) i.b).toNat) :
    syncWrite op f t s =
      if allEntries (tileAt s t) = [] then if 16384 ≤ o then raiseHere t 9 o s else stepOver t (f o v s) else s := by
  subst hobj hv
  unfold syncWrite
  rw [runInsn_of_issues op _ h ho]
  dsimp only
  rw [setWidth_eq_ofNat]
  by_cases hq : allEntries (tileAt s t) = []
  · simp only [queuesEmpty, hq, List.isEmpty_nil, Bool.not_true, Bool.false_eq_true, if_false, if_true]
  · simp only [queuesEmpty, List.isEmpty_eq_false_iff.2 hq, hq, Bool.not_false, if_false, if_true]

/-- Another instruction than the one that is next changes nothing. -/
theorem runInsn_other {op : Nat} {f : Insn → State → State} (h : Issues s t i) (ho : i.op ≠ op) : runInsn op t f s = s := by
  unfold runInsn
  rw [nextInsn_of_issues h]
  exact if_neg fun hop => ho hop.1

theorem syncWrite_waits {op : Nat} {f : Nat → W64 → State → State} (h : Issues s t i) (hq : allEntries (tileAt s t) ≠ []) :
    syncWrite op f t s = s := by
  by_cases ho : i.op = op
  · rw [syncWrite_issues h ho rfl rfl, if_neg hq]
  · exact runInsn_other h ho

/-- R134: a number beyond the objects raises SYNC. -/
theorem raiseHere_sync (h : Issues s t i) (hobj : o = syncObj (tileAt s t) i) :
    TakesException s (raiseHere t 9 o s) t ⟨9, 0, (tileAt s t).pc, o, 0⟩ := by
  have htakes := raiseHere_takes h 9 o
  have himm := h.imm_lt
  have hreg := (sGet (tileAt s t) i.a).isLt
  rwa [Nat.mod_eq_of_lt (by rw [hobj, syncObj]; omega)] at htakes

/-- R134: SYADD and SYSET, by their operation. -/
theorem syncWrite_leaves {op : Nat} {f : Nat → W64 → State → State} {w : W64} (h : Issues s t i) (ho : i.op = op)
    (hobj : o = syncObj (tileAt s t) i) (hv : v = BitVec.ofNat 64 (sGet (tileAt s t) i.b).toNat)
    (hq : allEntries (tileAt s t) = []) (hf : f o v s = syncSet o w s) :
    (NextInCode s t → o < 16384 → ∃ s', (.next (syncWrite op f t s) : Result) = .next s' ∧
      tileAt s' t = { tileAt s t with pc := (tileAt s t).pc + 8 } ∧ SyncLeaves s s' t o w) ∧
    (16384 ≤ o → ∃ s', (.next (syncWrite op f t s) : Result) = .next s' ∧
      TakesException s s' t ⟨9, 0, (tileAt s t).pc, o, 0⟩) := by
  rw [syncWrite_issues h ho hobj hv, if_pos hq]
  refine ⟨fun hn hin => ⟨_, rfl, ?_⟩, fun hout => ⟨_, rfl, ?_⟩⟩
  · rw [if_neg (by omega), hf]
    exact stepOver_syncSet h hn _ _
  · rw [if_pos hout]
    exact raiseHere_sync h hobj

/-- R134: SYRD that issues. -/
theorem syrd_issues (h : Issues s t i) (ho : i.op = 0xC2) (hobj : o = syncObj (tileAt s t) i) :
    exec (.syrd t) s = .next (if 16384 ≤ o then raiseHere t 9 o s
      else stepOver t (setTile t (sSet (tileAt s t) i.d (BitVec.ofNat 32
        (if i.x % 2 = 1 then (syncGet s o).toNat / 2 ^ 32 else (syncGet s o).toNat))) s)) := by
  subst hobj
  refine congrArg Host.Outcome.next ((runInsn_of_issues 0xC2 _ h ho).trans ?_)
  simp only [bitOf, Nat.testBit_zero, decide_eq_true_eq]
  rfl

/-- R135: SYWAIT that issues. -/
theorem sywait_issues (h : Issues s t i) (ho : i.op = 0xC3) (hobj : o = syncObj (tileAt s t) i) :
    exec (.sywait t) s = .next (if 16384 ≤ o then raiseHere t 9 o s
      else if (sGet (tileAt s t) i.b).toNat ≤ (syncGet s o).toNat then stepOver t s
      else setTile t { tileAt s t with wait := .sync o (sGet (tileAt s t) i.b).toNat } s) := by
  subst hobj
  exact congrArg Host.Outcome.next (runInsn_of_issues 0xC3 _ h ho)

end SyncInstructions

/-- Settles O13: each instruction by what it does where it issues; a wait that has ended goes on. -/
theorem syncInstructions : Obligations.SyncInstructions := by
  refine ⟨?_, ?satisfied⟩
  · rintro s t i x o v h rfl hobj hv
    refine ⟨fun hn hin => ⟨fun ho hq => ?add, fun ho hq => ?set, fun ho => ?read, fun ho hge => ?goesOn, fun ho hlt => ?waits⟩,
      fun _ hq => ?busy, fun hout => ⟨fun ho hq => ?addBad, fun ho hq => ?setBad, fun ho => ?readBad, fun ho => ?waitBad⟩⟩
    case add => exact (syncWrite_leaves h ho hobj hv hq (syncAdd_eq_syncSet ..)).1 hn hin
    case set => exact (syncWrite_leaves h ho hobj hv hq rfl).1 hn hin
    case addBad => exact (syncWrite_leaves h ho hobj hv hq (syncAdd_eq_syncSet ..)).2 hout
    case setBad => exact (syncWrite_leaves h ho hobj hv hq rfl).2 hout
    case read =>
      rw [syrd_issues h ho hobj, if_neg (by omega)]
      exact congrArg Host.Outcome.next (stepOver_setTile t _ s h.lt (by rw [sSet_codeLen]; exact h.short)
        (by rw [sSet_pc]; exact h.aligned) (by rw [sSet_codeLen, sSet_pc]; exact hn))
    case goesOn =>
      rw [sywait_issues h ho hobj, if_neg (by omega), if_pos hge, stepOver_plain t s h.short h.aligned hn]
    case waits =>
      rw [sywait_issues h ho hobj, if_neg (by omega), if_neg (Nat.not_le.2 hlt)]
    case busy =>
      exact ⟨congrArg Host.Outcome.next (syncWrite_waits h hq), congrArg Host.Outcome.next (syncWrite_waits h hq)⟩
    case readBad => exact ⟨_, (syrd_issues h ho hobj).trans (congrArg _ (if_pos hout)), raiseHere_sync h hobj⟩
    case waitBad => exact ⟨_, (sywait_issues h ho hobj).trans (congrArg _ (if_pos hout)), raiseHere_sync h hobj⟩
  case satisfied =>
    rintro s t x ht rfl hwait haligned hn hshort
    exact congrArg Host.Outcome.next ((if_pos hwait).trans (stepOver_setTile t _ s ht hshort haligned hn))

end Sys2Proof.Machine

/-! ### O14: the stream instructions -/

namespace Sys2Proof.Machine

section Streams

variable {s : State} {t n r l : Nat} {i : Insn} {d : StreamDesc}

/-- An instruction that changes a stream and goes on. -/
theorem stepOver_withStream (h : Issues s t i) (hn : NextInCode s t) (n : Nat) (st : Stream) (wse : Wse) :
    stepOver t (withStream n st { s with wse := wse }) = advanced t (tileAt s t) (withStream n st { s with wse := wse }) :=
  stepOver_plain t (withStream n st { s with wse := wse }) h.short h.aligned hn

/-! #### SSTART -/

/-- R132, R196, R199: an SSTART that issues in the leader of its descriptor, whose engines are idle. -/
theorem sstart_issues (h : Issues s t i) (ho : i.op = 0xB0) (hd : streamDesc s i.imm = some d)
    (hidle : enginesIdle (tileAt s t) = true) (hl : (tileAt s t).logical = some d.leader) :
    exec (.sstart t) s = .next (
      if (streamAt s i.imm).pass.isNone then stepOver t (withStream i.imm { streamAt s i.imm with
          starts := (streamAt s i.imm).starts + 1, pass := some (newPass s d (streamAt s i.imm)) }
        { s with wse := { s.wse with order := s.wse.order + 1 } })
      else if (streamAt s i.imm).held.isNone then stepOver t (withStream i.imm { streamAt s i.imm with
          starts := (streamAt s i.imm).starts + 1, held := some (newPass s d (streamAt s i.imm)) }
        { s with wse := { s.wse with order := s.wse.order + 1 } })
      else s) := by
  refine congrArg Host.Outcome.next ((runInsn_of_issues 0xB0 _ h ho).trans ?_)
  simp only [hidle, hd, Bool.not_true, Bool.false_eq_true, if_false]
  exact if_neg (not_not_intro hl)

/-! #### STAKE -/

/-- R132, R196: a member of the group of a WEIGHT descriptor may take and free its buffers. -/
theorem streamBad_member (hd : streamDesc s n = some d) (hl : (tileAt s t).logical = some l) (hk : d.kind = 1)
    (hg : l ∈ groupOf s d.group) : streamBad s t n = false := by
  simp only [streamBad, hd, memberOf, hl, hk, List.contains_iff_mem.2 hg, decide_true, Bool.and_self, Bool.not_true]

/-- R214: a buffer whose poison a take would raise holds none. -/
theorem takenPoison_none {f : Nat} {b : Buf} (hp : bitOf f 5 = true → b.poison = none) :
    (if (wform f).errTrap then b.poison else none) = none := by
  split
  next herr => exact hp herr
  next => rfl

/-- R194: a FULL buffer is taken, and the tile goes on. -/
theorem takeBuffer_full (ht : t < s.tiles.length) (hshort : (tileAt s t).codeLen ≤ scratchSize)
    (haligned : (tileAt s t).pc % 8 = 0) (hn : NextInCode s t) (hd : streamDesc s n = some d)
    (hl : (tileAt s t).logical = some l)
    (hfull : (bufAt (streamAt s n) l (nextTaken d (streamAt s n) l)).code = .full)
    (hp : bitOf d.format 5 = true → (bufAt (streamAt s n) l (nextTaken d (streamAt s n) l)).poison = none) :
    takeBuffer t n r s = some (tookBuffer t n r l d s) := by
  have hpoison := takenPoison_none hp
  unfold nextTaken at hfull hpoison
  simp only [takeBuffer, hd, hl, hfull, hpoison, if_true]
  exact congrArg some (stepOver_setTile t _ _ ht hshort haligned hn)

/-- R194: a buffer that is not FULL is not taken. -/
theorem takeBuffer_empty (hd : streamDesc s n = some d) (hl : (tileAt s t).logical = some l)
    (hfull : (bufAt (streamAt s n) l (nextTaken d (streamAt s n) l)).code ≠ .full) : takeBuffer t n r s = none := by
  unfold nextTaken at hfull
  simp only [takeBuffer, hd, hl, hfull, if_false]

/-- R132: a STAKE that issues in a member. -/
theorem stake_issues (h : Issues s t i) (ho : i.op = 0xB1) (hbad : streamBad s t i.imm = false) :
    exec (.stake t) s = .next ((takeBuffer t i.imm i.d s).getD
      (setTile t { tileAt s t with wait := .stake i.imm i.d } s)) := by
  refine congrArg Host.Outcome.next ((runInsn_of_issues 0xB1 _ h ho).trans ?_)
  simp only [hbad, Bool.false_eq_true, if_false]
  cases takeBuffer t i.imm i.d s <;> rfl

/-! #### SFREE -/

/-- R133, R194: an SFREE that issues in a member whose matrix and vector queues are empty. -/
theorem sfree_issues (h : Issues s t i) (ho : i.op = 0xB2) (hm : (tileAt s t).mq = []) (hv : (tileAt s t).vq = [])
    (hbad : streamBad s t i.imm = false) (hd : streamDesc s i.imm = some d) (hl : (tileAt s t).logical = some l) :
    exec (.sfree t) s = .next (
      if Cells.get 0 (streamAt s i.imm).freed l < Cells.get 0 (streamAt s i.imm).taken l then
        stepOver t (withStream i.imm
          { setBuf l (Cells.get 0 (streamAt s i.imm).freed l % d.nbuf) ⟨.empty, none⟩ (streamAt s i.imm) with
            freed := Cells.set 0 (streamAt s i.imm).freed l (Cells.get 0 (streamAt s i.imm).freed l + 1) } s)
      else raiseHere t 8 0 s) := by
  refine congrArg Host.Outcome.next ((runInsn_of_issues 0xB2 _ h ho).trans ?_)
  simp only [hm, hv, hbad, hd, hl, List.isEmpty_nil, Bool.and_self, Bool.not_true, Bool.false_eq_true, if_false]
  rfl

end Streams

/-- Settles O14: each instruction by what it does where it issues; a STAKE that waits takes the buffer once it is FULL. -/
theorem streamInstructions : Obligations.StreamInstructions := by
  refine ⟨?_, ?satisfied⟩
  · rintro s t i x d st h hn rfl hd rfl
    refine ⟨fun ho hm hv hmov hl => ?starts, fun l hl hk hg => ?members⟩
    case starts =>
      have hidle : enginesIdle (tileAt s t) = true := by simp only [enginesIdle, hm, hv, hmov, List.isEmpty_nil, Bool.and_self]
      rw [sstart_issues h ho hd hidle hl]
      refine ⟨fun hp => ?_, fun hp hheld => ?_, fun hp hheld => ?_⟩
      · rw [if_pos (by rw [hp]; rfl), stepOver_withStream h hn]
        rfl
      · rw [if_neg (by rwa [Option.isNone_iff_eq_none]), if_pos (by rw [hheld]; rfl), stepOver_withStream h hn]
        rfl
      · rw [if_neg (by rwa [Option.isNone_iff_eq_none]), if_neg (by rwa [Option.isNone_iff_eq_none])]
    case members =>
      have hbad := streamBad_member hd hl hk hg
      refine ⟨fun ho hfull hp => ?_, fun ho hfull => ?_, fun ho hm hv hlt => ?_, fun ho hm hv hle => ?_⟩
      · rw [stake_issues h ho hbad, takeBuffer_full h.lt h.short h.aligned hn hd hl hfull hp, Option.getD_some]
      · rw [stake_issues h ho hbad, takeBuffer_empty hd hl hfull, Option.getD_none]
      · rw [sfree_issues h ho hm hv hbad hd hl, if_pos hlt]
        exact congrArg Host.Outcome.next (stepOver_withStream h hn _ _ s.wse)
      · exact ⟨_, (sfree_issues h ho hm hv hbad hd hl).trans (congrArg _ (if_neg (Nat.not_lt.2 hle))), raiseHere_takes h 8 0⟩
  case satisfied =>
    rintro s t n r l x d st ht rfl hwait hl hd rfl haligned hn hshort hfull hp
    have htake := takeBuffer_full (r := r) ht hshort haligned hn hd hl hfull hp
    show execStakeSatisfied t s = _
    simp only [execStakeSatisfied, hwait, htake, Option.getD_some]

end Sys2Proof.Machine

/-! ### O31: the head of the fabric queue -/

namespace Sys2Proof.Machine

section FabricHead

variable {s s1 : State} {t n c : Nat} {e : QEntry} {es : List QEntry} {i : Insn}

/-- R115: an entry of the fabric queue that needs no acknowledgement leaves its queue. -/
theorem settleEntry_fabric (s : State) (ht : t < s1.tiles.length) (hq : (tileAt s1 t).fq = e :: es) :
    settleEntry t .fabric 4 0 e s (.done s1 fNone) = setTile t { tileAt s1 t with fq := es } s1 := by
  have hflags : (tileAt s1 t).flags ||| fNone = (tileAt s1 t).flags := BitVec.or_zero
  rw [settleEntry_done, updTile_eq, updTile_eq, tileAt_setTile_self _ _ _ ht, setTile_setTile, hflags]
  simp only [queuePut, queueGet, hq, List.eraseIdx_zero, List.tail_cons]

/-- R115, R136, R137: an entry at the head of the fabric queue that runs, other than an FPUT. -/
theorem fabricHead_runs (hq : (tileAt s t).fq = e :: es) (hh : e.handed = false) (hfree : entryFree (tileAt s t) e = true)
    (ho : (insnOf e.word).op ≠ 0xD1) (hrun : runFabric t (insnOf e.word) s = .done s1 fNone)
    (ht : t < s1.tiles.length) (hq1 : (tileAt s1 t).fq = e :: es) :
    fabricHead t s = setTile t { tileAt s1 t with fq := es } s1 := by
  have hstays : staysHanded s (insnOf e.word) = false := by simp [staysHanded, ho]
  unfold fabricHead
  simp only [hq, hh, hfree, hrun, hstays, Bool.not_true, Bool.false_eq_true, if_false]
  exact settleEntry_fabric s ht hq1

/-- R115: the completion of the head of the fabric queue. -/
theorem fabricCompletion (hc : (tileAt s t).code = .running) (hp : s.pwr.tripped = false) :
    exec (.queueEntryCompletion t .fabric 0 []) s = .next (fabricHead t s) := by
  have hgo : ¬ ((tileAt s t).code ≠ .running ∨ s.pwr.tripped = true) := by simp [hc, hp]
  exact congrArg Host.Outcome.next (if_neg hgo)

/-! #### CPOST -/

/-- R316: the lowest context that no collective holds. -/
theorem freeInstCtx_lowest (hc : c < 16) (hfree : ∀ j ∈ s.coll.insts, j.ctx ≠ c)
    (hlow : ∀ b < c, ∃ j ∈ s.coll.insts, j.ctx = b) : freeInstCtx s = some c := by
  refine List.find?_range_eq_some.2 ⟨?_, List.mem_range.2 hc, fun b hb => ?_⟩
  · simpa using hfree
  · simpa using hlow b hb

/-- R136, R316: a CPOST of a descriptor that no collective runs takes the lowest free context. -/
theorem runCpost_posts (hd : i.imm < s.job.colls.length) (hi : i.imm < 1024)
    (hnew : ∀ j ∈ s.coll.insts, j.desc ≠ i.imm) (hc : freeInstCtx s = some c) :
    runCpost t i s = .done { s with coll := { s.coll with
      nums := Cells.set 0 s.coll.nums i.imm ((Cells.get 0 s.coll.nums i.imm + 1) % 65536)
      insts := s.coll.insts ++ [{
        ctx := c, desc := i.imm, num := Cells.get 0 s.coll.nums i.imm,
        src := (aGet (tileAt s t) i.a).toNat, dst := (aGet (tileAt s t) i.b).toNat }] } } fNone := by
  have hdn : i.imm % 1024 = i.imm := Nat.mod_eq_of_lt hi
  have hany : s.coll.insts.any (fun j => j.desc = i.imm) = false := by simpa using hnew
  unfold runCpost
  simp only [hdn, hany, hc, Nat.not_le.2 hd, Bool.false_eq_true, if_false]

/-! #### FSIG -/

/-- R137: an FSIG to this module. -/
theorem runFsig_local (hobj : remoteObj (bits i.imm 29 16) = true) (hown : i.imm % 65536 = ownId s) :
    runFsig t i s =
      .done (syncAdd (bits i.imm 29 16) (BitVec.ofNat 64 (sGet (tileAt s t) i.b).toNat) s) fNone := by
  unfold runFsig
  simp only [hobj, hown, Bool.not_true, Bool.false_eq_true, if_false, if_true]

/-- R137: the unit of an FSIG to another module. -/
def fsigUnit (s : State) (t : Nat) (i : Insn) : FabUnit :=
  { kind := 2, stream := (tileAt s t).logical.getD 0
    opseq := nextOp s (i.imm % 65536) ((tileAt s t).logical.getD 0)
    addr := (sGet (tileAt s t) i.b).toNat, object := bits i.imm 29 16 }

/-- R137, R299: an FSIG to another module, which a phase in force reaches. -/
theorem runFsig_remote (hobj : remoteObj (bits i.imm 29 16) = true) (hown : i.imm % 65536 ≠ ownId s)
    (hplan : planned s (i.imm % 65536) = true)
    (hslot : openSlotTo s ((tileAt s t).logical.getD 0) (i.imm % 65536) = some n) :
    runFsig t i s = .done (placeUnit n (i.imm % 65536)
      ⟨fsigUnit s t i, .tile ((tileAt s t).logical.getD 0) (fsigUnit s t i).opseq⟩
      (useOp (i.imm % 65536) ((tileAt s t).logical.getD 0) s)) fNone := by
  unfold runFsig
  simp only [hobj, hown, hplan, hslot, Bool.not_true, Bool.false_eq_true, if_false]
  rfl

theorem runFabric_op (t : Nat) (i : Insn) (s : State) : (i.op = 0xD0 → runFabric t i s = runCpost t i s) ∧
    (i.op = 0xD2 → runFabric t i s = runFsig t i s) := by
  refine ⟨fun ho => if_pos ho, fun ho => ?_⟩
  rw [runFabric, if_neg (by omega), if_neg (by omega)]

/-- R111, R137: the module that an FSIG names. -/
theorem entryDest_fsig (ho : (insnOf e.word).op = 0xD2) : entryDest e = some ((insnOf e.word).imm % 65536) := by
  have hop : (insnOf e.word).op = e.word.toNat / 2 ^ 56 := by
    have hlt := e.word.isLt
    simp only [insnOf, bits]
    omega
  have himm : (insnOf e.word).imm % 65536 = e.word.toNat % 65536 := by
    simp only [insnOf, bits]
    omega
  rw [entryDest, himm]
  exact if_pos (.inr (hop.symm.trans ho))

/-- R299: the head of the fabric queue leaves where a phase in force reaches its destination. -/
theorem fabricRelease (hq : (tileAt s t).fq = e :: es) (hc : (tileAt s t).code = .running) (hh : e.handed = false)
    (ho : (insnOf e.word).op = 0xD2)
    (hslot : openSlotTo s ((tileAt s t).logical.getD 0) ((insnOf e.word).imm % 65536) = some n) :
    exec (.fabricEntryRelease t) s = .next (fabricHead t s) := by
  show execFabricEntryRelease t s = _
  simp only [execFabricEntryRelease, hq, hc, hh, entryDest_fsig ho, Option.bind_some, hslot, Option.isSome_some,
    Bool.false_eq_true, not_false_eq_true, and_self, if_true]

/-- R255: a unit placed after the others of its set. -/
theorem setAt_placeUnit {d : Nat} (u : OutUnit) (hn : n < s.fab.slots.length) :
    setAt (placeUnit n d u s) n d false = (setAt s n d false).map (fun y => { y with queue := y.queue ++ [u] }) :=
  setAt_updSet_self (fun _ => rfl) hn

theorem openSlotTo_lt {l d : Nat} (hn : openSlotTo s l d = some n) : n < 16 :=
  reachSlot_lt (Option.filter_eq_some_iff.1 hn).1

theorem woken_fq (o : Nat) (v : W64) (x : Tile) : (woken o v x).fq = x.fq := by
  unfold woken
  split
  · split <;> rfl
  · rfl

/-- R222: an operation on a sync object changes of a tile only whether it waits. -/
theorem woken_eq (o : Nat) (v : W64) (x : Tile) : woken o v x = { x with wait := (woken o v x).wait } := by
  unfold woken
  split
  · split <;> rfl
  · rfl

end FabricHead

/-- Settles O31: the head of the queue by what its run comes to. -/
theorem fabricQueue : Obligations.FabricQueue := by
  rintro s t x e es i ht rfl hc hp hq hh rfl hfree
  obtain ⟨hcpost, hfsig⟩ := runFabric_op t (insnOf e.word) s
  refine ⟨fun ho hd hi hnew c hc16 hctx hlow => ?post, fun ho hobj hown => ?near, fun ho hobj hown hplan hfab n y hslot hset =>
    ?far⟩
  case post =>
    have hrun := (hcpost ho).trans (runCpost_posts hd hi hnew (freeInstCtx_lowest hc16 hctx hlow))
    refine ⟨_, fabricCompletion hc hp, ?_⟩
    rw [fabricHead_runs hq hh hfree (by omega) hrun ht hq]
    exact ⟨tileAt_setTile_self _ _ _ ht, rfl⟩
  case near =>
    have hrun := (hfsig ho).trans (runFsig_local hobj hown)
    rw [syncAdd_eq_syncSet] at hrun
    obtain ⟨htiles, hlen⟩ := syncSet_leaves (bits (insnOf e.word).imm 29 16)
      (syncGet s (bits (insnOf e.word).imm 29 16) + BitVec.ofNat 64 (sGet (tileAt s t) (insnOf e.word).b).toNat) s
    refine ⟨_, fabricCompletion hc hp, ?_⟩
    rw [fabricHead_runs hq hh hfree (by omega) hrun (by rwa [hlen]) (by rw [htiles, woken_fq, hq]), htiles,
      tileAt_setTile_self _ _ _ (by rwa [hlen]), syncGet_setTile, syncGet_syncSet, if_pos rfl]
    exact ⟨congrArg (fun y : Tile => { y with fq := es }) (woken_eq ..), rfl⟩
  case far =>
    have hrun := (hfsig ho).trans (runFsig_remote hobj hown hplan hslot)
    refine ⟨_, ⟨fsigUnit s t (insnOf e.word), .tile ((tileAt s t).logical.getD 0) (fsigUnit s t (insnOf e.word)).opseq⟩,
      fabricRelease hq hc hh ho hslot, ?_⟩
    rw [fabricHead_runs hq hh hfree (by omega) hrun ht hq]
    refine ⟨tileAt_setTile_self _ _ _ ht, ?_, rfl, rfl, rfl, rfl, rfl⟩
    obtain ⟨-, -, hslots⟩ := hfab
    have hlt : n < s.fab.slots.length := hslots ▸ openSlotTo_lt hslot
    have hplaced := setAt_placeUnit (s := useOp ((insnOf e.word).imm % 65536) ((tileAt s t).logical.getD 0) s)
      (d := (insnOf e.word).imm % 65536)
      ⟨fsigUnit s t (insnOf e.word), .tile ((tileAt s t).logical.getD 0) (fsigUnit s t (insnOf e.word)).opseq⟩ hlt
    refine hplaced.trans ?_
    exact congrArg (Option.map _) hset

end Sys2Proof.Machine

/-! ### O47: a bulk read and the slice of a tile that it retires -/

namespace Sys2Proof.Machine

/-- A BULK_READ of the first word of the scratch of tile 5, sent and not yet acknowledged. -/
def scratchRead : Bulk :=
  { cmd := ⟨1, 1⟩, write := false, space := 2, tile := 5, addr := 0, len := 16, window := 640, sent := 1 }

/-- A module on which tile 6 was retired and tile 5 took its number 0, whose slice still waits in tile 6 to be copied
(R99). The settings retire a tile at its first corrected error (R100). The host has written a byte to the slice of tile 5
and reads its scratch, whose first word holds an error of one bit. -/
def scratchWearsOut : State :=
  { State.reset with
    tiles := (State.reset.tiles.set 5 { code := .ready, logical := some 0 }).set 6
      { code := .retired, logical := none, former := some 0 }
    mem := { State.reset.mem with
      cells := [(sliceBase 5, 1)], words := [(scratchBase 5 / 16, .single 0)], migrate := [(6, 0)] }
    rst := { State.reset.rst with level := 0, point := 0 }
    fw := { State.reset.fw with running := true, tilePolicy := { ces := 1 } }
    host := { State.reset.host with
      ports := [⟨true, true, true, true⟩], open_ := true, session := 1, next := 2
      started := [⟨⟨0, 0, 1, 1, 0, 0⟩, hostCmd 0x0302 [] [], [], false⟩], seenA := some ⟨0, 0⟩, portSeen := [(0, 1)]
      bulks := [scratchRead] } }

/-- The bytes of memory in the state that an outcome goes on to. -/
def cellsAfter : Result → List Host.Cell
  | .next s => s.mem.cells
  | _ => []

/-- R100, R181: the corrected error retires tile 5, and its slice, which waits for no copy, is lost. -/
theorem cellsAfter_resend : cellsAfter (exec (.bulkResendTimeout 1 0) scratchWearsOut) = [] := by decide +kernel

/-- Refutes O47: a block that is sent again is read again, and an error of one bit that it meets may retire the tile
of the transfer, whose slice loses its contents (R100, R181), so memory does not stand. -/
theorem not_bulkTransfers : ¬ Obligations.BulkTransfers := by
  rintro ⟨-, -, -, hends⟩
  obtain ⟨-, hresend, -⟩ := hends scratchWearsOut 1 scratchRead rfl (by decide)
  obtain ⟨s', hnext, -, -, hcells⟩ := hresend rfl 0 0 (by decide) (by decide) (by decide) fun hddr => absurd hddr (by decide)
  have hlost := cellsAfter_resend
  rw [hnext, cellsAfter, hcells] at hlost
  exact absurd hlost (by decide)

end Sys2Proof.Machine

/-! ### The memories: what their operations leave -/

namespace Sys2Proof.Machine

section Strips

variable {s s1 s2 : State} {h : Header} {c : HostCmd} {m n g row cause code source : Nat} {payload : List Byte}
  {f : Strip → Strip}

/-! #### Strips -/

@[simp] theorem updStrip_strips_length : (updStrip n f s).mem.strips.length = s.mem.strips.length := List.length_set

theorem stripAt_updStrip_self (hn : n < s.mem.strips.length) : stripAt (updStrip n f s) n = f (stripAt s n) := by
  simp [stripAt, updStrip, hn]

theorem stripAt_updStrip_ne (hm : m ≠ n) : stripAt (updStrip n f s) m = stripAt s m := by
  simp only [stripAt, updStrip, List.getD_eq_getElem?_getD, List.getElem?_set_ne (Ne.symm hm)]

theorem stripAt_congr (hs : s1.mem.strips = s.mem.strips) : stripAt s1 m = stripAt s m := by rw [stripAt, hs, stripAt]

@[simp] theorem stripAt_emit : stripAt (emit code source payload s) m = stripAt s m := stripAt_congr (by rw [emit_mem])

@[simp] theorem stripAt_spoilBulks : stripAt (spoilBulks n s) m = stripAt s m := rfl

@[simp] theorem stripAt_begun : stripAt (begun h c s) m = stripAt s m := stripAt_congr (by rw [begun_mem])

/-- R172: a strip that is not OFFLINE becomes so. -/
theorem stripAt_offlineStrip (hn : n < s.mem.strips.length) (hc : (stripAt s n).code ≠ .offline) :
    stripAt (offlineStrip n cause s) n = { stripAt s n with code := .offline, cause := cause } := by
  rw [offlineStrip, if_neg hc, stripAt_emit, stripAt_spoilBulks, stripAt_updStrip_self hn]

section Kept

variable {α : Type} {p : Strip → α}

/-- What `p` reads of strip `n` stands, and so does memory but for strip `n`. -/
structure StripKept {α : Type} (p : Strip → α) (n : Nat) (s s1 : State) : Prop where
  kept : p (stripAt s1 n) = p (stripAt s n)
  others : ∀ m, m ≠ n → stripAt s1 m = stripAt s m
  mem : s1.mem = { s.mem with strips := s1.mem.strips }

theorem StripKept.refl (p : Strip → α) (n : Nat) (s : State) : StripKept p n s s := ⟨rfl, fun _ _ => rfl, rfl⟩

theorem StripKept.trans (h1 : StripKept p n s s1) (h2 : StripKept p n s1 s2) : StripKept p n s s2 := by
  refine ⟨h2.kept.trans h1.kept, fun m hm => (h2.others m hm).trans (h1.others m hm), ?_⟩
  have hmem := h2.mem
  rw [h1.mem] at hmem
  exact hmem

theorem StripKept.congr (hs : StripKept p n s s1) (he : s2.mem = s1.mem) : StripKept p n s s2 :=
  hs.trans ⟨congrArg p (stripAt_congr (by rw [he])), fun _ _ => stripAt_congr (by rw [he]), by rw [he]⟩

theorem StripKept.comp {β : Type} (hs : StripKept p n s s1) (q : α → β) : StripKept (fun x => q (p x)) n s s1 :=
  ⟨congrArg q hs.kept, hs.others, hs.mem⟩

protected theorem StripKept.updStrip (hs : StripKept p n s s1) (hf : ∀ x, p (f x) = p x) :
    StripKept p n s (updStrip n f s1) := by
  refine hs.trans ⟨?_, fun m hm => stripAt_updStrip_ne hm, rfl⟩
  by_cases hn : n < s1.mem.strips.length
  · rw [stripAt_updStrip_self hn, hf]
  · simp only [Machine.updStrip, stripAt, List.set_eq_of_length_le (not_lt.1 hn)]

protected theorem StripKept.emit (hs : StripKept p n s s1) : StripKept p n s (emit code source payload s1) :=
  hs.congr (by rw [emit_mem])

protected theorem StripKept.spoilBulks (hs : StripKept p n s s1) : StripKept p n s (spoilBulks n s1) := hs.congr rfl

theorem StripKept.when {q : Prop} [Decidable q] (h1 : StripKept p n s s1) (h2 : StripKept p n s s2) :
    StripKept p n s (if q then s2 else s1) := by
  split
  · exact h2
  · exact h1

/-- R172: `p` reads neither the state of a strip nor its cause. -/
def ReadsNoCode (p : Strip → α) : Prop := ∀ x code cause, p { x with code := code, cause := cause } = p x

protected theorem StripKept.degradeStrip (hs : StripKept p n s s1) (hp : ReadsNoCode p) :
    StripKept p n s (degradeStrip n cause s1) :=
  hs.when (hs.updStrip fun x => hp x _ _).emit

protected theorem StripKept.offlineStrip (hs : StripKept p n s s1) (hp : ReadsNoCode p) :
    StripKept p n s (offlineStrip n cause s1) := by
  unfold Machine.offlineStrip
  split
  · exact hs
  · exact (hs.updStrip fun x => hp x _ _).spoilBulks.emit

protected theorem StripKept.settleStrip (hs : StripKept p n s s1) (hp : ReadsNoCode p) :
    StripKept p n s (settleStrip n s1) := by
  have hlost := hs.when (q := 16 < (stripAt s1 n).lost.length) (hs.offlineStrip (cause := 3) hp)
  exact hlost.when (hlost.offlineStrip hp)

end Kept

/-! #### Rows -/

/-- R160, R169: the granules of the row of a DPA lie in its strip. -/
theorem stripOf_rowGrans {a : Nat} (hg : g ∈ rowGrans (stripOf a) (rowOf a)) : stripOf (g * 64) = stripOf a := by
  obtain ⟨i, hi, rfl⟩ := List.mem_map.1 hg
  have hi : i < 31 := List.mem_range.1 hi
  have hxor : ∀ x y, x < 4 → y < 4 → x ^^^ y < 4 := fun x y hx hy => Nat.xor_lt_two_pow (n := 2) hx hy
  obtain ⟨r, hr⟩ : ∃ r, r = a % stripSize / 64 / 124 := ⟨_, rfl⟩
  obtain ⟨ch, hch⟩ : ∃ ch, ch = (a % stripSize / 64 % 4) ^^^ (r % 4) := ⟨_, rfl⟩
  have hch4 : ch < 4 := hch ▸ hxor _ _ (Nat.mod_lt _ (by decide)) (Nat.mod_lt _ (by decide))
  have hrow : rowOf a = 4 * r + ch := by rw [hch, hr]; rfl
  obtain ⟨d, hd⟩ : ∃ d, d = ch ^^^ (r % 4) := ⟨_, rfl⟩
  have hd4 : d < 4 := hd ▸ hxor _ _ hch4 (Nat.mod_lt _ (by decide))
  have hdiv : rowOf a / 4 = r := by omega
  have hmod : rowOf a % 4 = ch := by omega
  simp only [rowSetDpa, hdiv, hmod, ← hd]
  simp only [stripOf, stripSize] at *
  omega

end Strips

end Sys2Proof.Machine

namespace Sys2Proof.Machine

section Rows

variable {α : Type} {p : Strip → α} {s s1 : State} {n g row : Nat} {f : Strip → Strip}

/-! #### The retirement of a row -/

/-- R169: the strip's row is retired to a patch entry. -/
def rowPatched (row : Nat) (x : Strip) : Strip :=
  { x with
    patch := x.patch ++ [row], retired := x.retired ++ [row], ceRows := x.ceRows.filter (fun r => r.1 ≠ row) }

/-- R170: the strip's row is LOST. -/
def rowLost (row : Nat) (x : Strip) : Strip := { x with lost := x.lost ++ [row], retired := x.retired ++ [row] }

/-- R169 step 1: the state in which a row has been read for its retirement, and counted. -/
def rowRead (n row : Nat) (s : State) : State :=
  let s := if (stripAt s n).code = .offline then s else forEach (rowGrans n row) retireGran s
  { s with peat := { s.peat with totals := { s.peat.totals with rowsRetired := s.peat.totals.rowsRetired + 1 } } }

/-- R169: a row that is retired already. -/
theorem retireRow_again (hp : ReadsNoCode p) (hrow : row ∈ (stripAt s n).patch ∨ row ∈ (stripAt s n).lost) :
    StripKept p n s (retireRow n row s) := by
  unfold retireRow
  simp only [List.contains_iff_mem, Bool.or_eq_true, hrow, if_true]
  exact (StripKept.refl p n s).settleStrip hp

/-- R169, R170: a row that is not retired yet goes to a free patch entry, or is LOST. -/
theorem retireRow_taken (hp : ReadsNoCode p) (hpatch : row ∉ (stripAt s n).patch) (hlost : row ∉ (stripAt s n).lost) :
    StripKept p n (updStrip n (if (stripAt s n).patch.length < 16 then rowPatched row else rowLost row) (rowRead n row s))
      (retireRow n row s) := by
  unfold retireRow
  simp only [List.contains_iff_mem, Bool.or_eq_true, hpatch, hlost, or_self, if_false]
  split
  · have htaken := (StripKept.refl p n (updStrip n (rowPatched row) (rowRead n row s))).emit (code := 0x0A03) (source := n)
      (payload := leBytes 8 ((rowGrans n row).headD 0 * 64))
    exact (htaken.when (htaken.degradeStrip hp)).settleStrip hp
  · have htaken := (StripKept.refl p n (updStrip n (rowLost row) (rowRead n row s))).emit (code := 0x0A04) (source := n)
      (payload := leBytes 8 (rowSetDpa n row))
    exact (htaken.degradeStrip hp).settleStrip hp

/-- The rows out of use of strip `n`, and every other strip, stand. -/
structure RowsStand (n : Nat) (s s1 : State) : Prop where
  patch : (stripAt s1 n).patch = (stripAt s n).patch
  lost : (stripAt s1 n).lost = (stripAt s n).lost
  others : ∀ m, m ≠ n → stripAt s1 m = stripAt s m
  length : s1.mem.strips.length = s.mem.strips.length

theorem RowsStand.refl (n : Nat) (s : State) : RowsStand n s s := ⟨rfl, rfl, fun _ _ => rfl, rfl⟩

theorem RowsStand.counted (hs : RowsStand n s s1) {t w m : Nat} {mark : Mark} {code source : Nat} {payload : List Byte}
    (hpatch : ∀ x, (f x).patch = x.patch) (hlost : ∀ x, (f x).lost = x.lost) (hm : m = n) :
    RowsStand n s (emit code source payload (noteErr t w (updStrip m f (setGran g mark s1)))) := by
  subst hm
  have hstrips : (emit code source payload (noteErr t w (updStrip m f (setGran g mark s1)))).mem.strips =
      (updStrip m f s1).mem.strips := by rw [emit_mem]; rfl
  have hkept := StripKept.updStrip (p := fun x => (x.patch, x.lost)) (.refl _ m s1) fun x =>
    Prod.ext (hpatch x) (hlost x)
  obtain ⟨hp, hl⟩ := Prod.mk.inj hkept.kept
  refine ⟨?_, ?_, fun k hk => ?_, ?_⟩
  · rw [stripAt_congr hstrips, hp, hs.patch]
  · rw [stripAt_congr hstrips, hl, hs.lost]
  · rw [stripAt_congr hstrips, hkept.others k hk, hs.others k hk]
  · rw [hstrips, updStrip_strips_length, hs.length]

/-- R169 step 1: a granule of the row is read. -/
protected theorem RowsStand.retireGran (hs : RowsStand n s s1) (hg : stripOf (g * 64) = n) :
    RowsStand n s (retireGran g s1) := by
  unfold Machine.retireGran
  split
  · exact hs.counted (fun _ => rfl) (fun _ => rfl) hg
  · exact hs.counted (fun _ => rfl) (fun _ => rfl) hg
  · exact hs

theorem rowRead_rows (hgrans : ∀ g ∈ rowGrans n row, stripOf (g * 64) = n) : RowsStand n s (rowRead n row s) := by
  have hread : RowsStand n s (if (stripAt s n).code = .offline then s else forEach (rowGrans n row) retireGran s) := by
    split
    · exact .refl n s
    · exact List.foldlRecOn _ _ (.refl n s) fun s1 hs g hg => hs.retireGran (hgrans g hg)
  exact ⟨hread.patch, hread.lost, hread.others, hread.length⟩

/-- R169 step 1: a row whose granules hold no error, or an error reported before, is only counted. -/
theorem rowRead_mem (hgrans : ∀ g ∈ rowGrans n row, Cells.get .clean s.mem.gran g = .clean ∨
    Cells.get .clean s.mem.gran g = .bad) : (rowRead n row s).mem = s.mem := by
  have hread : forEach (rowGrans n row) retireGran s = s :=
    List.foldlRecOn (motive := fun s1 => s1 = s) _ _ rfl fun s1 hs g hg => by
      subst hs
      unfold retireGran
      obtain hmark | hmark := hgrans g hg <;> rw [hmark]
  unfold rowRead
  rw [hread, ite_self]

/-- R169, R170: what the retirement of a row does to the rows of its strip. -/
theorem retireRow_rows (hn : n < s.mem.strips.length) (hpatch : row ∉ (stripAt s n).patch)
    (hlost : row ∉ (stripAt s n).lost) (hgrans : ∀ g ∈ rowGrans n row, stripOf (g * 64) = n) :
    (∀ m, m ≠ n → stripAt (retireRow n row s) m = stripAt s m) ∧
    ((stripAt s n).patch.length < 16 → (stripAt (retireRow n row s) n).patch = (stripAt s n).patch ++ [row] ∧
      (stripAt (retireRow n row s) n).lost = (stripAt s n).lost) ∧
    (16 ≤ (stripAt s n).patch.length → (stripAt (retireRow n row s) n).lost = (stripAt s n).lost ++ [row] ∧
      (stripAt (retireRow n row s) n).patch = (stripAt s n).patch) := by
  have hread := rowRead_rows (s := s) hgrans
  have htaken := retireRow_taken (p := fun x => (x.patch, x.lost)) (fun _ _ _ => rfl) hpatch hlost
  have hrows := htaken.kept
  rw [stripAt_updStrip_self (by rwa [hread.length])] at hrows
  obtain ⟨hp, hl⟩ := Prod.mk.inj hrows
  refine ⟨fun m hm => ?_, fun hfree => ?_, fun hfull => ?_⟩
  · rw [htaken.others m hm, stripAt_updStrip_ne hm, hread.others m hm]
  · rw [hp, hl, if_pos hfree]
    exact ⟨by rw [rowPatched, hread.patch], hread.lost⟩
  · rw [hp, hl, if_neg (not_lt.2 hfull)]
    exact ⟨by rw [rowLost, hread.lost], hread.patch⟩

/-- R167, R172: a read of a granule counts no error of a row but its own. -/
theorem retireRow_counts (hgrans : ∀ g ∈ rowGrans n row, Cells.get .clean s.mem.gran g = .clean ∨
    Cells.get .clean s.mem.gran g = .bad) :
    StripKept (fun x => (x.ceCount, x.ueCount)) n s (retireRow n row s) := by
  by_cases hrow : row ∈ (stripAt s n).patch ∨ row ∈ (stripAt s n).lost
  · exact retireRow_again (fun _ _ _ => rfl) hrow
  · obtain ⟨hpatch, hlost⟩ := not_or.1 hrow
    have hcount := (StripKept.refl (fun x => (x.ceCount, x.ueCount)) n s).congr (rowRead_mem hgrans)
    refine (hcount.updStrip fun x => ?_).trans (retireRow_taken (fun _ _ _ => rfl) hpatch hlost)
    split <;> rfl

end Rows

end Sys2Proof.Machine

/-! ### O40: writes of the memory's registers -/

namespace Sys2Proof.Machine

section MemoryRegisters

variable {s u : State} {h : Header} {c : HostCmd} {n v cause t bank i : Nat} {r : RegRow} {m : List Int} {P : State → Prop}
  {train : StripTrain}

/-! #### A write of a register of the memory block -/

/-- The registers of the memories whose writes act here. -/
def memRegister (r : RegRow) : Prop := r = rMemRetireAddr ∨ r = rMemStripCtrl ∨ r = rMemAsRepair

/-- R453: REG_WRITE to such a register. -/
theorem regWrite_memRegister (hr : memRegister r) (hv : v < 2 ^ r.width) :
    regWrite h (writeOf r 0 [] v m) s =
      (liveWrite r 0 [] v m s).elim (s, .reply 5 []) (fun u => (u, .reply 0 [])) := by
  have hfind : findReg (regAddr r 0 []) = some (r, 0, []) := by
    obtain rfl | rfl | rfl := hr <;> exact findReg_plain _ 0 (by decide) (by decide) (by decide) (by decide) rfl
  have haddr : regAddr r 0 [] < 2 ^ 32 := by obtain rfl | rfl | rfl := hr <;> decide
  have hwidth : r.width / 8 < 256 ∧ r.width % 8 = 0 ∧ r.width ≤ 64 := by obtain rfl | rfl | rfl := hr <;> decide
  have hoff : regOff s r 0 = false := by obtain rfl | rfl | rfl := hr <;> rfl
  obtain ⟨hbytes, hwhole, hword⟩ := hwidth
  have hv64 : v < 2 ^ 64 := lt_of_lt_of_le hv (Nat.pow_le_pow_right (by decide) hword)
  obtain ⟨-, -, -, hval, -⟩ := writePayload_fields r 0 [] v haddr hv64 hbytes
  unfold regWrite
  simp only [writeOf, namedReg_writePayload r 0 [] v haddr hv64 hbytes hwhole hfind, hval, hoff, not_le.2 hv, status,
    Bool.false_eq_true, if_false]
  cases liveWrite r 0 [] v m s <;> rfl

/-- A write that takes effect. -/
theorem memRegister_written (ha : Admitted s h (writeOf r 0 [] v m)) (hr : memRegister r) (hv : v < 2 ^ r.width)
    (hl : liveWrite r 0 [] v m (begun h (writeOf r 0 [] v m) s) = some u)
    (hh : u.host = { (begun h (writeOf r 0 [] v m) s).host with bulks := u.host.bulks })
    (hu : ∀ x q, P { u with host := x, regs := q }) :
    Written (.next (hostReceive h (writeOf r 0 [] v m) s)) s h (writeOf r 0 [] v m) P := by
  have hwrite := regWrite_memRegister (h := h) (s := begun h (writeOf r 0 [] v m) s) (m := m) hr hv
  rw [hl] at hwrite
  obtain ⟨s', hs', hans, heq⟩ := ha.answers rfl hwrite hh
  exact ⟨s', hs', hans, heq ▸ hu _ _⟩

/-- A write that is refused. -/
theorem memRegister_refused (ha : Admitted s h (writeOf r 0 [] v m)) (hr : memRegister r) (hv : v < 2 ^ r.width)
    (hl : liveWrite r 0 [] v m (begun h (writeOf r 0 [] v m) s) = none) :
    Completes (.next (hostReceive h (writeOf r 0 [] v m) s)) s s h (writeOf r 0 [] v m) 5 [] := by
  have hwrite := regWrite_memRegister (h := h) (s := begun h (writeOf r 0 [] v m) s) (m := m) hr hv
  rw [hl] at hwrite
  exact ha.completes_unchanged rfl hwrite

/-! #### MEM_RETIRE_ADDR -/

theorem liveWrite_memRetireAddr {a : Nat} (ha : a < 2 ^ 41) :
    liveWrite rMemRetireAddr 0 [] a m s = if ddrSize ≤ a then none else some (retireRow (stripOf a) (rowOf a) s) := by
  have hlow : low 41 a = a := Nat.mod_eq_of_lt ha
  show (if ddrSize ≤ low 41 a then none else some (retireAddr (low 41 a) s)) = _
  rw [hlow, retireAddr]

/-! #### MEM_STRIP_CTRL -/

theorem stripCtrl_offline (hn : n < 16) : stripCtrl (16 + n) m s = offlineStrip n 5 s := by
  have hbits : ∀ k < 16, bitOf (16 + k) 5 = false ∧ bitOf (16 + k) 4 = true ∧ (16 + k) % 16 = k := by decide
  obtain ⟨hrestore, hoffline, hmod⟩ := hbits n hn
  simp only [stripCtrl, stripOffline, hrestore, hoffline, hmod, Bool.false_eq_true, if_false, if_true]

/-- R173: the training that a command carries with it. -/
def trainMeas (r : StripTrain) : List Int :=
  ((b2n r.fast : Nat) : Int) :: ((b2n r.slow : Nat) : Int) :: (r.pprLeft : Int) :: r.repaired.map (fun x => (x : Int))

theorem trainMeas_rows (r : StripTrain) : ((trainMeas r).drop 3).map (·.toNat) = r.repaired := by
  simp [trainMeas, ← List.map_eq_flatMap, Function.comp_def]

theorem trainOf_trainMeas (n : Nat) (r : StripTrain) (s : State) : trainOf n (trainMeas r) s = (s, r) := by
  have hbit : ∀ b : Bool, decide (((b2n b : Nat) : Int) ≠ 0) = b := by decide
  show (s, StripTrain.mk _ _ (((trainMeas r).drop 3).map (·.toNat)) _) = _
  rw [hbit, hbit, trainMeas_rows]
  rfl

theorem stripCtrl_restore (hn : n < 16) (hc : (stripAt s n).code = .offline) :
    stripCtrl (32 + n) (trainMeas train) s = stripRestore n train s := by
  have hbits : ∀ k < 16, bitOf (32 + k) 5 = true ∧ (32 + k) % 16 = k := by decide
  obtain ⟨hrestore, hmod⟩ := hbits n hn
  simp only [stripCtrl, hrestore, hmod, hc, trainOf_trainMeas, if_true]

/-- R164 step 4: what hard PPR does to the record of a strip. -/
def pprStrip (r : StripTrain) (x : Strip) : Strip :=
  { x with
    patch := x.patch.filter (fun row => !r.repaired.contains row)
    lost := x.lost.filter (fun row => !r.repaired.contains row)
    retired := x.retired.filter (fun row => !r.repaired.contains row), pprLeft := min r.pprLeft 15 }

/-- R164: what training at a rate and hard PPR make of a strip's record. -/
def trainedStrip (r : StripTrain) (x : Strip) : Strip :=
  pprStrip r { x with slow := !r.fast, mrMiss := 0, ueRows := [], ceRows := [] }

/-- R164 steps 2 to 6: the state in which strip `n` has trained at a rate and reads zero. -/
def stripZeroed (n : Nat) (r : StripTrain) (s : State) : State :=
  zeroStrip n (pprRows n r (updStrip n (fun x => { x with slow := !r.fast, mrMiss := 0, ueRows := [], ceRows := [] })
    (if r.fast then s else emit 0x0A09 n [0] s)))

theorem pprRows_mem (n : Nat) (r : StripTrain) (s : State) : (pprRows n r s).mem = (updStrip n (pprStrip r) s).mem :=
  forEach_keeps (·.mem) _ (fun _ _ => emit_mem ..) _ _

theorem pprRows_host (n : Nat) (r : StripTrain) (s : State) : (pprRows n r s).host = s.host :=
  forEach_host (fun _ _ => emit_host ..) _ _

theorem stripZeroed_strips (n : Nat) (r : StripTrain) (s : State) :
    (stripZeroed n r s).mem.strips = (updStrip n (pprStrip r)
      (updStrip n (fun x => { x with slow := !r.fast, mrMiss := 0, ueRows := [], ceRows := [] }) s)).mem.strips := by
  have hnote : (if r.fast then s else emit 0x0A09 n [0] s).mem = s.mem := by
    split
    · rfl
    · exact emit_mem ..
  show (pprRows n r _).mem.strips = _
  rw [pprRows_mem]
  simp only [updStrip, stripAt, hnote]

theorem stripZeroed_length : (stripZeroed n train s).mem.strips.length = s.mem.strips.length := by
  rw [stripZeroed_strips, updStrip_strips_length, updStrip_strips_length]

theorem stripAt_stripZeroed (hn : n < s.mem.strips.length) :
    stripAt (stripZeroed n train s) n = trainedStrip train (stripAt s n) := by
  rw [stripAt_congr (stripZeroed_strips n train s), stripAt_updStrip_self (by simpa), stripAt_updStrip_self hn, trainedStrip]

theorem stripAt_stripZeroed_ne {k : Nat} (hk : k ≠ n) : stripAt (stripZeroed n train s) k = stripAt s k := by
  rw [stripAt_congr (stripZeroed_strips n train s), stripAt_updStrip_ne hk, stripAt_updStrip_ne hk]

theorem stripZeroed_cells : (stripZeroed n train s).mem.cells = memClear s.mem.cells (ddrBase + n * stripSize) stripSize := by
  show memClear (pprRows n train _).mem.cells _ _ = _
  rw [pprRows_mem]
  cases train.fast <;> simp [updStrip]

theorem stripZeroed_host : (stripZeroed n train s).host = s.host := by
  show (pprRows n train _).host = _
  rw [pprRows_host]
  cases train.fast <;> simp

end MemoryRegisters

end Sys2Proof.Machine

namespace Sys2Proof.Machine

section StripRestore

variable {s : State} {n cause : Nat} {train : StripTrain}

/-- R172: an ONLINE strip becomes DEGRADED. -/
theorem degradeStrip_code (hn : n < s.mem.strips.length) (hc : (stripAt s n).code = .online) :
    (stripAt (degradeStrip n cause s) n).code = .degraded := by
  rw [degradeStrip, if_pos hc, stripAt_emit, stripAt_updStrip_self hn]

theorem degradeStrip_host : (degradeStrip n cause s).host = s.host := by
  unfold degradeStrip
  split
  · exact emit_host ..
  · rfl

/-- R164: what a restored strip comes to: it serves, with the record that its training leaves, and reads zero. -/
structure Restored (n : Nat) (r : StripTrain) (s s1 : State) : Prop where
  code : (stripAt s1 n).code = .online ∨ (stripAt s1 n).code = .degraded
  slow : (stripAt s1 n).slow = !r.fast
  lost : (stripAt s1 n).lost = (stripAt s n).lost.filter (fun row => !r.repaired.contains row)
  others : ∀ k, k ≠ n → stripAt s1 k = stripAt s k
  cells : s1.mem.cells = memClear s.mem.cells (ddrBase + n * stripSize) stripSize
  host : s1.host = s.host

/-- R164 steps 2 to 6: a strip that trains at a rate, and loses 16 rows at most. -/
theorem bringUpStrip_restores (hn : n < s.mem.strips.length) (hr : train.fast = true ∨ train.slow = true)
    (hl : ((stripAt s n).lost.filter (fun row => !train.repaired.contains row)).length ≤ 16) :
    Restored n train s (bringUpStrip n train s) := by
  have hrate : (!train.fast && !train.slow) = false := by
    rcases hr with hr | hr <;> simp [hr]
  have hlen : n < (stripZeroed n train s).mem.strips.length := by rwa [stripZeroed_length]
  obtain ⟨s1, hs1⟩ : ∃ s1, s1 = updStrip n (fun x => { x with code := .online, cause := 0 })
    (stripZeroed n train s) := ⟨_, rfl⟩
  have hstrip : stripAt s1 n = { trainedStrip train (stripAt s n) with code := .online, cause := 0 } := by
    rw [hs1, stripAt_updStrip_self hlen, stripAt_stripZeroed hn]
  have honline : Restored n train s s1 := by
    refine ⟨.inl (by rw [hstrip]), by rw [hstrip]; rfl, by rw [hstrip]; rfl, fun k hk => ?_, ?_, ?_⟩
    · rw [hs1, stripAt_updStrip_ne hk, stripAt_stripZeroed_ne hk]
    · rw [hs1]
      exact stripZeroed_cells
    · rw [hs1]
      exact stripZeroed_host
  have hbring : bringUpStrip n train s =
      if degradeCause (stripAt (stripZeroed n train s) n) ≠ 0 then
        degradeStrip n (degradeCause (stripAt (stripZeroed n train s) n)) s1
      else s1 := by
    have hfew : ¬ 16 < (stripAt (stripZeroed n train s) n).lost.length := by
      rw [stripAt_stripZeroed hn]
      exact not_lt.2 hl
    rw [hs1]
    unfold bringUpStrip
    rw [hrate]
    exact (if_neg Bool.false_ne_true).trans (if_neg hfew)
  rw [hbring]
  split
  · have hkept := (StripKept.refl (fun x => (x.slow, x.lost)) n s1).degradeStrip (fun _ _ _ => rfl)
      (cause := degradeCause (stripAt (stripZeroed n train s) n))
    obtain ⟨hslow, hlost⟩ := Prod.mk.inj hkept.kept
    refine ⟨.inr (degradeStrip_code ?_ (by rw [hstrip])), hslow.trans honline.slow, hlost.trans honline.lost,
      fun k hk => (hkept.others k hk).trans (honline.others k hk), ?_, degradeStrip_host.trans honline.host⟩
    · rwa [hs1, updStrip_strips_length]
    · rw [hkept.mem]
      exact honline.cells
  · exact honline

/-- R173: MEM_STRIP_CTRL.RESTORE of a strip that trains at a rate. -/
theorem stripRestore_restores (hn : n < s.mem.strips.length) (hc : (stripAt s n).code = .offline)
    (hr : train.fast = true ∨ train.slow = true)
    (hl : ((stripAt s n).lost.filter (fun row => !train.repaired.contains row)).length ≤ 16) :
    Restored n train s (stripRestore n train s) := by
  have hself := stripAt_updStrip_self (f := fun x => { x with code := .training }) hn
  have hup := bringUpStrip_restores (s := updStrip n (fun x => { x with code := .training }) s) (by simpa) hr (by rwa [hself])
  have hcode : (stripAt (bringUpStrip n train (updStrip n (fun x => { x with code := .training }) s)) n).code ≠ .offline := by
    rcases hup.code with hcode | hcode <;> simp [hcode]
  unfold stripRestore
  simp only [hc, if_true, hcode, if_false]
  refine ⟨by simpa using hup.code, by simpa using hup.slow, ?_, fun k hk => ?_, ?_, ?_⟩
  · rw [stripAt_emit, hup.lost, hself]
  · rw [stripAt_emit, hup.others k hk, stripAt_updStrip_ne hk]
  · rw [emit_mem, hup.cells]
    rfl
  · rw [emit_host, hup.host]
    rfl

/-- R164 step 3, R173: MEM_STRIP_CTRL.RESTORE of a strip that trains at no rate. -/
theorem stripRestore_fails (hn : n < s.mem.strips.length) (hc : (stripAt s n).code = .offline) (hf : train.fast = false)
    (hw : train.slow = false) :
    (stripAt (stripRestore n train s) n).code = .offline ∧ (stripAt (stripRestore n train s) n).cause = 1 ∧
      Staged s (stripRestore n train s) := by
  obtain ⟨s1, hs1⟩ : ∃ s1, s1 = updStrip n (fun x => { x with code := .training }) (emit 0x0A09 n [1] (emit 0x0A09 n [0]
    (updStrip n (fun x => { x with code := .training }) s))) := ⟨_, rfl⟩
  have hstaged : Staged s s1 := hs1 ▸ (Staged.refl s).updStrip.emit.emit.updStrip
  have hlen : n < s1.mem.strips.length := by simpa [hs1] using hn
  have htraining : (stripAt s1 n).code = .training := by
    rw [hs1, stripAt_updStrip_self (by simpa using hn)]
  have hoff := stripAt_offlineStrip (cause := 1) hlen (by simp [htraining])
  have hrun : stripRestore n train s = offlineStrip n 1 s1 := by
    have hbring : bringUpStrip n train (updStrip n (fun x => { x with code := .training }) s) = offlineStrip n 1 s1 := by
      unfold bringUpStrip
      rw [hf, hw, hs1]
      rfl
    unfold stripRestore
    simp only [hc, if_true, hbring, hoff]
  rw [hrun, hoff]
  exact ⟨rfl, rfl, hstaged.offlineStrip⟩

end StripRestore

section SliceRepairs

variable {s : State} {t u bank row col code source w : Nat} {payload : List Byte} {f : SliceRep → SliceRep}

/-! #### The repair state of a slice -/

@[simp] theorem sliceAt_updSlice_self : sliceAt (updSlice t f s) t = f (sliceAt s t) := by
  simp only [sliceAt, updSlice, Cells.upd, Cells.get_set_self]

theorem sliceAt_congr {s1 : State} (hs : s1.mem.slices = s.mem.slices) : sliceAt s1 t = sliceAt s t := by
  rw [sliceAt, hs, sliceAt]

@[simp] theorem sliceAt_setWord {m : Mark} : sliceAt (setWord w m s) t = sliceAt s t := rfl

@[simp] theorem sliceAt_noteErr {type place : Nat} : sliceAt (noteErr type place s) t = sliceAt s t := rfl

@[simp] theorem sliceAt_countRepair : sliceAt (countRepair s) t = sliceAt s t := rfl

@[simp] theorem countRepair_mem : (countRepair s).mem = s.mem := rfl

@[simp] theorem countRepair_repairs : (countRepair s).peat.totals.sliceRepairs = s.peat.totals.sliceRepairs + 1 := rfl

@[simp] theorem updSlice_cells : (updSlice t f s).mem.cells = s.mem.cells := rfl

@[simp] theorem sliceAt_emit : sliceAt (emit code source payload s) t = sliceAt s t := sliceAt_congr (by rw [emit_mem])

theorem mapLastRec_totals (f : LogRec → LogRec) (p : Peat) : (mapLastRec f p).totals = p.totals := by
  unfold mapLastRec
  split <;> rfl

/-- R599: an event changes none of the counts since manufacture. -/
@[simp] theorem emit_totals : (emit code source payload s).peat.totals = s.peat.totals := by
  unfold emit
  split
  · exact mapLastRec_totals ..
  · split
    · exact mapLastRec_totals ..
    · rfl

/-- The spare rows that a slice has used, the bytes of memory, and the repairs counted. -/
def repairsOf (t : Nat) (s : State) : Cells Nat × List Nat × List Host.Cell × Nat :=
  ((sliceAt s t).rows, (sliceAt s t).repaired, s.mem.cells, s.peat.totals.sliceRepairs)

/-- R182: the copy of a word to a spare row uses no spare. -/
theorem repairsOf_copyWord (t w : Nat) (s : State) : repairsOf t (copyWord t w s) = repairsOf t s := by
  unfold copyWord
  split
  · unfold repairsOf wordCe
    simp only [sliceAt_emit, sliceAt_noteErr, sliceAt_updSlice_self, sliceAt_setWord, emit_mem, emit_totals]
    rfl
  · unfold repairsOf wordUe
    simp only [sliceAt_emit, emit_mem, emit_totals]
    rfl
  · rfl

/-- R182: a spare row of a bank stands in for a row. -/
def replaceRow (bank row used : Nat) (x : SliceRep) : SliceRep :=
  { x with
    rows := Cells.set 0 x.rows bank (used + 1), repaired := x.repaired ++ [bank * 2048 + row]
    ceLog := x.ceLog.filter (fun e => e.1 ≠ bank * 2048 + row) }

/-- R182: the state that the replacement of a row leaves, once its words have been copied. -/
def rowReplaced (t bank row used : Nat) (s : State) : State :=
  emit 0x0A12 t ([0] ++ leBytes 1 bank ++ leBytes 2 row) (countRepair (updSlice t (replaceRow bank row used) s))

/-- R182: a row of a bank that has a spare row left is copied and replaced. -/
theorem repairRow_replaces (hfree : Cells.get 0 (sliceAt s t).rows bank < 16) :
    ∃ s1, s1 = forEach (wordRange (sliceBase t + sliceRowOff bank row) 512) (copyWord t) s ∧
      repairRow t bank row s = rowReplaced t bank row (Cells.get 0 (sliceAt s t).rows bank) s1 := by
  refine ⟨_, rfl, ?_⟩
  unfold repairRow rowReplaced
  simp only [if_neg (not_le.2 hfree)]
  congr 1

theorem sliceAt_rowReplaced {used : Nat} :
    sliceAt (rowReplaced t bank row used s) t = replaceRow bank row used (sliceAt s t) := by
  simp only [rowReplaced, sliceAt_emit, sliceAt_countRepair, sliceAt_updSlice_self]

theorem rowReplaced_cells {used : Nat} : (rowReplaced t bank row used s).mem.cells = s.mem.cells := by
  simp only [rowReplaced, emit_mem, countRepair_mem, updSlice_cells]

theorem rowReplaced_repairs {used : Nat} :
    (rowReplaced t bank row used s).peat.totals.sliceRepairs = s.peat.totals.sliceRepairs + 1 := by
  simp only [rowReplaced, emit_totals, countRepair_repairs, updSlice_peat]

/-- R182: what the replacement of a row changes. -/
theorem repairRow_spare (hfree : Cells.get 0 (sliceAt s t).rows bank < 16) :
    Cells.get 0 (sliceAt (repairRow t bank row s) t).rows bank = Cells.get 0 (sliceAt s t).rows bank + 1 ∧
    (sliceAt (repairRow t bank row s) t).repaired = (sliceAt s t).repaired ++ [bank * 2048 + row] ∧
    (repairRow t bank row s).mem.cells = s.mem.cells ∧
    (repairRow t bank row s).peat.totals.sliceRepairs = s.peat.totals.sliceRepairs + 1 := by
  obtain ⟨s1, hs1, hreplaced⟩ := repairRow_replaces (row := row) hfree
  have hcopied : repairsOf t s1 = repairsOf t s := by
    rw [hs1]
    exact forEach_keeps (repairsOf t) (copyWord t) (repairsOf_copyWord t) _ s
  clear hs1
  simp only [repairsOf, Prod.mk.injEq] at hcopied
  obtain ⟨-, hrepaired, hcells, hrepairs⟩ := hcopied
  rw [hreplaced, sliceAt_rowReplaced, rowReplaced_cells, rowReplaced_repairs, hcells, hrepairs, replaceRow, hrepaired]
  exact ⟨Cells.get_set_self .., rfl, rfl, rfl⟩

/-- R183: a column repair of a bank that has a spare column left is asked for. -/
theorem wantColumn_due (hnew : bank * 4384 + col ∉ (sliceAt s t).colDue)
    (hfree : Cells.get 0 (sliceAt s t).cols bank + ((sliceAt s t).colDue.filter (fun c => c / 4384 = bank)).length < 8) :
    wantColumn t bank col s = updSlice t (fun x => { x with colDue := x.colDue ++ [bank * 4384 + col] }) s := by
  unfold wantColumn
  simp only [List.contains_iff_mem, hnew, if_false, if_neg (not_le.2 hfree)]

end SliceRepairs

end Sys2Proof.Machine

namespace Sys2Proof.Machine

section MemoryCommands

variable {s : State} {h : Header} {t n bank i v a : Nat} {r : StripTrain}

/-! #### MEM_RETIRE_ADDR -/

/-- R169, R170: a row of a strip that serves is retired, or lost. -/
theorem memRetireAddr_written (hlen : s.mem.strips.length = 16) (ha : a < ddrSize)
    (hadm : Admitted s h (writeOf rMemRetireAddr 0 [] a [])) (hpatch : rowOf a ∉ (stripAt s (stripOf a)).patch)
    (hlost : rowOf a ∉ (stripAt s (stripOf a)).lost) :
    Written (exec (.memRetireAddr h a) s) s h (writeOf rMemRetireAddr 0 [] a []) (fun s' =>
      s'.mem.cells = s.mem.cells ∧ (∀ m, m ≠ stripOf a → stripAt s' m = stripAt s m) ∧
      ((stripAt s (stripOf a)).patch.length < 16 →
        (stripAt s' (stripOf a)).patch = (stripAt s (stripOf a)).patch ++ [rowOf a] ∧
        (stripAt s' (stripOf a)).lost = (stripAt s (stripOf a)).lost) ∧
      (16 ≤ (stripAt s (stripOf a)).patch.length →
        (stripAt s' (stripOf a)).lost = (stripAt s (stripOf a)).lost ++ [rowOf a] ∧
        (stripAt s' (stripOf a)).patch = (stripAt s (stripOf a)).patch)) := by
  have hn : stripOf a < s.mem.strips.length := by
    rw [hlen]
    simp only [stripOf, stripSize, ddrSize] at *
    omega
  have ha41 : a < 2 ^ 41 := lt_trans ha (by decide)
  have hstaged := (Staged.refl (begun h (writeOf rMemRetireAddr 0 [] a []) s)).retireRow (n := stripOf a) (row := rowOf a)
  have hrows := retireRow_rows (s := begun h (writeOf rMemRetireAddr 0 [] a []) s) (row := rowOf a) (by rwa [begun_mem])
    (by rwa [stripAt_begun]) (by rwa [stripAt_begun]) fun g hg => stripOf_rowGrans hg
  obtain ⟨hhost, -, -, hcells, -⟩ := hstaged.fields
  simp only [stripAt_begun] at hrows
  exact memRegister_written hadm (.inl rfl) (lt_trans ha41 (by decide))
    ((liveWrite_memRetireAddr ha41).trans (if_neg (not_le.2 ha))) hhost fun _ _ =>
    ⟨hcells.trans (congrArg Mem.cells begun_mem), hrows⟩

/-! #### MEM_STRIP_CTRL -/

theorem exec_memStripOffline (hn : n < 16) :
    exec (.memStripOffline h n) s = .next (hostReceive h (writeOf rMemStripCtrl 0 [] (16 + n) []) s) := by
  show writeCommand rMemStripCtrl 0 [] (16 + n % 16) [] h s = _
  rw [Nat.mod_eq_of_lt hn]
  rfl

theorem exec_memStripRestore (hn : n < 16) :
    exec (.memStripRestore h n r) s = .next (hostReceive h (writeOf rMemStripCtrl 0 [] (32 + n) (trainMeas r)) s) := by
  show writeCommand rMemStripCtrl 0 [] (32 + n % 16) (trainMeas r) h s = _
  rw [Nat.mod_eq_of_lt hn]
  rfl

/-- R172: a strip is taken out of service. -/
theorem memStripOffline_written (hlen : s.mem.strips.length = 16) (hn : n < 16)
    (hadm : Admitted s h (writeOf rMemStripCtrl 0 [] (16 + n) [])) (hc : (stripAt s n).code ≠ .offline) :
    Written (exec (.memStripOffline h n) s) s h (writeOf rMemStripCtrl 0 [] (16 + n) []) (fun s' =>
      (stripAt s' n).code = .offline ∧ (stripAt s' n).cause = 5 ∧ (∀ m, m ≠ n → stripAt s' m = stripAt s m) ∧
      s'.mem.cells = s.mem.cells) := by
  have hoff := stripAt_offlineStrip (s := begun h (writeOf rMemStripCtrl 0 [] (16 + n) []) s) (n := n) (cause := 5)
    (by rwa [begun_mem, hlen]) (by rwa [stripAt_begun])
  have hkept := (StripKept.refl (fun _ => ()) n (begun h (writeOf rMemStripCtrl 0 [] (16 + n) []) s)).offlineStrip
    (cause := 5) fun _ _ _ => rfl
  have hstaged := (Staged.refl (begun h (writeOf rMemStripCtrl 0 [] (16 + n) []) s)).offlineStrip (n := n) (c := 5)
  obtain ⟨hhost, -, -, hcells, -⟩ := hstaged.fields
  rw [exec_memStripOffline hn]
  exact memRegister_written hadm (.inr (.inl rfl)) (by show _ < 2 ^ 32; omega) (congrArg some (stripCtrl_offline hn)) hhost
    fun _ _ => ⟨congrArg Strip.code hoff, congrArg Strip.cause hoff, fun m hm => (hkept.others m hm).trans stripAt_begun,
      hcells.trans (congrArg Mem.cells begun_mem)⟩

/-- R173: a strip that trains at a rate serves again, and reads zero. -/
theorem memStripRestore_written (hlen : s.mem.strips.length = 16) (hn : n < 16)
    (hadm : Admitted s h (writeOf rMemStripCtrl 0 [] (32 + n) (trainMeas r))) (hc : (stripAt s n).code = .offline)
    (hr : r.fast = true ∨ r.slow = true)
    (hl : ((stripAt s n).lost.filter (fun x => !r.repaired.contains x)).length ≤ 16) :
    Written (exec (.memStripRestore h n r) s) s h (writeOf rMemStripCtrl 0 [] (32 + n) (trainMeas r)) (fun s' =>
      ((stripAt s' n).code = .online ∨ (stripAt s' n).code = .degraded) ∧ (stripAt s' n).slow = !r.fast ∧
      (stripAt s' n).lost = (stripAt s n).lost.filter (fun x => !r.repaired.contains x) ∧
      (∀ k, k ≠ n → stripAt s' k = stripAt s k) ∧
      ∀ a, memByte s'.mem.cells a =
        if ddrBase + n * stripSize ≤ a ∧ a < ddrBase + n * stripSize + stripSize then 0
        else memByte s.mem.cells a) := by
  have hc' : (stripAt (begun h (writeOf rMemStripCtrl 0 [] (32 + n) (trainMeas r)) s) n).code = .offline := by
    rwa [stripAt_begun]
  have hup := stripRestore_restores (by rwa [begun_mem, hlen]) hc' hr (by rwa [stripAt_begun])
  have hcells : ∀ a, memByte (stripRestore n r (begun h (writeOf rMemStripCtrl 0 [] (32 + n) (trainMeas r)) s)).mem.cells a =
      if ddrBase + n * stripSize ≤ a ∧ a < ddrBase + n * stripSize + stripSize then 0 else memByte s.mem.cells a := by
    intro a
    rw [hup.cells, memByte_memClear, begun_mem]
  rw [exec_memStripRestore hn]
  exact memRegister_written hadm (.inr (.inl rfl)) (by show _ < 2 ^ 32; omega) (congrArg some (stripCtrl_restore hn hc'))
    (by rw [hup.host]) fun _ _ => ⟨hup.code, hup.slow, hup.lost.trans (by rw [stripAt_begun]),
      fun k hk => (hup.others k hk).trans stripAt_begun, hcells⟩

/-- R164 step 3, R173: a strip that trains at no rate stays out of service. -/
theorem memStripRestore_stays (hlen : s.mem.strips.length = 16) (hn : n < 16)
    (hadm : Admitted s h (writeOf rMemStripCtrl 0 [] (32 + n) (trainMeas r))) (hc : (stripAt s n).code = .offline)
    (hf : r.fast = false) (hw : r.slow = false) :
    Written (exec (.memStripRestore h n r) s) s h (writeOf rMemStripCtrl 0 [] (32 + n) (trainMeas r)) (fun s' =>
      (stripAt s' n).code = .offline ∧ (stripAt s' n).cause = 1 ∧ s'.mem.cells = s.mem.cells) := by
  have hc' : (stripAt (begun h (writeOf rMemStripCtrl 0 [] (32 + n) (trainMeas r)) s) n).code = .offline := by
    rwa [stripAt_begun]
  obtain ⟨hcode, hcause, hstaged⟩ := stripRestore_fails (by rwa [begun_mem, hlen]) hc' hf hw
  obtain ⟨hhost, -, -, hcells, -⟩ := hstaged.fields
  rw [exec_memStripRestore hn]
  exact memRegister_written hadm (.inr (.inl rfl)) (by show _ < 2 ^ 32; omega) (congrArg some (stripCtrl_restore hn hc'))
    hhost fun _ _ => ⟨hcode, hcause, hcells.trans (congrArg Mem.cells begun_mem)⟩

/-! #### MEM_AS_REPAIR -/

/-- R182, R183, R189: the value of MEM_AS_REPAIR that names a row or a column of a bank. -/
def repairValue (col : Bool) (t bank i : Nat) : Nat := (if col then 2 ^ 31 else 0) + t * 2 ^ 23 + bank * 2 ^ 18 + i

theorem repairValue_lt (col : Bool) (ht : t < 156) (hb : bank < 32) (hi : i < 8192) :
    repairValue col t bank i < 2 ^ rMemAsRepair.width := by
  show _ < 2 ^ 32
  unfold repairValue
  split <;> omega

theorem liveWrite_memAsRepair (col : Bool) (ht : t < 156) (hb : bank < 32) (hi : i < 8192) :
    liveWrite rMemAsRepair 0 [] (repairValue col t bank i) [] s = if (if col then 4384 else 2048) ≤ i then none
      else some (if col then wantColumn t bank i s else repairRow t bank i s) := by
  obtain ⟨v, hv⟩ : ∃ v, v = repairValue col t bank i := ⟨_, rfl⟩
  obtain ⟨top, htop⟩ : ∃ top, top = if col then 1 else 0 := ⟨_, rfl⟩
  have hval : v = top * 2 ^ 31 + t * 2 ^ 23 + bank * 2 ^ 18 + i := by
    rw [hv, htop, repairValue]
    cases col <;> simp
  have htop2 : top < 2 := by rw [htop]; split <;> decide
  have htile : bits v 30 23 = t := by simp only [bits]; omega
  have hbank : bits v 22 18 = bank := by simp only [bits]; omega
  have hplace : bits v 12 0 = i := by simp only [bits]; omega
  have hkind : bitOf v 31 = decide (top = 1) := by
    rw [bitOf, Nat.testBit_eq_decide_div_mod_eq, decide_eq_decide]
    omega
  show asRepair (repairValue col t bank i) s = _
  rw [← hv]
  simp only [asRepair, htile, hbank, hplace, hkind, htop, not_le.2 ht]
  cases col <;> simp

theorem liveWrite_memAsRepair_row (ht : t < 156) (hb : bank < 32) (hi : i < 2048) :
    liveWrite rMemAsRepair 0 [] (repairValue false t bank i) [] s = some (repairRow t bank i s) := by
  rw [liveWrite_memAsRepair false ht hb (lt_trans hi (by decide)), if_neg (by simpa using hi), if_neg Bool.false_ne_true]

theorem liveWrite_memAsRepair_column (ht : t < 156) (hb : bank < 32) (hi : i < 4384) :
    liveWrite rMemAsRepair 0 [] (repairValue true t bank i) [] s = some (wantColumn t bank i s) := by
  rw [liveWrite_memAsRepair true ht hb (lt_trans hi (by decide)), if_neg (by simpa using hi), if_pos rfl]

@[simp] theorem sliceAt_begun {c : HostCmd} : sliceAt (begun h c s) t = sliceAt s t := sliceAt_congr (by rw [begun_mem])

theorem exec_memAsRepairRow (ht : t < 156) (hb : bank < 32) (hi : i < 8192) : exec (.memAsRepairRow h t bank i) s =
    .next (hostReceive h (writeOf rMemAsRepair 0 [] (t * 2 ^ 23 + bank * 2 ^ 18 + i) []) s) := by
  show writeCommand rMemAsRepair 0 [] (t % 256 * 2 ^ 23 + bank % 32 * 2 ^ 18 + i % 8192) [] h s = _
  rw [Nat.mod_eq_of_lt (by omega), Nat.mod_eq_of_lt hb, Nat.mod_eq_of_lt hi]
  rfl

theorem exec_memAsRepairColumn (ht : t < 156) (hb : bank < 32) (hi : i < 8192) : exec (.memAsRepairColumn h t bank i) s =
    .next (hostReceive h (writeOf rMemAsRepair 0 [] (2 ^ 31 + t * 2 ^ 23 + bank * 2 ^ 18 + i) []) s) := by
  show writeCommand rMemAsRepair 0 [] (2 ^ 31 + t % 256 * 2 ^ 23 + bank % 32 * 2 ^ 18 + i % 8192) [] h s = _
  rw [Nat.mod_eq_of_lt (by omega), Nat.mod_eq_of_lt hb, Nat.mod_eq_of_lt hi]
  rfl

/-- R189: MEM_AS_REPAIR of a row or a column that no bank has. -/
theorem memAsRepair_refused (col : Bool) (ht : t < 156) (hb : bank < 32) (hi : i < 8192)
    (hadm : Admitted s h (writeOf rMemAsRepair 0 [] (repairValue col t bank i) []))
    (hbig : (if col then 4384 else 2048) ≤ i) :
    Completes (.next (hostReceive h (writeOf rMemAsRepair 0 [] (repairValue col t bank i) []) s)) s s h
      (writeOf rMemAsRepair 0 [] (repairValue col t bank i) []) 5 [] :=
  memRegister_refused hadm (.inr (.inr rfl)) (repairValue_lt col ht hb hi)
    ((liveWrite_memAsRepair col ht hb hi).trans (if_pos hbig))

/-- R182: a row is replaced by a spare at once. -/
theorem memAsRepairRow_written (ht : t < 156) (hb : bank < 32) (hi : i < 2048)
    (hadm : Admitted s h (writeOf rMemAsRepair 0 [] (repairValue false t bank i) []))
    (hfree : Cells.get 0 (sliceAt s t).rows bank < 16) :
    Written (.next (hostReceive h (writeOf rMemAsRepair 0 [] (repairValue false t bank i) []) s)) s h
      (writeOf rMemAsRepair 0 [] (repairValue false t bank i) [])
      (fun s' => Cells.get 0 (sliceAt s' t).rows bank = Cells.get 0 (sliceAt s t).rows bank + 1 ∧
        (sliceAt s' t).repaired = (sliceAt s t).repaired ++ [bank * 2048 + i] ∧ s'.mem.cells = s.mem.cells ∧
        s'.peat.totals.sliceRepairs = s.peat.totals.sliceRepairs + 1) := by
  have hi' : i < 8192 := lt_trans hi (by decide)
  have hpeat : (begun h (writeOf rMemAsRepair 0 [] (repairValue false t bank i) []) s).peat = s.peat := by rw [begun_eq]
  have hspare := repairRow_spare (row := i) (s := begun h (writeOf rMemAsRepair 0 [] (repairValue false t bank i) []) s)
    (by rwa [sliceAt_begun])
  simp only [sliceAt_begun, begun_mem, hpeat] at hspare
  exact memRegister_written hadm (.inr (.inr rfl)) (repairValue_lt false ht hb hi')
    (liveWrite_memAsRepair_row ht hb hi) (by rw [repairRow_host]) fun _ _ => hspare

/-- R183: a column repair waits until the tile's program has ended. -/
theorem memAsRepairColumn_written (ht : t < 156) (hb : bank < 32) (hi : i < 4384)
    (hadm : Admitted s h (writeOf rMemAsRepair 0 [] (repairValue true t bank i) []))
    (hnew : bank * 4384 + i ∉ (sliceAt s t).colDue)
    (hfree : Cells.get 0 (sliceAt s t).cols bank + ((sliceAt s t).colDue.filter (fun c => c / 4384 = bank)).length < 8) :
    Written (.next (hostReceive h (writeOf rMemAsRepair 0 [] (repairValue true t bank i) []) s)) s h
      (writeOf rMemAsRepair 0 [] (repairValue true t bank i) [])
      (fun s' => (sliceAt s' t).colDue = (sliceAt s t).colDue ++ [bank * 4384 + i] ∧ s'.mem.cells = s.mem.cells) := by
  have hi' : i < 8192 := lt_trans hi (by decide)
  have hdue := wantColumn_due (col := i) (s := begun h (writeOf rMemAsRepair 0 [] (repairValue true t bank i) []) s)
    (by rwa [sliceAt_begun]) (by rwa [sliceAt_begun])
  have hslice := congrArg (fun u => (sliceAt u t).colDue) hdue
  have hcells := congrArg (fun u => u.mem.cells) hdue
  simp only [sliceAt_updSlice_self, sliceAt_begun, updSlice_cells, begun_mem] at hslice hcells
  exact memRegister_written hadm (.inr (.inr rfl)) (repairValue_lt true ht hb hi')
    (liveWrite_memAsRepair_column ht hb hi) (by rw [wantColumn_host]) fun _ _ => ⟨hslice, hcells⟩

end MemoryCommands

/-- Settles O40: a row by whether a patch entry is free, a strip by its command and its training, and a slice by the
spares of the bank. -/
theorem memoryRegisterWrites : Obligations.MemoryRegisterWrites := by
  refine ⟨?address, ?strip, ?slice⟩
  case address =>
    rintro s h a n row hlen ha rfl rfl hadm
    exact ⟨fun hbig => memRegister_refused hadm (.inl rfl) (lt_trans ha (by decide))
      ((liveWrite_memRetireAddr ha).trans (if_pos hbig)), fun hsmall _ => memRetireAddr_written hlen hsmall hadm⟩
  case strip =>
    intro s h n r hlen hn
    refine ⟨memStripOffline_written hlen hn, ?_⟩
    rintro m rfl hadm hc
    exact ⟨memStripRestore_written hlen hn hadm hc, memStripRestore_stays hlen hn hadm hc⟩
  case slice =>
    intro s h t bank i ht hb hi
    rw [exec_memAsRepairRow ht hb hi, exec_memAsRepairColumn ht hb hi]
    have hrow : t * 2 ^ 23 + bank * 2 ^ 18 + i = repairValue false t bank i := by simp [repairValue]
    have hcolumn : 2 ^ 31 + t * 2 ^ 23 + bank * 2 ^ 18 + i = repairValue true t bank i := by simp [repairValue]
    rw [hrow, hcolumn]
    exact ⟨fun hadm => ⟨fun hbig => memAsRepair_refused false ht hb hi hadm (by simpa using hbig),
        fun hsmall => memAsRepairRow_written ht hb hsmall hadm⟩,
      fun hadm => ⟨fun hbig => memAsRepair_refused true ht hb hi hadm (by simpa using hbig),
        fun hsmall => memAsRepairColumn_written ht hb hsmall hadm⟩⟩

end Sys2Proof.Machine

/-! ### O53: the memories' own events -/

namespace Sys2Proof.Machine

section MemoryEvents

variable {s s1 : State} {n g row bit : Nat} {m : Mark}

/-! #### Temperature polls -/

theorem mr4Poll_training (hc : (stripAt s n).code = .training) (answered hot : Bool) :
    exec (.mr4Poll n answered hot) s = .next s :=
  congrArg Host.Outcome.next (if_pos hc)

/-- R162: the devices that report a temperature above their range. -/
def hotAfter (n : Nat) (hot : Bool) (ds : List Nat) : List Nat :=
  if hot then ds.filter (fun d => d ≠ n) ++ [n] else ds.filter (fun d => d ≠ n)

theorem mem_hotAfter (n : Nat) (hot : Bool) (ds : List Nat) (d : Nat) :
    d ∈ hotAfter n hot ds ↔ (d ∈ ds ∧ d ≠ n) ∨ (d = n ∧ hot = true) := by
  cases hot <;> simp [hotAfter]

/-- R162: the state in which a device has answered a poll. -/
def polled (n : Nat) (hot : Bool) (s : State) : State :=
  { updStrip n (fun x => { x with mrMiss := 0 }) s with pwr := { s.pwr with hotDevs := hotAfter n hot s.pwr.hotDevs } }

/-- R162: a device that answers. -/
theorem mr4Poll_answered (hc : (stripAt s n).code ≠ .training) (hot : Bool) :
    exec (.mr4Poll n true hot) s = .next (if hot then emit 0x0A0A n [] (polled n hot s) else polled n hot s) :=
  congrArg Host.Outcome.next (if_neg hc)

/-- R162, R172: a device that does not answer. -/
theorem mr4Poll_unanswered (hc : (stripAt s n).code ≠ .training) (hot : Bool) :
    exec (.mr4Poll n false hot) s = .next (
      let s1 := updStrip n (fun x => { x with mrMiss := x.mrMiss + 1 }) s
      if 3 ≤ (stripAt s n).mrMiss + 1 then offlineStrip n 2 s1 else s1) :=
  congrArg Host.Outcome.next (if_neg hc)

/-! #### The patrol scrub of LPDDR5X -/

/-- R168: the patrol scrub of LPDDR5X runs, and its granule's strip serves. -/
def ddrScrubs (s : State) (g : Nat) : Prop :=
  regField s rMemPolicy 0 [] 31 24 ≠ 0 ∧ s.pwr.current < 2 ∧ g * 64 < ddrSize ∧
    ((stripAt s (stripOf (g * 64))).code = .online ∨ (stripAt s (stripOf (g * 64))).code = .degraded)

theorem lpddrScrub_runs (hs : ddrScrubs s g) : exec (.lpddrScrub g []) s = .next (readGran g s).1 :=
  congrArg Host.Outcome.next (if_pos hs)

theorem lpddrScrub_rests (hs : ¬ ddrScrubs s g) (ups : List Upset) : exec (.lpddrScrub g ups) s = .next s :=
  congrArg Host.Outcome.next (if_neg hs)

/-- Every granule of the row of granule `g` but itself holds no error. -/
def RowClean (s : State) (g : Nat) : Prop :=
  ∀ k ∈ rowGrans (stripOf (g * 64)) (rowOf (g * 64)), k ≠ g → Cells.get .clean s.mem.gran k = .clean

/-- Once granule `g` has been read, no granule of its row holds an error that is not yet reported. -/
theorem RowClean.read (hrow : RowClean s g) (hgran : s1.mem.gran = Cells.set .clean s.mem.gran g m)
    (hm : m = .clean ∨ m = .bad) : ∀ k ∈ rowGrans (stripOf (g * 64)) (rowOf (g * 64)),
      Cells.get .clean s1.mem.gran k = .clean ∨ Cells.get .clean s1.mem.gran k = .bad := by
  intro k hk
  rw [hgran, Cells.get_set]
  split
  · exact hm
  · exact .inl (hrow k hk ‹_›)

/-- What the report of an error of granule `g` leaves: its mark, MEM_ERR_LAST, and the count of its strip that `p` reads. -/
structure GranReported (g type : Nat) (m : Mark) (p : Strip → Nat) (s s1 : State) : Prop where
  gran : s1.mem.gran = Cells.set .clean s.mem.gran g m
  count : p (stripAt s1 (stripOf (g * 64))) = satAdd 16 (p (stripAt s (stripOf (g * 64)))) 1
  errValid : s1.mem.errValid = true
  errType : s1.mem.errType = type
  errWhere : s1.mem.errWhere = g * 64
  cells : s1.mem.cells = s.mem.cells

theorem GranReported.kept {type : Nat} {p : Strip → Nat} {s2 : State} (hr : GranReported g type m p s s1)
    (hk : StripKept p (stripOf (g * 64)) s1 s2) : GranReported g type m p s s2 := by
  obtain ⟨hkept, -, hmem⟩ := hk
  refine ⟨?_, hkept.trans hr.count, ?_, ?_, ?_, ?_⟩ <;> rw [hmem]
  · exact hr.gran
  · exact hr.errValid
  · exact hr.errType
  · exact hr.errWhere
  · exact hr.cells

/-- R167: the report of a corrected error. -/
theorem granCe_reports (hn : stripOf (g * 64) < s.mem.strips.length) :
    GranReported g 0 .clean (·.ceCount) s (granCe g s) := by
  have hmem : (granCe g s).mem = (noteErr 0 (g * 64) (updStrip (stripOf (g * 64))
      (fun x => { x with ceCount := satAdd 16 x.ceCount 1 }) (setGran g .clean s))).mem := emit_mem ..
  have hcount := congrArg Strip.ceCount (stripAt_updStrip_self (s := setGran g .clean s)
    (f := fun x => { x with ceCount := satAdd 16 x.ceCount 1 }) hn)
  refine ⟨?_, (congrArg Strip.ceCount (stripAt_congr (congrArg Mem.strips hmem))).trans hcount, ?_, ?_, ?_, ?_⟩
  all_goals
    rw [hmem]
    rfl

/-- R167: the report of an uncorrectable error. -/
theorem granUe_reports (hn : stripOf (g * 64) < s.mem.strips.length) :
    GranReported g 1 .bad (·.ueCount) s (granUe g s) := by
  obtain ⟨f, hf⟩ : ∃ f : Strip → Strip, f = fun x => { x with
    ueCount := satAdd 16 x.ueCount 1
    ueRows := (x.ueRows.filter (fun r => r.1 ≠ rowOf (g * 64) && decide (runNs s < r.2 + 3600000000000))) ++
      [(rowOf (g * 64), runNs s)] } := ⟨_, rfl⟩
  have hmem : (granUe g s).mem = (noteErr 1 (g * 64) (updStrip (stripOf (g * 64)) f (setGran g .bad s))).mem :=
    hf ▸ emit_mem ..
  have hcount := congrArg Strip.ueCount (stripAt_updStrip_self (s := setGran g .bad s) (f := f) hn)
  refine ⟨?_, (congrArg Strip.ueCount (stripAt_congr (congrArg Mem.strips hmem))).trans (hcount.trans (hf ▸ rfl)),
    ?_, ?_, ?_, ?_⟩
  all_goals
    rw [hmem]
    rfl

/-- R168: the errors of a row are counted, and the row is perhaps retired. -/
theorem countRowCe_counts (hgrans : ∀ k ∈ rowGrans n row, Cells.get .clean s.mem.gran k = .clean ∨
    Cells.get .clean s.mem.gran k = .bad) :
    StripKept (fun x => (x.ceCount, x.ueCount)) n s (countRowCe n row s) := by
  have hlisted (rows : List (Nat × List Nat)) :
      StripKept (fun x => (x.ceCount, x.ueCount)) n s (updStrip n (fun x => { x with ceRows := rows }) s) :=
    (StripKept.refl _ n s).updStrip fun _ => rfl
  exact (hlisted _).when ((hlisted _).trans (retireRow_counts hgrans))

/-- R167, R168: the read of a granule with an error of one bit. -/
theorem readGran_single (hn : stripOf (g * 64) < s.mem.strips.length) (hfree : granBlocked s g = false)
    (hg : Cells.get .clean s.mem.gran g = .single bit) (hrow : RowClean s g) :
    GranReported g 0 .clean (·.ceCount) s (readGran g s).1 := by
  have hread : (readGran g s).1 = countRowCe (stripOf (g * 64)) (rowOf (g * 64)) (granCe g s) := by
    simp only [readGran, hfree, hg, Bool.false_eq_true, if_false]
  have hreport := granCe_reports hn
  rw [hread]
  exact hreport.kept ((countRowCe_counts (hrow.read hreport.gran (.inl rfl))).comp Prod.fst)

/-- R167, R169: the read of a granule with an uncorrectable error. -/
theorem readGran_double (hn : stripOf (g * 64) < s.mem.strips.length) (hfree : granBlocked s g = false)
    (hg : Cells.get .clean s.mem.gran g = .double) (hrow : RowClean s g) :
    GranReported g 1 .bad (·.ueCount) s (readGran g s).1 := by
  have hread : (readGran g s).1 = retireRow (stripOf (g * 64)) (rowOf (g * 64)) (granUe g s) := by
    simp only [readGran, hfree, hg, Bool.false_eq_true, if_false]
  have hreport := granUe_reports hn
  rw [hread]
  exact hreport.kept ((retireRow_counts (hrow.read hreport.gran (.inr rfl))).comp Prod.snd)

theorem readGran_clean (hfree : granBlocked s g = false) (hg : Cells.get .clean s.mem.gran g = .clean) :
    readGran g s = (s, false) := by
  simp only [readGran, hfree, hg, Bool.false_eq_true, if_false]

end MemoryEvents

end Sys2Proof.Machine

namespace Sys2Proof.Machine

section SliceScrubs

variable {s s1 : State} {t bank row w i bit ce code source used : Nat} {payload : List Byte} {f : SliceRep → SliceRep}
  {safe : Prop} {cells : List Host.Cell}

/-! #### The words of a row of a slice -/

/-- R176: word `i` of a row of a slice, by its key over 16. -/
def rowWord (t bank row i : Nat) : Nat := (sliceBase t + sliceRowOff bank row) / 16 + i

/-- R176: the words of a row of a slice. -/
def rowWords (t bank row : Nat) : List Nat := wordRange (sliceBase t + sliceRowOff bank row) 512

/-- R176: the offset in its slice of word `i` of a row. -/
def rowWordOff (bank row i : Nat) : Nat := sliceRowOff bank row + 16 * i

theorem rowWord_key (t bank row i : Nat) : rowWord t bank row i * 16 = sliceBase t + rowWordOff bank row i := by
  simp only [rowWord, rowWordOff, sliceBase, windowBase, windowStride, sliceOff, sliceRowOff]
  omega

theorem rowWord_off (t bank row i : Nat) : rowWord t bank row i * 16 - sliceBase t = rowWordOff bank row i := by
  rw [rowWord_key, Nat.add_sub_cancel_left]

theorem rowWord_div (t bank row i : Nat) : (sliceBase t + rowWordOff bank row i) / 16 = rowWord t bank row i := by
  rw [← rowWord_key, Nat.mul_div_cancel _ (by decide)]

theorem rowWord_mem (t bank row : Nat) (hi : i < 32) : rowWord t bank row i ∈ rowWords t bank row := by
  have hkey := rowWord_key t bank row 0
  refine List.mem_map.2 ⟨i, List.mem_range.2 ?_, rfl⟩
  simp only [rowWord, rowWordOff] at hkey
  omega

theorem wordRange_nodup (a n : Nat) : (wordRange a n).Nodup := by
  unfold wordRange
  split
  · exact List.nodup_nil
  · exact List.nodup_range.map fun x y hxy => Nat.add_left_cancel hxy

/-- R176: the bank and the row of a word. -/
theorem rowWordOff_place (hb : bank < 32) (hr : row < 2048) (hi : i < 32) :
    sliceBank (rowWordOff bank row i) = bank ∧ sliceRow (rowWordOff bank row i) = row := by
  simp only [sliceBank, sliceRow, rowWordOff, sliceRowOff, bits]
  omega

/-- A fold of which one element alone acts. -/
theorem foldl_of_one {α β : Type} {f : β → α → β} {b b1 : β} {x : α} {xs : List α} (hn : xs.Nodup) (hx : x ∈ xs)
    (hbefore : ∀ y ∈ xs, y ≠ x → f b y = b) (hat : f b x = b1) (hafter : ∀ y ∈ xs, y ≠ x → f b1 y = b1) :
    xs.foldl f b = b1 := by
  obtain ⟨as, bs, rfl⟩ := List.append_of_mem hx
  obtain ⟨-, hbs, hdisj⟩ := List.nodup_append.1 hn
  have has : as.foldl f b = b := List.foldlRecOn (motive := (· = b)) as f rfl fun c hc y hy => by
    rw [hc]
    exact hbefore y (by simp [hy]) (hdisj y hy x (by simp))
  have hbs : bs.foldl f b1 = b1 := List.foldlRecOn (motive := (· = b1)) bs f rfl fun c hc y hy => by
    rw [hc]
    exact hafter y (by simp [hy]) fun hyx => (List.nodup_cons.1 hbs).1 (hyx ▸ hy)
  rw [List.foldl_append, has, List.foldl_cons, hat, hbs]

/-- Every word of a row of a slice but `w` is clean. -/
def RowWordsClean (s : State) (t bank row w : Nat) : Prop :=
  ∀ k ∈ rowWords t bank row, k ≠ w → Cells.get .clean s.mem.words k = .clean

theorem RowWordsClean.all (hrow : RowWordsClean s t bank row w) (hw : Cells.get .clean s.mem.words w = .clean) :
    ∀ k ∈ rowWords t bank row, Cells.get .clean s.mem.words k = .clean := by
  intro k hk
  by_cases hkw : k = w
  · rwa [hkw]
  · exact hrow k hk hkw

/-- R178, R180: a row of which one word holds an error of one bit. -/
theorem sliceCheck_single (hw : w ∈ rowWords t bank row) (hmark : Cells.get .clean s.mem.words w = .single bit)
    (hrow : RowWordsClean s t bank row w) (hs1 : s1 = sliceCe t (w * 16 - sliceBase t) bit (setWord w .clean s))
    (hafter : RowWordsClean s1 t bank row w) : (sliceCheck t (sliceRowOff bank row) 512 s).1 = s1 := by
  refine congrArg Prod.fst (foldl_of_one (b1 := (s1, [])) (wordRange_nodup _ _) hw (fun k hk hkw => ?_) ?_ fun k hk hkw => ?_)
  · dsimp only
    rw [hrow k hk hkw]
  · dsimp only
    rw [hmark, hs1]
  · dsimp only
    rw [hafter k hk hkw]

/-- R178, R180: a row of which one word holds an uncorrectable error. -/
theorem sliceCheck_double (hw : w ∈ rowWords t bank row) (hmark : Cells.get .clean s.mem.words w = .double)
    (hrow : RowWordsClean s t bank row w) (hs1 : s1 = sliceUe t (w * 16 - sliceBase t) s)
    (hafter : RowWordsClean s1 t bank row w) : (sliceCheck t (sliceRowOff bank row) 512 s).1 = s1 := by
  refine congrArg Prod.fst (foldl_of_one (b1 := (s1, [w * 16 - sliceBase t])) (wordRange_nodup _ _) hw (fun k hk hkw => ?_) ?_
    fun k hk hkw => ?_)
  · dsimp only
    rw [hrow k hk hkw]
  · dsimp only
    rw [hmark, hs1]
    rfl
  · dsimp only
    rw [hafter k hk hkw]

/-- R182: words without an error that is not yet reported are copied as they are. -/
theorem forEach_copyWord_settled {ks : List Nat} (hks : ∀ k ∈ ks, Cells.get .clean s.mem.words k = .clean ∨
    Cells.get .clean s.mem.words k = .bad) : forEach ks (copyWord t) s = s :=
  List.foldlRecOn (motive := fun s1 => s1 = s) _ _ rfl fun s1 hs k hk => by
    subst hs
    unfold copyWord
    obtain hmark | hmark := hks k hk <;> rw [hmark]

theorem rowReplaced_mem : (rowReplaced t bank row used s).mem = (updSlice t (replaceRow bank row used) s).mem := by
  rw [rowReplaced, emit_mem, countRepair_mem]

/-! #### The retirement of a tile for want of spares -/

/-- R181: if tile `t` is to be retired, its slice keeps its bytes: the job runs, the tile is retired already, or its slice
then waits to be copied. -/
def SliceSafe (t : Nat) (s : State) : Prop :=
  jobRunning s = true ∨ (tileAt s t).code = .retired ∨
    (t < s.tiles.length ∧ (tileAt s t).code ≠ .spare ∧
      ∃ l, (tileAt s t).logical = some l ∧ ∀ q ∈ s.mem.migrate, q.2 ≠ l)

/-- Words that hold no error hold none, and neither the repairs of slices nor MEM_ERR_LAST have changed. -/
structure MarksOnlyFall (s s1 : State) : Prop where
  words : ∀ w, Cells.get .clean s.mem.words w = .clean → Cells.get .clean s1.mem.words w = .clean
  slices : s1.mem.slices = s.mem.slices
  errType : s1.mem.errType = s.mem.errType

theorem MarksOnlyFall.of_mem (hm : s1.mem = s.mem) : MarksOnlyFall s s1 := by
  constructor <;> simp [hm]

theorem MarksOnlyFall.trans {s2 : State} (h1 : MarksOnlyFall s s1) (h2 : MarksOnlyFall s1 s2) : MarksOnlyFall s s2 :=
  ⟨fun w hw => h2.words w (h1.words w hw), h2.slices.trans h1.slices, h2.errType.trans h1.errType⟩

/-- R181: a slice that loses its contents holds no error. -/
theorem wipeSlice_falls : MarksOnlyFall s (wipeSlice t s) := by
  refine ⟨fun w hw => ?_, rfl, rfl⟩
  by_cases hkeep : w < sliceBase t / 16 ∨ (sliceBase t + sliceSize + 15) / 16 ≤ w
  · refine (Cells.get_filter _ _ _ fun c _ hc => ?_).trans hw
    rw [hc]
    exact decide_eq_true hkeep
  · refine Cells.get_absent _ fun c hc hcw => hkeep ?_
    rw [← hcw]
    exact of_decide_eq_true (List.mem_filter.1 hc).2

theorem dropSlice_falls : MarksOnlyFall s (dropSlice t s) := by
  unfold dropSlice
  split
  · exact .of_mem rfl
  · exact wipeSlice_falls

theorem awaitSlice_falls {l : Nat} : MarksOnlyFall s (awaitSlice t l s) := by
  unfold awaitSlice
  split
  · exact .of_mem rfl
  · exact ⟨fun _ hw => hw, rfl, rfl⟩

/-- R94, R96: the number of a retired tile is given on without a change of memory. -/
theorem numberGiven_mem {l : Nat} : (numberGiven t l s).mem = s.mem := by
  unfold numberGiven
  split <;> simp

/-- R94, R181: the retirement of a tile. -/
theorem retireTile_falls : MarksOnlyFall s (retireTile t s) := by
  cases hl : (tileAt s t).logical with
  | none =>
    obtain ⟨s1, hs1, hmem⟩ : ∃ s1, s1.mem = s.mem ∧ (retireTile t s).mem = (dropSlice t s1).mem := by
      refine ⟨{ updTile t retiredTile (unloadFor t s) with
        peat := { (unloadFor t s).peat with totals := { (unloadFor t s).peat.totals with
          tilesRetired := (unloadFor t s).peat.totals.tilesRetired + 1 } } }, unloadFor_mem t s, ?_⟩
      unfold retireTile
      simp only [tileAt_unloadFor, hl, emit_mem]
      rfl
    exact ((MarksOnlyFall.of_mem hs1).trans dropSlice_falls).trans (.of_mem hmem)
  | some l =>
    obtain ⟨s1, hs1, hfreed⟩ : ∃ s1, s1.mem = s.mem ∧ numberFreed t l s = dropSlice t (awaitSlice t l s1) :=
      ⟨_, unloadFor_mem t s, rfl⟩
    rw [retireTile_numbered hl, hfreed]
    exact ((MarksOnlyFall.of_mem hs1).trans (awaitSlice_falls.trans dropSlice_falls)).trans (.of_mem numberGiven_mem)

/-- R100: a tile is retired now or later. -/
theorem retireWhenFree_falls : MarksOnlyFall s (retireWhenFree t s) := by
  unfold retireWhenFree
  dsimp only
  split
  · exact .of_mem rfl
  · split
    · exact .of_mem rfl
    · exact retireTile_falls

/-- R99 step 5, R181: a slice that a retirement leaves its bytes keeps them, and would again. -/
theorem SliceSafe.retireWhenFree (hs : SliceSafe t s) :
    SliceSafe t (retireWhenFree t s) ∧ (retireWhenFree t s).mem.cells = s.mem.cells := by
  unfold Machine.retireWhenFree
  dsimp only
  split
  next => exact ⟨hs, rfl⟩
  next hretired =>
    split
    next hrun => exact ⟨.inl hrun, rfl⟩
    next hrun =>
      obtain hrun' | hretired' | ⟨ht, hspare, l, hl, hwait⟩ := hs
      · exact absurd hrun' hrun
      · exact absurd hretired' hretired
      · obtain ⟨hcode, -, hcells, -⟩ := retireTile_retires ht hl hspare
        exact ⟨.inr (.inl hcode), hcells hwait⟩

/-! #### An error of one bit in a slice -/

/-- R178: an error of one bit in a row of a slice has been corrected and counted, and whatever it leads to leaves this. -/
structure CeCounted (t bank row ce : Nat) (safe : Prop) (cells : List Host.Cell) (s : State) : Prop where
  words : ∀ k ∈ rowWords t bank row, Cells.get .clean s.mem.words k = .clean
  count : (sliceAt s t).ce = ce
  errType : s.mem.errType = 3
  bytes : safe → SliceSafe t s ∧ s.mem.cells = cells

protected theorem CeCounted.emit (hs : CeCounted t bank row ce safe cells s) :
    CeCounted t bank row ce safe cells (emit code source payload s) := by
  obtain ⟨hwords, hcount, herr, hbytes⟩ := hs
  refine ⟨by rwa [emit_mem], by rwa [sliceAt_emit], by rwa [emit_mem], fun h => ?_⟩
  obtain ⟨hsafe, hcells⟩ := hbytes h
  refine ⟨?_, by rwa [emit_mem]⟩
  simpa only [SliceSafe, jobRunning, tileAt_emit, emit_job, emit_mem, emit_tiles] using hsafe

protected theorem CeCounted.updSlice (hs : CeCounted t bank row ce safe cells s) (hf : ∀ x, (f x).ce = x.ce) :
    CeCounted t bank row ce safe cells (updSlice t f s) :=
  ⟨hs.words, by rw [sliceAt_updSlice_self, hf, hs.count], hs.errType, hs.bytes⟩

protected theorem CeCounted.countRepair (hs : CeCounted t bank row ce safe cells s) :
    CeCounted t bank row ce safe cells (countRepair s) :=
  ⟨hs.words, hs.count, hs.errType, hs.bytes⟩

protected theorem CeCounted.sparesOut (hs : CeCounted t bank row ce safe cells s) :
    CeCounted t bank row ce safe cells (sparesOut t s) := by
  obtain ⟨hwords, hcount, herr, hbytes⟩ := (hs.updSlice (f := fun x => { x with sparesOut := true }) fun _ => rfl).emit
    (code := 0x0A13) (source := t) (payload := [])
  have hfall : MarksOnlyFall (noSpare t s) (Machine.sparesOut t s) := retireWhenFree_falls
  refine ⟨fun k hk => hfall.words k (hwords k hk), ?_, hfall.errType.trans herr, fun h => ?_⟩
  · rw [sliceAt_congr hfall.slices]
    exact hcount
  · obtain ⟨hsafe, hcells⟩ := hbytes h
    obtain ⟨hsafe', hcells'⟩ := hsafe.retireWhenFree
    exact ⟨hsafe', hcells'.trans hcells⟩

theorem CeCounted.when {q : Prop} [Decidable q] (h1 : CeCounted t bank row ce safe cells s)
    (h2 : CeCounted t bank row ce safe cells s1) : CeCounted t bank row ce safe cells (if q then s1 else s) := by
  split
  · exact h2
  · exact h1

/-- R183: a column repair may be asked for. -/
protected theorem CeCounted.wantColumn {b col : Nat} (hs : CeCounted t bank row ce safe cells s) :
    CeCounted t bank row ce safe cells (wantColumn t b col s) := by
  unfold Machine.wantColumn
  dsimp only
  split_ifs
  · exact hs
  · exact hs.sparesOut
  · exact hs.updSlice fun _ => rfl

/-- R182: the row may be replaced. -/
protected theorem CeCounted.repairRow (hs : CeCounted t bank row ce safe cells s) :
    CeCounted t bank row ce safe cells (repairRow t bank row s) := by
  by_cases hfree : Cells.get 0 (sliceAt s t).rows bank < 16
  · obtain ⟨s1, hs1, hreplaced⟩ := repairRow_replaces (row := row) hfree
    rw [hreplaced, hs1.trans (forEach_copyWord_settled fun k hk => .inl (hs.words k hk))]
    exact (hs.updSlice (f := replaceRow bank row _) fun _ => rfl).countRepair.emit
  · rw [show repairRow t bank row s = sparesOut t s from if_pos (not_lt.1 hfree)]
    exact hs.sparesOut

end SliceScrubs

end Sys2Proof.Machine

namespace Sys2Proof.Machine

section ScrubbedWords

variable {s : State} {t bank row i bit : Nat}

/-- R178: an error of one bit has been corrected, before anything is made of it. -/
theorem wordCe_counted (hrow : RowWordsClean s t bank row (rowWord t bank row i)) :
    CeCounted t bank row (satAdd 8 (sliceAt s t).ce 1) (SliceSafe t s) s.mem.cells
      (wordCe t (rowWordOff bank row i) (setWord (rowWord t bank row i) .clean s)) := by
  have hcorrected : CeCounted t bank row (satAdd 8 (sliceAt s t).ce 1) (SliceSafe t s) s.mem.cells
      (noteErr 3 (sliceWhere t (rowWordOff bank row i)) (updSlice t (fun x => { x with ce := satAdd 8 x.ce 1 })
        (setWord ((sliceBase t + rowWordOff bank row i) / 16) .clean (setWord (rowWord t bank row i) .clean s)))) := by
    refine ⟨fun k hk => ?_, ?_, rfl, fun hsafe => ⟨hsafe, rfl⟩⟩
    · show Cells.get .clean (Cells.set .clean (Cells.set .clean s.mem.words _ .clean) _ .clean) k = .clean
      rw [rowWord_div, Cells.get_set, Cells.get_set]
      split_ifs with hkw
      · rfl
      · exact hrow k hk hkw
    · rw [sliceAt_noteErr, sliceAt_updSlice_self, sliceAt_setWord, sliceAt_setWord]
  exact hcorrected.emit

/-- R178, R182, R183: an error of one bit, with what it leads to. -/
theorem sliceCe_counted (hb : bank < 32) (hr : row < 2048) (hi : i < 32)
    (hrow : RowWordsClean s t bank row (rowWord t bank row i)) :
    CeCounted t bank row (satAdd 8 (sliceAt s t).ce 1) (SliceSafe t s) s.mem.cells
      (sliceCe t (rowWordOff bank row i) bit (setWord (rowWord t bank row i) .clean s)) := by
  obtain ⟨hbank, hplace⟩ := rowWordOff_place hb hr hi
  have hce := wordCe_counted hrow
  unfold sliceCe
  simp only [hbank, hplace]
  have hlogged (log : List (Nat × Nat × Nat)) := hce.updSlice (f := fun x => { x with ceLog := log }) fun _ => rfl
  have hwanted (log : List (Nat × Nat × Nat)) (col : Nat) (q : Prop) [Decidable q] :=
    (hlogged log).when (q := q) ((hlogged log).wantColumn (b := bank) (col := col))
  exact (hwanted _ _ _).when (hwanted _ _ _).repairRow

/-- R178: an uncorrectable word is marked. -/
theorem wordUe_words : (wordUe t (rowWordOff bank row i) s).mem.words =
    Cells.set .clean s.mem.words (rowWord t bank row i) .bad := by
  rw [wordUe, emit_mem, ← rowWord_div]
  rfl

theorem wordUe_errType {off : Nat} : (wordUe t off s).mem.errType = 4 := by
  rw [wordUe, emit_mem]
  rfl

theorem wordUe_cells {off : Nat} : (wordUe t off s).mem.cells = s.mem.cells := by
  rw [wordUe, emit_mem]
  rfl

@[simp] theorem sliceAt_wordUe {off : Nat} : sliceAt (wordUe t off s) t = sliceAt s t := sliceAt_emit

/-- R178, R182: an uncorrectable error of a word replaces its row. -/
theorem sliceUe_replaces (hb : bank < 32) (hr : row < 2048) (hi : i < 32)
    (hmark : Cells.get .clean s.mem.words (rowWord t bank row i) = .double)
    (hrow : RowWordsClean s t bank row (rowWord t bank row i)) (hfree : Cells.get 0 (sliceAt s t).rows bank < 16) :
    sliceUe t (rowWordOff bank row i) s =
      rowReplaced t bank row (Cells.get 0 (sliceAt s t).rows bank) (wordUe t (rowWordOff bank row i) s) := by
  obtain ⟨hbank, hplace⟩ := rowWordOff_place hb hr hi
  have hsettled : ∀ k ∈ rowWords t bank row,
      Cells.get .clean (wordUe t (rowWordOff bank row i) s).mem.words k = .clean ∨
      Cells.get .clean (wordUe t (rowWordOff bank row i) s).mem.words k = .bad := by
    intro k hk
    rw [wordUe_words, Cells.get_set]
    split
    · exact .inr rfl
    · exact .inl (hrow k hk ‹_›)
  obtain ⟨s1, hs1, hreplaced⟩ := repairRow_replaces (s := wordUe t (rowWordOff bank row i) s) (row := row)
    (by rwa [sliceAt_wordUe])
  rw [hs1.trans (forEach_copyWord_settled hsettled), sliceAt_wordUe] at hreplaced
  unfold sliceUe
  simp only [rowWord_div, hmark, hbank, hplace]
  simpa using hreplaced

end ScrubbedWords

end Sys2Proof.Machine

namespace Sys2Proof.Machine

section MaintenanceEvents

variable {s : State} {t bank row i n g bit c : Nat}

/-! #### Temperature polls -/

/-- R162: what an answer to a poll leaves. -/
theorem mr4Poll_answers (hn : n < s.mem.strips.length) (hc : (stripAt s n).code ≠ .training) (hot : Bool) :
    ∃ s', exec (.mr4Poll n true hot) s = .next s' ∧ stripAt s' n = { stripAt s n with mrMiss := 0 } ∧
      s'.pwr.hotDevs = hotAfter n hot s.pwr.hotDevs ∧ s'.mem.cells = s.mem.cells := by
  have hstrip : stripAt (polled n hot s) n = { stripAt s n with mrMiss := 0 } :=
    stripAt_updStrip_self (f := fun x => { x with mrMiss := 0 }) hn
  refine ⟨_, mr4Poll_answered hc hot, ?_⟩
  split
  · rw [stripAt_emit, emit_pwr, emit_mem]
    exact ⟨hstrip, rfl, rfl⟩
  · exact ⟨hstrip, rfl, rfl⟩

/-- R162: one poll or two without an answer are counted. -/
theorem mr4Poll_misses (hn : n < s.mem.strips.length) (hc : (stripAt s n).code ≠ .training)
    (hfew : (stripAt s n).mrMiss + 1 < 3) (hot : Bool) :
    ∃ s', exec (.mr4Poll n false hot) s = .next s' ∧
      stripAt s' n = { stripAt s n with mrMiss := (stripAt s n).mrMiss + 1 } ∧
      s'.pwr = s.pwr ∧ s'.mem.cells = s.mem.cells := by
  refine ⟨_, mr4Poll_unanswered hc hot, ?_⟩
  dsimp only
  rw [if_neg (not_le.2 hfew)]
  exact ⟨stripAt_updStrip_self hn, rfl, rfl⟩

/-- R162, R172: three polls without an answer take a strip OFFLINE. -/
theorem mr4Poll_gives_up (hn : n < s.mem.strips.length) (hc : (stripAt s n).code ≠ .training)
    (hmany : 3 ≤ (stripAt s n).mrMiss + 1) (hon : (stripAt s n).code ≠ .offline) (hot : Bool) :
    ∃ s', exec (.mr4Poll n false hot) s = .next s' ∧
      stripAt s' n = { stripAt s n with mrMiss := (stripAt s n).mrMiss + 1, code := .offline, cause := 2 } ∧
      s'.mem.cells = s.mem.cells := by
  obtain ⟨s1, hs1⟩ : ∃ s1, s1 = updStrip n (fun x => { x with mrMiss := x.mrMiss + 1 }) s := ⟨_, rfl⟩
  have hstrip : stripAt s1 n = { stripAt s n with mrMiss := (stripAt s n).mrMiss + 1 } :=
    hs1 ▸ stripAt_updStrip_self hn
  have hn1 : n < s1.mem.strips.length := by rwa [hs1, updStrip_strips_length]
  have hkept : StripKept (fun x => x.mrMiss) n s1 (offlineStrip n 2 s1) :=
    (StripKept.refl _ n s1).offlineStrip fun _ _ _ => rfl
  refine ⟨_, mr4Poll_unanswered hc hot, ?_⟩
  dsimp only
  rw [if_pos hmany, ← hs1, stripAt_offlineStrip hn1 (by rwa [hstrip]), hstrip, hkept.mem, hs1]
  exact ⟨rfl, rfl⟩

/-! #### The patrol scrub of LPDDR5X -/

/-- R160: an address of LPDDR5X lies in one of the 16 strips. -/
theorem stripOf_lt (hg : g * 64 < ddrSize) : stripOf (g * 64) < 16 := by
  simp only [stripOf, stripSize, ddrSize] at *
  omega

theorem GranReported.mark {type : Nat} {m : Mark} {p : Strip → Nat} {s1 : State} (hr : GranReported g type m p s s1) :
    Cells.get .clean s1.mem.gran g = m := by
  rw [hr.gran, Cells.get_set_self]

/-! #### The patrol scrub of a slice -/

/-- R180: a row of a slice that is powered is read. -/
theorem sliceScrub_reads (ht : t < 156) (hb : bank < 32) (hr : row < 2048) (hp : slicePowered s t = true) :
    exec (.sliceScrub t bank row []) s = .next (sliceCheck t (sliceRowOff bank row) 512 s).1 :=
  congrArg Host.Outcome.next (if_pos ⟨ht, hb, hr, hp⟩)

/-- R180: a row without an error. -/
theorem sliceScrub_clean (ht : t < 156) (hb : bank < 32) (hr : row < 2048) (hp : slicePowered s t = true)
    (hrow : RowWordsClean s t bank row (rowWord t bank row i))
    (hw : Cells.get .clean s.mem.words (rowWord t bank row i) = .clean) :
    exec (.sliceScrub t bank row []) s = .next s := by
  rw [sliceScrub_reads ht hb hr hp, sliceCheck_clean _ _ _ _ (hrow.all hw)]

theorem slicePowered_code (hp : slicePowered s t = true) (hret : (tileAt s t).code ≠ .retired) :
    (tileAt s t).code ≠ .spare := by
  unfold slicePowered at hp
  simp only [hret, if_false] at hp
  intro hspare
  simp [hspare] at hp

/-- R181: the slice of a tile that runs a job, or whose number has no copy to wait for, keeps its bytes. -/
theorem SliceSafe.of_powered (ht : t < s.tiles.length) (hp : slicePowered s t = true)
    (hs : jobRunning s = true ∨ ∃ l, (tileAt s t).logical = some l ∧ ∀ q ∈ s.mem.migrate, q.2 ≠ l) :
    SliceSafe t s := by
  obtain hrun | hwait := hs
  · exact .inl hrun
  · by_cases hret : (tileAt s t).code = .retired
    · exact .inr (.inl hret)
    · exact .inr (.inr ⟨ht, slicePowered_code hp hret, hwait⟩)

theorem rowReplaced_words {used : Nat} : (rowReplaced t bank row used s).mem.words = s.mem.words := by
  rw [rowReplaced_mem]
  rfl

theorem rowReplaced_errType {used : Nat} : (rowReplaced t bank row used s).mem.errType = s.mem.errType := by
  rw [rowReplaced_mem]
  rfl

/-- R178, R180: a row of which one word holds an error of one bit. -/
theorem sliceScrub_corrects (ht : t < 156) (hb : bank < 32) (hr : row < 2048) (hp : slicePowered s t = true) (hi : i < 32)
    (hrow : RowWordsClean s t bank row (rowWord t bank row i))
    (hmark : Cells.get .clean s.mem.words (rowWord t bank row i) = .single bit) :
    ∃ s', exec (.sliceScrub t bank row []) s = .next s' ∧
      CeCounted t bank row (satAdd 8 (sliceAt s t).ce 1) (SliceSafe t s) s.mem.cells s' := by
  have hcounted := sliceCe_counted (bit := bit) hb hr hi hrow
  rw [← rowWord_off] at hcounted
  obtain ⟨s1, hs1⟩ : ∃ s1, s1 = sliceCe t (rowWord t bank row i * 16 - sliceBase t) bit
      (setWord (rowWord t bank row i) .clean s) := ⟨_, rfl⟩
  rw [← hs1] at hcounted
  refine ⟨s1, ?_, hcounted⟩
  rw [sliceScrub_reads ht hb hr hp,
    sliceCheck_single (rowWord_mem t bank row hi) hmark hrow hs1 fun k hk _ => hcounted.words k hk]

/-- R178, R180, R182: a row of which one word holds an uncorrectable error. -/
theorem sliceScrub_replaces (ht : t < 156) (hb : bank < 32) (hr : row < 2048) (hp : slicePowered s t = true) (hi : i < 32)
    (hrow : RowWordsClean s t bank row (rowWord t bank row i))
    (hmark : Cells.get .clean s.mem.words (rowWord t bank row i) = .double)
    (hfree : Cells.get 0 (sliceAt s t).rows bank < 16) :
    exec (.sliceScrub t bank row []) s =
      .next (rowReplaced t bank row (Cells.get 0 (sliceAt s t).rows bank) (wordUe t (rowWordOff bank row i) s)) := by
  have hreplaced := sliceUe_replaces hb hr hi hmark hrow hfree
  rw [← rowWord_off (t := t)] at hreplaced ⊢
  obtain ⟨s1, hs1⟩ : ∃ s1, s1 = rowReplaced t bank row (Cells.get 0 (sliceAt s t).rows bank)
      (wordUe t (rowWord t bank row i * 16 - sliceBase t) s) := ⟨_, rfl⟩
  rw [← hs1] at hreplaced ⊢
  have hafter : RowWordsClean s1 t bank row (rowWord t bank row i) := by
    intro k hk hkw
    rw [hs1, rowReplaced_words, rowWord_off, wordUe_words, Cells.get_set, if_neg hkw]
    exact hrow k hk hkw
  rw [sliceScrub_reads ht hb hr hp, sliceCheck_double (rowWord_mem t bank row hi) hmark hrow hreplaced.symm hafter]

/-! #### Column repairs -/

theorem asColumnRepair_waits (hrun : tileInRun s t = true) : exec (.asColumnRepair t) s = .next s :=
  congrArg Host.Outcome.next (if_neg (by simp [hrun]))

theorem asColumnRepair_stopped (hrun : tileInRun s t = false) : exec (.asColumnRepair t) s =
    .next (forEach (sliceAt s t).colDue (fun c st => repairColumn t (c / 4384) (c % 4384) st) s) :=
  congrArg Host.Outcome.next (if_pos (by simp [hrun]))

theorem asColumnRepair_idle (hdue : (sliceAt s t).colDue = []) : exec (.asColumnRepair t) s = .next s := by
  cases hrun : tileInRun s t with
  | true => exact asColumnRepair_waits hrun
  | false =>
    rw [asColumnRepair_stopped hrun, hdue]
    rfl

theorem asColumnRepair_one (hrun : tileInRun s t = false) (hdue : (sliceAt s t).colDue = [c]) :
    exec (.asColumnRepair t) s = .next (repairColumn t (c / 4384) (c % 4384) s) := by
  rw [asColumnRepair_stopped hrun, hdue]
  rfl

@[simp] theorem sliceAt_rewriteBank : sliceAt (rewriteBank t bank s) t = sliceAt s t := rfl

/-- R183: what the repair of a column writes of its slice. -/
theorem sliceAt_repairColumn {col : Nat} : sliceAt (repairColumn t bank col s) t =
    { sliceAt s t with
      cols := Cells.set 0 (sliceAt s t).cols bank (Cells.get 0 (sliceAt s t).cols bank + 1)
      repairedCols := (sliceAt s t).repairedCols ++ [bank * 4384 + col]
      colDue := (sliceAt s t).colDue.filter (fun c => c ≠ bank * 4384 + col)
      ceLog := (sliceAt s t).ceLog.filter (fun e => e.2.1 ≠ bank * 4384 + col) } := by
  simp only [repairColumn, sliceAt_emit, sliceAt_countRepair, sliceAt_updSlice_self, sliceAt_rewriteBank]

theorem repairColumn_cells {col : Nat} : (repairColumn t bank col s).mem.cells = s.mem.cells := by
  rw [repairColumn, emit_mem]
  rfl

theorem repairColumn_tiles {col : Nat} : (repairColumn t bank col s).tiles = s.tiles := by
  rw [repairColumn, emit_tiles]
  rfl

end MaintenanceEvents

/-- Settles O53: the polls by `mr4Poll_answers` and its neighbours, the scrubs by what one marked granule or word of
a row leads to, and the column repairs by `sliceAt_repairColumn`. -/
theorem memoryMaintenance : Obligations.MemoryMaintenance := by
  unfold Obligations.MemoryMaintenance
  refine fun s => ⟨?polls, fun _ _ _ => rfl, ?ddr, ?rests, ?slice, ?columns⟩
  case polls =>
    rintro n _ hlen hn rfl
    rw [← hlen] at hn
    refine ⟨fun hc => mr4Poll_training hc, fun hc => ⟨fun hot => ?_, fun hot hfew => mr4Poll_misses hn hc hfew hot,
      fun hot hmany hon => mr4Poll_gives_up hn hc hmany hon hot⟩⟩
    obtain ⟨s', he, hstrip, hhot, hcells⟩ := mr4Poll_answers hn hc hot
    exact ⟨s', he, hstrip, fun d => hhot ▸ mem_hotAfter n hot _ d, hcells⟩
  case ddr =>
    rintro g _ hlen rfl hrate hpwr hg hcode hrow
    have hn : stripOf (g * 64) < s.mem.strips.length := by
      rw [hlen]
      exact stripOf_lt hg
    rw [lpddrScrub_runs ⟨hrate, hpwr, hg, hcode⟩]
    refine ⟨fun hfree hm => by rw [readGran_clean hfree hm], fun b hfree hm => ?_, fun hfree hm => ?_⟩
    · have hr := readGran_single hn hfree hm hrow
      exact ⟨_, rfl, hr.mark, hr.count, hr.errValid, hr.errType, hr.errWhere, hr.cells⟩
    · have hr := readGran_double hn hfree hm hrow
      exact ⟨_, rfl, hr.mark, hr.count, hr.errType, hr.errWhere, hr.cells⟩
  case rests =>
    intro g ups hoff
    refine lpddrScrub_rests (fun ⟨hrate, hpwr, _⟩ => ?_) ups
    obtain hrate' | hpwr' := hoff
    · exact hrate hrate'
    · exact not_le.2 hpwr hpwr'
  case slice =>
    intro t bank row w i ht hlen hb hr hp hi hw hrow
    obtain rfl : w = rowWord t bank row i := hw
    refine ⟨fun hm => sliceScrub_clean ht hb hr hp hrow hm, fun b hm => ?_, fun hm hfree => ?_⟩
    · obtain ⟨s', he, hwords, hcount, herr, hbytes⟩ := sliceScrub_corrects ht hb hr hp hi hrow hm
      exact ⟨s', he, hwords _ (rowWord_mem t bank row hi), hcount, herr,
        fun hsafe => (hbytes (.of_powered (hlen ▸ ht) hp hsafe)).2⟩
    · refine ⟨_, sliceScrub_replaces ht hb hr hp hi hrow hm hfree, ?_⟩
      rw [rowReplaced_words, wordUe_words, Cells.get_set_self, sliceAt_rowReplaced, sliceAt_wordUe, rowReplaced_errType,
        wordUe_errType, rowReplaced_cells, wordUe_cells]
      exact ⟨rfl, rfl, Cells.get_set_self .., rfl, rfl⟩
  case columns =>
    intro t c
    refine ⟨asColumnRepair_waits, asColumnRepair_idle, fun hrun hdue => ⟨_, asColumnRepair_one hrun hdue, ?_⟩⟩
    have hc : c / 4384 * 4384 + c % 4384 = c := Nat.div_add_mod' c 4384
    rw [sliceAt_repairColumn, hc, hdue]
    exact ⟨by simp, rfl, Cells.get_set_self .., repairColumn_cells, repairColumn_tiles⟩

end Sys2Proof.Machine

/-! ### O16: the events of a WEIGHT pass -/

namespace Sys2Proof.Machine

section WeightPasses

variable {s : State} {n m l t b c : Nat} {d : StreamDesc} {st : Stream} {p : Pass} {f : Stream → Stream}

/-! #### One stream of the engine -/

@[simp] theorem streamAt_updStream_self (n : Nat) (f : Stream → Stream) (s : State) :
    streamAt (updStream n f s) n = f (streamAt s n) := Cells.get_set_self ..

theorem streamAt_updStream_ne (h : m ≠ n) : streamAt (updStream n f s) m = streamAt s m := Cells.get_set_ne _ _ _ h

@[simp] theorem streamAt_emit (c n : Nat) (bs : List Byte) (s : State) : streamAt (emit c n bs s) m = streamAt s m := by
  unfold streamAt
  rw [emit_wse]

@[simp] theorem bufAt_setBuf_self (l b : Nat) (v : Buf) (st : Stream) : bufAt (setBuf l b v st) l b = v :=
  Cells.get_set_self ..

/-- R199: the lowest context that no pass holds. -/
theorem freeCtx_lowest (hc : c < 32) (hfree : c ∉ ctxUsed s) (hlow : ∀ b < c, b ∈ ctxUsed s) : freeCtx s = some c := by
  refine List.find?_range_eq_some.2 ⟨?_, List.mem_range.2 hc, fun b hb => ?_⟩
  · simpa using hfree
  · simpa using hlow b hb

/-- R193: a buffer that is EMPTY in every member. -/
theorem bufferFree_of_empty (h : ∀ l ∈ groupOf s d.group, (bufAt st l (n % d.nbuf)).code = .empty) :
    bufferFree s d st n = true := by
  simpa [bufferFree] using h

/-! #### The sync add at the end of a pass -/

@[simp] theorem passAdd_mem (d : StreamDesc) (s : State) : (passAdd d s).mem = s.mem := by
  unfold passAdd
  split <;> rfl

@[simp] theorem streamAt_passAdd (d : StreamDesc) (s : State) : streamAt (passAdd d s) m = streamAt s m := by
  unfold passAdd
  split <;> rfl

/-- R197: a pass whose descriptor names an object adds 1 to it. -/
theorem passAdd_adds (h : bitOf d.sync 15 = true) :
    syncGet (passAdd d s) (d.sync % 16384) = syncGet s (d.sync % 16384) + 1#64 := by
  rw [passAdd, if_pos h, syncGet_syncAdd, if_pos rfl]

theorem passAdd_none (h : bitOf d.sync 15 = false) : passAdd d s = s := if_neg (by rw [h]; decide)

/-! #### The events -/

/-- R199: the first pass of the queue takes a free context. -/
theorem wsePassBegin_first (hp : (streamAt s n).pass = some p) (hctx : p.ctx = none)
    (hfirst : ∀ o ∈ waitingOrders s, p.order ≤ o) (hfree : freeCtx s = some c) :
    exec (.wsePassBegin n) s = .next (setPass n { p with ctx := some c } s) := by
  have hgo : p.ctx.isNone = true ∧ (waitingOrders s).all (fun o => p.order ≤ o) = true := by
    simpa [hctx] using hfirst
  show execWsePassBegin n s = _
  simp only [execWsePassBegin, hp, hfree, if_pos hgo]

/-- R193: a staged chunk begins to be written. -/
theorem chunkWriteStart_staged {cs : List Chunk} {ch : Chunk} (hd : streamDesc s n = some d)
    (hp : (streamAt s n).pass = some p) (hctx : p.ctx ≠ none) (hk : d.kind = 1) (hst : p.staged = ch :: cs)
    (hw : p.writing = []) (hb : p.begun < d.nchunk) (hfree : bufferFree s d (streamAt s n) (p.first + p.begun) = true) :
    exec (.chunkWriteStart n) s = .next (setPass n
      { p with staged := cs, cur := ch, begun := p.begun + 1, writing := groupOf s d.group } s) := by
  have hgo : p.ctx.isSome = true ∧ d.kind = 1 ∧ p.writing = [] ∧ p.begun < d.nchunk ∧
      bufferFree s d (streamAt s n) (p.first + p.begun) = true :=
    ⟨Option.isSome_iff_ne_none.2 hctx, hk, hw, hb, hfree⟩
  show execChunkWriteStart n s = _
  simp only [execChunkWriteStart, hd, hp, if_pos hgo, hst]

/-- R197, R199: a WEIGHT pass whose last chunk is FULL ends. -/
theorem wsePassEnd_weight (hd : streamDesc s n = some d) (hp : (streamAt s n).pass = some p) (hctx : p.ctx ≠ none)
    (hk : d.kind = 1) (hdone : p.done = d.nchunk) :
    exec (.wsePassEnd n) s = .next (passAdd d (endPass n s)) := by
  show execWsePassEnd n s = _
  simp only [execWsePassEnd, hd, hp, Option.isNone_iff_eq_none, hctx, hk, hdone, if_false, if_true]

/-- R193: the member that receives the last byte of a chunk has its buffer written, and FULL. -/
theorem chunkFull_writes (hd : streamDesc s n = some d) (hp : (streamAt s n).pass = some p) (hl : l ∈ p.writing)
    (ht : physOf s l = some t) (hserves : serving (tileAt s t) = true)
    (hover : bufferOverlap n l t d ((p.first + p.begun - 1) % d.nbuf) s = []) :
    exec (.chunkFull n l) s = .next (updStream n (fun st =>
      { setBuf l ((p.first + p.begun - 1) % d.nbuf) ⟨.full, p.cur.poison⟩ st with
        pass := some { p with
          writing := p.writing.filter (· ≠ l), done := if p.writing.filter (· ≠ l) = [] then p.begun else p.done } })
      (scratchWrite t (d.bufAddr + (p.first + p.begun - 1) % d.nbuf * descBufSize d) p.cur.bytes s)) := by
  show execChunkFull n l s = _
  simp only [execChunkFull, hd, hp, List.contains_iff_mem.2 hl, ht, hserves, hover, spoilKeys_nil, if_true]

/-- R198: a stream with a pass, whose members have all halted, is cancelled. -/
theorem wsePassCancel_halted (hd : streamDesc s n = some d) (hp : (streamAt s n).pass = some p)
    (hh : membersHalted s d = true) : ∃ bs, exec (.wsePassCancel n) s =
      .next (emit 0x0B04 n bs (updStream n (fun st => { st with pass := none, held := none }) s)) := by
  have hgo : outstanding (streamAt s n) = true ∧ membersHalted s d = true := ⟨by simp [outstanding, hp], hh⟩
  show ∃ bs, execWsePassCancel n s = _
  simp only [execWsePassCancel, hd, if_pos hgo]
  exact ⟨_, rfl⟩

end WeightPasses

/-- Settles O16: each event by its own lemma above, and the bytes of a chunk by a write that meets no error. -/
theorem weightPass : Obligations.WeightPass := by
  rintro s n d st p hd rfl hp
  refine ⟨fun hctx hfirst c hc hfree hlow => ?begins, fun hctx hk =>
    ⟨fun c cs hst hw hb hempty => ?starts, fun hdone => ?ends⟩, fun l t hl ht hserves hover hclean => ?fills,
    fun hh => ?cancels⟩
  case begins => exact wsePassBegin_first hp hctx hfirst (freeCtx_lowest hc hfree hlow)
  case starts => exact chunkWriteStart_staged hd hp hctx hk hst hw hb (bufferFree_of_empty hempty)
  case ends =>
    refine ⟨_, wsePassEnd_weight hd hp hctx hk hdone, ?_, fun m hm => ?_, passAdd_mem .., fun h => passAdd_adds h,
      fun h => ?_⟩
    · rw [streamAt_passAdd, endPass, streamAt_updStream_self, hp]
      rfl
    · rw [streamAt_passAdd, endPass, streamAt_updStream_ne hm]
    · rw [passAdd_none h]
      rfl
  case fills =>
    obtain ⟨hframe, hcells⟩ := sramWrite_clean (fun _ _ st => scratchCe t st) hclean
    refine ⟨_, chunkFull_writes hd hp hl ht hserves hover, ?_, ?_, fun x => ?_⟩
    · rw [streamAt_updStream_self]
      exact bufAt_setBuf_self ..
    · rw [streamAt_updStream_self]
    · rw [updStream_mem]
      exact (congrArg (memByte · x) hcells).trans (memByte_memWrite ..)
  case cancels =>
    obtain ⟨bs, hcancel⟩ := wsePassCancel_halted hd hp hh
    refine ⟨_, hcancel, ?_, fun m hm => ?_, emit_mem .., emit_tiles ..⟩
    · rw [streamAt_emit, streamAt_updStream_self]
    · rw [streamAt_emit, streamAt_updStream_ne hm]

end Sys2Proof.Machine

/-! ### O17: CHUNK_STAGED -/

namespace Sys2Proof.Machine

section RawChunks

variable {s s1 : State} {n k a : Nat} {d : StreamDesc} {f : WForm} {p : Pass}

/-! #### Reads of LPDDR5X that meet no error -/

/-- R167: a read that meets no error and no row out of use changes nothing. -/
theorem ddrRead_clean (hc : CleanGrans s a n) : ddrRead a n s = (s, memRead s.mem.cells (ddrBase + a) n, []) := by
  rw [ddrRead, readGrans_clean _ s hc]

/-! #### Raw dense chunks -/

/-- R190: FORMAT of a raw dense chunk. -/
theorem wform_dense (hs : bitOf d.format 2 = false) : storedSize (wform d.format) = fmtBytes (d.format % 4) := by
  simp [storedSize, wform, hs]

/-- Pieces of a list of their whole length are the list. -/
theorem cutBytes_flatten {bs : List Byte} (h : bs.length = n * k) : (cutBytes k n bs).flatten = bs := by
  induction n generalizing bs with
  | zero =>
    rw [Nat.zero_mul, List.length_eq_zero_iff] at h
    rw [h]
    rfl
  | succ n ih =>
    rw [cutBytes, List.flatten_cons, ih (by rw [List.length_drop, h, Nat.succ_mul, Nat.add_sub_cancel]),
      List.take_append_drop]

/-- R205: a dense block is delivered as it is stored. -/
theorem rawBlock_dense (hs : f.sparse = false) : rawBlock f = id := by
  funext b
  simp [rawBlock, hs]

/-- R200: the reading of a raw dense chunk that meets no error. -/
theorem readRaw_dense {strip off chunk : Nat} (hs : bitOf d.format 2 = false)
    (hroom : d.stripOff + off + 64 * d.kb * fmtBytes (d.format % 4) ≤ stripSize)
    (hclean : CleanGrans s (strip * stripSize + (d.stripOff + off)) (64 * d.kb * fmtBytes (d.format % 4))) :
    ∃ next, readRaw n d chunk strip off s =
      (bumpBy s rWseCount 0 [0] (64 * d.kb * fmtBytes (d.format % 4)),
        ⟨⟨memRead s.mem.cells (ddrBase + (strip * stripSize + (d.stripOff + off))) (64 * d.kb * fmtBytes (d.format % 4)),
          none, 64 * d.kb * fmtBytes (d.format % 4)⟩, next, none⟩) := by
  have hsparse : (wform d.format).sparse = false := hs
  have hbad (bs : List (List Byte)) : rawBad (wform d.format) bs = false := by simp [rawBad, hsparse]
  unfold readRaw
  simp only [wform_dense hs, if_neg (Nat.not_lt.2 hroom), ddrRead_clean hclean, hbad, rawBlock_dense hsparse, List.map_id,
    cutBytes_flatten (memRead_length ..), Bool.false_eq_true, if_false]
  exact ⟨_, rfl⟩

/-! #### The next chunk of a pass -/

/-- R200, R213: a pass that has lost no strip reads its next raw chunk. -/
theorem readChunk_raw (hcodec : bitOf d.format 4 = false) (hlost : p.lost = []) {c : Chunk} {next : Nat}
    (hr : readRaw n d (p.first + p.read) (nextStrip d p) (Cells.get 0 p.offs (nextStrip d p)) s = (s1, ⟨c, next, none⟩)) :
    readChunk n d p s =
      (s1, { p with read := p.read + 1, offs := Cells.set 0 p.offs (nextStrip d p) next }, c) := by
  have hform : (wform d.format).codec = false := hcodec
  unfold readChunk
  simp only [hlost, List.find?_nil, Option.map_none, hform, Bool.false_eq_true, if_false, hr]

/-- R209: the running pass of a WEIGHT descriptor may read its next chunk into staging. -/
structure MayStage (s : State) (n k : Nat) (d : StreamDesc) (p : Pass) : Prop where
  desc : streamDesc s n = some d
  pass : (streamAt s n).pass = some p
  held : (streamAt s n).held = none
  kind : d.kind = 1
  context : p.ctx ≠ none
  number : k = p.first + p.read
  unread : p.read < d.nchunk
  room : p.staged.length < d.prefetch
  trained : (stripAt s (nextStrip d p)).code ≠ .training

/-- R206, R209: CHUNK_STAGED, where staging has the bytes of the chunk left. -/
theorem chunkStaged_reads (h : MayStage s n k d p) {q : Pass} {c : Chunk} (hr : readChunk n d p s = (s1, q, c))
    (hfits : stagedBytes s + c.size ≤ 8388608) :
    exec (.chunkStaged n k) s =
      .next (updStream n (fun st => { st with pass := some { q with staged := q.staged ++ [c] } }) s1) := by
  obtain ⟨hd, hp, hheld, hk, hctx, hn, hread, hroom, htrained⟩ := h
  have hnot : ¬ d.nchunk ≤ p.read := Nat.not_le.2 hread
  have hgo : p.ctx.isSome = true ∧ d.kind = 1 ∧ k = p.first + p.read ∧ p.read < d.nchunk ∧
      p.staged.length < d.prefetch ∧ ¬ readHeld d p s = true :=
    ⟨Option.isSome_iff_ne_none.2 hctx, hk, hn, hread, hroom, by simpa [readHeld] using htrained⟩
  show execChunkStaged n k s = _
  simp only [execChunkStaged, hd, hp, hheld, hnot, decide_false, Bool.false_eq_true, if_false, Option.map_none,
    Option.getD_none, Nat.add_zero, if_pos hgo, hr, if_neg (Nat.not_lt.2 hfits)]

end RawChunks

/-- Settles O17: the chunk that the event reads is raw and dense, and its read meets no error. -/
theorem chunkIsStaged : Obligations.ChunkIsStaged := by
  rintro s n k d st p dpa hd rfl hp hheld hk hctx hn hread hroom hfits hlost htrained hcodec hsparse - hstrip rfl hclean
  obtain ⟨next, hraw⟩ := readRaw_dense (n := n) (chunk := p.first + p.read) hsparse hstrip hclean
  have hstaged := chunkStaged_reads ⟨hd, hp, hheld, hk, hctx, hn, hread, hroom, htrained⟩
    (readChunk_raw hcodec hlost hraw) hfits
  exact ⟨_, _, _, hstaged, congrArg Stream.pass (streamAt_updStream_self ..), rfl, rfl, rfl, rfl, rfl, rfl,
    (updStream_mem ..).trans (bumpBy_mem ..), (updStream_tiles ..).trans (bumpBy_tiles ..)⟩

end Sys2Proof.Machine

/-! ### O18: SPILL and FILL passes -/

namespace Sys2Proof.Machine

section Transfers

variable {s s0 s1 s2 : State} {n k l t : Nat} {d : StreamDesc} {p : Pass} {phys : Nat → Nat} {ls : List Nat}

theorem memRead_congr {m m' : List Host.Cell} {a : Nat} (h : ∀ j < n, memByte m (a + j) = memByte m' (a + j)) :
    memRead m a n = memRead m' a n := by
  induction n generalizing a with
  | zero => rfl
  | succ n ih =>
    have hhead : memByte m a = memByte m' a := h 0 (Nat.succ_pos n)
    have htail : memRead m (a + 1) n = memRead m' (a + 1) n := ih fun j hj => by
      rw [Nat.add_right_comm]
      exact h (j + 1) (Nat.succ_lt_succ hj)
    rw [memRead, memRead, hhead, htail]

/-! #### What a transfer leaves -/

/-- R210, R217: nothing has changed but the counters, and memory as writes that clean what they cover change it. -/
def Transferred (s s1 : State) : Prop := Rewritten { s with regs := s1.regs } s1

theorem Transferred.refl (s : State) : Transferred s s := Rewritten.refl s

theorem Transferred.rewritten (h : Transferred s s1) (h' : Rewritten s1 s2) : Transferred s s2 := by
  have hregs : s2.regs = s1.regs := by rw [h'.frame]
  rw [Transferred, hregs]
  exact Rewritten.trans h h'

theorem Transferred.bumpBy (h : Transferred s s1) (r : RegRow) (i : Nat) (ix : List Nat) (m : Nat) :
    Transferred s (bumpBy s1 r i ix m) := by
  obtain ⟨hframe, hwords, hgran⟩ := h
  exact ⟨congrArg (fun y : State => { y with regs := (Machine.bumpBy s1 r i ix m).regs }) hframe, hwords, hgran⟩

theorem Transferred.tileAt (h : Transferred s s1) : tileAt s1 t = tileAt s t := by
  rw [h.frame]
  rfl

theorem Transferred.physOf (h : Transferred s s1) : physOf s1 l = physOf s l := by
  have hlen : s1.tiles.length = s.tiles.length := by rw [h.frame]
  exact physOf_congr hlen (fun _ => congrArg Tile.logical h.tileAt) l

/-! #### One member -/

/-- R210: member `k` of a transfer is tile `t`, which serves, and no byte of it, in its slice or in its place in the
strips, holds an error. -/
structure MemberClean (s : State) (d : StreamDesc) (l k t : Nat) : Prop where
  phys : physOf s l = some t
  serves : serving (tileAt s t) = true
  words : CleanWords s (sliceBase t + d.sliceOff) d.len
  grans : CleanGrans s (spillDpa d k) d.len

theorem MemberClean.transferred (hm : MemberClean s d l k t) (h : Transferred s s1) : MemberClean s1 d l k t := by
  obtain ⟨hphys, hserves, hwords, hgrans⟩ := hm
  exact ⟨h.physOf.trans hphys, h.tileAt ▸ hserves, Rewritten.cleanWords h hwords, Rewritten.cleanGrans h hgrans⟩

/-- R210: where the bytes of member `k`, tile `phys k`, come from: its slice in a SPILL, its place in the strips in a
FILL. -/
def memberFrom (d : StreamDesc) (phys : Nat → Nat) (k : Nat) : Nat :=
  if d.kind = 2 then sliceBase (phys k) + d.sliceOff else ddrBase + spillDpa d k

/-- R210: where they go. -/
def memberTo (d : StreamDesc) (phys : Nat → Nat) (k : Nat) : Nat :=
  if d.kind = 2 then ddrBase + spillDpa d k else sliceBase (phys k) + d.sliceOff

/-- Bytes of a range of memory have been written at a key, and no error has come about. -/
def Moved (dst src len : Nat) (s s1 : State) : Prop :=
  Rewritten s s1 ∧ s1.mem.cells = memWrite s.mem.cells dst (memRead s.mem.cells src len)

/-- R210: a member of a SPILL. -/
theorem spillMember_clean (hm : MemberClean s d l k t) : ∃ s1, spillMember d t (spillDpa d k) s = (s1, []) ∧
    Moved (ddrBase + spillDpa d k) (sliceBase t + d.sliceOff) d.len s s1 := by
  have hgrans : CleanGrans s (spillDpa d k) (memRead s.mem.cells (sliceBase t + d.sliceOff) d.len).length := by
    rw [memRead_length]
    exact hm.grans
  refine ⟨_, ?_, ddrWrite_rewrites hgrans, (ddrWrite_clean hgrans).2⟩
  unfold spillMember
  simp only [hm.serves, sliceCheck_clean t _ _ s hm.words, Bool.not_true, Bool.false_eq_true, if_false]
  rfl

/-- R210: a member of a FILL. -/
theorem fillMember_clean (hm : MemberClean s d l k t) : ∃ s1, fillMember d t (spillDpa d k) s = (s1, []) ∧
    Moved (sliceBase t + d.sliceOff) (ddrBase + spillDpa d k) d.len s s1 := by
  have hwords : CleanWords s (sliceBase t + d.sliceOff) (memRead s.mem.cells (ddrBase + spillDpa d k) d.len).length := by
    rw [memRead_length]
    exact hm.words
  refine ⟨_, ?_, sramWrite_rewrites _ hwords, (sramWrite_clean (fun k b st => sliceCe t (k - sliceBase t) b st) hwords).2⟩
  unfold fillMember
  simp only [hm.serves, ddrRead_clean hm.grans, Bool.not_true, Bool.false_eq_true, if_false]
  rfl

/-- R210, R217: one member of a transfer, its logical number and its place among the members, by the state and the
granules that have failed so far. -/
def moveStep (d : StreamDesc) (r : State × List Nat) (m : Nat × Nat) : State × List Nat :=
  match physOf r.1 m.1 with
  | none => r
  | some t =>
    let q := if d.kind = 2 then spillMember d t (spillDpa d m.2) r.1 else fillMember d t (spillDpa d m.2) r.1
    (bumpBy q.1 rWseCount 0 [6] d.len, r.2 ++ q.2)

/-- R210: a member that meets no error. -/
theorem moveStep_clean (hm : MemberClean s d l k (phys k)) :
    ∃ s1, Moved (memberTo d phys k) (memberFrom d phys k) d.len s s1 ∧
      moveStep d (s, []) (l, k) = (bumpBy s1 rWseCount 0 [6] d.len, []) := by
  unfold moveStep memberTo memberFrom
  by_cases hk : d.kind = 2
  · obtain ⟨s1, hrun, hmoved⟩ := spillMember_clean hm
    simp only [hm.phys, if_pos hk, hrun, List.append_nil]
    exact ⟨s1, hmoved, rfl⟩
  · obtain ⟨s1, hrun, hmoved⟩ := fillMember_clean hm
    simp only [hm.phys, if_neg hk, hrun, List.append_nil]
    exact ⟨s1, hmoved, rfl⟩

/-! #### All members -/

/-- R210: members from number `k` on that meet no error are copied in order, where no range that is written overlaps
one that is read. -/
theorem foldl_moveStep (hs : Transferred s0 s)
    (hm : ∀ i < ls.length, MemberClean s0 d (ls.getD i 0) (k + i) (phys (k + i)))
    (hsame : ∀ i < ls.length, ∀ j < d.len,
      memByte s.mem.cells (memberFrom d phys (k + i) + j) = memByte s0.mem.cells (memberFrom d phys (k + i) + j))
    (hapart : ∀ i < ls.length, ∀ q < ls.length, memberTo d phys (k + i) + d.len ≤ memberFrom d phys (k + q) ∨
      memberFrom d phys (k + q) + d.len ≤ memberTo d phys (k + i)) :
    ∃ s1, (ls.zipIdx k).foldl (moveStep d) (s, []) = (s1, []) ∧ Transferred s0 s1 ∧
      s1.mem.cells = copied s0.mem.cells d.len ls.length (fun i => memberFrom d phys (k + i))
        (fun i => memberTo d phys (k + i)) s.mem.cells := by
  induction ls generalizing s k with
  | nil => exact ⟨s, rfl, hs, rfl⟩
  | cons l ls ih =>
    have hnext (i : Nat) : k + 1 + i = k + (i + 1) := by omega
    have hhead : (0 : Nat) < (l :: ls).length := Nat.succ_pos _
    have htail {i : Nat} (hi : i < ls.length) : i + 1 < (l :: ls).length := Nat.succ_lt_succ hi
    obtain ⟨s1, ⟨hs1, hcells⟩, hrun⟩ := moveStep_clean ((hm 0 hhead).transferred hs)
    have hread : memRead s.mem.cells (memberFrom d phys k) d.len = memRead s0.mem.cells (memberFrom d phys k) d.len :=
      memRead_congr (hsame 0 hhead)
    obtain ⟨s2, hfold, hs2, hcells2⟩ := ih (k := k + 1) ((hs.rewritten hs1).bumpBy rWseCount 0 [6] d.len)
      (fun i hi => by
        rw [hnext]
        exact hm (i + 1) (htail hi))
      (fun i hi j hj => by
        have hout := hapart 0 hhead (i + 1) (htail hi)
        rw [hnext, bumpBy_mem, hcells, memByte_memWrite, memRead_length, if_neg (by omega)]
        exact hsame (i + 1) (htail hi) j hj)
      (fun i hi q hq => by
        rw [hnext, hnext]
        exact hapart (i + 1) (htail hi) (q + 1) (htail hq))
    refine ⟨s2, ?_, hs2, ?_⟩
    · rw [List.zipIdx_cons, List.foldl_cons]
      exact (congrArg (fun r => (ls.zipIdx (k + 1)).foldl (moveStep d) r) hrun).trans hfold
    · rw [hcells2, bumpBy_mem, hcells]
      simp only [hnext, Nat.add_zero, hread, List.length_cons, copied]

/-- R210: a transfer none of whose members meets an error. -/
theorem moveSpill_of_foldl (h : (groupOf s d.group).zipIdx.foldl (moveStep d) (s, []) = (s1, [])) :
    moveSpill n d s = s1 := by
  unfold moveSpill
  generalize hr : List.foldl _ _ _ = r
  obtain rfl : r = (s1, []) := hr.symm.trans h
  rfl

/-- R197, R199: a SPILL or FILL pass ends with its transfer. -/
theorem wsePassEnd_transfer (hd : streamDesc s n = some d) (hp : (streamAt s n).pass = some p) (hctx : p.ctx ≠ none)
    (hk : d.kind = 2 ∨ d.kind = 3) (hheld : spillHeld d s = false) :
    exec (.wsePassEnd n) s = .next (passAdd d (endPass n (moveSpill n d s))) := by
  have hweight : d.kind ≠ 1 := by omega
  show execWsePassEnd n s = _
  simp only [execWsePassEnd, hd, hp, Option.isNone_iff_eq_none, hctx, hweight, hheld, Bool.false_eq_true, if_false]

/-! #### Ranges that do not overlap -/

/-- R81: the slices lie below LPDDR5X. -/
theorem slice_below_ddr (ht : t < 156) (hlen : d.sliceOff + d.len ≤ sliceSize) :
    sliceBase t + d.sliceOff + d.len ≤ ddrBase := by
  simp only [sliceBase, windowBase, windowStride, sliceOff, sliceSize, ddrBase] at *
  omega

/-- R81: the slices of two tiles do not overlap. -/
theorem slices_apart {u : Nat} (hne : t ≠ u) (hlen : d.sliceOff + d.len ≤ sliceSize) :
    sliceBase t + d.sliceOff + d.len ≤ sliceBase u + d.sliceOff ∨
      sliceBase u + d.sliceOff + d.len ≤ sliceBase t + d.sliceOff := by
  simp only [sliceBase, windowBase, windowStride, sliceOff, sliceSize] at *
  omega

/-- R210: a range that a transfer writes and one that it reads lie on the two sides of the start of LPDDR5X. -/
theorem memberTo_apart_memberFrom {i : Nat} (hk : phys k < 156) (hi : phys i < 156)
    (hlen : d.sliceOff + d.len ≤ sliceSize) :
    memberTo d phys k + d.len ≤ memberFrom d phys i ∨ memberFrom d phys i + d.len ≤ memberTo d phys k := by
  unfold memberTo memberFrom
  split
  · exact .inr ((slice_below_ddr hi hlen).trans (Nat.le_add_right ..))
  · exact .inl ((slice_below_ddr hk hlen).trans (Nat.le_add_right ..))

/-- R207, R210: two members are written apart. -/
theorem memberTo_apart {i : Nat} (hne : phys k ≠ phys i) (hlen : d.sliceOff + d.len ≤ sliceSize)
    (hdpa : spillDpa d k + d.len ≤ spillDpa d i ∨ spillDpa d i + d.len ≤ spillDpa d k) :
    memberTo d phys k + d.len ≤ memberTo d phys i ∨ memberTo d phys i + d.len ≤ memberTo d phys k := by
  unfold memberTo
  split
  · omega
  · exact slices_apart hne hlen

end Transfers

/-- Settles O18: the members are copied in order, and no range of one overlaps what another reads or writes. -/
theorem spillAndFill : Obligations.SpillAndFill := by
  rintro s n d p phys ls hd hp hctx hk hheld hls hphys hapart hlen hserves hroom hclean
  have hmember (i : Nat) (hi : i < ls.length) : MemberClean s d (ls.getD i 0) (0 + i) (phys (0 + i)) := by
    rw [Nat.zero_add]
    exact ⟨hphys i hi, hserves i hi, (hclean i hi).1, (hclean i hi).2⟩
  obtain ⟨s1, hfold, -, hcells⟩ := foldl_moveStep (Transferred.refl s) hmember (fun _ _ _ _ => rfl) fun i hi q hq => by
    rw [Nat.zero_add, Nat.zero_add]
    exact memberTo_apart_memberFrom (hroom i hi).1 (hroom q hq).1 hlen
  rw [hls] at hfold
  simp only [Nat.zero_add] at hcells
  have hend := wsePassEnd_transfer hd hp hctx hk hheld
  rw [moveSpill_of_foldl hfold] at hend
  have hmoved (i : Nat) (hi : i < ls.length) (j : Nat) (hj : j < d.len) :
      memByte s1.mem.cells (memberTo d phys i + j) = memByte s.mem.cells (memberFrom d phys i + j) := by
    rw [hcells]
    exact memByte_copied (dst := memberTo d phys) hi hj fun r hr q hq hne =>
      memberTo_apart (hapart r hr q hq hne).1 hlen (hapart r hr q hq hne).2
  have hstands (x : Nat) (hx : ∀ i < ls.length, x < memberTo d phys i ∨ memberTo d phys i + d.len ≤ x) :
      memByte s1.mem.cells x = memByte s.mem.cells x := by
    rw [hcells, memByte_copied_outside hx]
  refine ⟨_, hend, ?_, ?_⟩
  · rw [streamAt_passAdd, endPass, streamAt_updStream_self]
  rw [passAdd_mem, endPass, updStream_mem]
  refine ⟨fun i hi j hj => ⟨fun hspill => ?spilled, fun hfill => ?filled⟩, fun hspill x hx => ?below,
    fun hfill x hx _ => ?above⟩
  case spilled => simpa only [memberTo, memberFrom, if_pos hspill] using hmoved i hi j hj
  case filled =>
    have hnot : d.kind ≠ 2 := by omega
    simpa only [memberTo, memberFrom, if_neg hnot] using hmoved i hi j hj
  case below =>
    refine hstands x fun i _ => .inl ?_
    rw [memberTo, if_pos hspill]
    exact hx.trans_le (Nat.le_add_right ..)
  case above =>
    have hnot : d.kind ≠ 2 := by omega
    refine hstands x fun i hi => .inr ?_
    rw [memberTo, if_neg hnot]
    exact (slice_below_ddr (hroom i hi).1 hlen).trans hx

end Sys2Proof.Machine

/-! ### O39: SYNC_SIGNAL, and writes of SYNC_VALUE and SYNC_ADD -/

namespace Sys2Proof.Machine

section SyncWrites

variable {s u : State} {h : Header} {c : HostCmd} {p : List Byte} {r : RegRow} {o i v : Nat} {w : W64}

@[simp] theorem syncGet_begun : syncGet (begun h c s) o = syncGet s o := by
  rw [syncGet, begun_sync, syncGet]

/-- R220 to R222: a command that sets an object, once it has been answered. -/
theorem objectSet_syncSet (o : Nat) (w : W64) (x : HostIf) (m : Cells W64) :
    ObjectSet s { syncSet o w (begun h c s) with host := x, regs := m } o w := by
  refine ⟨?value, fun q hq => ?others, fun t => ?waits, begun_mem, begun_job⟩
  case value => exact (syncGet_syncSet o w _ o).trans (if_pos rfl)
  case others => exact ((syncGet_syncSet o w _ q).trans (if_neg hq)).trans syncGet_begun
  case waits => exact ((syncSet_leaves o w _).1 t).trans (congrArg (woken o w) tileAt_begun)

/-! #### SYNC_SIGNAL -/

/-- R224: SYNC_SIGNAL with an operand out of range. -/
theorem syncSignal_badArgs (h : Header)
    (hbad : 16384 ≤ leAt c.payload 0 4 ∨ 2 ≤ at1 c.payload 4 ∨ zeros c.payload 5 3 = false) :
    syncSignal h c s = (s, .reply 5 []) := by
  simp only [syncSignal, Bool.not_eq_true, hbad, if_true, status]

/-- R220, R224: SYNC_SIGNAL sets its object, to a value of its own or to the sum, and answers with what it left. -/
theorem syncSignal_sets (h : Header)
    (hok : ¬ (16384 ≤ leAt c.payload 0 4 ∨ 2 ≤ at1 c.payload 4 ∨ zeros c.payload 5 3 = false))
    (hw : w = if at1 c.payload 4 = 0 then syncGet s (leAt c.payload 0 4) + BitVec.ofNat 64 (leAt c.payload 8 8)
      else BitVec.ofNat 64 (leAt c.payload 8 8)) :
    syncSignal h c s = (syncSet (leAt c.payload 0 4) w s, .reply 0 (leBytes 8 w.toNat)) := by
  simp only [syncSignal, Bool.not_eq_true, hok, if_false, syncAdd_eq_syncSet]
  by_cases hadd : at1 c.payload 4 = 0
  · rw [if_pos hadd] at hw
    simp only [hadd, if_true, ← hw, syncGet_syncSet]
  · rw [if_neg hadd] at hw
    simp only [hadd, if_false, ← hw, syncGet_syncSet, if_true]

/-- R224: SYNC_SIGNAL that names an object and an operation. -/
theorem syncSignal_answers (ha : Admitted s h (hostCmd 0x0404 p []))
    (hok : ¬ (16384 ≤ leAt p 0 4 ∨ 2 ≤ at1 p 4 ∨ zeros p 5 3 = false))
    (hw : w = if at1 p 4 = 0 then syncGet s (leAt p 0 4) + BitVec.ofNat 64 (leAt p 8 8)
      else BitVec.ofNat 64 (leAt p 8 8)) :
    ∃ s', exec (.syncSignal h p) s = .next s' ∧ Answers s s' h (hostCmd 0x0404 p []) 0 (leBytes 8 w.toNat) ∧
      ObjectSet s s' (leAt p 0 4) w := by
  have hrun := syncSignal_sets (c := hostCmd 0x0404 p []) (s := begun h (hostCmd 0x0404 p []) s) (w := w) h hok
    (by rwa [syncGet_begun])
  obtain ⟨s', hs', hans, heq, -⟩ := admitted_reply ha rfl hrun rfl
  exact ⟨s', congrArg Host.Outcome.next hs', hans, heq ▸ objectSet_syncSet _ w _ _⟩

/-! #### SYNC_VALUE and SYNC_ADD -/

/-- The registers of a sync object. -/
def syncRegister (r : RegRow) : Prop := r = rSyncValue ∨ r = rSyncAdd

/-- R225, R453: a write of such a register whose effect is to set its object. -/
theorem syncRegister_written (ha : Admitted s h (writeOf r 0 [i] v [])) (hr : syncRegister r) (hi : i < 16384)
    (hv : v < 2 ^ 64)
    (hl : liveWrite r 0 [i] v [] (begun h (writeOf r 0 [i] v []) s) =
      some (syncSet i w (begun h (writeOf r 0 [i] v []) s))) :
    Written (.next (hostReceive h (writeOf r 0 [i] v []) s)) s h (writeOf r 0 [i] v []) (fun s' => ObjectSet s s' i w) := by
  have hfind : findReg (regAddr r 0 [i]) = some (r, 0, [i]) := by
    obtain rfl | rfl := hr
    · exact findReg_syncValue i hi
    · exact findReg_syncAdd i hi
  have haddr : regAddr r 0 [i] < 2 ^ 32 := by
    obtain rfl | rfl := hr <;> simp only [regAddr, rowOffset, rSyncValue, rSyncAdd, blockBase] <;> simp <;> omega
  have hwidth : r.width = 64 := by obtain rfl | rfl := hr <;> rfl
  have hoff : regOff s r 0 = false := by obtain rfl | rfl := hr <;> rfl
  obtain ⟨s', hs', hans, heq, -⟩ := write_completes (t := syncSet i w (begun h (writeOf r 0 [i] v []) s)) ha hfind haddr
    (by rw [hwidth]; decide) (by rw [hwidth]) (by rwa [hwidth]) hv hoff hl rfl rfl (RegsStand.refl _)
  exact ⟨s', hs', hans, heq ▸ objectSet_syncSet i w _ _⟩

end SyncWrites

/-- Settles O39: each of the three comes to one operation that sets an object. -/
theorem syncWrites : Obligations.SyncWrites := by
  refine ⟨fun s h p ha => ⟨fun hobj hop hzero w hw => ?signal, fun hbad => ?refused⟩,
    fun s h i v hi hv => ⟨fun ha => ?value, fun ha => ?add⟩⟩
  case signal => exact syncSignal_answers ha (by simp [hobj, hop, hzero]) hw
  case refused => exact ha.completes_unchanged rfl (syncSignal_badArgs h hbad)
  case value => exact syncRegister_written ha (.inl rfl) hi hv rfl
  case add =>
    refine syncRegister_written ha (.inr rfl) hi hv ?_
    rw [← syncGet_begun (h := h) (c := writeOf rSyncAdd 0 [i] v []), ← syncAdd_eq_syncSet]
    rfl

end Sys2Proof.Machine

/-! ### The fabric: what its operations leave, and what is read after them -/

namespace Sys2Proof.Machine

section FabricReads

variable {s t : State} {i j m n d e k : Nat} {new new' : Bool} {f : LaneSet → LaneSet}

/-! #### Lanes, receive channels and slots -/

theorem laneAt_updLane_self {g : Lane → Lane} (hi : i < s.fab.lanes.length) :
    laneAt (updLane i g s) i = g (laneAt s i) := by
  simp [laneAt, updLane, hi]

theorem laneAt_updLane_ne {g : Lane → Lane} (hj : j ≠ i) : laneAt (updLane i g s) j = laneAt s j := by
  simp only [laneAt, updLane, List.getD_eq_getElem?_getD, List.getElem?_set_ne (Ne.symm hj)]

theorem rxAt_updRx_self {g : RxCh → RxCh} (hi : i < s.fab.rxs.length) : rxAt (updRx i g s) i = g (rxAt s i) := by
  simp [rxAt, updRx, hi]

theorem rxAt_updRx_ne {g : RxCh → RxCh} (hj : j ≠ i) : rxAt (updRx i g s) j = rxAt s j := by
  simp only [rxAt, updRx, List.getD_eq_getElem?_getD, List.getElem?_set_ne (Ne.symm hj)]

theorem slotAt_updSlot_ne {g : PlanSlot → PlanSlot} (hm : m ≠ n) : slotAt (updSlot n g s) m = slotAt s m := by
  simp only [slotAt, updSlot, List.getD_eq_getElem?_getD, List.getElem?_set_ne (Ne.symm hm)]

theorem slotAt_of_length_le (hn : s.fab.slots.length ≤ n) : slotAt s n = {} := List.getD_eq_default _ _ hn

/-- What a change of a slot leaves of one slot, it leaves of all. -/
theorem slotAt_updSlot_kept {α : Type} {p : PlanSlot → α} {g : PlanSlot → PlanSlot} (hg : ∀ x, p (g x) = p x)
    (n m : Nat) (s : State) : p (slotAt (updSlot n g s) m) = p (slotAt s m) := by
  by_cases hm : m = n
  · subst hm
    by_cases hlen : m < s.fab.slots.length
    · rw [slotAt_updSlot_self _ hlen, hg]
    · simp only [slotAt, updSlot, List.set_eq_of_length_le (not_lt.1 hlen)]
  · rw [slotAt_updSlot_ne hm]

/-- What the sets of a slot do not enter, a change of a set leaves. -/
theorem slotAt_updSet_kept {α : Type} (p : PlanSlot → α)
    (hp : ∀ x sets newSets, p { x with sets := sets, newSets := newSets } = p x := by intros; rfl) :
    p (slotAt (updSet n d new f s) m) = p (slotAt s m) :=
  slotAt_updSlot_kept (fun x => by cases new <;> exact hp x _ _) n m s

/-! #### Lane sets -/

theorem slot_lt_of_setAt {x : LaneSet} (hset : setAt s n d new = some x) : n < s.fab.slots.length := by
  by_contra hn
  rw [setAt, slotAt_of_length_le (not_lt.1 hn)] at hset
  cases new <;> cases hset

theorem findSet_mapSet_ne {sets : List LaneSet} (hf : ∀ y, (f y).dest = y.dest) (he : e ≠ d) :
    findSet (mapSet d f sets) e = findSet sets e := by
  induction sets with
  | nil => rfl
  | cons y sets ih =>
    unfold findSet mapSet at *
    by_cases hd : y.dest = d
    · simpa [hd, hf, Ne.symm he] using ih
    · by_cases hy : y.dest = e
      · simp [hy, he]
      · simpa [hd, hy] using ih

theorem setAt_updSet_same (hf : ∀ y, (f y).dest = y.dest) (hn : n < s.fab.slots.length) :
    setAt (updSet n d new f s) n d new = (setAt s n d new).map f := by
  simp only [setAt, updSet, slotAt_updSlot_self _ hn]
  cases new <;> exact findSet_mapSet hf _

theorem setAt_updSet {x : LaneSet} (f : LaneSet → LaneSet) (hset : setAt s n d new = some x)
    (hf : ∀ y, (f y).dest = y.dest := by intro; rfl) : setAt (updSet n d new f s) n d new = some (f x) := by
  rw [setAt_updSet_same hf (slot_lt_of_setAt hset), hset, Option.map_some]

theorem setAt_updSet_ne (he : e ≠ d) (hf : ∀ y, (f y).dest = y.dest := by intro; rfl) :
    setAt (updSet n d new f s) m e new' = setAt s m e new' := by
  refine slotAt_updSlot_kept (p := fun p => findSet (if new' then p.newSets else p.sets) e) (fun p => ?_) n m s
  cases new <;> cases new' <;> simp [findSet_mapSet_ne hf he]

/-- The sets of the phase in force and those of the phase being entered do not mix. -/
theorem setAt_updSet_other (hnew : new' ≠ new) :
    setAt (updSet n d new f s) m e new' = setAt s m e new' := by
  refine slotAt_updSlot_kept (p := fun p => findSet (if new' then p.newSets else p.sets) e) (fun p => ?_) n m s
  cases new <;> cases new' <;> simp_all

@[simp] theorem setAt_updLane (g : Lane → Lane) : setAt (updLane i g s) n d new = setAt s n d new := rfl

@[simp] theorem laneAt_updSet : laneAt (updSet n d new f s) i = laneAt s i := rfl

@[simp] theorem updSet_mem : (updSet n d new f s).mem = s.mem := rfl

@[simp] theorem updSet_tiles : (updSet n d new f s).tiles = s.tiles := rfl

@[simp] theorem updSet_lanes : (updSet n d new f s).fab.lanes = s.fab.lanes := rfl

@[simp] theorem updLane_lanes_length (g : Lane → Lane) : (updLane i g s).fab.lanes.length = s.fab.lanes.length :=
  List.length_set

end FabricReads

end Sys2Proof.Machine

namespace Sys2Proof.Machine

section Stands

variable {s t u : State} {α : Type} {i j m n d e k c r : Nat} {new : Bool}

/-! #### Operations that leave the fabric, memory and the time -/

/-- The fabric, memory and the time in force stand. -/
structure FabricStands (s t : State) : Prop where
  fab : t.fab = s.fab
  mem : t.mem = s.mem
  time : t.time = s.time

theorem FabricStands.refl (s : State) : FabricStands s s := ⟨rfl, rfl, rfl⟩

theorem FabricStands.trans (h : FabricStands s t) (h' : FabricStands t u) : FabricStands s u :=
  ⟨h'.fab.trans h.fab, h'.mem.trans h.mem, h'.time.trans h.time⟩

theorem FabricStands.laneAt (h : FabricStands s t) (i : Nat) : laneAt t i = laneAt s i := by
  rw [Machine.laneAt, h.fab, Machine.laneAt]

theorem FabricStands.rxAt (h : FabricStands s t) (i : Nat) : rxAt t i = rxAt s i := by
  rw [Machine.rxAt, h.fab, Machine.rxAt]

theorem FabricStands.slotAt (h : FabricStands s t) (n : Nat) : slotAt t n = slotAt s n := by
  rw [Machine.slotAt, h.fab, Machine.slotAt]

theorem FabricStands.setAt (h : FabricStands s t) (n d : Nat) (new : Bool) : setAt t n d new = setAt s n d new := by
  rw [Machine.setAt, h.slotAt, Machine.setAt]

section Updates

variable {pending : List Instr} {fresh : Nat} {regs : Cells W64} {rwo : List Nat} {peat : Peat} {tiles : List Tile}
  {job : Job} {wse : Wse} {sync : Sync} {coll : Coll} {red : Red} {pups : Pups} {host : HostIf} {pwr : Pwr}
  {light : List Chiplet} {mar : List MarEngine} {cal : Cal} {fw : Fw} {rst : Rst}

/-- An update of any other field. -/
protected theorem FabricStands.frame (hs : FabricStands s t) :
    FabricStands s ⟨pending, fresh, regs, rwo, peat, tiles, job, t.mem, wse, sync, t.fab, coll, red, pups, host, t.time,
      pwr, light, mar, cal, fw, rst⟩ :=
  ⟨hs.fab, hs.mem, hs.time⟩

end Updates

protected theorem FabricStands.ite {p : Prop} [Decidable p] (ht : FabricStands s t) (hu : FabricStands s u) :
    FabricStands s (if p then t else u) := by
  split
  · exact ht
  · exact hu

protected theorem FabricStands.when {p : Prop} [Decidable p] (ht : FabricStands s t)
    (hf : FabricStands s t → FabricStands s u) : FabricStands s (if p then u else t) :=
  .ite (hf ht) ht

protected theorem FabricStands.unless {p : Prop} [Decidable p] (ht : FabricStands s t)
    (hf : FabricStands s t → FabricStands s u) : FabricStands s (if p then t else u) :=
  .ite ht (hf ht)

protected theorem FabricStands.forEach {xs : List α} {f : α → State → State} (ht : FabricStands s t)
    (hf : ∀ {x t}, FabricStands s t → FabricStands s (f x t)) : FabricStands s (forEach xs f t) :=
  forEach_inv (FabricStands s) f (fun _ _ => hf) xs t ht

section Operations

variable {code source reason plane channel src dest status peer : Nat} {payload : List Byte} {row : RegRow}
  {ix : List Nat}

protected theorem FabricStands.bumpBy (hs : FabricStands s t) : FabricStands s (bumpBy t row i ix n) := hs.frame

protected theorem FabricStands.bump (hs : FabricStands s t) : FabricStands s (bump t row i ix) := hs.frame

protected theorem FabricStands.emit (hs : FabricStands s t) : FabricStands s (emit code source payload t) :=
  hs.trans ⟨emit_fab .., emit_mem .., emit_time ..⟩

protected theorem FabricStands.fabErr (hs : FabricStands s t) : FabricStands s (fabErr reason plane channel src dest t) :=
  hs.frame

protected theorem FabricStands.fabCount (hs : FabricStands s t) : FabricStands s (fabCount plane i t) := hs.frame

protected theorem FabricStands.updColl {f : Coll → Coll} (hs : FabricStands s t) : FabricStands s (updColl f t) := hs.frame

/-! ##### Light -/

protected theorem FabricStands.updLaser {f : Laser → Laser} (hs : FabricStands s t) : FabricStands s (updLaser c n f t) :=
  hs.frame

protected theorem FabricStands.updRing {f : Ring → Ring} (hs : FabricStands s t) : FabricStands s (updRing c r f t) :=
  hs.frame

protected theorem FabricStands.loadString {v : Int} (hs : FabricStands s t) : FabricStands s (loadString e i v t) := hs.frame

protected theorem FabricStands.acquireLaser (hs : FabricStands s t) : FabricStands s (acquireLaser c n k t) :=
  hs.updLaser.loadString

protected theorem FabricStands.openLaser (hs : FabricStands s t) : FabricStands s (openLaser c n t) := by
  unfold Machine.openLaser
  dsimp only
  split
  · exact hs
  · exact hs.when (·.updLaser)

protected theorem FabricStands.darkenLane (hs : FabricStands s t) : FabricStands s (darkenLane i t) := by
  unfold Machine.darkenLane
  split
  · exact hs.updLaser
  · exact hs

protected theorem FabricStands.scanRing (hs : FabricStands s t) : FabricStands s (scanRing c r k t) :=
  hs.unless (·.updRing.loadString)

protected theorem FabricStands.prebiasRing (hs : FabricStands s t) : FabricStands s (prebiasRing c r t) :=
  hs.unless (·.updRing.loadString)

protected theorem FabricStands.plannedSwap (hs : FabricStands s t) : FabricStands s (plannedSwap c n k t) := by
  unfold Machine.plannedSwap
  dsimp only
  split
  · refine FabricStands.emit (FabricStands.bump (FabricStands.frame ?_))
    exact hs.updLaser.updLaser.updLaser.when (·.openLaser)
  · exact hs

protected theorem FabricStands.relightLane (hs : FabricStands s t) : FabricStands s (relightLane i k t) := by
  unfold Machine.relightLane
  dsimp only
  split
  · exact hs
  · exact .ite hs.plannedSwap (hs.unless (·.unless fun hs => .ite hs.openLaser hs.acquireLaser))

protected theorem FabricStands.retargetSwap (hs : FabricStands s t) : FabricStands s (retargetSwap i t) := by
  unfold Machine.retargetSwap
  split
  · exact hs
  · split
    · exact hs
    · exact hs.when (·.acquireLaser)

protected theorem FabricStands.retargetAll (hs : FabricStands s t) : FabricStands s (retargetAll n t) :=
  hs.forEach (·.retargetSwap)

/-! ##### The end of a job, of a switch and of a command -/

protected theorem FabricStands.stopTile (hs : FabricStands s t) : FabricStands s (stopTile n t) :=
  hs.when fun hs => .ite hs.frame hs.frame

protected theorem FabricStands.collEnd {x : Inst} (hs : FabricStands s t) : FabricStands s (collEnd status peer x t) :=
  hs.frame.unless (·.emit)

protected theorem FabricStands.settleStop (hs : FabricStands s t) : FabricStands s (settleStop t) :=
  hs.when fun hs => ((hs.frame.forEach (·.stopTile)).frame).forEach (·.collEnd)

protected theorem FabricStands.recordDisarm (hs : FabricStands s t) : FabricStands s (recordDisarm n reason t) := hs.emit

protected theorem FabricStands.sendReply {h : Header} {dst : ReplyTo} (hs : FabricStands s t) :
    FabricStands s (sendReply h code dst status payload t) := by
  unfold Machine.sendReply
  split
  · exact hs.frame
  · exact hs

protected theorem FabricStands.finishCmd {x : CmdRef} (hs : FabricStands s t) :
    FabricStands s (finishCmd x status payload t) := by
  unfold Machine.finishCmd
  split
  · exact hs
  · exact (hs.forEach (·.sendReply)).frame

/-! ##### Collectives -/

protected theorem FabricStands.scheduleBurst {x : Inst} {spans : List (Nat × Nat)} (hs : FabricStands s t) :
    FabricStands s (scheduleBurst x k spans t) :=
  hs.updColl.forEach (·.updColl)

protected theorem FabricStands.dealBurst {spans : List (Nat × Nat)} (hs : FabricStands s t) :
    FabricStands s (dealBurst c k spans t) := by
  unfold Machine.dealBurst
  split
  · exact hs
  · exact (hs.when (·.updColl.scheduleBurst)).scheduleBurst.updColl.updColl

protected theorem FabricStands.dealLoop (hs : FabricStands s t) : FabricStands s (dealLoop c n t) := by
  induction n generalizing t with
  | zero => exact hs
  | succ n ih =>
    unfold Machine.dealLoop
    split
    · exact hs
    · split
      · exact hs
      · split
        · exact hs
        · exact ih hs.dealBurst

protected theorem FabricStands.dealSpans (hs : FabricStands s t) : FabricStands s (dealSpans t) := hs.forEach (·.dealLoop)

protected theorem FabricStands.afterSwitch {old : State} (hs : FabricStands s t) : FabricStands s (afterSwitch n old t) :=
  hs.when (·.updColl.dealSpans)

protected theorem FabricStands.readmitted (hs : FabricStands s t) :
    FabricStands s (trainAgain plane (recordReadmit i channel t)) :=
  hs.emit.when (·.updColl)

end Operations

end Stands

end Sys2Proof.Machine

/-! ### O25: receive channels -/

namespace Sys2Proof.Machine

section ReceiveChannels

variable {s t : State} {i : Nat} {r : RxCh}

/-- One receive channel holds `r`, and the others stand. -/
def OnlyRx (s t : State) (i : Nat) (r : RxCh) : Prop := rxAt t i = r ∧ ∀ j, j ≠ i → rxAt t j = rxAt s j

theorem OnlyRx.of_stands {u : State} (h : OnlyRx s t i r) (hs : FabricStands t u) : OnlyRx s u i r :=
  ⟨(hs.rxAt i).trans h.1, fun j hj => (hs.rxAt j).trans (h.2 j hj)⟩

theorem OnlyRx.refl (s : State) (i : Nat) : OnlyRx s s i (rxAt s i) := ⟨rfl, fun _ _ => rfl⟩

@[simp] theorem updRx_rxs_length (f : RxCh → RxCh) : (updRx i f s).fab.rxs.length = s.fab.rxs.length := List.length_set

/-- Changes of one receive channel follow one another. -/
theorem OnlyRx.updRx (h : OnlyRx s t i r) (f : RxCh → RxCh) (hi : i < t.fab.rxs.length) :
    OnlyRx s (updRx i f t) i (f r) :=
  ⟨by rw [rxAt_updRx_self hi, h.1], fun j hj => (rxAt_updRx_ne hj).trans (h.2 j hj)⟩

theorem rxWaits_updRx (f : RxCh → RxCh) (hi : i < s.fab.rxs.length) (hf : ∀ r, (f r).rel = r.rel := by intro; rfl) :
    rxWaits (updRx i f s) i = rxWaits s i := by
  rw [rxWaits, rxAt_updRx_self hi, hf, rxWaits]
  rfl

/-- R266: a fault is raised on a channel in service. -/
theorem faultable_inSet (hc : (rxAt s i).code = .inSet) (hh : (rxAt s i).held = false)
    (ho : bitOf (osumMask s) (i / 8) = false) (hw : rxWaits s i = false) : faultable s i = true := by
  simp [faultable, hc, hh, ho, hw]

/-- R266: a channel in service becomes faulty. -/
theorem OnlyRx.faultRx {reason src dest : Nat} (h : OnlyRx s t i r) (hi : i < t.fab.rxs.length) (hc : r.code = .inSet)
    (hd : darkOpen t (i / 8) = false) (hw : rxWaits t i = false) :
    OnlyRx s (faultRx i reason src dest t) i { r with code := .fault, reason := reason } := by
  have hgo : ¬ ((rxAt t i).code = .off ∨ (rxAt t i).code = .fault ∨ darkOpen t (i / 8) = true ∨
      rxWaits t i = true) := by
    simp [h.1, hc, hd, hw]
  rw [Machine.faultRx, if_neg hgo]
  exact (h.updRx _ hi).of_stands (FabricStands.refl _).fabErr.fabCount

/-- R250: marker lock on a channel that has none. -/
theorem markerLockGained_leaves (hi : i < s.fab.rxs.length) (h256 : i < 256) (hc : (rxAt s i).code ≠ .off)
    (hl : (rxAt s i).lock = false) :
    ∃ s', exec (.markerLockGained i) s = .next s' ∧ OnlyRx s s' i { rxAt s i with
      lock := true
      code := if (rxAt s i).code = .listen ∧ (rxAt s i).slot ≠ none ∧ rxWaits s i = false ∧ discovering s (i / 8) = false
        then .inSet else (rxAt s i).code } := by
  refine ⟨_, rfl, ?_⟩
  have hgo : ¬ (256 ≤ i ∨ (rxAt s i).code = .off ∨ (rxAt s i).lock = true) := by simp [hc, hl, h256]
  dsimp only
  rw [if_neg hgo]
  obtain ⟨u, hu⟩ : ∃ u, u = lockRing (chipOf i) (elemOf i) s := ⟨_, rfl⟩
  have hstands : FabricStands s u := hu ▸ (FabricStands.refl s).updRing
  have hiu : i < u.fab.rxs.length := hstands.fab ▸ hi
  have hlock := ((OnlyRx.refl s i).of_stands hstands).updRx (fun r => { r with lock := true }) hiu
  have hwaits : rxWaits (updRx i (fun r => { r with lock := true }) u) i = rxWaits s i :=
    (rxWaits_updRx _ hiu).trans (by rw [hu]; rfl)
  have hdisc : discovering (updRx i (fun r => { r with lock := true }) u) (i / 8) = discovering s (i / 8) := hu ▸ rfl
  rw [← hu]
  simp only [hwaits, hdisc, Bool.not_eq_true]
  split
  · exact hlock.updRx (fun r => { r with code := .inSet }) (by simpa using hiu)
  · exact hlock

/-- R250, R266: a channel in service without its lock becomes faulty. -/
theorem unlocked_faults (reason : Nat) (hi : i < s.fab.rxs.length) (hc : (rxAt s i).code = .inSet)
    (hd : darkOpen s (i / 8) = false) (hw : rxWaits s i = false) :
    OnlyRx s (faultRx i reason 0 0 (updRx i (fun r => { r with lock := false }) s)) i
      { rxAt s i with lock := false, code := .fault, reason := reason } := by
  have hwaits : rxWaits (updRx i (fun r => { r with lock := false }) s) i = false :=
    (rxWaits_updRx _ hi).trans hw
  exact ((OnlyRx.refl s i).updRx (fun r => { r with lock := false }) hi).faultRx (by simpa using hi) hc hd hwaits

/-- R250, R266: marker lock is lost on a channel in service. -/
theorem markerLockLost_faults (hi : i < s.fab.rxs.length) (h256 : i < 256) (hf : faultable s i = true)
    (hc : (rxAt s i).code = .inSet) (hd : darkOpen s (i / 8) = false) (hw : rxWaits s i = false)
    (hl : (rxAt s i).lock = true) :
    ∃ s', exec (.markerLockLost i) s = .next s' ∧
      OnlyRx s s' i { rxAt s i with lock := false, code := .fault, reason := 2 } := by
  refine ⟨_, rfl, ?_⟩
  have hgo : ¬ (256 ≤ i ∨ (!(rxAt s i).lock) = true) := by simp [hl, h256]
  dsimp only
  rw [if_neg hgo, if_pos hf]
  exact unlocked_faults 2 hi hc hd hw

/-- R266: the light of a channel in service is lost. -/
theorem los_faults (hi : i < s.fab.rxs.length) (h256 : i < 256) (hf : faultable s i = true)
    (hc : (rxAt s i).code = .inSet) (hd : darkOpen s (i / 8) = false) (hw : rxWaits s i = false) :
    ∃ s', exec (.los i) s = .next s' ∧
      OnlyRx s s' i { rxAt s i with lock := false, code := .fault, reason := 1 } := by
  refine ⟨_, rfl, ?_⟩
  have hgo : ¬ (256 ≤ i ∨ (rxAt s i).code = .off) := by simp [hc, h256]
  dsimp only
  rw [if_neg hgo, if_pos hf]
  refine (unlocked_faults 1 hi hc hd hw).of_stands ?_
  exact (FabricStands.refl _).when (·.emit)

/-- R266, R283: the uncorrectable frames of a channel in service reach their limit. -/
theorem fecUncorrLimit_faults (hi : i < s.fab.rxs.length) (hf : faultable s i = true)
    (hc : (rxAt s i).code = .inSet) (hd : darkOpen s (i / 8) = false) (hw : rxWaits s i = false)
    (hn : fabPolicy s 7 4 ≤ ((rxAt s i).uncorr.filter (fun t => decide (nowNs s < t + 1000000))).length) :
    ∃ s', exec (.fecUncorrLimit i) s = .next s' ∧ OnlyRx s s' i { rxAt s i with code := .fault, reason := 3 } := by
  refine ⟨_, rfl, ?_⟩
  dsimp only
  rw [if_pos ⟨hf, hn⟩]
  exact (OnlyRx.refl s i).faultRx hi hc hd hw

/-- R266: the decoder of a channel in service corrects too much. -/
theorem fecDegraded_faults (hi : i < s.fab.rxs.length) (hc : (rxAt s i).code = .inSet)
    (ho : bitOf (osumMask s) (i / 8) = false) (hd : darkOpen s (i / 8) = false) (hw : rxWaits s i = false) :
    ∃ s', exec (.fecDegraded i) s = .next s' ∧ OnlyRx s s' i { rxAt s i with code := .fault, reason := 4 } := by
  refine ⟨_, rfl, ?_⟩
  have hself := rxAt_updRx_self (g := fun r => { r with held := false }) hi
  have hwaits : rxWaits (updRx i (fun r => { r with held := false }) s) i = false :=
    (rxWaits_updRx _ hi).trans hw
  have hf : faultable (updRx i (fun r => { r with held := false }) s) i = true :=
    faultable_inSet (by rw [hself, hc]) (by rw [hself]) ho hwaits
  rw [if_pos hf]
  exact (OnlyRx.refl s i).faultRx hi hc hd hw

end ReceiveChannels

/-- Settles O25: each event changes one receive channel. -/
theorem receiveChannelFaults : Obligations.ReceiveChannelFaults := by
  rintro s i r ⟨-, hrxs, -⟩ h256 rfl
  have hi : i < s.fab.rxs.length := hrxs ▸ h256
  refine ⟨fun hc hl => markerLockGained_leaves hi h256 hc hl, fun hc hh ho hw hd => ?_⟩
  have hf := faultable_inSet hc hh ho hw
  exact ⟨markerLockLost_faults hi h256 hf hc hd hw, los_faults hi h256 hf hc hd hw,
    fecUncorrLimit_faults hi hf hc hd hw, fecDegraded_faults hi hc ho hd hw⟩

end Sys2Proof.Machine

/-! ### O23: the frame that a lit lane sends -/

namespace Sys2Proof.Machine

section SentFrames

variable {s : State} {i n d : Nat} {new : Bool} {x : LaneSet} {us : List OutUnit} {h : FrameHdr}

/-- R248: a lit lane that carries frames, outside a discovery. -/
def LaneSends (s : State) (i : Nat) : Prop :=
  i < 256 ∧ laneLit s i = true ∧ bitOf (osumMask s) (i / 8) = false ∧ discovering s (i / 8) = false

/-- R248: a lane of no plan. -/
theorem laneFrameTx_idle (hs : LaneSends s i) (hslot : (laneAt s i).slot = none) :
    exec (.laneFrameTx i) s = .next (putFrame i (laneHdr s i) [] s) := by
  obtain ⟨hi, hlit, hsum, hdisc⟩ := hs
  show execLaneFrameTx i s = _
  simp [execLaneFrameTx, hi, hlit, hsum, hdisc, hslot]

/-- R260: a lane of a lane set. -/
theorem laneFrameTx_set (hs : LaneSends s i) (hslot : (laneAt s i).slot = some n)
    (hset : setAt s n (laneAt s i).dest (laneAt s i).rel = some x) :
    exec (.laneFrameTx i) s = .next (setFrame i n (laneAt s i).dest (laneAt s i).rel x s) := by
  obtain ⟨hi, hlit, hsum, hdisc⟩ := hs
  show execLaneFrameTx i s = _
  simp [execLaneFrameTx, hi, hlit, hsum, hdisc, hslot, hset]

/-- R255: the units placed fill the next DATA frame. -/
theorem nextUnits_placed (hset : setAt s n d new = some x) (hus : us = fitUnits 1024 x.queue) (hne : us ≠ []) :
    nextUnits n d new s = (us, updSet n d new (fun x => { x with queue := x.queue.drop us.length }) s) := by
  simp only [nextUnits, hset, ← hus]

/-- R261: a DATA frame joins the unacknowledged frames of its set. -/
def frameTaken (i : Nat) (x : LaneSet) (us : List OutUnit) (y : LaneSet) : LaneSet :=
  { y with
    frames := y.frames ++ [{ lsn := x.nextLsn, lane := i, units := us }]
    nextLsn := (x.nextLsn + 1) % 65536
    turn := i }

/-- R261, R262: the lane whose turn it is sends the next DATA frame of its set. -/
theorem setFrame_data (hclosed : x.closed = false) (hopened : x.opened = true) (hc : (laneAt s i).code = .inSet)
    (hq : s.fab.quar = false) (hheld : laneHeld s i = false) (hpeer : peerHolds s n d new = false) (hr : x.resend = [])
    (hturn : turnLane s n d new x = some i) (hwin : windowOpen s n d new x = true) (hset : setAt s n d new = some x)
    (hus : us = fitUnits 1024 x.queue) (hne : us ≠ []) :
    setFrame i n d new x s = sendData i n d new (ackHdr x (laneHdr s i)) x.nextLsn us false
      (updSet n d new (frameTaken i x us)
        (updLane i (fun l => { l with buf := l.buf ++ [x.nextLsn] })
          (updSet n d new (fun x => { x with queue := x.queue.drop us.length }) s))) := by
  have hhold : (ackHdr x (laneHdr s i)).hold = false := hheld
  simp only [setFrame, hclosed, hopened, hc, hq, hhold, hpeer, hr, hturn, hwin, nextUnits_placed hset hus hne,
    Bool.false_eq_true, if_false, decide_true, Bool.and_self, Bool.not_false, Bool.not_true, and_self, if_true]
  rfl

/-- R263: a frame that leaves carries the NAK of its set. -/
theorem setAt_sendData {lsn : Nat} (hset : setAt s n d new = some x) :
    setAt (sendData i n d new h lsn us false s) n d new = some { x with nak := none } :=
  setAt_updSet (fun y => { y with nak := none }) hset

@[simp] theorem sendData_mem {lsn : Nat} {again : Bool} : (sendData i n d new h lsn us again s).mem = s.mem := by
  cases again <;> rfl

@[simp] theorem sendData_tiles {lsn : Nat} {again : Bool} : (sendData i n d new h lsn us again s).tiles = s.tiles := by
  cases again <;> rfl

theorem laneAt_putFrame {payload : List Byte} (hi : i < s.fab.lanes.length) : laneAt (putFrame i h payload s) i =
    { laneAt s i with frame := frameLine h payload, faultTurn := ((laneAt s i).faultTurn + 1) % 256 } :=
  laneAt_updLane_self hi

theorem laneAt_sendData {lsn : Nat} (hi : i < s.fab.lanes.length) :
    laneAt (sendData i n d new h lsn us false s) i =
      { laneAt s i with
        frame := frameLine
          { h with type := 1, lsn := lsn, resent := false, len := (us.flatMap fun u => unitBytes u.u).length }
          (us.flatMap fun u => unitBytes u.u)
        faultTurn := ((laneAt s i).faultTurn + 1) % 256 } :=
  laneAt_putFrame (s := fabCount (i / 8 % 8) 0 (updSet n d new (fun y => { y with nak := none }) s)) hi

end SentFrames

/-- Settles O23: an IDLE frame changes its lane; a DATA frame its set, then its lane. -/
theorem laneFrames : Obligations.LaneFrames := by
  rintro s i l ⟨hlanes, -, -⟩ hi rfl hlit hsum hdisc
  have hlen : i < s.fab.lanes.length := hlanes ▸ hi
  refine ⟨fun hslot => ?idle, fun n x us hslot hset hclosed hopened hc _ hq hheld hpeer hr hturn hwin hus hne => ?data⟩
  case idle =>
    refine ⟨_, laneFrameTx_idle ⟨hi, hlit, hsum, hdisc⟩ hslot, laneAt_putFrame hlen, fun j hj => laneAt_updLane_ne hj,
      rfl, rfl⟩
  case data =>
    refine ⟨_, laneFrameTx_set ⟨hi, hlit, hsum, hdisc⟩ hslot hset, ?_⟩
    rw [setFrame_data hclosed hopened hc hq hheld hpeer hr hturn hwin hset hus hne]
    have hqueue := setAt_updSet (fun y => { y with queue := y.queue.drop us.length }) hset
    have hlane := (setAt_updLane (i := i) fun l => { l with buf := l.buf ++ [x.nextLsn] }).trans hqueue
    have hframe := setAt_updSet (frameTaken i x us) hlane
    refine ⟨setAt_sendData hframe, (laneAt_sendData (by simpa using hlen)).trans ?_, by simp, by simp⟩
    rw [laneAt_updSet, laneAt_updLane_self (by simpa using hlen)]
    rfl

end Sys2Proof.Machine

/-! ### O24: a frame that passes its checks -/

namespace Sys2Proof.Machine

section ReceivedFrames

variable {s t : State} {i n d c ack fixed : Nat} {new : Bool} {x : LaneSet} {h : FrameHdr} {body line : List Byte} {r : RxCh}

/-- R282, R283: the counts of the fabric lie apart from FAB_MODID. -/
theorem ownId_bumpBy_fabCount : ownId (bumpBy s rFabCount c [2] fixed) = ownId s := by
  have haddr : regAddr rFabModid 0 [] ≠ regAddr rFabCount c [2] := by
    simp only [regAddr, rowOffset, rFabModid, rFabCount, blockBase]
    simp
    omega
  unfold ownId regField regGet
  exact congrArg (fun v : W64 => bits v.toNat 15 0) (Cells.get_set_other _ _ _ _ haddr)

/-- R328: the planes in Optical Sum mode follow from the phases in force. -/
theorem osumMask_congr (hcode : ∀ m, (slotAt t m).code = (slotAt s m).code)
    (hphase : ∀ m, phaseOf (slotAt t m) = phaseOf (slotAt s m)) : osumMask t = osumMask s := by
  simp only [osumMask, armedSlots, hcode, hphase]

theorem osumMask_updSet (f : LaneSet → LaneSet) : osumMask (updSet n d new f s) = osumMask s :=
  osumMask_congr (fun _ => slotAt_updSet_kept (·.code)) fun _ => slotAt_updSet_kept phaseOf

/-- R256: checks 1 to 6. -/
structure FramePasses (s : State) (i n : Nat) (h : FrameHdr) : Prop where
  code : (rxAt s i).code = .inSet
  slot : (rxAt s i).slot = some n
  quiet : discovering s (i / 8) = false
  type : h.type < 2
  dest : h.dest = ownId s
  channel : h.channel = (rxAt s i).channel
  plane : h.plane = i / 8
  src : h.src = (rxAt s i).source

theorem checkFrame_passes (hp : FramePasses s i n h) : checkFrame i h body s = inService i n h body s := by
  obtain ⟨hcode, hslot, hquiet, htype, hdest, hchannel, hplane, hsrc⟩ := hp
  have hexp : expected s i = h.src := by simp [expected, hslot, hsrc]
  simp only [checkFrame, hquiet, hdest, hchannel, hplane, hexp, hcode, hslot]
  simp

/-- R250, R256: a frame that decodes and passes checks 1 to 6 is taken. -/
theorem laneFrameRx_passes (hi : i < 256) (hlock : (rxAt s i).lock = true) (hsum : bitOf (osumMask s) (i / 8) = false)
    (hline : takeLine (line.drop 16) = some (body, fixed)) (hcrc : crcOk body = true) (hv : (readHdr body).version = 1)
    (hclean : (readHdr body).clean = true) (hp : FramePasses s i n (readHdr body)) :
    exec (.laneFrameRx i line) s =
      .next (inService i n (readHdr body) body (bumpBy s rFabCount (i / 8 % 8) [2] fixed)) := by
  have hgo : ¬ (256 ≤ i ∨ (!(rxAt s i).lock) = true ∨ (rxAt s i).code = .off ∨ bitOf (osumMask s) (i / 8) = true) := by
    simp [hi, hlock, hsum, hp.code]
  have hform : ¬ ((readHdr body).version ≠ 1 ∨ 2 < (readHdr body).type ∨ (!(readHdr body).clean) = true) := by
    have := hp.type
    simp [hv, hclean]
    omega
  have hcounted : FramePasses (bumpBy s rFabCount (i / 8 % 8) [2] fixed) i n (readHdr body) :=
    { hp with dest := hp.dest.trans ownId_bumpBy_fabCount.symm }
  show execLaneFrameRx i line s = _
  simp only [execLaneFrameRx, if_neg hgo, hline, hcrc, Bool.not_true, Bool.false_eq_true, if_false, if_neg hform,
    checkFrame_passes hcounted]

/-! #### Acknowledgements -/

/-- R253, R261: an acknowledgement of no more than the set has sent. -/
theorem ackSet_acks (hset : setAt s n d new = some x) (hk : lsnDist x.ackLsn ack ≤ lsnDist x.ackLsn x.nextLsn) :
    setAt (ackSet n d new ack s) n d new = some (acked x ack) ∧ (ackSet n d new ack s).fab.rxs = s.fab.rxs ∧
      (ackSet n d new ack s).fab.inbox = s.fab.inbox ∧ (ackSet n d new ack s).mem = s.mem ∧
      osumMask (ackSet n d new ack s) = osumMask s := by
  simp only [ackSet, hset, hk, if_true]
  refine ⟨setAt_updSet _ hset, rfl, rfl, rfl, osumMask_updSet _⟩

/-- R256, R261: what a frame of the phase in force does besides its units: its acknowledgement, its HOLD, the
opening of the set. -/
def frameActs (i n : Nat) (h : FrameHdr) (r : RxCh) (s : State) : State :=
  updSet n r.source r.rel (fun y => { y with opened := true })
    (updRx i (fun y => { y with held := h.hold }) (ackSet n r.source r.rel h.ack s))

/-- R256: a frame of the phase in force, that asks for nothing, reports no fault and claims nothing. -/
structure PlainFrame (s : State) (n : Nat) (r : RxCh) (h : FrameHdr) : Prop where
  tag : h.tag = r.tag
  nak : h.nakValid = false
  fault : bitOf h.fault 15 = false
  claim : h.claim = 0
  mark : isEndMark s n r h = false

theorem actOn_plain (hr : rxAt s i = r) (hp : PlainFrame s n r h) :
    actOn i n h s = updRx i (fun y => { y with held := h.hold }) (ackSet n r.source r.rel h.ack s) := by
  obtain ⟨htag, hnak, hfault, hclaim, hmark⟩ := hp
  simp [actOn, hr, htag, hnak, hfault, hclaim, hmark, faultReport]

/-- R256: what has been done when the units of the frame are taken. -/
structure FrameActed (s s' : State) (i n : Nat) (h : FrameHdr) (r : RxCh) (x : LaneSet) : Prop where
  set : setAt s' n r.source r.rel = some { acked x h.ack with opened := true }
  rx : rxAt s' i = { r with held := h.hold }
  inbox : s'.fab.inbox = s.fab.inbox
  mem : s'.mem = s.mem
  sums : osumMask s' = osumMask s

theorem frameActs_acted (hi : i < s.fab.rxs.length) (hr : rxAt s i = r) (hset : setAt s n r.source r.rel = some x)
    (hk : lsnDist x.ackLsn h.ack ≤ lsnDist x.ackLsn x.nextLsn) : FrameActed s (frameActs i n h r s) i n h r x := by
  obtain ⟨hacked, hrxs, hinbox, hmem, hsums⟩ := ackSet_acks (ack := h.ack) hset hk
  obtain ⟨u, hu⟩ : ∃ u, u = ackSet n r.source r.rel h.ack s := ⟨_, rfl⟩
  rw [← hu] at hacked hrxs hinbox hmem hsums
  have hlocked : rxAt (updRx i (fun y => { y with held := h.hold }) u) i = { rxAt u i with held := h.hold } :=
    rxAt_updRx_self (hrxs ▸ hi)
  have hru : rxAt u i = r := by rw [rxAt, hrxs, ← hr, rxAt]
  rw [frameActs, ← hu]
  exact ⟨setAt_updSet (s := updRx i _ u) _ hacked, hru ▸ hlocked, hinbox, hmem,
    (osumMask_updSet _).trans (Eq.trans rfl hsums)⟩

/-- R256: checks 7 to 9. -/
theorem inService_plain (hi : i < s.fab.rxs.length) (hr : rxAt s i = r) (hp : PlainFrame s n r h) (htype : h.type < 2)
    (hset : setAt s n r.source r.rel = some x) (hk : lsnDist x.ackLsn h.ack ≤ lsnDist x.ackLsn x.nextLsn) :
    inService i n h body s =
      if h.type = 1 then takeData i n h body (frameActs i n h r s) else frameActs i n h r s := by
  obtain ⟨-, hrxs, -⟩ := ackSet_acks (ack := h.ack) hset hk
  have hru : rxAt (ackSet n r.source r.rel h.ack s) i = r := by rw [rxAt, hrxs, ← hr, rxAt]
  have hrx : rxAt (updRx i (fun y => { y with held := h.hold }) (ackSet n r.source r.rel h.ack s)) i =
      { r with held := h.hold } := by rw [rxAt_updRx_self (hrxs ▸ hi), hru]
  have h2 : h.type ≠ 2 := by omega
  simp only [inService, actOn_plain hr hp, hrx, hp.tag, h2, ne_eq, not_true_eq_false, if_false, frameActs]

/-! #### Delivery -/

/-- R262: a frame held leaves its set, which waits for the next. -/
def frameDelivered (lsn : Nat) (y : LaneSet) : LaneSet :=
  { y with rxNext := (y.rxNext + 1) % 65536, rxHeld := y.rxHeld.filter (fun g => g.1 ≠ lsn) }

/-- R262: the delivery of the one frame held. -/
theorem deliver_one (hset : setAt s n d new = some x) (hheld : x.rxHeld = [(x.rxNext, body)]) :
    ∃ u, FabricStands (updSet n d new (frameDelivered x.rxNext) s) u ∧ deliver n d new 1 s =
      { u with fab := { u.fab with inbox := u.fab.inbox ++ (payloadUnits (readHdr body) (body.drop 32)).1.map (fun y =>
        ⟨(readHdr body).src, (readHdr body).dest, (readHdr body).claim, y⟩) } } := by
  have hfind : x.rxHeld.find? (fun f => f.1 = x.rxNext) = some (x.rxNext, body) := by simp [hheld]
  simp only [deliver, hset, hfind]
  exact ⟨_, (FabricStands.ite (FabricStands.refl _).fabCount (FabricStands.refl _)).fabCount, rfl⟩

/-- R262: the frame that a set waits for delivers its units. -/
theorem takeData_next (hr : rxAt s i = r) (hc : r.code ≠ .off) (hslot : r.slot = some n) (haway : r.away = none)
    (hi : i < 256) (hsum : bitOf (osumMask s) (i / 8) = false) (hset : setAt s n r.source r.rel = some x)
    (hheld : x.rxHeld = []) (hlsn : h.lsn = x.rxNext) (hbody : readHdr body = h) :
    setAt (takeData i n h body s) n r.source r.rel = some { x with rxNext := (x.rxNext + 1) % 65536 } ∧
      (takeData i n h body s).fab.inbox =
        s.fab.inbox ++ (payloadUnits h (body.drop 32)).1.map (fun u => ⟨h.src, h.dest, h.claim, u⟩) ∧
      (takeData i n h body s).mem = s.mem := by
  have hmem : i ∈ setRxs s n r.source r.rel := by simp [setRxs, hi, hr, hslot, hc, haway, hsum]
  have hfits : ¬ 64 * (setRxs s n r.source r.rel).length ≤ lsnDist x.rxNext h.lsn := by
    have := List.length_pos_of_mem hmem
    simp only [lsnDist, hlsn]
    omega
  have hkept := setAt_updSet (fun y => { y with rxHeld := y.rxHeld ++ [(h.lsn, body)] }) hset
  obtain ⟨u, hstands, hdeliver⟩ := deliver_one (body := body) hkept (by simp [hheld, hlsn])
  have htaken := (hstands.setAt n r.source r.rel).trans (setAt_updSet (frameDelivered x.rxNext) hkept)
  have htake : takeData i n h body s = deliver n r.source r.rel 1
      (updSet n r.source r.rel (fun y => { y with rxHeld := y.rxHeld ++ [(h.lsn, body)] }) s) := by
    simp [takeData, hr, hset, hheld, hfits]
  rw [htake, hdeliver, hbody]
  refine ⟨htaken.trans ?_, ?_, ?_⟩
  · simp [frameDelivered, hheld, hlsn]
  · show u.fab.inbox ++ _ = _
    rw [hstands.fab]
    rfl
  · show u.mem = _
    rw [hstands.mem, updSet_mem, updSet_mem]

end ReceivedFrames

/-- Settles O24: the frame acts on its set and channel; a DATA frame then delivers. -/
theorem frameArrives : Obligations.FrameArrives := by
  rintro s i n fixed line body h r x ⟨-, hrxs, -⟩ hi rfl hlock hcode hslot haway hsum hquiet hline hcrc rfl hv htype hclean
    hdest hchannel hplane hsrc htag hnak hfault hclaim hmark hset hk
  obtain ⟨u, hu⟩ : ∃ u, u = bumpBy s rFabCount (i / 8 % 8) [2] fixed := ⟨_, rfl⟩
  have hstands : FabricStands s u := hu ▸ (FabricStands.refl s).bumpBy
  have hru : rxAt u i = rxAt s i := hstands.rxAt i
  have hiu : i < u.fab.rxs.length := by rw [hstands.fab, hrxs]; exact hi
  have hsetu : setAt u n (rxAt s i).source (rxAt s i).rel = some x := (hstands.setAt ..).trans hset
  have hplain : PlainFrame u n (rxAt s i) (readHdr body) :=
    ⟨htag, hnak, hfault, hclaim, by rw [hu]; exact hmark⟩
  have hexec := laneFrameRx_passes hi hlock hsum hline hcrc hv hclean
    ⟨hcode, hslot, hquiet, htype, hdest, hchannel, hplane, hsrc⟩
  rw [← hu, inService_plain hiu hru hplain htype hsetu hk] at hexec
  obtain ⟨hopened, hrx, hinbox, hmem, hsums⟩ := frameActs_acted hiu hru hsetu hk
  refine ⟨fun hidle => ⟨_, hexec, ?_⟩, fun hdata hheld hlsn => ⟨_, hexec, ?_⟩⟩
  · rw [if_neg (by omega)]
    exact ⟨hopened, hrx, hinbox.trans (by rw [hstands.fab]), hmem.trans hstands.mem⟩
  · have hsumu : bitOf (osumMask u) (i / 8) = false := by rw [hu]; exact hsum
    obtain ⟨hnext, htaken, hdmem⟩ := takeData_next (body := body) hrx (by simp [hcode]) hslot haway hi
      (hsums ▸ hsumu) hopened hheld hlsn rfl
    rw [if_pos hdata]
    exact ⟨hnext, htaken.trans (by rw [hinbox, hstands.fab]), hdmem.trans (hmem.trans hstands.mem)⟩

end Sys2Proof.Machine

/-! ### O26: the recovery of a lane set -/

namespace Sys2Proof.Machine

section Timers

variable {s : State} {n d : Nat} {new : Bool} {x : LaneSet} {f : LaneSet → LaneSet} {l : Nat} {ls : List Nat}

theorem setAt_updSets (f : LaneSet → LaneSet) (hset : setAt s n d new = some x) (hf : ∀ y, (f y).dest = y.dest) :
    setAt (updSets n d f s) n d new = some (f x) := by
  cases new with
  | false => exact (setAt_updSet_other (by decide)).trans (setAt_updSet f hset hf)
  | true => exact setAt_updSet f ((setAt_updSet_other (by decide)).trans hset) hf

/-- R263: the NAK timer of a set that holds frames beyond a missing one. -/
theorem nakTimer_asks (hset : setAt s n d new = some x) (hheld : x.rxHeld ≠ []) :
    ∃ s', exec (.nakTimer n d) s = .next s' ∧ setAt s' n d new = some { x with nak := some x.rxNext } := by
  refine ⟨_, rfl, (setAt_updSets _ hset fun y => ?_).trans ?_⟩
  · split <;> rfl
  · rw [if_neg hheld]

theorem mem_mergeResend : l ∈ (mergeResend x ls).resend ↔ l ∈ x.frames.map (·.lsn) ∧ (l ∈ x.resend ∨ l ∈ ls) := by
  simp [mergeResend]

/-- R263: the oldest unacknowledged frame of a set is resent. -/
theorem replayTimeout_resends {g : DataFrame} {gs : List DataFrame} (hset : setAt s n d new = some x)
    (hframes : x.frames = g :: gs) : ∃ s', exec (.replayTimeout n d) s = .next s' ∧
      setAt s' n d new = some (mergeResend x [g.lsn]) := by
  refine ⟨_, rfl, (setAt_updSets _ hset fun y => ?_).trans ?_⟩
  · split <;> rfl
  · rw [hframes]

end Timers

section Lanes

variable {s : State} {i n d reason : Nat} {new : Bool} {x : LaneSet}

/-- R258: the frames of a faulty lane, as its chiplet counts their resending. -/
def framesLost (i : Nat) (buf : List Nat) (x : LaneSet) : LaneSet :=
  { x with frames := x.frames.map fun f => if buf.contains f.lsn then { f with lost := some (chipOf i) } else f }

theorem framesLost_lsns (i : Nat) (buf : List Nat) (x : LaneSet) :
    (framesLost i buf x).frames.map (·.lsn) = x.frames.map (·.lsn) := by
  simp only [framesLost, List.map_map, Function.comp_def, apply_ite DataFrame.lsn, ite_self]

/-- R267 step 3: the frames of a lane go to the other lanes of its set. -/
theorem resendLane_markLost (hkey : laneKey (laneAt s i) = some (n, d, new)) :
    resendLane i (markLost i s) = updLane i (fun y => { y with buf := [] })
      (updSet n d new (fun y => mergeResend y (laneAt s i).buf)
        (updSet n d new (framesLost i (laneAt s i).buf) s)) := by
  have hmark : markLost i s = updSet n d new (framesLost i (laneAt s i).buf) s := by
    simp only [markLost, hkey]
    rfl
  simp only [hmark, resendLane, laneAt_updSet, hkey]

/-- R266, R267: a lane in service becomes faulty. -/
theorem laneFault_leaves (hi : i < 256) (hlen : i < s.fab.lanes.length) (hlo : 8 ≤ reason) (hhi : reason ≤ 13)
    (hkey : laneKey (laneAt s i) = some (n, d, new)) (hcode : (laneAt s i).code = .inSet) (hwait : laneWaits s i = false)
    (hset : setAt s n d new = some x) : ∃ s', exec (.laneFault i reason) s = .next s' ∧
      laneAt s' i = { laneAt s i with code := .fault, reason := reason, retune := false, buf := [] } ∧
      setAt s' n d new = some (mergeResend (framesLost i (laneAt s i).buf x) (laneAt s i).buf) := by
  have hgo : ¬ ((laneAt s i).code = .fault ∨ ((laneAt s i).code = .darkWindow ∧ darkOpen s (i / 8) = true) ∨
      ((laneAt s i).code = .dark ∧ ¬ (laneAt s i).retune = true)) := by simp [hcode]
  obtain ⟨u, hu⟩ : ∃ u, u = updLane i (fun l => { l with code := .fault, reason := reason, retune := false })
    (resendLane i (markLost i s)) := ⟨_, rfl⟩
  have hstands : ∃ t, FabricStands u t ∧ exec (.laneFault i reason) s = .next t := by
    refine ⟨faultLane i reason s, ?_, congrArg Host.Outcome.next (if_pos ⟨hi, hlo, hhi⟩)⟩
    simp only [faultLane, if_neg hgo, hwait, Bool.false_eq_true, if_false, ← hu]
    exact ((FabricStands.refl u).unless (·.darkenLane)).fabErr.fabCount.emit
  obtain ⟨t, hstands, hexec⟩ := hstands
  rw [resendLane_markLost hkey] at hu
  refine ⟨t, hexec, (hstands.laneAt i).trans ?_, (hstands.setAt ..).trans ?_⟩
  · rw [hu, laneAt_updLane_self (by simpa using hlen), laneAt_updLane_self (by simpa using hlen)]
    rfl
  · rw [hu, setAt_updLane, setAt_updLane]
    exact setAt_updSet _ (setAt_updSet (framesLost i (laneAt s i).buf) hset)

/-- R268: a lane returns to its set. -/
theorem laneReadmit_returns {m : Nat} (hi : i < 256) (hlen : i < s.fab.lanes.length) (hslot : (laneAt s i).slot = some n)
    (hcode : (laneAt s i).code = .fault) (hdark : darkOpen s (i / 8) = false) (hwait : laneWaits s i = false)
    (hlaser : laneLaser s i = some m) (hlit : (laserAt s (chipOf i) m).code = .lit)
    (hopen : (laserAt s (chipOf i) m).isOpen = true)
    (hchannel : (laserAt s (chipOf i) m).channel = (laneAt s i).channel) :
    ∃ s', exec (.laneReadmit false i) s = .next s' ∧ laneAt s' i = { laneAt s i with code := .inSet, retune := false } := by
  refine ⟨_, rfl, ?_⟩
  simp only [readmitLane, hlaser, hwait, Nat.not_le.2 hi, if_false, Bool.false_eq_true]
  rw [if_pos ⟨.inl hcode, hlit, hopen, hchannel, by simp [hdark]⟩]
  refine ((FabricStands.refl _).readmitted.laneAt i).trans ((laneAt_updLane_self hlen).trans ?_)
  simp [hslot]

/-- R268: a receive channel returns to its set. -/
theorem rxReadmit_returns (hi : i < 256) (hlen : i < s.fab.rxs.length) (hslot : (rxAt s i).slot = some n)
    (hcode : (rxAt s i).code = .fault) (hlock : (rxAt s i).lock = true) (hstuck : (rxAt s i).stuck = false)
    (hdark : darkOpen s (i / 8) = false) (hwait : rxWaits s i = false)
    (hring : (ringAt s (chipOf i) (elemOf i)).code ≠ .failed) :
    ∃ s', exec (.laneReadmit true i) s = .next s' ∧ rxAt s' i = { rxAt s i with code := .inSet } := by
  refine ⟨_, rfl, ?_⟩
  simp only [readmitRx, hwait, Nat.not_le.2 hi, if_false, if_true]
  rw [if_pos ⟨.inl hcode, by simp [hlock], by simp [hstuck], by simp [hdark], hring⟩]
  refine (((FabricStands.refl _).readmitted.when (·.updColl.dealSpans)).rxAt i).trans ((rxAt_updRx_self hlen).trans ?_)
  simp [hslot]

end Lanes

/-! #### The death of a lane set -/

section Death

variable {s : State} {n d : Nat} {x : LaneSet} {keep : Nat → OutUnit → Bool}

/-- The set as the filter leaves it. -/
def unitsFiltered (keep : Nat → OutUnit → Bool) (x : LaneSet) : LaneSet :=
  { x with
    queue := x.queue.filter (keep x.dest)
    frames := x.frames.map (fun y => { y with units := y.units.filter (keep x.dest) }) }

theorem findSet_map {f : LaneSet → LaneSet} (hf : ∀ y, (f y).dest = y.dest) (sets : List LaneSet) :
    findSet (sets.map f) d = (findSet sets d).map f := by
  simp [findSet, List.find?_map, hf]

theorem setAt_filterUnits {new : Bool} (hset : setAt s n d new = some x) :
    setAt (filterUnits keep s) n d new = some (unitsFiltered keep x) := by
  have hslot : slotAt (filterUnits keep s) n = { slotAt s n with
      sets := (slotAt s n).sets.map (unitsFiltered keep), newSets := (slotAt s n).newSets.map (unitsFiltered keep) } := by
    have hn := slot_lt_of_setAt hset
    simp [slotAt, filterUnits, unitsFiltered, hn]
  rw [setAt, hslot]
  have hmap := congrArg (Option.map (unitsFiltered keep)) hset
  cases new <;> exact (findSet_map (f := unitsFiltered keep) (fun _ => rfl) _).trans hmap

/-- R269: a set that has died. -/
def setDied (x : LaneSet) : LaneSet :=
  { x with dead := true, closed := true, queue := [], frames := [], resend := [], ackLsn := x.nextLsn }

/-- R269, R318: an instance that exchanges units with the module over the slot's sets is to end with PEER_LOST. -/
theorem losePeer_fails {j : Inst} (hj : j ∈ s.coll.insts) (hfail : j.fail = none)
    (hslot : (s.job.colls[j.desc]?).map (·.slot) = some n) (hpeer : ∃ p ∈ j.peers, p.module = d) :
    { j with fail := some (1, d) } ∈ (losePeer (some n) d s).coll.insts := by
  refine List.mem_map.2 ⟨j, hj, if_pos ⟨hfail, ?_, ?_⟩⟩
  · simp [hslot]
  · simpa using hpeer

/-- R269: the set of the phase in force dies. -/
theorem lanesetDead_dies (hset : setAt s n d false = some x) (hdead : x.dead = false) (hdark : waitsDark s n d false = false) :
    ∃ s', exec (.lanesetDead n d) s = .next s' ∧ (∃ y, setAt s' n d false = some (setDied y)) ∧
      s'.coll = (losePeer (some n) d (emit 0x0D06 d (leBytes 2 d) s)).coll := by
  obtain ⟨u, hu⟩ : ∃ u, u = losePeer (some n) d (emit 0x0D06 d (leBytes 2 d) s) := ⟨_, rfl⟩
  have hstands : FabricStands s u := hu ▸ (FabricStands.refl s).emit.frame
  refine ⟨_, rfl, ?_⟩
  simp only [hset, hdead, hdark, Bool.not_false, Bool.and_self, Bool.not_true, Bool.false_eq_true, if_false, ← hu]
  obtain ⟨y, hy⟩ : ∃ y, setAt (dropEntriesTo d u) n d false = some y :=
    ⟨_, setAt_filterUnits ((hstands.setAt ..).trans hset)⟩
  exact ⟨⟨y, setAt_updSet setDied hy⟩, rfl⟩

end Death

/-- Settles O26: the two timers, a lane's fault, the two returns, and the death. -/
theorem laneSetRecovery : Obligations.LaneSetRecovery := by
  rintro s n d i x new ⟨hlanes, hrxs, -⟩ - hi hset
  have hlane : i < s.fab.lanes.length := hlanes ▸ hi
  have hrx : i < s.fab.rxs.length := hrxs ▸ hi
  refine ⟨nakTimer_asks hset, fun f fs hframes => ?replay, fun reason hlo hhi hslot hdest hrel hcode hwait => ?fault,
    fun hslot hcode hdark hwait m => laneReadmit_returns hi hlane hslot hcode hdark hwait,
    fun hslot hcode hlock hstuck hdark hwait => rxReadmit_returns hi hrx hslot hcode hlock hstuck hdark hwait,
    fun hnew hdead hdark => ?died⟩
  case replay =>
    obtain ⟨s', hexec, hset'⟩ := replayTimeout_resends hset hframes
    refine ⟨s', hexec, _, hset', mem_mergeResend.2 ⟨by simp [hframes], .inr (by simp)⟩, rfl, fun m hm hsent => ?_⟩
    exact mem_mergeResend.2 ⟨hsent, .inl hm⟩
  case fault =>
    have hkey : laneKey (laneAt s i) = some (n, d, new) := by simp [laneKey, hslot, hdest, hrel]
    obtain ⟨s', hexec, hlane', hset'⟩ := laneFault_leaves hi hlane hlo hhi hkey hcode hwait hset
    refine ⟨s', hexec, hlane', _, hset', rfl, fun m hm hsent => ?_⟩
    exact mem_mergeResend.2 ⟨by rwa [framesLost_lsns], .inr hm⟩
  case died =>
    subst hnew
    obtain ⟨s', hexec, ⟨y, hset'⟩, hcoll⟩ := lanesetDead_dies hset hdead hdark
    refine ⟨s', hexec, _, hset', rfl, rfl, rfl, rfl, rfl, fun j hj hfail hslot hpeer => ?_⟩
    rw [hcoll]
    exact losePeer_fails (by rwa [emit_coll]) hfail (by rwa [emit_job]) hpeer

end Sys2Proof.Machine

/-! ### Releases: what they leave of the fabric -/

namespace Sys2Proof.Machine

section Releases

variable {s t u : State} {α : Type} {i j n m d k reason : Nat} {new : Bool} {next : Option (Nat × Phase)}

/-- Of the fabric only lanes, receive channels and plan slots change; memory and the time in force stand. -/
structure PlansOnly (s t : State) : Prop where
  fab : t.fab = { s.fab with lanes := t.fab.lanes, rxs := t.fab.rxs, slots := t.fab.slots }
  mem : t.mem = s.mem
  time : t.time = s.time

theorem PlansOnly.refl (s : State) : PlansOnly s s := ⟨rfl, rfl, rfl⟩

theorem PlansOnly.trans (h : PlansOnly s t) (h' : PlansOnly t u) : PlansOnly s u := by
  refine ⟨?_, h'.mem.trans h.mem, h'.time.trans h.time⟩
  have hfab := h'.fab
  rw [h.fab] at hfab
  exact hfab

theorem FabricStands.plansOnly (h : FabricStands s t) : PlansOnly s t := ⟨by rw [h.fab], h.mem, h.time⟩

theorem PlansOnly.stands (h : PlansOnly s t) (h' : FabricStands t u) : PlansOnly s u := h.trans h'.plansOnly

protected theorem PlansOnly.updLane (f : Lane → Lane) (h : PlansOnly s t) : PlansOnly s (updLane i f t) :=
  h.trans ⟨rfl, rfl, rfl⟩

protected theorem PlansOnly.updRx (f : RxCh → RxCh) (h : PlansOnly s t) : PlansOnly s (updRx i f t) :=
  h.trans ⟨rfl, rfl, rfl⟩

protected theorem PlansOnly.updSlot (f : PlanSlot → PlanSlot) (h : PlansOnly s t) : PlansOnly s (updSlot n f t) :=
  h.trans ⟨rfl, rfl, rfl⟩

protected theorem PlansOnly.forEach {xs : List α} {f : α → State → State} (ht : PlansOnly s t)
    (hf : ∀ {x t}, PlansOnly s t → PlansOnly s (f x t)) : PlansOnly s (forEach xs f t) :=
  forEach_inv (PlansOnly s) f (fun _ _ => hf) xs t ht

/-! #### One lane, one receive channel -/

/-- R267: the frames of a lane go to the other lanes of its set, or the lane has none. -/
theorem resendLane_cases (i : Nat) (s : State) : resendLane i s = s ∨ ∃ n d new ls,
    resendLane i s = updLane i (fun y => { y with buf := [] }) (updSet n d new (fun x => mergeResend x ls) s) := by
  unfold resendLane
  dsimp only
  split
  · exact .inl rfl
  · exact .inr ⟨_, _, _, _, rfl⟩

/-- R302: what a lane that is released into a phase of a slot holds. -/
def LaneEntered (n q : Nat) (l : Lane) : Prop := l.slot = some n ∧ l.tag = phaseTag n q ∧ l.buf = []

/-- R302: a release hands over the frames of the lane, turns to its laser, and changes the lane. -/
theorem releaseLane_cases (n : Nat) (next : Option (Nat × Phase)) (i : Nat) (s : State) :
    ∃ u f, FabricStands (resendLane i s) u ∧ releaseLane n next i s = updLane i f u ∧
      ∀ q g, next = some (q, g) → ∀ l, LaneEntered n q (f l) := by
  unfold releaseLane
  dsimp only
  split
  · exact ⟨_, _, .refl _, rfl, nofun⟩
  · split
    · refine ⟨_, _, ?_, rfl, ?_⟩
      · split
        · exact (FabricStands.refl _).updLaser
        · exact .refl _
      · rintro q g ⟨⟩ l
        exact ⟨rfl, rfl, rfl⟩
    · refine ⟨_, _, (FabricStands.refl _).relightLane, rfl, ?_⟩
      rintro q g ⟨⟩ l
      exact ⟨rfl, rfl, rfl⟩

/-- R302: a release turns to the ring of the receive channel, and changes the channel. -/
theorem releaseRx_cases (n : Nat) (next : Option (Nat × Phase)) (i : Nat) (s : State) :
    ∃ u f, FabricStands s u ∧ releaseRx n next i s = updRx i f u := by
  unfold releaseRx
  dsimp only
  split
  · exact ⟨_, _, .refl _, rfl⟩
  · split
    · exact ⟨_, _, (FabricStands.refl _).prebiasRing, rfl⟩
    · exact ⟨_, _, (FabricStands.refl _).unless (·.scanRing), rfl⟩

protected theorem PlansOnly.resendLane (h : PlansOnly s t) : PlansOnly s (resendLane i t) := by
  obtain heq | ⟨_, _, _, _, heq⟩ := resendLane_cases i t
  · rwa [heq]
  · rw [heq]
    exact (h.updSlot _).updLane _

protected theorem PlansOnly.releaseLane (h : PlansOnly s t) : PlansOnly s (releaseLane n next i t) := by
  obtain ⟨u, f, hu, heq, -⟩ := releaseLane_cases n next i t
  rw [heq]
  exact (h.resendLane.stands hu).updLane f

protected theorem PlansOnly.releaseRx (h : PlansOnly s t) : PlansOnly s (releaseRx n next i t) := by
  obtain ⟨u, f, hu, heq⟩ := releaseRx_cases n next i t
  rw [heq]
  exact (h.stands hu).updRx f

/-- R294: a plan that is disarmed without draining. -/
protected theorem PlansOnly.dropPlan (h : PlansOnly s t) : PlansOnly s (dropPlan n reason t) := by
  unfold Machine.dropPlan
  split
  · have hcut : PlansOnly s (cutPuts n t) := h.stands (FabricStands.refl t).frame
    have hslot := ((hcut.forEach (f := Machine.releaseLane n none) (xs := planeElems (slotMask (slotAt t n)))
      (·.releaseLane)).forEach (f := Machine.releaseRx n none) (xs := planeElems (slotMask (slotAt t n)))
      (·.releaseRx)).updSlot (n := n) fun p =>
        { p with code := .loaded, phase := 0, loops := 0, switching := none, disarmDue := false
                 fired := false, sets := [], newSets := [] }
    exact hslot.stands (FabricStands.refl _).retargetAll.recordDisarm.settleStop
  · exact h

end Releases

end Sys2Proof.Machine

/-! ### O27: discovery -/

namespace Sys2Proof.Machine

section Discovery

variable {s t u : State} {r i : Nat} {d : Disc}

/-- R274: a slot of a plane tunes to the channels of a round. -/
protected theorem PlansOnly.tuneRound (h : PlansOnly s t) : PlansOnly s (tuneRound r i t) := by
  unfold Machine.tuneRound
  refine PlansOnly.updRx _ (PlansOnly.stands (PlansOnly.updLane _ (h.stands ?_)) ((FabricStands.refl _).unless (·.scanRing)))
  split
  · exact (FabricStands.refl t).unless (·.acquireLaser)
  · exact .refl t

/-- R274: a round of a discovery. -/
theorem roundBegins (d : Disc) (s : State) (hu : u = { s with fab := { s.fab with disc := d } }) :
    (forEach (planeElems s.fab.disc.mask) (tuneRound r) u).fab.disc = d ∧
      (forEach (planeElems s.fab.disc.mask) (tuneRound r) u).mem = s.mem := by
  have h := (PlansOnly.refl u).forEach (xs := planeElems s.fab.disc.mask) (f := tuneRound r) (·.tuneRound)
  refine ⟨?_, h.mem.trans (hu ▸ rfl)⟩
  rw [h.fab, hu]

/-- R276: the slots of the planes of a discovery, as it judges them. -/
def judgedSlots (s : State) : List (Nat × Nat × Neigh) :=
  ((List.range 32).filter (bitOf s.fab.disc.mask)).flatMap (fun p => (List.range 32).map (fun k => (p, k, judgeSlot s p k)))

/-- R276: how many slots the discovery has judged to be of a kind. -/
def judgedCount (s : State) (c : NeighCode) : Nat := ((judgedSlots s).filter (fun x => x.2.2.code = c)).length

theorem judgedCount_eq (s : State) (c : NeighCode) : judgedCount s c =
    (((List.range 32).filter (bitOf s.fab.disc.mask)).flatMap (fun p =>
      (List.range 32).filter (fun k => (judgeSlot s p k).code = c))).length := by
  simp [judgedCount, judgedSlots, List.filter_flatMap, List.filter_map, Function.comp_def, List.length_flatMap]

/-- R276: the counts of FAB_DISC_SUMMARY. -/
def judgedCounts (s : State) : List Nat :=
  [judgedCount s .present, judgedCount s .absent, judgedCount s .unplanned, judgedCount s .quarantined]

protected theorem FabricStands.recordSlots {slots : List (Nat × Nat × Neigh)} (h : FabricStands s t) :
    FabricStands s (recordSlots slots t) :=
  h.forEach fun h => .ite h.emit (h.when (·.emit))

protected theorem FabricStands.recordDups (h : FabricStands s t) : FabricStands s (recordDups t) := by
  refine h.forEach fun h => ?_
  dsimp only
  split
  · exact h.emit
  · exact h

protected theorem FabricStands.failAll {status : Nat} (h : FabricStands s t) : FabricStands s (failAll status t) := h.frame

/-- R278: quarantine leaves what the discovery has recorded. -/
theorem enterQuarantine_leaves (why : Nat) (s : State) : (enterQuarantine why s).fab.disc = s.fab.disc ∧
    (enterQuarantine why s).fab.summary = s.fab.summary ∧ (enterQuarantine why s).fab.quar = true := by
  obtain ⟨u, hu⟩ : ∃ u, u = { s with fab := { s.fab with quar := true, quarReason := why } } := ⟨_, rfl⟩
  have hdrop : PlansOnly u (forEach (List.range 16) (fun n => dropPlan n 3) u) :=
    (PlansOnly.refl u).forEach (f := fun n => dropPlan n 3) (·.dropPlan)
  have henter : FabricStands (forEach (List.range 16) (fun n => dropPlan n 3) u) (enterQuarantine why s) := by
    unfold enterQuarantine
    rw [← hu]
    exact (FabricStands.refl _).failAll.emit
  rw [(hdrop.stands henter).fab, hu]
  exact ⟨rfl, rfl, rfl⟩

/-- R276: what the end of a discovery records. -/
def discoveryRecorded (s : State) : State :=
  let u := recordDups (recordSlots (judgedSlots s) s)
  { u with fab := { u.fab with
    neigh := (judgedSlots s).foldl (fun m x => Cells.set {} m (32 * x.1 + x.2.1) x.2.2) s.fab.neigh
    summary := judgedCounts s, disc := { s.fab.disc with code := 3 } } }

/-- R278: the module enters quarantine, or leaves it after a discovery of every plane. -/
def discoverySettled (s : State) : State :=
  match quarantineWhy s with
  | some w => enterQuarantine w (discoveryRecorded s)
  | none => if s.fab.disc.mask = 2 ^ 32 - 1 then
      { discoveryRecorded s with fab := { (discoveryRecorded s).fab with quar := false, quarReason := 0 } }
    else discoveryRecorded s

theorem discoverySettled_some {w : Nat} (hwhy : quarantineWhy s = some w) :
    discoverySettled s = enterQuarantine w (discoveryRecorded s) := by
  simp only [discoverySettled, hwhy]

theorem discoverySettled_none (hwhy : quarantineWhy s = none) :
    discoverySettled s = if s.fab.disc.mask = 2 ^ 32 - 1 then
      { discoveryRecorded s with fab := { (discoveryRecorded s).fab with quar := false, quarReason := 0 } }
    else discoveryRecorded s := by
  simp only [discoverySettled, hwhy]

theorem discoverySettled_leaves (s : State) : (discoverySettled s).fab.disc = { s.fab.disc with code := 3 } ∧
    (discoverySettled s).fab.summary = judgedCounts s ∧ (quarantineWhy s ≠ none → (discoverySettled s).fab.quar = true) := by
  cases hwhy : quarantineWhy s with
  | some w =>
    obtain ⟨hdisc, hsummary, hquar⟩ := enterQuarantine_leaves w (discoveryRecorded s)
    rw [discoverySettled_some hwhy]
    exact ⟨hdisc, hsummary, fun _ => hquar⟩
  | none =>
    rw [discoverySettled_none hwhy]
    refine ⟨?_, ?_, fun h => absurd rfl h⟩ <;> split <;> rfl

/-- R276, R280: the discovery is recorded, and its command answered. -/
def discoveryAnswered (s : State) : State :=
  let t := emit 0x0D07 0 ((judgedCounts s).flatMap (leBytes 2)) (discoverySettled s)
  if t.fab.quar then finishCmd s.fab.disc.cmd 0x0501 [] t
  else finishCmd s.fab.disc.cmd 0 ((judgedCounts s).flatMap (leBytes 2)) t

/-- R273, R276 to R278: the end of a discovery. -/
theorem exec_discoveryEnd (hcode : s.fab.disc.code = 2) (hround : s.fab.disc.round = 7)
    (htime : s.fab.disc.start + 400000 ≤ nowNs s) : exec .discoveryEnd s = .next (discoveryAnswered s) := by
  show execDiscoveryEnd s = .next (discoveryAnswered s)
  unfold execDiscoveryEnd
  refine congrArg Host.Outcome.next ?_
  extract_lets d slots count sum neigh why noted fab1 recorded fab2 settled body answered
  have hnoted : noted = recordDups (recordSlots (judgedSlots s) s) := rfl
  have hrecorded : recorded = discoveryRecorded s := by
    rw [discoveryRecorded, ← hnoted]
    rfl
  have hsettled : settled = discoverySettled s := by
    cases hwhy : quarantineWhy s with
    | some w =>
      have hquar : settled = enterQuarantine w recorded := by simp only [settled, why, hwhy]
      rw [discoverySettled_some hwhy, ← hrecorded, hquar]
    | none =>
      have hcleared : settled = if d.mask = 2 ^ 32 - 1 then
          { recorded with fab := { recorded.fab with quar := false, quarReason := 0 } } else recorded := by
        simp only [settled, why, hwhy, fab2]
      rw [discoverySettled_none hwhy, ← hrecorded, hcleared]
  have hanswered : answered = emit 0x0D07 0 ((judgedCounts s).flatMap (leBytes 2)) (discoverySettled s) := by
    rw [← hsettled]
    rfl
  rw [if_pos ⟨hcode, hround, htime⟩, hanswered]
  rfl

theorem discoveryAnswered_stands (s : State) : FabricStands (discoverySettled s) (discoveryAnswered s) := by
  have hrecord := (FabricStands.refl (discoverySettled s)).emit (code := 0x0D07) (source := 0)
    (payload := (judgedCounts s).flatMap (leBytes 2))
  exact .ite hrecord.finishCmd hrecord.finishCmd

end Discovery

/-- Settles O27: each round only tunes; the end records what the discovery has judged. -/
theorem discoveryRuns : Obligations.DiscoveryRuns := by
  rintro s d rfl
  refine ⟨fun hcode hstart => ?begins, fun hcode hround hstart => ?follows, fun hcode hround htime => ?ends⟩
  case begins =>
    refine ⟨_, congrArg Host.Outcome.next (if_pos ⟨hcode, hstart⟩), ?_⟩
    exact roundBegins _ s rfl
  case follows =>
    refine ⟨_, congrArg Host.Outcome.next ((if_neg (by simp [hcode])).trans (if_pos ⟨hcode, hround, hstart⟩)), ?_⟩
    exact roundBegins _ s rfl
  case ends =>
    refine ⟨discoveryAnswered s, exec_discoveryEnd hcode hround htime, ?_⟩
    rw [(discoveryAnswered_stands s).fab]
    obtain ⟨hdisc, hsummary, hquar⟩ := discoverySettled_leaves s
    refine ⟨hdisc, hsummary.trans ?_, hquar⟩
    simp only [judgedCounts, judgedCount_eq, List.map_cons, List.map_nil]

end Sys2Proof.Machine

/-! ### O28: the phase switch -/

namespace Sys2Proof.Machine

section ReleaseKeeps

variable {s t u : State} {i j n m d : Nat} {new : Bool} {next : Option (Nat × Phase)} {lanes rxs : List Nat} {ls : List Nat}

/-! #### What releases leave of the plans and their sets -/

/-- R302: what a release leaves of a slot: all but its sets, and of these all but their resends. -/
def planKept (p : PlanSlot) : PlanSlot × List (Nat × List OutUnit × List DataFrame × Bool) :=
  ({ p with sets := [], newSets := [] }, p.sets.map setKept)

/-- R302: releases hand over frames and change lanes and receive channels; a set with nothing unacknowledged stands. -/
structure ReleaseKeeps (s t : State) : Prop where
  only : PlansOnly s t
  lanes : t.fab.lanes.length = s.fab.lanes.length
  plan : ∀ m, planKept (slotAt t m) = planKept (slotAt s m)
  empty : ∀ m d x, setAt s m d false = some x → x.frames = [] → x.resend = [] → setAt t m d false = some x

theorem ReleaseKeeps.refl (s : State) : ReleaseKeeps s s := ⟨.refl s, rfl, fun _ => rfl, fun _ _ _ h _ _ => h⟩

theorem ReleaseKeeps.trans (h : ReleaseKeeps s t) (h' : ReleaseKeeps t u) : ReleaseKeeps s u :=
  ⟨h.only.trans h'.only, h'.lanes.trans h.lanes, fun m => (h'.plan m).trans (h.plan m),
    fun m d x hset hf hr => h'.empty m d x (h.empty m d x hset hf hr) hf hr⟩

theorem ReleaseKeeps.stands (h : ReleaseKeeps s t) (h' : FabricStands t u) : ReleaseKeeps s u :=
  h.trans ⟨h'.plansOnly, by rw [h'.fab], fun m => by rw [h'.slotAt], fun m d x hset _ _ => (h'.setAt ..).trans hset⟩

protected theorem ReleaseKeeps.updLane (f : Lane → Lane) (h : ReleaseKeeps s t) : ReleaseKeeps s (updLane i f t) :=
  h.trans ⟨(PlansOnly.refl t).updLane f, updLane_lanes_length f, fun _ => rfl, fun _ _ _ hset _ _ => hset⟩

protected theorem ReleaseKeeps.updRx (f : RxCh → RxCh) (h : ReleaseKeeps s t) : ReleaseKeeps s (updRx i f t) :=
  h.trans ⟨(PlansOnly.refl t).updRx f, rfl, fun _ => rfl, fun _ _ _ hset _ _ => hset⟩

/-- R267: resends are no part of what a release keeps. -/
theorem setKept_mergeResend (d : Nat) (ls : List Nat) (sets : List LaneSet) :
    (mapSet d (fun x => mergeResend x ls) sets).map setKept = sets.map setKept := by
  simp only [mapSet, List.map_map]
  refine List.map_congr_left fun x _ => ?_
  simp only [Function.comp_apply]
  split <;> rfl

theorem mergeResend_empty {x : LaneSet} (hf : x.frames = []) (hr : x.resend = []) : mergeResend x ls = x := by
  cases x
  cases hf
  cases hr
  rfl

protected theorem ReleaseKeeps.mergeResend (h : ReleaseKeeps s t) :
    ReleaseKeeps s (updSet n d new (fun x => mergeResend x ls) t) := by
  refine h.trans ⟨(PlansOnly.refl t).updSlot _, rfl, fun m => ?_, fun m e x hset hf hr => ?_⟩
  · refine slotAt_updSlot_kept (p := planKept) (fun p => ?_) n m t
    cases new with
    | false => exact congrArg (Prod.mk _) (setKept_mergeResend d ls p.sets)
    | true => rfl
  · by_cases he : e = d
    · subst he
      cases new with
      | true => exact (setAt_updSet_other (by decide)).trans hset
      | false =>
        by_cases hm : m = n
        · subst hm
          rw [setAt_updSet _ hset, mergeResend_empty hf hr]
        · rw [setAt, updSet, slotAt_updSlot_ne hm]
          exact hset
    · exact (setAt_updSet_ne he).trans hset

protected theorem ReleaseKeeps.resendLane (h : ReleaseKeeps s t) : ReleaseKeeps s (resendLane i t) := by
  obtain heq | ⟨_, _, _, _, heq⟩ := resendLane_cases i t
  · rwa [heq]
  · rw [heq]
    exact h.mergeResend.updLane _

protected theorem ReleaseKeeps.releaseLane (h : ReleaseKeeps s t) : ReleaseKeeps s (releaseLane n next i t) := by
  obtain ⟨u, f, hu, heq, -⟩ := releaseLane_cases n next i t
  rw [heq]
  exact (h.resendLane.stands hu).updLane f

protected theorem ReleaseKeeps.releaseRx (h : ReleaseKeeps s t) : ReleaseKeeps s (releaseRx n next i t) := by
  obtain ⟨u, f, hu, heq⟩ := releaseRx_cases n next i t
  rw [heq]
  exact (h.stands hu).updRx f

/-- R302: the lanes, then the receive channels. -/
theorem released_keeps (n : Nat) (next : Option (Nat × Phase)) (lanes rxs : List Nat) (s : State) :
    ReleaseKeeps s (forEach rxs (releaseRx n next) (forEach lanes (releaseLane n next) s)) :=
  forEach_inv (ReleaseKeeps s) _ (fun _ _ h => h.releaseRx) _ _
    (forEach_inv (ReleaseKeeps s) _ (fun _ _ h => h.releaseLane) _ _ (.refl s))

/-! #### What releases leave of a lane -/

theorem laneAt_resendLane_ne (hj : j ≠ i) : laneAt (resendLane i s) j = laneAt s j := by
  obtain heq | ⟨_, _, _, _, heq⟩ := resendLane_cases i s
  · rw [heq]
  · rw [heq, laneAt_updLane_ne hj, laneAt_updSet]

theorem laneAt_releaseLane_ne (hj : j ≠ i) : laneAt (releaseLane n next i s) j = laneAt s j := by
  obtain ⟨u, f, hu, heq, -⟩ := releaseLane_cases n next i s
  rw [heq, laneAt_updLane_ne hj, hu.laneAt, laneAt_resendLane_ne hj]

theorem laneAt_releaseRx : laneAt (releaseRx n next i s) j = laneAt s j := by
  obtain ⟨u, f, hu, heq⟩ := releaseRx_cases n next i s
  rw [heq, ← hu.laneAt]
  rfl

theorem laneAt_releaseRxs (rxs : List Nat) (s : State) : laneAt (forEach rxs (releaseRx n next) s) j = laneAt s j :=
  forEach_keeps (fun s => laneAt s j) _ (fun _ _ => laneAt_releaseRx) rxs s

/-- R302: a lane that is not released stands. -/
theorem laneAt_releaseLanes_of_notMem (hj : j ∉ lanes) : laneAt (forEach lanes (releaseLane n next) s) j = laneAt s j := by
  induction lanes generalizing s with
  | nil => rfl
  | cons i lanes ih =>
    obtain ⟨hji, hj⟩ := List.ne_and_not_mem_of_not_mem_cons hj
    rw [forEach_cons, ih hj, laneAt_releaseLane_ne hji]

/-- R302: a lane that is released into a phase has entered it. -/
theorem laneAt_releaseLanes_of_mem {q : Nat} {g : Phase} (hj : j ∈ lanes) (hlen : j < s.fab.lanes.length) :
    LaneEntered n q (laneAt (forEach lanes (releaseLane n (some (q, g))) s) j) := by
  induction lanes generalizing s with
  | nil => exact absurd hj List.not_mem_nil
  | cons i lanes ih =>
    have hkeeps : ReleaseKeeps s (releaseLane n (some (q, g)) i s) := (ReleaseKeeps.refl s).releaseLane
    rw [forEach_cons]
    by_cases hrest : j ∈ lanes
    · exact ih hrest (hkeeps.lanes ▸ hlen)
    · obtain rfl : j = i := (List.mem_cons.1 hj).resolve_right hrest
      obtain ⟨u, f, hu, heq, hentered⟩ := releaseLane_cases n (some (q, g)) j s
      have hlenu : j < u.fab.lanes.length := by
        rw [(((ReleaseKeeps.refl s).resendLane).stands hu).lanes]
        exact hlen
      rw [laneAt_releaseLanes_of_notMem hrest, heq, laneAt_updLane_self hlenu]
      exact hentered q g rfl _

/-! #### A lane that waits for its set -/

/-- R302: a lane of a plan in a switch that is not released before its set has ended. -/
structure LaneHeld (s : State) (n i : Nat) : Prop where
  elem : i ∈ planeElems (slotMask (slotAt s n))
  slot : (laneAt s i).slot = some n
  rel : (laneAt s i).rel = false
  set : setAt s n (laneAt s i).dest false ≠ none
  sums : bitOf (osumMask s) (i / 8) = false
  spine : i / 8 ∉ s.fab.spineWait
  dark : darkOpen s (i / 8) = false

/-- What a held lane follows from, beside the lane and its set. -/
theorem LaneHeld.congr (h : LaneHeld s n i) (hlane : laneAt t i = laneAt s i)
    (hslot : ∀ m, (slotAt t m).code = (slotAt s m).code ∧ (slotAt t m).plan = (slotAt s m).plan ∧
      (slotAt t m).phase = (slotAt s m).phase)
    (hset : setAt t n (laneAt s i).dest false ≠ none) (hspine : t.fab.spineWait = s.fab.spineWait)
    (hwindows : t.fab.windows = s.fab.windows) (htime : t.time = s.time) : LaneHeld t n i where
  elem := by rw [slotMask, (hslot n).2.1]; exact h.elem
  slot := hlane ▸ h.slot
  rel := hlane ▸ h.rel
  set := hlane ▸ hset
  sums := by
    rw [osumMask_congr (fun m => (hslot m).1) fun m => by rw [phaseOf, phaseOf, (hslot m).2.1, (hslot m).2.2]]
    exact h.sums
  spine := hspine ▸ h.spine
  dark := by rw [darkOpen, hwindows, nowNs, htime]; exact h.dark

/-- R302: the switch does not end while a lane is not released. -/
theorem releaseAll_keeps (hi : i ∈ planeElems (slotMask (slotAt s n))) (hslot : (laneAt s i).slot = some n)
    (hrel : (laneAt s i).rel = false) (hout : i ∉ lanes) : ReleaseKeeps s (releaseAll n lanes rxs s) := by
  obtain ⟨t, ht⟩ : ∃ t, t = forEach rxs (releaseRx n (nextPhase (slotAt s n)))
    (forEach lanes (releaseLane n (nextPhase (slotAt s n))) s) := ⟨_, rfl⟩
  have hkeeps : ReleaseKeeps s t := ht ▸ released_keeps n _ lanes rxs s
  have hlane : laneAt t i = laneAt s i := by rw [ht, laneAt_releaseRxs, laneAt_releaseLanes_of_notMem hout]
  have hplan : (slotAt t n).plan = (slotAt s n).plan := congrArg (fun p => p.1.plan) (hkeeps.plan n)
  have hwaits : i ∈ (unreleased t n).1 := by
    simp only [unreleased, slotMask, hplan, List.mem_filter, hlane, hslot, hrel]
    exact ⟨hi, by decide⟩
  have hopen : ¬ ((unreleased t n).1 = [] ∧ (unreleased t n).2 = [] ∧ (slotAt t n).sets.all (·.closed) = true) :=
    fun h => List.ne_nil_of_mem hwaits h.1
  have hfinish : releaseAll n lanes rxs s = t := by
    rw [releaseAll, ← ht, finishSwitch, if_neg hopen]
  rwa [hfinish]

/-- R302: what is free is released; a held lane is not. -/
theorem releaseFree_keeps (h : LaneHeld s n i) : ReleaseKeeps s (releaseFree n s) := by
  obtain ⟨x, hx⟩ := Option.ne_none_iff_exists'.1 h.set
  refine releaseAll_keeps h.elem h.slot h.rel fun hmem => ?_
  have hfree := (List.mem_filter.1 hmem).2
  simp [hx, h.sums, h.spine, h.dark] at hfree

/-- While a slot is in a switch no group trains. -/
theorem afterSwitch_switching {old : State} (h : (slotAt s n).switching.isSome = true) : afterSwitch n old s = s := by
  have hgo : ¬ ((slotAt s n).code = .armed ∧ (slotAt s n).switching.isNone = true ∧
      ((slotAt old n).switching.isSome = true ∨ (slotAt old n).code ≠ .armed ∨ old.fab.switches ≠ s.fab.switches)) := by
    simp [Option.isNone_eq_false_iff.2 h]
  exact if_neg hgo

end ReleaseKeeps

end Sys2Proof.Machine

namespace Sys2Proof.Machine

section PhaseSwitches

variable {s t u : State} {i n m d e q : Nat} {goal : SwitchTo} {p : PlanSlot} {pl : Plan} {f g : Phase} {x : LaneSet}

/-! #### The trigger -/

/-- R308: of the fabric only the planes that begin to wait change. -/
theorem noteSpineWait_leaves (n : Nat) (s : State) :
    (noteSpineWait n s).fab = { s.fab with spineNext := (noteSpineWait n s).fab.spineNext } ∧
      (noteSpineWait n s).mem = s.mem ∧ (noteSpineWait n s).time = s.time := by
  unfold noteSpineWait
  dsimp only
  split
  · exact ⟨rfl, rfl, rfl⟩
  · refine forEach_inv (fun t => t.fab = { s.fab with spineNext := t.fab.spineNext } ∧ t.mem = s.mem ∧ t.time = s.time)
      _ (fun k t ht => ?_) _ s ⟨rfl, rfl, rfl⟩
    obtain ⟨hfab, hmem, htime⟩ := ht
    exact ⟨by rw [emit_fab, hfab], by rw [emit_mem, hmem], by rw [emit_time, htime]⟩

/-- R302 step 1: a switch has begun, and nothing has been released. -/
structure SwitchBegun (goal : SwitchTo) (n : Nat) (s t : State) : Prop where
  lanes : t.fab.lanes = s.fab.lanes
  spine : t.fab.spineWait = s.fab.spineWait
  windows : t.fab.windows = s.fab.windows
  time : t.time = s.time
  slot : slotAt t n = { slotAt s n with switching := some goal, newSets := (slotAt t n).newSets }
  others : ∀ m, m ≠ n → slotAt t m = slotAt s m

theorem startSwitch_begins (goal : SwitchTo) (hn : n < s.fab.slots.length) :
    ∃ t, SwitchBegun goal n s t ∧ startSwitch n goal s = releaseFree n t := by
  obtain ⟨u, hu⟩ : ∃ u, u = noteSpineWait n (updSlot n (fun p => { p with switching := some goal }) s) := ⟨_, rfl⟩
  obtain ⟨hfab, -, htime⟩ := noteSpineWait_leaves n (updSlot n (fun p => { p with switching := some goal }) s)
  rw [← hu] at hfab htime
  have hslots : u.fab.slots = (updSlot n (fun p => { p with switching := some goal }) s).fab.slots := by rw [hfab]
  have hslot : slotAt u n = { slotAt s n with switching := some goal } := by
    rw [slotAt, hslots]
    exact slotAt_updSlot_self _ hn
  have hothers : ∀ m, m ≠ n → slotAt u m = slotAt s m := fun m hm => by
    rw [slotAt, hslots]
    exact slotAt_updSlot_ne hm
  have hnu : n < u.fab.slots.length := by rw [hslots]; simpa [updSlot] using hn
  have hbegun : SwitchBegun goal n s u :=
    ⟨by rw [hfab]; rfl, by rw [hfab]; rfl, by rw [hfab]; rfl, htime, by rw [hslot], hothers⟩
  unfold startSwitch
  dsimp only
  rw [← hu]
  split
  · refine ⟨_, ?_, rfl⟩
    refine ⟨hbegun.lanes, hbegun.spine, hbegun.windows, htime, ?_, fun m hm => ?_⟩
    · rw [slotAt_updSlot_self _ hnu, hslot]
    · rw [slotAt_updSlot_ne hm, hothers m hm]
  · exact ⟨u, hbegun, rfl⟩

theorem SwitchBegun.held (h : SwitchBegun goal n s t) (hheld : LaneHeld s n i) : LaneHeld t n i := by
  refine hheld.congr (by rw [laneAt, h.lanes, laneAt]) (fun m => ?_) ?_ h.spine h.windows h.time
  · by_cases hm : m = n
    · rw [hm, h.slot]
      exact ⟨rfl, rfl, rfl⟩
    · rw [h.others m hm]
      exact ⟨rfl, rfl, rfl⟩
  · have hset := hheld.set
    rw [setAt] at hset ⊢
    rw [h.slot]
    exact hset

theorem LaneHeld.stands (h : LaneHeld s n i) (hs : FabricStands s t) : LaneHeld t n i := by
  refine h.congr (hs.laneAt i) (fun m => ?_) ?_ (by rw [hs.fab]) (by rw [hs.fab]) hs.time
  · rw [hs.slotAt]
    exact ⟨rfl, rfl, rfl⟩
  · rw [hs.setAt]
    exact h.set

/-- R302 step 1: a switch that a held lane keeps from ending. -/
theorem startSwitch_held (hn : n < s.fab.slots.length) (h : LaneHeld s n i) :
    (slotAt (startSwitch n goal s) n).switching = some goal ∧
      (slotAt (startSwitch n goal s) n).phase = (slotAt s n).phase ∧
      (slotAt (startSwitch n goal s) n).sets.map setKept = (slotAt s n).sets.map setKept := by
  obtain ⟨t, hbegun, hstart⟩ := startSwitch_begins goal hn
  have hkeeps := (releaseFree_keeps (hbegun.held h)).plan n
  rw [hbegun.slot, ← hstart] at hkeeps
  exact ⟨congrArg (fun p => p.1.switching) hkeeps, congrArg (fun p => p.1.phase) hkeeps, congrArg Prod.snd hkeeps⟩

protected theorem FabricStands.cancelBursts (h : FabricStands s t) : FabricStands s (cancelBursts n t) := by
  unfold Machine.cancelBursts
  exact h.updColl

/-- R296 to R298: a SYNC trigger that has fired, in a phase that is not the last. -/
theorem phaseTrigger_starts (hn : n < s.fab.slots.length) (hc : (slotAt s n).code = .armed)
    (hplan : (slotAt s n).plan = some pl) (hf : pl.phases[(slotAt s n).phase]? = some f)
    (hsw : (slotAt s n).switching = none) (hdue : (slotAt s n).disarmDue = false) (htrig : f.trig = 1)
    (hfired : (slotAt s n).fired = true) (hlast : (slotAt s n).phase + 1 < pl.phases.length) (h : LaneHeld s n i) :
    exec (.phaseTrigger n) s = .next (startSwitch n (.phase ((slotAt s n).phase + 1)) (cancelBursts n s)) := by
  have hphase : phaseOf (slotAt s n) = some f := by rw [phaseOf, hplan]; exact hf
  have hmet : triggerMet s n = some none := by simp [triggerMet, hphase, htrig, hfired]
  have hgoal : nextGoal (slotAt s n) = .phase ((slotAt s n).phase + 1) := by simp [nextGoal, hplan, hlast]
  have hcancel := (FabricStands.refl s).cancelBursts (n := n)
  have hnc : n < (cancelBursts n s).fab.slots.length := hn
  obtain ⟨hgo, -, -⟩ := startSwitch_held (goal := .phase ((slotAt s n).phase + 1)) hnc (h.stands hcancel)
  show execPhaseTrigger n s = _
  simp only [execPhaseTrigger, hc, hsw, hdue, hmet, hgoal, ne_eq, not_true_eq_false, Option.isSome_none,
    Bool.false_eq_true, or_self, if_false]
  rw [afterSwitch_switching (by rw [hgo]; rfl)]

/-! #### A set closes -/

/-- R264: a set that has nothing unacknowledged closes. -/
def closeIfDone (x : LaneSet) : LaneSet :=
  if x.queue = [] ∧ x.frames = [] ∧ x.resend = [] then { x with closed := true } else x

theorem closeIfDone_dest (x : LaneSet) : (closeIfDone x).dest = x.dest := by
  unfold closeIfDone
  split <;> rfl

/-- R264: the sets of the other modules stand. -/
theorem findSet_map_setKept (e : Nat) (sets : List LaneSet) :
    (findSet sets e).map setKept = (sets.map setKept).find? (fun k => k.1 = e) := by
  rw [findSet, List.find?_map]
  rfl

theorem ReleaseKeeps.setAt_setKept (h : ReleaseKeeps s t) (n e : Nat) :
    (setAt t n e false).map setKept = (setAt s n e false).map setKept := by
  have hsets : (slotAt t n).sets.map setKept = (slotAt s n).sets.map setKept := congrArg Prod.snd (h.plan n)
  simp only [setAt, Bool.false_eq_true, if_false, findSet_map_setKept, hsets]

theorem LaneHeld.closed (h : LaneHeld s n i) (d : Nat) : LaneHeld (updSet n d false closeIfDone s) n i := by
  refine h.congr rfl (fun m => ?_) ?_ rfl rfl rfl
  · exact ⟨slotAt_updSet_kept (·.code), slotAt_updSet_kept (·.plan), slotAt_updSet_kept (·.phase)⟩
  · obtain ⟨x, hx⟩ := Option.ne_none_iff_exists'.1 h.set
    by_cases hd : (laneAt s i).dest = d
    · rw [hd] at hx ⊢
      rw [setAt_updSet _ hx closeIfDone_dest]
      exact Option.some_ne_none _
    · rw [setAt_updSet_ne hd closeIfDone_dest]
      exact h.set

/-- R264: the last frame of a set has been acknowledged after the trigger. -/
theorem lanesetClosed_closes (hsw : (slotAt s n).switching.isSome = true) (hset : setAt s n d false = some x)
    (hqueue : x.queue = []) (hframes : x.frames = []) (hresend : x.resend = []) (h : LaneHeld s n i) :
    ∃ s', exec (.lanesetClosed n d) s = .next s' ∧ setAt s' n d false = some { x with closed := true } ∧
      (∀ e, e ≠ d → (setAt s' n e false).map setKept = (setAt s n e false).map setKept) ∧ s'.mem = s.mem := by
  obtain ⟨u, hu⟩ : ∃ u, u = updSet n d false closeIfDone s := ⟨_, rfl⟩
  have hkeeps : ReleaseKeeps u (releaseFree n u) := releaseFree_keeps (hu ▸ h.closed d)
  have hclosed : setAt u n d false = some { x with closed := true } := by
    rw [hu, setAt_updSet _ hset closeIfDone_dest, closeIfDone, if_pos ⟨hqueue, hframes, hresend⟩]
  have hswu : (slotAt (releaseFree n u) n).switching.isSome = true := by
    have hswitching : (slotAt (releaseFree n u) n).switching = (slotAt u n).switching :=
      congrArg (fun p => p.1.switching) (hkeeps.plan n)
    rw [hswitching, hu, slotAt_updSet_kept (·.switching)]
    exact hsw
  have hexec : exec (.lanesetClosed n d) s = .next (releaseFree n u) := by
    have hgo : ¬ (slotAt s n).switching.isNone = true := by simp [Option.isNone_eq_false_iff.2 hsw]
    refine congrArg Host.Outcome.next ((if_neg hgo).trans ?_)
    show afterSwitch n s (releaseFree n (updSet n d false closeIfDone s)) = _
    rw [← hu, afterSwitch_switching hswu]
  refine ⟨_, hexec, hkeeps.empty n d _ hclosed hframes hresend, fun e he => ?_, hkeeps.only.mem.trans (hu ▸ rfl)⟩
  rw [hkeeps.setAt_setKept, hu, setAt_updSet_ne he closeIfDone_dest]

/-! #### The lanes of a closed set are released -/

/-- R302: a lane of the slot is no longer one that the switch has released. -/
def relCleared (n : Nat) (l : Lane) : Lane := if l.slot = some n then { l with rel := false } else l

theorem relCleared_eq (n : Nat) (l : Lane) : ∃ rel, relCleared n l = { l with rel := rel } := by
  unfold relCleared
  split <;> exact ⟨_, rfl⟩

theorem laneAt_of_cleared (h : t.fab.lanes = s.fab.lanes.map (relCleared n)) : laneAt t i = relCleared n (laneAt s i) := by
  rw [laneAt, h]
  exact List.getD_map _ {} (relCleared n)

theorem laneAt_settleSync : laneAt (settleSync n s) i = laneAt s i := by
  unfold settleSync
  dsimp only
  split
  · split <;> rfl
  · rfl

/-- R302: the end of a switch leaves of each lane all but whether it has been released. -/
theorem laneAt_finishSwitch (n : Nat) (s : State) (i : Nat) :
    ∃ rel, laneAt (finishSwitch n s) i = { laneAt s i with rel := rel } := by
  unfold finishSwitch
  dsimp only
  split
  · split
    · obtain ⟨rel, hrel⟩ := relCleared_eq n (laneAt s i)
      refine ⟨rel, ?_⟩
      rw [(FabricStands.refl _).settleStop.laneAt, laneAt_settleSync, (FabricStands.refl _).retargetAll.laneAt, ← hrel]
      exact laneAt_of_cleared rfl
    · exact ⟨_, (FabricStands.refl _).retargetAll.recordDisarm.settleStop.laneAt i⟩
    · exact ⟨_, rfl⟩
  · exact ⟨_, rfl⟩

/-- R302 steps 3 and 4: a set has closed and the incoming set has ended. -/
theorem laneRelease_releases (hlen : i < s.fab.lanes.length) (hplan : (slotAt s n).plan = some pl)
    (hsw : (slotAt s n).switching = some (.phase q)) (hg : pl.phases[q]? = some g) (hset : setAt s n d false = some x)
    (hclosed : x.closed = true) (hended : incomingEnded s n d = true) (hi : i ∈ planeElems pl.mask)
    (hslot : (laneAt s i).slot = some n) (hrel : (laneAt s i).rel = false) (hdest : (laneAt s i).dest = d) :
    ∃ s', exec (.laneRelease n d) s = .next s' ∧ LaneEntered n q (laneAt s' i) := by
  have hnext : nextPhase (slotAt s n) = some (q, g) := by simp [nextPhase, hsw, hplan, hg]
  have hmem : i ∈ (unreleased s n).1.filter (fun i => (laneAt s i).dest = d) := by
    simp [unreleased, slotMask, hplan, hi, hslot, hrel, hdest]
  refine ⟨_, rfl, ?_⟩
  simp only [hsw, hset, hclosed, hended, or_true, and_self, if_true]
  rw [(FabricStands.afterSwitch (.refl _)).laneAt, releaseAll, hnext]
  obtain ⟨rel, hfinish⟩ := laneAt_finishSwitch n (forEach ((unreleased s n).2.filter (fun i => (rxAt s i).source = d))
    (releaseRx n (some (q, g))) (forEach ((unreleased s n).1.filter (fun i => (laneAt s i).dest = d))
      (releaseLane n (some (q, g))) s)) i
  rw [hfinish, laneAt_releaseRxs]
  exact laneAt_releaseLanes_of_mem hmem hlen

/-! #### A lane is retuned -/

/-- A lit laser is not opened again. -/
theorem openLaser_lit {c k : Nat} (hlit : isLit (laserAt s c k) = true) : openLaser c k s = s := by
  have hcode : (laserAt s c k).code = .lit ∨ (laserAt s c k).code = .dim := by
    simp [isLit] at hlit
    exact hlit.2
  unfold openLaser
  dsimp only
  split
  · rfl
  · refine if_neg ?_
    obtain hcode | hcode := hcode <;> simp [hcode]

theorem laneAt_noteGap (r : Nat) : laneAt (noteGap r s) i = laneAt s i := rfl

/-- R302 step 5, R354: a retuned lane whose laser is lit enters its set. -/
theorem retuneDone_enters (hi : i < 256) (hlen : i < s.fab.lanes.length) (hretune : (laneAt s i).retune = true)
    (hslot : (laneAt s i).slot = some n) (hcode : (laneAt s i).code = .dark) (hwait : laneWaits s i = false)
    (hlaser : laneLaser s i = some m) (hlit : isLit (laserAt s (chipOf i) m) = true) :
    ∃ s', exec (.retuneDone i) s = .next s' ∧ laneAt s' i = { laneAt s i with retune := false, code := .inSet } := by
  have hopen : (if (laserAt s (chipOf i) m).channel = (laneAt s i).channel then openLaser (chipOf i) m s else s) = s := by
    rw [openLaser_lit hlit, ite_self]
  have hlaneLit : laneLit s i = true := by simp [laneLit, hlaser, hlit]
  refine ⟨_, rfl, ?_⟩
  simp only [hretune, hlaser, hopen, hlaneLit, hwait, hslot, Nat.not_le.2 hi, Bool.not_true, Bool.false_eq_true, or_self,
    if_false, if_true, Option.isSome_some, Bool.not_false]
  rw [laneAt_noteGap, laneAt_updLane_self hlen]
  simp [hcode, hslot]

end PhaseSwitches

/-- Settles O28: a lane whose set has not ended holds the switch open while it starts and while its sets close. -/
theorem phaseSwitch : Obligations.PhaseSwitch := by
  rintro s n p pl f ⟨hlanes, -, hslots⟩ hn rfl hcode hplan hf
  have hlen : n < s.fab.slots.length := hslots ▸ hn
  have hmask : slotMask (slotAt s n) = pl.mask := by rw [slotMask, hplan]; rfl
  refine ⟨fun hsw hdue htrig hfired hlast => ?trigger, fun hsw d x hset hqueue hframes hresend => ?close,
    fun q g d x i hsw hg hset hclosed hended hi hslot hrel hdest => ?release,
    fun i m hi hretune hslot hdark hwait hlaser _ hlit =>
      retuneDone_enters hi (hlanes ▸ hi) hretune hslot hdark hwait hlaser hlit⟩
  case trigger =>
    rintro ⟨i, hi, hslot, hrel, hset, hsums, hspine, hdark⟩
    have hheld : LaneHeld s n i := ⟨hmask ▸ hi, hslot, hrel, hset, hsums, hspine, hdark⟩
    exact ⟨_, phaseTrigger_starts hlen hcode hplan hf hsw hdue htrig hfired hlast hheld,
      startSwitch_held hlen (hheld.stands (FabricStands.refl s).cancelBursts)⟩
  case close =>
    rintro ⟨i, hi, hslot, hrel, hheld, hsums, hspine, hdark⟩
    exact lanesetClosed_closes (Option.isSome_iff_ne_none.2 hsw) hset hqueue hframes hresend
      ⟨hmask ▸ hi, hslot, hrel, hheld, hsums, hspine, hdark⟩
  case release =>
    have hi256 : i < s.fab.lanes.length := hlanes ▸ List.mem_range.1 (List.mem_filter.1 hi).1
    obtain ⟨s', hexec, hslot', htag, hbuf⟩ :=
      laneRelease_releases hi256 hplan hsw hg hset hclosed hended hi hslot hrel hdest
    exact ⟨s', hexec, hslot', htag, hbuf⟩

end Sys2Proof.Machine

/-! ### O46: plans, dark windows and discovery -/

namespace Sys2Proof.Machine

section StoredRegisters

variable {s t : State} {r : RegRow} {inst hi lo n : Nat} {ix : List Nat} {pl : Plan} {h : Header} {c : HostCmd}

/-- R7: SYNC and the blocks after it lie beyond the page of the host interface. -/
theorem hostReg_beyond (hb : 0x80000 ≤ blockBase r.block) : hostReg (regAddr r inst ix) = false := by
  refine decide_eq_false fun hpage => ?_
  rw [regAddr] at hpage
  omega

protected theorem RegsStand.regGet (hr : RegsStand s t) (hb : 0x80000 ≤ blockBase r.block) :
    regGet t r inst ix = regGet s r inst ix :=
  congrArg BitVec.toNat (hr _ _ (hostReg_beyond hb))

protected theorem RegsStand.regField (hr : RegsStand s t) (hb : 0x80000 ≤ blockBase r.block := by decide) :
    regField t r inst ix hi lo = regField s r inst ix hi lo := by
  rw [Machine.regField, hr.regGet hb, Machine.regField]

/-! #### Routing, and the checks of R291 and R329 -/

protected theorem RegsStand.isSpine (hr : RegsStand s t) : isSpine t = isSpine s :=
  funext fun p => by simp only [Machine.isSpine, hr.regField (r := rFabPlaneCfg)]

protected theorem RegsStand.cfgPods (hr : RegsStand s t) : cfgPods t = cfgPods s :=
  funext fun p => by simp only [Machine.cfgPods, hr.regField (r := rFabPlaneCfg)]

protected theorem RegsStand.phasePods (hr : RegsStand s t) : phasePods t = phasePods s :=
  funext fun f => funext fun p => by simp only [Machine.phasePods, hr.cfgPods]

protected theorem RegsStand.ownId (hr : RegsStand s t) : ownId t = ownId s := hr.regField (r := rFabModid)

protected theorem RegsStand.sendsTo (hr : RegsStand s t) : sendsTo t = sendsTo s :=
  funext fun pods => funext fun p => funext fun k => by simp only [Machine.sendsTo, hr.isSpine, hr.ownId]

protected theorem RegsStand.hears (hr : RegsStand s t) : hears t = hears s :=
  funext fun pods => funext fun p => funext fun k => by simp only [Machine.hears, hr.isSpine, hr.ownId]

protected theorem RegsStand.phaseDests (hr : RegsStand s t) : phaseDests t = phaseDests s :=
  funext fun f => funext fun m => by simp only [Machine.phaseDests, hr.sendsTo, hr.phasePods]

protected theorem RegsStand.phaseSources (hr : RegsStand s t) : phaseSources t = phaseSources s :=
  funext fun f => funext fun m => by simp only [Machine.phaseSources, hr.hears, hr.phasePods]

protected theorem RegsStand.trimValid (hr : RegsStand s t) : trimValid t = trimValid s :=
  funext fun p => funext fun k => by simp only [Machine.trimValid, hr.regField (r := rCollOsumTrim)]

protected theorem RegsStand.osumFault (hr : RegsStand s t) : osumFault t = osumFault s :=
  funext fun f => by
    simp only [Machine.osumFault, hr.isSpine, hr.sendsTo, hr.hears, hr.phasePods, hr.phaseDests, hr.phaseSources,
      hr.trimValid]

protected theorem RegsStand.neighboursOk (hr : RegsStand s t) (hf : t.fab = s.fab) : neighboursOk t = neighboursOk s :=
  funext fun f => by
    simp only [Machine.neighboursOk, neighPresent, hr.isSpine, hr.cfgPods, hr.phasePods, hf]

theorem FabThere.slot_lt (hs : FabThere s) (hn : n < 16) : n < s.fab.slots.length := by
  obtain ⟨-, -, hslots⟩ := hs
  exact hslots ▸ hn

theorem slotAt_congr (hf : t.fab = s.fab) : slotAt t = slotAt s := funext fun n => by rw [slotAt, hf, slotAt]

theorem laneAt_congr (hf : t.fab = s.fab) : laneAt t = laneAt s := funext fun n => by rw [laneAt, hf, laneAt]

theorem armedMask_congr (hf : t.fab = s.fab) : armedMask t = armedMask s := by
  simp only [armedMask, armedSlots, slotAt_congr hf]

/-- R291, R329: the checks read the fabric and its registers. -/
protected theorem RegsStand.armFault (hr : RegsStand s t) (hf : t.fab = s.fab) : armFault t pl = armFault s pl := by
  simp only [Machine.armFault, hf, armedMask_congr hf, hr.isSpine, hr.neighboursOk hf, hr.osumFault, hr.phaseDests,
    hr.phaseSources]

/-! #### A command begins -/

@[simp] theorem begun_fab : (begun h c s).fab = s.fab := by rw [begun_eq]

@[simp] theorem slotAt_begun : slotAt (begun h c s) n = slotAt s n := congrFun (slotAt_congr begun_fab) n

@[simp] theorem nowNs_begun : nowNs (begun h c s) = nowNs s := by rw [nowNs, begun_time, nowNs]

@[simp] theorem armedMask_begun : armedMask (begun h c s) = armedMask s := armedMask_congr begun_fab

@[simp] theorem steered_begun : steered (begun h c s) n = steered s n := by rw [begun_eq]; rfl

@[simp] theorem unreleased_begun : unreleased (begun h c s) n = unreleased s n := by rw [begun_eq]; rfl

end StoredRegisters

end Sys2Proof.Machine

namespace Sys2Proof.Machine

section SameMemory

variable {s s' t t' : State} {a n g row code source : Nat} {payload : List Byte} {m : Mark} {f : Strip → Strip}

/-! #### Staged bytes are read as they were before the command began -/

/-- R174: two states in which LPDDR5X and what its reads turn to are the same. -/
structure SameMemory (s t : State) : Prop where
  mem : t.mem = s.mem
  time : t.time = s.time
  policy : regField t rMemPolicy 0 [] 15 12 = regField s rMemPolicy 0 [] 15 12

protected theorem SameMemory.stripAt (h : SameMemory s t) (n : Nat) : stripAt t n = stripAt s n :=
  stripAt_congr (by rw [h.mem])

protected theorem SameMemory.runNs (h : SameMemory s t) : runNs t = runNs s := by
  rw [Machine.runNs, h.time, Machine.runNs]

protected theorem SameMemory.granBlocked (h : SameMemory s t) (g : Nat) : granBlocked t g = granBlocked s g := by
  simp only [Machine.granBlocked, h.stripAt]

protected theorem SameMemory.manyUeRows (h : SameMemory s t) (n : Nat) : manyUeRows n t = manyUeRows n s := by
  simp only [Machine.manyUeRows, h.stripAt, h.runNs]

protected theorem SameMemory.ite {p : Prop} [Decidable p] (h : SameMemory s t) (h' : SameMemory s' t') :
    SameMemory (if p then s else s') (if p then t else t') := by
  split
  · exact h
  · exact h'

protected theorem SameMemory.forEach {α : Type} {f : α → State → State} (h : SameMemory s t)
    (hf : ∀ {x s t}, SameMemory s t → SameMemory (f x s) (f x t)) (xs : List α) :
    SameMemory (forEach xs f s) (forEach xs f t) :=
  List.foldl_rel h fun _ _ _ _ h => hf h

/-- R600: the counts of the recorder lie apart from MEM_POLICY. -/
theorem regGet_memPolicy_emit : regGet (emit code source payload s) rMemPolicy 0 [] = regGet s rMemPolicy 0 [] := by
  have hne : ∀ k, k < 6 → regAddr rMemPolicy 0 [] ≠ regAddr rEvtCount 0 [k] := by decide
  unfold emit
  split
  · exact congrArg BitVec.toNat (Cells.get_set_other _ _ _ _ (hne 1 (by decide)))
  · split
    · rfl
    · exact congrArg BitVec.toNat (Cells.get_set_other _ _ _ _ (hne 2 (by decide)))

protected theorem SameMemory.emit (h : SameMemory s t) :
    SameMemory (emit code source payload s) (emit code source payload t) :=
  ⟨by rw [emit_mem, emit_mem, h.mem], by rw [emit_time, emit_time, h.time],
    by rw [regField, regField, regGet_memPolicy_emit, regGet_memPolicy_emit]; exact h.policy⟩

protected theorem SameMemory.updStrip (h : SameMemory s t) : SameMemory (updStrip n f s) (updStrip n f t) :=
  ⟨by simp only [updStrip, h.mem, h.stripAt], h.time, h.policy⟩

protected theorem SameMemory.setGran (h : SameMemory s t) : SameMemory (setGran g m s) (setGran g m t) :=
  ⟨by simp only [setGran, h.mem], h.time, h.policy⟩

protected theorem SameMemory.noteErr (h : SameMemory s t) : SameMemory (noteErr code a s) (noteErr code a t) :=
  ⟨by simp only [noteErr, h.mem], h.time, h.policy⟩

protected theorem SameMemory.spoilBulks (h : SameMemory s t) : SameMemory (spoilBulks n s) (spoilBulks n t) :=
  ⟨h.mem, h.time, h.policy⟩

protected theorem SameMemory.granCe (h : SameMemory s t) : SameMemory (granCe g s) (granCe g t) :=
  h.setGran.updStrip.noteErr.emit

protected theorem SameMemory.granUe (h : SameMemory s t) : SameMemory (granUe g s) (granUe g t) := by
  unfold Machine.granUe
  rw [h.runNs]
  exact h.setGran.updStrip.noteErr.emit

protected theorem SameMemory.retireGran (h : SameMemory s t) : SameMemory (retireGran g s) (retireGran g t) := by
  unfold Machine.retireGran
  rw [h.mem]
  split
  · exact h.granCe
  · exact h.granUe
  · exact h

protected theorem SameMemory.degradeStrip (h : SameMemory s t) :
    SameMemory (degradeStrip n code s) (degradeStrip n code t) := by
  simp only [degradeStrip, h.stripAt]
  exact .ite h.updStrip.emit h

protected theorem SameMemory.offlineStrip (h : SameMemory s t) :
    SameMemory (offlineStrip n code s) (offlineStrip n code t) := by
  simp only [offlineStrip, h.stripAt]
  exact .ite h h.updStrip.spoilBulks.emit

protected theorem SameMemory.settleStrip (h : SameMemory s t) : SameMemory (settleStrip n s) (settleStrip n t) := by
  have hlost : SameMemory (if 16 < (stripAt s n).lost.length then offlineStrip n 3 s else s)
      (if 16 < (stripAt s n).lost.length then offlineStrip n 3 t else t) := .ite h.offlineStrip h
  simp only [settleStrip, h.stripAt, hlost.manyUeRows]
  exact .ite hlost.offlineStrip hlost

/-- R172: a strip of which many rows are patched is DEGRADED, and may go OFFLINE. -/
theorem SameMemory.patchedSettled (h : SameMemory s t) :
    SameMemory (settleStrip n (if 12 ≤ (stripAt s n).patch.length then degradeStrip n 3 s else s))
      (settleStrip n (if 12 ≤ (stripAt t n).patch.length then degradeStrip n 3 t else t)) := by
  rw [h.stripAt]
  exact (SameMemory.ite h.degradeStrip h).settleStrip

protected theorem SameMemory.retireRow (h : SameMemory s t) : SameMemory (retireRow n row s) (retireRow n row t) := by
  have hgrans : SameMemory (forEach (rowGrans n row) retireGran s) (forEach (rowGrans n row) retireGran t) :=
    h.forEach (f := retireGran) (·.retireGran) _
  unfold Machine.retireRow
  rw [h.stripAt]
  refine .ite h.settleStrip ?_
  extract_lets read _ _ counted _ _ _ _ read' _ _ counted'
  have hread : SameMemory read read' := .ite h hgrans
  have hcounted : SameMemory counted counted' := ⟨hread.mem, hread.time, hread.policy⟩
  split
  · exact hcounted.updStrip.emit.patchedSettled
  · exact hcounted.updStrip.emit.degradeStrip.settleStrip

protected theorem SameMemory.countRowCe (h : SameMemory s t) :
    SameMemory (countRowCe n row s) (countRowCe n row t) := by
  unfold Machine.countRowCe recent
  rw [h.stripAt, h.runNs]
  extract_lets st old ts rest kept counted counted'
  have hcounted : SameMemory counted counted' := h.updStrip
  rw [hcounted.policy]
  exact .ite hcounted.retireRow hcounted

/-- R167: a granule is found as it is in the other state. -/
protected theorem SameMemory.readGran (h : SameMemory s t) (g : Nat) :
    SameMemory (readGran g s).1 (readGran g t).1 ∧ (readGran g s).2 = (readGran g t).2 := by
  unfold Machine.readGran
  rw [h.granBlocked, h.mem]
  dsimp only
  split
  · exact ⟨h, rfl⟩
  · split
    · exact ⟨h, rfl⟩
    · exact ⟨h.noteErr, rfl⟩
    · exact ⟨h.granCe.countRowCe, rfl⟩
    · exact ⟨h.granUe.retireRow, rfl⟩

protected theorem SameMemory.readGrans (h : SameMemory s t) (gs : List Nat) :
    SameMemory (readGrans gs s).1 (readGrans gs t).1 ∧ (readGrans gs s).2 = (readGrans gs t).2 := by
  refine List.foldl_rel (r := fun (p q : State × List Nat) => SameMemory p.1 q.1 ∧ p.2 = q.2) ⟨h, rfl⟩ ?_
  rintro g - ⟨s, bad⟩ ⟨t, bad'⟩ ⟨hmem, rfl⟩
  obtain ⟨hnext, hbad⟩ := hmem.readGran g
  exact ⟨hnext, congrArg (fun b : Bool => if b then bad ++ [g] else bad) hbad⟩

/-- R174, R175: staged bytes are read as they are in the other state. -/
protected theorem SameMemory.readStaged (h : SameMemory s t) (a n : Nat) :
    (readStaged a n s).2 = (readStaged a n t).2 := by
  obtain ⟨hread, hbad⟩ := h.readGrans (granRange a n)
  simp only [Machine.readStaged, ddrRead, h.stripAt, hbad, hread.mem]
  split_ifs <;> rfl

theorem Admitted.sameMemory {h : Header} {c : HostCmd} (ha : Admitted s h c) : SameMemory s (begun h c s) :=
  ⟨begun_mem, begun_time, ha.begun_stands.regField (r := rMemPolicy)⟩

end SameMemory

end Sys2Proof.Machine

namespace Sys2Proof.Machine

section ReleaseHost

/-! #### What a phase switch leaves of the host interface -/

@[simp] theorem openLaser_host (c n : Nat) (s : State) : (openLaser c n s).host = s.host := by
  unfold openLaser
  dsimp only
  split
  · rfl
  · split <;> rfl

@[simp] theorem acquireLaser_host (c n k : Nat) (s : State) : (acquireLaser c n k s).host = s.host := rfl

@[simp] theorem scanRing_host (c r k : Nat) (s : State) : (scanRing c r k s).host = s.host := by
  unfold scanRing
  split <;> rfl

@[simp] theorem prebiasRing_host (c r : Nat) (s : State) : (prebiasRing c r s).host = s.host := by
  unfold prebiasRing
  split <;> rfl

@[simp] theorem countSwap_host (s : State) : (countSwap s).host = s.host := rfl

@[simp] theorem plannedSwap_host (c n trigger : Nat) (s : State) : (plannedSwap c n trigger s).host = s.host := by
  unfold plannedSwap
  dsimp only
  split
  · rw [emit_host, bump_host, countSwap_host]
    split
    · exact openLaser_host ..
    · rfl
  · rfl

@[simp] theorem relightLane_host (i k : Nat) (s : State) : (relightLane i k s).host = s.host := by
  unfold relightLane
  dsimp only
  split
  · rfl
  · split_ifs <;> simp

@[simp] theorem resendLane_host (i : Nat) (s : State) : (resendLane i s).host = s.host := by
  obtain heq | ⟨_, _, _, _, heq⟩ := resendLane_cases i s <;> rw [heq]
  rfl

@[simp] theorem releaseLane_host (n : Nat) (next : Option (Nat × Phase)) (i : Nat) (s : State) :
    (releaseLane n next i s).host = s.host := by
  unfold releaseLane
  dsimp only
  split
  · exact resendLane_host i s
  · split
    · rw [updLane_host]
      split
      · exact resendLane_host i s
      · exact resendLane_host i s
    · exact (relightLane_host ..).trans (resendLane_host i s)

@[simp] theorem releaseRx_host (n : Nat) (next : Option (Nat × Phase)) (i : Nat) (s : State) :
    (releaseRx n next i s).host = s.host := by
  unfold releaseRx
  dsimp only
  split
  · rfl
  · split
    · exact prebiasRing_host ..
    · rw [updRx_host]
      split
      · rfl
      · exact scanRing_host ..

@[simp] theorem retargetSwap_host (i : Nat) (s : State) : (retargetSwap i s).host = s.host := by
  unfold retargetSwap
  split
  · rfl
  · split
    · rfl
    · dsimp only
      split <;> rfl

@[simp] theorem retargetAll_host (n : Nat) (s : State) : (retargetAll n s).host = s.host :=
  forEach_host retargetSwap_host _ s

@[simp] theorem settleStop_host (s : State) : (settleStop s).host = s.host := by
  unfold settleStop
  split
  · exact stopNow_host _
  · rfl

@[simp] theorem settleSync_host (n : Nat) (s : State) : (settleSync n s).host = s.host := by
  unfold settleSync
  dsimp only
  split
  · split <;> rfl
  · rfl

@[simp] theorem recordDisarm_host (n reason : Nat) (s : State) : (recordDisarm n reason s).host = s.host := emit_host ..

@[simp] theorem finishSwitch_host (n : Nat) (s : State) : (finishSwitch n s).host = s.host := by
  unfold finishSwitch
  dsimp only
  split
  · split
    · simp
    · simp
    · rfl
  · rfl

@[simp] theorem noteSpineWait_host (n : Nat) (s : State) : (noteSpineWait n s).host = s.host := by
  unfold noteSpineWait
  dsimp only
  split
  · rfl
  · refine forEach_host (fun pl st => ?_) _ s
    exact emit_host ..

@[simp] theorem releaseFree_host (n : Nat) (s : State) : (releaseFree n s).host = s.host :=
  (finishSwitch_host ..).trans ((forEach_host (releaseRx_host n _) _ _).trans (forEach_host (releaseLane_host n _) _ s))

@[simp] theorem startSwitch_host (n : Nat) (goal : SwitchTo) (s : State) : (startSwitch n goal s).host = s.host := by
  unfold startSwitch
  rw [releaseFree_host]
  split
  · simp
  · simp

/-! #### The training that follows -/

@[simp] theorem scheduleBurst_host (x : Inst) (g : Nat) (spans : List (Nat × Nat)) (s : State) :
    (scheduleBurst x g spans s).host = s.host := by
  refine (forEach_host (fun p st => ?_) _ _).trans (updColl_host _ s)
  exact updColl_host _ st

@[simp] theorem dealBurst_host (ctx g : Nat) (spans : List (Nat × Nat)) (s : State) :
    (dealBurst ctx g spans s).host = s.host := by
  unfold dealBurst
  split
  · rfl
  · refine (updColl_host _ _).trans ((updColl_host _ _).trans ((scheduleBurst_host ..).trans ?_))
    split
    · exact scheduleBurst_host ..
    · rfl

@[simp] theorem dealLoop_host (ctx n : Nat) (s : State) : (dealLoop ctx n s).host = s.host := by
  induction n generalizing s with
  | zero => rfl
  | succ n ih =>
    unfold dealLoop
    split
    · rfl
    · split
      · rfl
      · split
        · rfl
        · exact (ih _).trans (dealBurst_host ..)

@[simp] theorem afterSwitch_host (n : Nat) (old s : State) : (afterSwitch n old s).host = s.host := by
  unfold afterSwitch
  dsimp only
  split
  · exact forEach_host (fun _ _ => dealLoop_host ..) _ _
  · rfl

@[simp] theorem armPlan_host (n : Nat) (pl : Plan) (t0 bias : Nat) (s : State) :
    (armPlan n pl t0 bias s).host = s.host :=
  (emit_host ..).trans (startSwitch_host ..)

end ReleaseHost

end Sys2Proof.Machine

namespace Sys2Proof.Machine

section SwitchStarts

variable {s t : State} {i j m n q : Nat} {goal : SwitchTo} {pl : Plan}

/-! #### The trigger -/

/-- R302 step 1: a switch has begun, and the lanes, the receive channels and the other slots stand. -/
structure SwitchNoted (goal : SwitchTo) (n : Nat) (s t : State) : Prop where
  lanes : t.fab.lanes = s.fab.lanes
  rxs : t.fab.rxs = s.fab.rxs
  length : t.fab.slots.length = s.fab.slots.length
  slot : slotAt t n = { slotAt s n with switching := some goal, newSets := (slotAt t n).newSets }
  others : ∀ m, m ≠ n → slotAt t m = slotAt s m

theorem startSwitch_notes (goal : SwitchTo) (hn : n < s.fab.slots.length) :
    ∃ t, SwitchNoted goal n s t ∧ startSwitch n goal s = releaseFree n t := by
  obtain ⟨v, hv⟩ : ∃ v, v = updSlot n (fun p => { p with switching := some goal }) s := ⟨_, rfl⟩
  obtain ⟨w, hw⟩ : ∃ w, w = noteSpineWait n v := ⟨_, rfl⟩
  have hfab : w.fab = { v.fab with spineNext := w.fab.spineNext } := hw ▸ (noteSpineWait_leaves n v).1
  have hslots : w.fab.slots = v.fab.slots := by rw [hfab]
  have hslot : ∀ m, slotAt w m = slotAt v m := fun m => by rw [slotAt, hslots, slotAt]
  have hlength : w.fab.slots.length = s.fab.slots.length := by rw [hslots, hv]; exact List.length_set
  have hnoted : SwitchNoted goal n s w := by
    refine ⟨by rw [hfab, hv]; rfl, by rw [hfab, hv]; rfl, hlength, ?_, fun m hm => ?_⟩
    · rw [hslot, hv, slotAt_updSlot_self _ hn]
    · rw [hslot, hv, slotAt_updSlot_ne hm]
  unfold startSwitch
  dsimp only
  rw [← hv, ← hw]
  split
  · refine ⟨_, ?_, rfl⟩
    refine ⟨hnoted.lanes, hnoted.rxs, List.length_set.trans hlength, ?_, fun m hm => ?_⟩
    · rw [slotAt_updSlot_self _ (hlength ▸ hn), hnoted.slot]
    · rw [slotAt_updSlot_ne hm, hnoted.others m hm]
  · exact ⟨w, hnoted, rfl⟩

/-! #### The sets and the lanes of a plan that is armed -/

/-- R292: what arming says of a slot. -/
def planEntry (p : PlanSlot) : SlotCode × Option Plan × Nat × Nat × Nat × Nat :=
  (p.code, p.plan, p.phase, p.loops, p.t0, p.bias)

/-- R292: a slot that goes from the empty phase into phase 0. -/
structure SlotStarts (p : PlanSlot) : Prop where
  phase : p.phase = 0
  starting : p.starting = true
  switching : p.switching = some (.phase 0)

theorem SlotStarts.congr {p p' : PlanSlot} (h : SlotStarts p) (hkept : planKept p' = planKept p) : SlotStarts p' :=
  ⟨(congrArg (fun k => k.1.phase) hkept).trans h.phase, (congrArg (fun k => k.1.starting) hkept).trans h.starting,
    (congrArg (fun k => k.1.switching) hkept).trans h.switching⟩

theorem ReleaseKeeps.entry (h : ReleaseKeeps s t) (m : Nat) : planEntry (slotAt t m) = planEntry (slotAt s m) :=
  congrArg (fun k => planEntry k.1) (h.plan m)

theorem planEntry_settleSync : planEntry (slotAt (settleSync n s) m) = planEntry (slotAt s m) := by
  unfold settleSync
  dsimp only
  split
  · split
    · exact slotAt_updSlot_kept (p := planEntry) (by intro; rfl) n m s
    · rfl
  · rfl

/-- R302: what the end of a switch makes of a receive channel. -/
def rxCleared (n : Nat) (r : RxCh) : RxCh := if r.slot = some n then { r with rel := false } else r

/-- R297, R302: what the end of the switch from phase `last` into phase `q` makes of its slot. -/
def slotEntered (last q : Nat) (p : PlanSlot) : PlanSlot :=
  { p with
    phase := q, switching := none, fired := false, sets := p.newSets, newSets := []
    loops := if q = 0 ∧ ((p.plan.map (·.phases.length)).getD 0) = last + 1 ∧ !p.starting then p.loops + 1 else p.loops
    starting := false }

/-- R302: the end of a switch into a phase. -/
theorem finishSwitch_phase (hswitching : (slotAt s n).switching = some (.phase q)) : finishSwitch n s = s ∨
    ∃ u, u.fab.slots = s.fab.slots ∧ u.fab.lanes = s.fab.lanes.map (relCleared n) ∧
      u.fab.rxs = s.fab.rxs.map (rxCleared n) ∧
      finishSwitch n s =
        settleStop (settleSync n (retargetAll n (updSlot n (slotEntered (slotAt s n).phase q) u))) := by
  unfold finishSwitch
  dsimp only
  split
  · rw [hswitching]
    refine .inr ⟨_, ?slots, ?lanes, ?rxs, rfl⟩
    all_goals rfl
  · exact .inl rfl

/-- R297: the end of the switch into phase 0 of a plan that is armed leaves what arming says of the slots. -/
theorem planEntry_finishSwitch (hstarts : SlotStarts (slotAt s n)) (m : Nat) :
    planEntry (slotAt (finishSwitch n s) m) = planEntry (slotAt s m) := by
  obtain heq | ⟨u, hslots, -, -, heq⟩ := finishSwitch_phase hstarts.switching <;> rw [heq]
  have hslot : ∀ m, slotAt u m = slotAt s m := fun m => by rw [slotAt, hslots, slotAt]
  rw [(FabricStands.refl _).settleStop.slotAt, planEntry_settleSync, (FabricStands.refl _).retargetAll.slotAt]
  by_cases hm : m = n
  · subst hm
    by_cases hlen : m < u.fab.slots.length
    · rw [slotAt_updSlot_self _ hlen, hslot]
      simp [planEntry, slotEntered, hstarts.phase, hstarts.starting]
    · rw [← hslot m, slotAt_of_length_le (not_lt.1 hlen), slotAt_of_length_le]
      simpa [updSlot] using hlen
  · rw [slotAt_updSlot_ne hm, hslot]

/-- R302 step 3: a receive channel that is released into a phase of a slot takes part in it. -/
theorem releaseRx_into (n q : Nat) (g : Phase) (i : Nat) (s : State) :
    ∃ u f, FabricStands s u ∧ releaseRx n (some (q, g)) i s = updRx i f u ∧ ∀ r, (f r).slot = some n := by
  unfold releaseRx
  dsimp only
  split
  · exact ⟨_, _, (FabricStands.refl _).prebiasRing, rfl, fun _ => rfl⟩
  · exact ⟨_, _, (FabricStands.refl _).unless (·.scanRing), rfl, fun _ => rfl⟩

/-- Receive channel `i` takes part in slot `n`. -/
def RxTakesPart (n i : Nat) (s : State) : Prop := i < s.fab.rxs.length ∧ (rxAt s i).slot = some n

theorem RxTakesPart.congr (h : RxTakesPart n i s) (hrxs : t.fab.rxs = s.fab.rxs) : RxTakesPart n i t := by
  rw [RxTakesPart, rxAt, hrxs]
  exact h

theorem RxTakesPart.updRx {f : RxCh → RxCh} (h : RxTakesPart n i s) (hf : ∀ r, r.slot = some n → (f r).slot = some n) :
    RxTakesPart n i (updRx j f s) := by
  obtain ⟨hlen, hslot⟩ := h
  refine ⟨List.length_set.symm ▸ hlen, ?_⟩
  by_cases hij : i = j
  · subst hij
    rw [rxAt_updRx_self hlen]
    exact hf _ hslot
  · rw [rxAt_updRx_ne hij]
    exact hslot

theorem RxTakesPart.releaseRx {g : Phase} (h : RxTakesPart n i s) :
    RxTakesPart n i (releaseRx n (some (q, g)) j s) := by
  obtain ⟨u, f, hu, heq, hinto⟩ := releaseRx_into n q g j s
  rw [heq]
  exact RxTakesPart.updRx (h.congr (by rw [hu.fab])) fun r _ => hinto r

theorem releaseLane_rxs (n : Nat) (next : Option (Nat × Phase)) (i : Nat) (s : State) :
    (releaseLane n next i s).fab.rxs = s.fab.rxs := by
  obtain ⟨u, f, hu, heq, -⟩ := releaseLane_cases n next i s
  rw [heq]
  refine (congrArg Fab.rxs hu.fab).trans ?_
  obtain heq | ⟨_, _, _, _, heq⟩ := resendLane_cases i s <;> rw [heq]
  rfl

theorem releaseLanes_rxs (n : Nat) (next : Option (Nat × Phase)) (lanes : List Nat) (s : State) :
    (forEach lanes (releaseLane n next) s).fab.rxs = s.fab.rxs :=
  forEach_keeps (fun s => s.fab.rxs) _ (fun _ _ => releaseLane_rxs ..) lanes s

theorem settleSync_rxs (n : Nat) (s : State) : (settleSync n s).fab.rxs = s.fab.rxs := by
  unfold settleSync
  dsimp only
  split
  · split <;> rfl
  · rfl

/-- R302: a receive channel of a slot takes part in it after a switch into phase 0 too. -/
theorem RxTakesPart.finishSwitch (h : RxTakesPart n i s) (hstarts : SlotStarts (slotAt s n)) :
    RxTakesPart n i (finishSwitch n s) := by
  obtain heq | ⟨u, -, -, hrxs, heq⟩ := finishSwitch_phase hstarts.switching <;> rw [heq]
  · exact h
  · obtain ⟨hlen, hslot⟩ := h
    have hcleared : RxTakesPart n i u := by
      refine ⟨by rwa [hrxs, List.length_map], ?_⟩
      have hrx : rxAt u i = rxCleared n (rxAt s i) := by
        rw [rxAt, hrxs]
        exact List.getD_map _ {} (rxCleared n)
      rw [hrx, rxCleared]
      split <;> exact hslot
    refine hcleared.congr ?_
    rw [(FabricStands.refl _).settleStop.fab, settleSync_rxs, (FabricStands.refl _).retargetAll.fab]
    rfl

/-- Lane `i` takes part in slot `n`. -/
def LaneTakesPart (n i : Nat) (s : State) : Prop := i < s.fab.lanes.length ∧ (laneAt s i).slot = some n

/-- R292, R302: a plan that is armed goes into phase 0: its slot, its lanes and its receive channels stay its own. -/
theorem startSwitch_enters (hn : n < s.fab.slots.length) (hplan : (slotAt s n).plan = some pl) (hne : pl.phases ≠ [])
    (hphase : (slotAt s n).phase = 0) (hstarting : (slotAt s n).starting = true) :
    (∀ m, planEntry (slotAt (startSwitch n (.phase 0) s) m) = planEntry (slotAt s m)) ∧
      (∀ i, LaneTakesPart n i s → (laneAt (startSwitch n (.phase 0) s) i).slot = some n) ∧
      ∀ i, RxTakesPart n i s → (rxAt (startSwitch n (.phase 0) s) i).slot = some n := by
  obtain ⟨t, hnoted, heq⟩ := startSwitch_notes (.phase 0) hn
  obtain ⟨g, phases, hphases⟩ := List.exists_cons_of_ne_nil hne
  have hnext : nextPhase (slotAt t n) = some (0, g) := by
    rw [hnoted.slot]
    simp [nextPhase, hplan, hphases]
  have hstarts : SlotStarts (slotAt t n) := by
    rw [hnoted.slot]
    exact ⟨hphase, hstarting, rfl⟩
  obtain ⟨is, js, hfree⟩ : ∃ is js, releaseFree n t = releaseAll n is js t := ⟨_, _, rfl⟩
  rw [heq, hfree, releaseAll, hnext]
  have hkeeps := released_keeps n (some (0, g)) is js t
  have hlater := hstarts.congr (hkeeps.plan n)
  refine ⟨fun m => ?slots, fun i hi => ?ofLanes, fun i hi => ?ofRxs⟩
  case slots =>
    rw [planEntry_finishSwitch hlater, hkeeps.entry]
    by_cases hm : m = n
    · rw [hm, hnoted.slot]
      rfl
    · rw [hnoted.others m hm]
  case ofLanes =>
    obtain ⟨hlen, hslot⟩ := hi
    obtain ⟨rel, hrel⟩ := laneAt_finishSwitch n (forEach js (releaseRx n (some (0, g)))
      (forEach is (releaseLane n (some (0, g))) t)) i
    rw [hrel, laneAt_releaseRxs]
    by_cases hmem : i ∈ is
    · exact (laneAt_releaseLanes_of_mem hmem (hnoted.lanes ▸ hlen)).1
    · rw [laneAt_releaseLanes_of_notMem hmem, laneAt, hnoted.lanes]
      exact hslot
  case ofRxs =>
    have htaken : RxTakesPart n i (forEach is (releaseLane n (some (0, g))) t) :=
      hi.congr ((releaseLanes_rxs ..).trans hnoted.rxs)
    exact (RxTakesPart.finishSwitch (forEach_inv _ _ (fun _ _ h => h.releaseRx) js _ htaken) hlater).2

/-- R292: the slot of a plan that is armed, before its switch into phase 0. -/
def slotArmed (t0 bias : Nat) (p : PlanSlot) : PlanSlot :=
  { p with
    code := .armed, phase := 0, loops := 0, t0 := t0, bias := bias, starting := true
    disarmDue := false, fired := false, sets := [], newSets := [] }

/-- R292: the slot, the lanes and the receive channels of a plan that is armed, before its switch into phase 0. -/
def planPlaced (n : Nat) (pl : Plan) (t0 bias : Nat) (s : State) : State :=
  let u := updSlot n (slotArmed t0 bias) s
  { u with fab := { u.fab with
    lanes := s.fab.lanes.zipIdx.map fun x =>
      if bitOf pl.mask (x.2 / 8) then { x.1 with slot := some n, rel := false } else x.1
    rxs := s.fab.rxs.zipIdx.map fun x =>
      if bitOf pl.mask (x.2 / 8) then { x.1 with slot := some n, rel := false } else x.1 } }

theorem planPlaced_lane {t0 bias : Nat} (hlen : s.fab.lanes.length = 256) (hi : i ∈ planeElems pl.mask) :
    LaneTakesPart n i (planPlaced n pl t0 bias s) := by
  obtain ⟨hrange, hbit⟩ := List.mem_filter.1 hi
  have hlane : i < s.fab.lanes.length := by rw [hlen]; exact List.mem_range.1 hrange
  refine ⟨by simpa [planPlaced] using hlane, ?_⟩
  simp [laneAt, planPlaced, hlane, hbit]

theorem planPlaced_rx {t0 bias : Nat} (hlen : s.fab.rxs.length = 256) (hi : i ∈ planeElems pl.mask) :
    RxTakesPart n i (planPlaced n pl t0 bias s) := by
  obtain ⟨hrange, hbit⟩ := List.mem_filter.1 hi
  have hrx : i < s.fab.rxs.length := by rw [hlen]; exact List.mem_range.1 hrange
  refine ⟨by simpa [planPlaced] using hrx, ?_⟩
  simp [rxAt, planPlaced, hrx, hbit]

theorem slotAt_planPlaced {t0 bias : Nat} : slotAt (planPlaced n pl t0 bias s) m =
    slotAt (updSlot n (slotArmed t0 bias) s) m := rfl

/-- R292: phase 0 of a plan that is armed comes into force. -/
theorem armPlan_enters {t0 bias : Nat} (hfab : FabThere s) (hn : n < 16) (hplan : (slotAt s n).plan = some pl)
    (hne : pl.phases ≠ []) :
    planEntry (slotAt (armPlan n pl t0 bias s) n) = (.armed, some pl, 0, 0, t0, bias) ∧
      (∀ m, m ≠ n → (slotAt (armPlan n pl t0 bias s) m).code = (slotAt s m).code) ∧
      ∀ i ∈ planeElems pl.mask, (laneAt (armPlan n pl t0 bias s) i).slot = some n ∧
        (rxAt (armPlan n pl t0 bias s) i).slot = some n := by
  obtain ⟨hlanes, hrxs, hslots⟩ := hfab
  have hlen : n < s.fab.slots.length := hslots ▸ hn
  have hplaced := slotAt_updSlot_self (slotArmed t0 bias) hlen
  rw [← slotAt_planPlaced (pl := pl)] at hplaced
  obtain ⟨hentry, hlane, hrx⟩ := startSwitch_enters (s := planPlaced n pl t0 bias s)
    (by simpa [planPlaced, updSlot] using hlen) (by rw [hplaced]; exact hplan) hne (by rw [hplaced]; rfl)
    (by rw [hplaced]; rfl)
  have hrecord : FabricStands (startSwitch n (.phase 0) (planPlaced n pl t0 bias s)) (armPlan n pl t0 bias s) :=
    (FabricStands.refl _).emit
  refine ⟨?_, fun m hm => ?_, fun i hi => ?_⟩
  · rw [hrecord.slotAt, hentry, hplaced]
    simp [planEntry, slotArmed, hplan]
  · rw [hrecord.slotAt]
    refine (congrArg Prod.fst (hentry m)).trans ?_
    rw [slotAt_planPlaced, slotAt_updSlot_ne hm]
    rfl
  · rw [hrecord.laneAt, hrecord.rxAt]
    exact ⟨hlane i (planPlaced_lane hlanes hi), hrx i (planPlaced_rx hrxs hi)⟩

/-! #### A plan that is disarmed -/

/-- R293: the slot of a plan that has left. -/
def slotLeft (p : PlanSlot) : PlanSlot :=
  { p with
    code := .loaded, phase := 0, loops := 0, switching := none, disarmDue := false
    fired := false, sets := [], newSets := [] }

/-- R309: the end of a switch out of a plan. -/
theorem finishSwitch_leave {reason : Nat} (hswitching : (slotAt s n).switching = some (.leave reason))
    (hdone : (unreleased s n).1 = [] ∧ (unreleased s n).2 = [] ∧ (slotAt s n).sets.all (·.closed) = true) :
    ∃ u, u.fab.slots = s.fab.slots ∧ u.fab.lanes = s.fab.lanes ∧
      finishSwitch n s = settleStop (recordDisarm n reason (retargetAll n (updSlot n slotLeft u))) := by
  unfold finishSwitch
  dsimp only
  rw [if_pos hdone, hswitching]
  refine ⟨_, ?slots, ?lanes, rfl⟩
  all_goals rfl

/-- R293, R309: a plan of which nothing is left to release leaves through an empty phase at once. -/
theorem startSwitch_leaves {reason : Nat} (hn : n < s.fab.slots.length) (hun : unreleased s n = ([], []))
    (hclosed : (slotAt s n).sets.all (·.closed) = true) :
    (slotAt (startSwitch n (.leave reason) s) n).code = .loaded ∧
      (slotAt (startSwitch n (.leave reason) s) n).plan = (slotAt s n).plan ∧
      (slotAt (startSwitch n (.leave reason) s) n).sets = [] ∧
      (startSwitch n (.leave reason) s).fab.lanes = s.fab.lanes := by
  obtain ⟨t, hnoted, heq⟩ := startSwitch_notes (.leave reason) hn
  have hlane : laneAt t = laneAt s := funext fun i => by rw [laneAt, hnoted.lanes, laneAt]
  have hrx : rxAt t = rxAt s := funext fun i => by rw [rxAt, hnoted.rxs, rxAt]
  have hslot := hnoted.slot
  have hunt : unreleased t n = ([], []) := by
    rw [← hun]
    simp only [unreleased, slotMask, hlane, hrx]
    rw [hslot]
  have hfree : releaseFree n t = finishSwitch n t := by
    simp only [releaseFree, hunt, List.filter_nil, releaseAll, forEach_nil]
  have hdone : (unreleased t n).1 = [] ∧ (unreleased t n).2 = [] ∧ (slotAt t n).sets.all (·.closed) = true := by
    rw [hunt, hslot]
    exact ⟨rfl, rfl, hclosed⟩
  have hgoal : (slotAt t n).switching = some (.leave reason) := by rw [hslot]
  have hslots : ∀ u : State, u.fab.slots = t.fab.slots → slotAt (updSlot n slotLeft u) n = slotLeft (slotAt t n) :=
    fun u hu => by rw [slotAt_updSlot_self _ (by rw [hu, hnoted.length]; exact hn), slotAt, hu, slotAt]
  obtain ⟨u, hu, hlanes, hfinish⟩ := finishSwitch_leave hgoal hdone
  rw [heq, hfree, hfinish]
  have hstands : FabricStands (updSlot n slotLeft u)
      (settleStop (recordDisarm n reason (retargetAll n (updSlot n slotLeft u)))) :=
    (FabricStands.refl _).retargetAll.recordDisarm.settleStop
  rw [hstands.slotAt, hslots u hu, hslot, hstands.fab]
  exact ⟨rfl, rfl, rfl, hlanes.trans hnoted.lanes⟩

end SwitchStarts

end Sys2Proof.Machine

namespace Sys2Proof.Machine

section PlanLoads

variable {s s1 : State} {h : Header} {c : HostCmd} {p bs : List Byte}

/-! #### PLAN_LOAD -/

/-- R287: the operands of PLAN_LOAD are in range. -/
def planArgs (p : List Byte) : Prop :=
  at1 p 0 < 16 ∧ zeros p 1 3 = true ∧ leAt p 8 8 % 8 = 0 ∧ leAt p 8 8 + leAt p 4 4 ≤ ddrSize

theorem not_planArgs : ¬ planArgs p ↔ 16 ≤ at1 p 0 ∨ zeros p 1 3 = false ∨ leAt p 8 8 % 8 ≠ 0 ∨
    ddrSize < leAt p 8 8 + leAt p 4 4 := by
  simp only [planArgs, not_and_or, not_le, not_lt, Bool.not_eq_true, ne_eq]

theorem planLoad_badArgs (h : Header) (hp : ¬ planArgs c.payload) : planLoad h c s = (s, .reply 5 []) := by
  simp only [planLoad, Bool.not_eq_true', not_planArgs.1 hp, if_true, status]

theorem planLoad_armed (h : Header) (hp : planArgs c.payload) (hslot : (slotAt s (at1 c.payload 0)).code = .armed) :
    planLoad h c s = (s, .reply 1 []) := by
  simp only [planLoad, Bool.not_eq_true', not_planArgs.not_right.1 hp, if_false, hslot, if_true, status]

/-- R288, R289: PLAN_LOAD once its bytes have been read. -/
theorem planLoad_read (h : Header) (hp : planArgs c.payload) (hslot : (slotAt s (at1 c.payload 0)).code ≠ .armed)
    (hread : readStaged (leAt c.payload 8 8) (leAt c.payload 4 4) s = (s1, .inr bs)) :
    (∀ o, planFault bs (leAt c.payload 4 4) = some o → planLoad h c s = (s1, .reply 0x0504 (leBytes 4 o))) ∧
      (planFault bs (leAt c.payload 4 4) = none →
        planLoad h c s = (placePlan (at1 c.payload 0) (readPlan bs) s1, .reply 0 [])) := by
  have hargs := not_planArgs.not_right.1 hp
  refine ⟨fun o ho => ?_, fun hok => ?_⟩
  · simp only [planLoad, Bool.not_eq_true', hargs, if_false, hslot, hread, ho]
  · simp only [planLoad, Bool.not_eq_true', hargs, if_false, hslot, hread, hok]

/-- R289: a plan takes a slot, and of the fabric only that slot changes. -/
theorem placePlan_fab (n : Nat) (pl : Plan) (s : State) :
    (placePlan n pl s).fab = (updSlot n (fun _ => { code := .loaded, plan := some pl }) s).fab := emit_fab ..

theorem Staged.fab (hs : Staged s s1) : s1.fab = s.fab := by rw [hs]

/-- R288, R289: PLAN_LOAD of a plan that has been read. -/
theorem planLoad_answers (hfab : FabThere s) (ha : Admitted s h (hostCmd 0x0501 p [])) (hp : planArgs p)
    (hslot : (slotAt s (at1 p 0)).code ≠ .armed) (hread : readStaged (leAt p 8 8) (leAt p 4 4) s = (s1, .inr bs)) :
    (∀ o, planFault bs (leAt p 4 4) = some o → ∃ s', exec (.planLoad h p) s = .next s' ∧
      Answers s s' h (hostCmd 0x0501 p []) 0x0504 (leBytes 4 o) ∧ s'.fab = s.fab ∧ s'.mem.cells = s.mem.cells) ∧
    (planFault bs (leAt p 4 4) = none → ∃ s', exec (.planLoad h p) s = .next s' ∧
      Answers s s' h (hostCmd 0x0501 p []) 0 [] ∧
      slotAt s' (at1 p 0) = { code := .loaded, plan := some (readPlan bs) } ∧
      (∀ n, n ≠ at1 p 0 → slotAt s' n = slotAt s n) ∧ s'.fab.lanes = s.fab.lanes ∧ s'.fab.rxs = s.fab.rxs ∧
      s'.mem.cells = s.mem.cells ∧ s'.job = s.job) := by
  obtain ⟨u, hu⟩ : ∃ u, u = (readStaged (leAt p 8 8) (leAt p 4 4) (begun h (hostCmd 0x0501 p []) s)).1 := ⟨_, rfl⟩
  have hsame := ha.sameMemory.readStaged (leAt p 8 8) (leAt p 4 4)
  rw [hread] at hsame
  have hbegun : readStaged (leAt p 8 8) (leAt p 4 4) (begun h (hostCmd 0x0501 p []) s) = (u, .inr bs) :=
    Prod.ext hu.symm hsame.symm
  obtain ⟨hhost, hjob, -, hcells, -⟩ := readStaged_keeps hbegun
  have hufab : u.fab = s.fab := (hu ▸ (readStaged_staged ..).fab).trans begun_fab
  obtain ⟨hfault, hload⟩ := planLoad_read (c := hostCmd 0x0501 p []) h hp (by rwa [slotAt_begun]) hbegun
  refine ⟨fun o ho => ?faulty, fun hok => ?loaded⟩
  case faulty =>
    obtain ⟨s', hexec, hans, heq⟩ := ha.answers rfl (hfault o ho) hhost
    exact ⟨s', hexec, hans, by rw [heq, hufab], by rw [heq, hcells]⟩
  case loaded =>
    obtain ⟨s', hexec, hans, heq⟩ := ha.answers rfl (hload hok) (by rwa [placePlan_host])
    have hs'fab : s'.fab = (updSlot (at1 p 0) (fun _ => { code := .loaded, plan := some (readPlan bs) }) u).fab := by
      rw [heq]
      exact placePlan_fab ..
    have hlen : at1 p 0 < u.fab.slots.length := hufab ▸ hfab.slot_lt hp.1
    refine ⟨s', hexec, hans, ?_, fun n hn => ?_, ?_, ?_, ?_, ?_⟩
    · rw [slotAt_congr hs'fab, slotAt_updSlot_self _ hlen]
    · rw [slotAt_congr hs'fab, slotAt_updSlot_ne hn, slotAt_congr hufab]
    · rw [hs'fab, ← hufab]
      rfl
    · rw [hs'fab, ← hufab]
      rfl
    · rw [heq]
      exact (congrArg Mem.cells (emit_mem ..)).trans hcells
    · rw [heq]
      exact (emit_job ..).trans hjob

end PlanLoads

section PlanArms

variable {s u : State} {h : Header} {c : HostCmd} {p : List Byte} {n st : Nat} {pl : Plan}

/-! #### PLAN_ARM -/

/-- A command whose effect is on the fabric alone. -/
theorem Admitted.completes_fab {i : CmdInfo} {q : List Byte} (f : Fab → Fab) (ha : Admitted s h c)
    (hi : cmdInfo c.opcode = some i)
    (hr : i.run h c (begun h c s) = ({ begun h c s with fab := f (begun h c s).fab }, .reply st q)) :
    Completes (.next (hostReceive h c s)) s { s with fab := f s.fab } h c st q := by
  refine admitted_completes ha hi hr rfl ?_ ha.begun_stands
  rw [begun_fab]
  conv_lhs => rw [begun_eq]

/-- R291: the operands of PLAN_ARM are in range. -/
def armArgs (p : List Byte) : Prop :=
  at1 p 0 < 16 ∧ at1 p 1 < 2 ∧ zeros p 2 6 = true ∧ zeros p 14 2 = true ∧ leAt p 16 4 < 1000000000 ∧ zeros p 20 4 = true

theorem not_armArgs : ¬ armArgs p ↔ 16 ≤ at1 p 0 ∨ 2 ≤ at1 p 1 ∨ zeros p 2 6 = false ∨ zeros p 14 2 = false ∨
    1000000000 ≤ leAt p 16 4 ∨ zeros p 20 4 = false := by
  simp only [armArgs, not_and_or, not_lt, Bool.not_eq_true]

theorem planArm_badArgs (h : Header) (hp : ¬ armArgs c.payload) : planArm h c s = (s, .reply 5 []) := by
  simp only [planArm, Bool.not_eq_true', not_armArgs.1 hp, if_true, status]

theorem planArm_disarms (h : Header) (hp : armArgs c.payload) (hop : at1 c.payload 1 = 1) :
    planArm h c s = disarmPlan (at1 c.payload 0) s := by
  have hargs := not_armArgs.not_right.1 hp
  simp only [hop] at hargs
  simp only [planArm, Bool.not_eq_true', hop, hargs, if_false, if_true]

theorem planArm_armed (h : Header) (hp : armArgs c.payload) (hop : at1 c.payload 1 = 0)
    (hcode : (slotAt s (at1 c.payload 0)).code = .armed) : planArm h c s = (s, .reply 1 []) := by
  have hargs := not_armArgs.not_right.1 hp
  simp only [hop] at hargs
  simp only [planArm, Bool.not_eq_true', hop, hargs, if_false, hcode, status, Nat.zero_ne_one]

theorem planArm_empty (h : Header) (hp : armArgs c.payload) (hop : at1 c.payload 1 = 0)
    (hcode : (slotAt s (at1 c.payload 0)).code = .empty) : planArm h c s = (s, .reply 3 []) := by
  have hargs := not_armArgs.not_right.1 hp
  simp only [hop] at hargs
  simp only [planArm, Bool.not_eq_true', hop, hargs, if_false, hcode, status, Nat.zero_ne_one]

/-- R291, R292: PLAN_ARM of a LOADED plan, which its checks refuse or take. -/
theorem planArm_loaded (h : Header) (hp : armArgs c.payload) (hop : at1 c.payload 1 = 0)
    (hcode : (slotAt s (at1 c.payload 0)).code = .loaded) (hplan : (slotAt s (at1 c.payload 0)).plan = some pl) :
    (∀ e, armFault s pl = some e → planArm h c s = (s, .reply e [])) ∧
    (armFault s pl = none → planArm h c s =
      (armPlan (at1 c.payload 0) pl (leAt c.payload 8 8 * 1000000000 + leAt c.payload 16 4) (leAt c.payload 24 8) s,
        .reply 0 [])) := by
  have hargs := not_armArgs.not_right.1 hp
  simp only [hop] at hargs
  refine ⟨fun e he => ?_, fun hok => ?_⟩
  · simp only [planArm, Bool.not_eq_true', hop, hargs, if_false, hcode, hplan, he, status, Nat.zero_ne_one]
  · simp only [planArm, Bool.not_eq_true', hop, hargs, if_false, hcode, hplan, hok, status, Nat.zero_ne_one]

/-- R333: a slot that stands as it did has no groups to train. -/
theorem afterSwitch_self (n : Nat) (s : State) : afterSwitch n s s = s := by
  refine if_neg ?_
  rintro ⟨hcode, hidle, hbusy | hcode' | hswitches⟩
  · rw [Option.isNone_iff_eq_none.1 hidle] at hbusy
    cases hbusy
  · exact hcode' hcode
  · exact hswitches rfl

theorem planArmCmd_unchanged (harm : planArm h c s = (s, .reply st [])) : planArmCmd h c s = (s, .reply st []) := by
  rw [planArmCmd, harm, afterSwitch_self]

/-- R291: PLAN_ARM of a payload that it refuses, or of a plan that it does not arm, leaves the state as it was. -/
theorem planArm_completes (ha : Admitted s h (hostCmd 0x0502 p []))
    (harm : planArm h (hostCmd 0x0502 p []) (begun h (hostCmd 0x0502 p []) s) =
      (begun h (hostCmd 0x0502 p []) s, .reply st [])) :
    Completes (exec (.planArm h p) s) s s h (hostCmd 0x0502 p []) st [] :=
  ha.completes_unchanged rfl (planArmCmd_unchanged harm)

/-- R292, R293: PLAN_ARM once it has changed the fabric; training leaves the fabric as it is. -/
theorem planArm_changes (ha : Admitted s h (hostCmd 0x0502 p []))
    (harm : planArm h (hostCmd 0x0502 p []) (begun h (hostCmd 0x0502 p []) s) = (u, .reply st []))
    (hhost : u.host = (begun h (hostCmd 0x0502 p []) s).host) :
    ∃ s', (.next (hostReceive h (hostCmd 0x0502 p []) s) : Result) = .next s' ∧
      Answers s s' h (hostCmd 0x0502 p []) st [] ∧ s'.fab = u.fab := by
  have hcmd : planArmCmd h (hostCmd 0x0502 p []) (begun h (hostCmd 0x0502 p []) s) =
      (afterSwitch (at1 p 0) (begun h (hostCmd 0x0502 p []) s) u, .reply st []) := by
    rw [planArmCmd, harm]
  obtain ⟨s', hexec, hans, heq, -⟩ := admitted_reply ha rfl hcmd ((afterSwitch_host ..).trans hhost)
  refine ⟨s', congrArg Host.Outcome.next hexec, hans, ?_⟩
  rw [heq]
  exact (FabricStands.refl u).afterSwitch.fab

/-- R292: PLAN_ARM of a plan that passes its checks. -/
theorem planArm_answers (hfab : FabThere s) (ha : Admitted s h (hostCmd 0x0502 p [])) (hp : armArgs p)
    (hop : at1 p 1 = 0) (hcode : (slotAt s (at1 p 0)).code = .loaded) (hplan : (slotAt s (at1 p 0)).plan = some pl)
    (hok : armFault s pl = none) (hne : pl.phases ≠ []) :
    ∃ s', exec (.planArm h p) s = .next s' ∧ Answers s s' h (hostCmd 0x0502 p []) 0 [] ∧
      planEntry (slotAt s' (at1 p 0)) =
        (.armed, some pl, 0, 0, leAt p 8 8 * 1000000000 + leAt p 16 4, leAt p 24 8) ∧
      (∀ m, m ≠ at1 p 0 → (slotAt s' m).code = (slotAt s m).code) ∧
      ∀ i ∈ planeElems pl.mask, (laneAt s' i).slot = some (at1 p 0) ∧ (rxAt s' i).slot = some (at1 p 0) := by
  have harm := (planArm_loaded (s := begun h (hostCmd 0x0502 p []) s) (c := hostCmd 0x0502 p []) h hp hop
    (by rwa [slotAt_begun]) (by rwa [slotAt_begun])).2 (by rwa [ha.begun_stands.armFault begun_fab])
  obtain ⟨s', hexec, hans, hs'fab⟩ := planArm_changes ha harm (armPlan_host ..)
  obtain ⟨hentry, hcodes, helems⟩ := armPlan_enters (s := begun h (hostCmd 0x0502 p []) s) (n := at1 p 0) (pl := pl)
    (t0 := leAt p 8 8 * 1000000000 + leAt p 16 4) (bias := leAt p 24 8) (by rwa [FabThere, begun_fab]) hp.1
    (by rwa [slotAt_begun]) hne
  refine ⟨s', hexec, hans, ?_, fun m hm => ?_, fun i hi => ?_⟩
  · rw [slotAt_congr hs'fab]
    exact hentry
  · rw [slotAt_congr hs'fab]
    exact (hcodes m hm).trans (by rw [slotAt_begun])
  · rw [laneAt_congr hs'fab, rxAt, hs'fab]
    exact helems i hi

/-! #### A disarm -/

theorem disarmPlan_unarmed (hcode : (slotAt s n).code ≠ .armed) : disarmPlan n s = (s, .reply 0 []) := by
  simp only [disarmPlan, hcode, ne_eq, not_false_eq_true, if_true, status]

theorem disarmPlan_steered (hcode : (slotAt s n).code = .armed) (hst : steered s n = true) :
    disarmPlan n s = (s, .reply 1 []) := by
  simp only [disarmPlan, hcode, hst, ne_eq, not_true_eq_false, if_false, if_true, status]

theorem disarmPlan_switching (hcode : (slotAt s n).code = .armed) (hst : steered s n = false)
    (hsw : (slotAt s n).switching ≠ none) :
    disarmPlan n s = (updSlot n (fun p => { p with disarmDue := true }) s, .reply 0 []) := by
  simp only [disarmPlan, hcode, hst, Option.isSome_iff_ne_none.2 hsw, ne_eq, not_true_eq_false, Bool.false_eq_true,
    if_false, if_true, status]

theorem disarmPlan_starts (hcode : (slotAt s n).code = .armed) (hst : steered s n = false)
    (hsw : (slotAt s n).switching = none) : disarmPlan n s = (startSwitch n (.leave 0) s, .reply 0 []) := by
  simp only [disarmPlan, hcode, hst, hsw, Option.isSome_none, ne_eq, not_true_eq_false, Bool.false_eq_true,
    if_false, status]

theorem LaneHeld.startSwitch_code {i : Nat} {goal : SwitchTo} (hn : n < s.fab.slots.length) (hheld : LaneHeld s n i) :
    (slotAt (startSwitch n goal s) n).code = (slotAt s n).code := by
  obtain ⟨t, hbegun, hstart⟩ := startSwitch_begins goal hn
  have hkeeps := (releaseFree_keeps (hbegun.held hheld)).plan n
  rw [hbegun.slot, ← hstart] at hkeeps
  exact congrArg (fun k => k.1.code) hkeeps

/-- R293: a disarm that begins the switch out of its plan. -/
theorem planDisarm_starts (ha : Admitted s h (hostCmd 0x0502 p [])) (hp : armArgs p) (hop : at1 p 1 = 1)
    (hcode : (slotAt s (at1 p 0)).code = .armed) (hst : steered s (at1 p 0) = false)
    (hsw : (slotAt s (at1 p 0)).switching = none) :
    ∃ s', exec (.planDisarm h p) s = .next s' ∧ Answers s s' h (hostCmd 0x0502 p []) 0 [] ∧
      s'.fab = (startSwitch (at1 p 0) (.leave 0) (begun h (hostCmd 0x0502 p []) s)).fab := by
  refine planArm_changes ha ((planArm_disarms h hp hop).trans (disarmPlan_starts ?_ ?_ ?_)) (startSwitch_host ..)
  · rwa [slotAt_begun]
  · rwa [steered_begun]
  · rwa [slotAt_begun]

/-- R293: a disarm of a slot that is not ARMED, or whose plan a collective steers, changes nothing. -/
theorem planDisarm_refuses (ha : Admitted s h (hostCmd 0x0502 p [])) (hp : armArgs p) (hop : at1 p 1 = 1) :
    ((slotAt s (at1 p 0)).code ≠ .armed → Completes (exec (.planDisarm h p) s) s s h (hostCmd 0x0502 p []) 0 []) ∧
    ((slotAt s (at1 p 0)).code = .armed → steered s (at1 p 0) = true →
      Completes (exec (.planDisarm h p) s) s s h (hostCmd 0x0502 p []) 1 []) := by
  refine ⟨fun hcode => ?_, fun hcode hst => ?_⟩
  · exact planArm_completes ha ((planArm_disarms h hp hop).trans (disarmPlan_unarmed (by rwa [slotAt_begun])))
  · exact planArm_completes ha ((planArm_disarms h hp hop).trans
      (disarmPlan_steered (by rwa [slotAt_begun]) (by rwa [steered_begun])))

/-- R309: a disarm of a plan in a switch waits for the end of the switch. -/
theorem planDisarm_waits (ha : Admitted s h (hostCmd 0x0502 p [])) (hp : armArgs p)
    (hop : at1 p 1 = 1) (hcode : (slotAt s (at1 p 0)).code = .armed) (hst : steered s (at1 p 0) = false)
    (hsw : (slotAt s (at1 p 0)).switching ≠ none) :
    Completes (exec (.planDisarm h p) s) s (updSlot (at1 p 0) (fun x => { x with disarmDue := true }) s) h
      (hostCmd 0x0502 p []) 0 [] := by
  have hdue := (planArm_disarms (c := hostCmd 0x0502 p []) h hp hop).trans
    (disarmPlan_switching (s := begun h (hostCmd 0x0502 p []) s) (by rwa [slotAt_begun]) (by rwa [steered_begun])
      (by rwa [slotAt_begun]))
  have hbusy : (slotAt (updSlot (at1 p 0) (fun x => { x with disarmDue := true })
      (begun h (hostCmd 0x0502 p []) s)) (at1 p 0)).switching.isSome = true := by
    rw [slotAt_updSlot_kept (p := PlanSlot.switching) (g := fun x => { x with disarmDue := true }) (fun _ => rfl),
      slotAt_begun]
    exact Option.isSome_iff_ne_none.2 hsw
  refine ha.completes_fab (fun x => { x with
    slots := x.slots.set (at1 p 0) { x.slots.getD (at1 p 0) {} with disarmDue := true } }) rfl ?_
  show planArmCmd h _ _ = _
  rw [planArmCmd, hdue, afterSwitch_switching hbusy]
  rfl

/-- R293, R309: a disarm of a plan of which nothing is left to release. -/
theorem planDisarm_leaves (hfab : FabThere s) (ha : Admitted s h (hostCmd 0x0502 p [])) (hp : armArgs p)
    (hop : at1 p 1 = 1) (hcode : (slotAt s (at1 p 0)).code = .armed) (hst : steered s (at1 p 0) = false)
    (hsw : (slotAt s (at1 p 0)).switching = none) (hun : unreleased s (at1 p 0) = ([], []))
    (hclosed : (slotAt s (at1 p 0)).sets.all (·.closed) = true) :
    ∃ s', exec (.planDisarm h p) s = .next s' ∧ Answers s s' h (hostCmd 0x0502 p []) 0 [] ∧
      (slotAt s' (at1 p 0)).code = .loaded ∧ (slotAt s' (at1 p 0)).plan = (slotAt s (at1 p 0)).plan ∧
      (slotAt s' (at1 p 0)).sets = [] ∧ s'.fab.lanes = s.fab.lanes := by
  obtain ⟨s', hexec, hans, hs'fab⟩ := planDisarm_starts ha hp hop hcode hst hsw
  have hleft := startSwitch_leaves (s := begun h (hostCmd 0x0502 p []) s) (reason := 0)
    (begun_fab.symm ▸ hfab.slot_lt hp.1) (by rwa [unreleased_begun]) (by rwa [slotAt_begun])
  rw [slotAt_begun, begun_fab] at hleft
  refine ⟨s', hexec, hans, ?_⟩
  rw [slotAt_congr hs'fab, hs'fab]
  exact hleft

/-- R293, R309: a disarm of a plan that a held lane keeps in its switch. -/
theorem planDisarm_held {i : Nat} (hfab : FabThere s) (ha : Admitted s h (hostCmd 0x0502 p [])) (hp : armArgs p)
    (hop : at1 p 1 = 1) (hcode : (slotAt s (at1 p 0)).code = .armed) (hst : steered s (at1 p 0) = false)
    (hsw : (slotAt s (at1 p 0)).switching = none) (hheld : LaneHeld s (at1 p 0) i) :
    ∃ s', exec (.planDisarm h p) s = .next s' ∧ Answers s s' h (hostCmd 0x0502 p []) 0 [] ∧
      (slotAt s' (at1 p 0)).switching = some (.leave 0) ∧ (slotAt s' (at1 p 0)).code = .armed ∧
      (slotAt s' (at1 p 0)).phase = (slotAt s (at1 p 0)).phase ∧
      (slotAt s' (at1 p 0)).sets.map setKept = (slotAt s (at1 p 0)).sets.map setKept := by
  obtain ⟨s', hexec, hans, hs'fab⟩ := planDisarm_starts ha hp hop hcode hst hsw
  have hheld' : LaneHeld (begun h (hostCmd 0x0502 p []) s) (at1 p 0) i :=
    hheld.stands ⟨begun_fab, begun_mem, begun_time⟩
  have hlen : at1 p 0 < (begun h (hostCmd 0x0502 p []) s).fab.slots.length := begun_fab.symm ▸ hfab.slot_lt hp.1
  obtain ⟨hgoal, hphase, hsets⟩ := startSwitch_held (goal := .leave 0) hlen hheld'
  have hcode' := hheld'.startSwitch_code (goal := .leave 0) hlen
  rw [slotAt_begun] at hphase hsets hcode'
  refine ⟨s', hexec, hans, ?_⟩
  rw [slotAt_congr hs'fab]
  exact ⟨hgoal, hcode'.trans hcode, hphase, hsets⟩

end PlanArms

section Windows

variable {s : State} {h : Header} {c : HostCmd} {p : List Byte}

/-! #### DARK_WINDOW -/

/-- R305: the operands of DARK_WINDOW are in range, but for its duration. -/
structure WindowArgs (s : State) (p : List Byte) : Prop where
  planes : ∀ k < 32, bitOf (leAt p 0 4) k = true → isSpine s k = true
  reserved : zeros p 4 4 = true
  reserved' : zeros p 14 2 = true
  soon : nowNs s + 100000 ≤ leAt p 8 8 * 1000000000 + leAt p 16 4
  late : leAt p 8 8 * 1000000000 + leAt p 16 4 ≤ nowNs s + 10000000000

theorem WindowArgs.begun (hp : WindowArgs s p) (ha : Admitted s h c) : WindowArgs (begun h c s) p :=
  ⟨by rw [ha.begun_stands.isSpine]; exact hp.planes, hp.reserved, hp.reserved', by rw [nowNs_begun]; exact hp.soon,
    by rw [nowNs_begun]; exact hp.late⟩

/-- R305: the fabric with a window kept for each masked plane. -/
def windowsKept (p : List Byte) (x : Fab) : Fab :=
  { x with windows := x.windows ++ ((List.range 32).filter (bitOf (leAt p 0 4))).map fun k =>
      { plane := k, start := leAt p 8 8 * 1000000000 + leAt p 16 4
        finish := leAt p 8 8 * 1000000000 + leAt p 16 4 + leAt p 20 4 } }

/-- R305: the fabric with the windows of the masked planes cancelled. -/
def windowsCancelled (p : List Byte) (x : Fab) : Fab :=
  { x with windows := x.windows.filter fun w => !bitOf (leAt p 0 4) w.plane }

/-- R305: what DARK_WINDOW comes to, by its duration. -/
theorem darkWindow_eq (h : Header) (hp : WindowArgs s c.payload) : darkWindow h c s =
    if leAt c.payload 20 4 ≠ 0 ∧ (leAt c.payload 20 4 < 1000000 ∨ 100000000 < leAt c.payload 20 4) then status 5 s
    else if leAt c.payload 20 4 = 0 then
      if (s.fab.windows.filter (fun w => bitOf (leAt c.payload 0 4) w.plane)).any (·.isOpen) then status 3 s
      else status 0 { s with fab := windowsCancelled c.payload s.fab }
    else if s.fab.windows.filter (fun w => bitOf (leAt c.payload 0 4) w.plane) ≠ [] then status 1 s
    else status 0 { s with fab := windowsKept c.payload s.fab } := by
  have hspine : ((List.range 32).filter (bitOf (leAt c.payload 0 4))).any (fun k => !isSpine s k) = false := by
    simpa using hp.planes
  simp only [darkWindow, hspine, hp.reserved, hp.reserved', Nat.not_lt.2 hp.soon, Nat.not_lt.2 hp.late, Bool.not_true,
    Bool.false_eq_true, false_or, windowsCancelled, windowsKept]

/-- R305: DARK_WINDOW with a duration out of range. -/
theorem darkWindow_badDuration (ha : Admitted s h (hostCmd 0x0503 p [])) (hp : WindowArgs s p) (hdur : leAt p 20 4 ≠ 0)
    (hbad : leAt p 20 4 < 1000000 ∨ 100000000 < leAt p 20 4) :
    Completes (exec (.darkWindow h p) s) s s h (hostCmd 0x0503 p []) 5 [] :=
  ha.completes_unchanged rfl ((darkWindow_eq h (hp.begun ha)).trans (if_pos ⟨hdur, hbad⟩))

/-- R305: DARK_WINDOW keeps a window for each masked plane, where none of them has one. -/
theorem darkWindow_keeps (ha : Admitted s h (hostCmd 0x0503 p [])) (hp : WindowArgs s p)
    (hlong : 1000000 ≤ leAt p 20 4) (hshort : leAt p 20 4 ≤ 100000000) :
    ((∃ w ∈ s.fab.windows, bitOf (leAt p 0 4) w.plane = true) →
      Completes (exec (.darkWindow h p) s) s s h (hostCmd 0x0503 p []) 1 []) ∧
    ((∀ w ∈ s.fab.windows, bitOf (leAt p 0 4) w.plane = false) →
      Completes (exec (.darkWindow h p) s) s { s with fab := windowsKept p s.fab } h (hostCmd 0x0503 p []) 0 []) := by
  have hrun := darkWindow_eq (c := hostCmd 0x0503 p []) h (hp.begun ha)
  dsimp only [hostCmd] at hrun
  rw [if_neg (by omega), if_neg (by omega)] at hrun
  refine ⟨fun hkept => ?_, fun hnone => ?_⟩
  · rw [if_pos (by simpa [List.filter_eq_nil_iff] using hkept)] at hrun
    exact ha.completes_unchanged rfl hrun
  · rw [if_neg (by simpa [List.filter_eq_nil_iff] using hnone)] at hrun
    exact ha.completes_fab (windowsKept p) rfl hrun

/-- R305: DARK_WINDOW with DURATION_NS 0 cancels the windows of the masked planes, where none of them is open. -/
theorem darkWindow_cancels (ha : Admitted s h (hostCmd 0x0503 p [])) (hp : WindowArgs s p) (hdur : leAt p 20 4 = 0) :
    ((∃ w ∈ s.fab.windows, bitOf (leAt p 0 4) w.plane = true ∧ w.isOpen = true) →
      Completes (exec (.darkWindowCancel h p) s) s s h (hostCmd 0x0503 p []) 3 []) ∧
    ((∀ w ∈ s.fab.windows, bitOf (leAt p 0 4) w.plane = true → w.isOpen = false) →
      Completes (exec (.darkWindowCancel h p) s) s { s with fab := windowsCancelled p s.fab } h
        (hostCmd 0x0503 p []) 0 []) := by
  have hrun := darkWindow_eq (c := hostCmd 0x0503 p []) h (hp.begun ha)
  dsimp only [hostCmd] at hrun
  rw [if_neg (by omega), if_pos hdur] at hrun
  refine ⟨fun hopen => ?_, fun hpending => ?_⟩
  · rw [if_pos (by simpa [and_assoc] using hopen)] at hrun
    exact ha.completes_unchanged rfl hrun
  · rw [if_neg (by simpa using hpending)] at hrun
    exact ha.completes_fab (windowsCancelled p) rfl hrun

end Windows

section Discoveries

variable {s : State} {h : Header} {c : HostCmd} {p : List Byte}

/-! #### FABRIC_DISCOVER -/

/-- R446: a background command that waits runs on. -/
theorem Admitted.runsOn {i : CmdInfo} {u : State} (ha : Admitted s h c) (hi : cmdInfo c.opcode = some i)
    (hbackground : i.background = true) (hr : i.run h c (begun h c s) = (u, .wait)) (hu : u.host = (begun h c s).host) :
    hostReceive h c s = u ∧ RunsOn s u h c ∧ u.host.out = s.host.out := by
  obtain ⟨⟨-, -, -, -, -, -, hseq, -⟩, -⟩ := id ha
  have hrun := (hostReceive_admitted ha hi).trans (congrArg (fun r : State × Answer => match r.2 with
    | .reply st p => finishCmd (refOf h) st p r.1
    | .wait => r.1) hr)
  refine ⟨hrun, ⟨?_, ?_, ?_, ?_⟩, ?_⟩
  · rw [hu, begun_host, hi]
    simp [hbackground]
  · rw [hu, begun_host]
    rfl
  · rw [hu, begun_host, hseq]
  · rw [hu, begun_host]
    rfl
  · rw [hu, begun_host]
    rfl

theorem leVal_lt (bs : List Byte) : leVal bs < 256 ^ bs.length := by
  induction bs with
  | nil => simp [leVal]
  | cons b bs ih =>
    have hb := b.isLt
    rw [leVal, List.length_cons, pow_succ]
    omega

theorem leAt_lt (bs : List Byte) (off n : Nat) : leAt bs off n < 256 ^ n :=
  (leVal_lt _).trans_le (Nat.pow_le_pow_right (by decide) (List.length_take_le ..))

/-- The address of a plane's FAB_PLANE_CFG names the plane. -/
theorem planeCfg_addr (k : Nat) : regAddr rFabPlaneCfg (k % 8) [k / 8] = 0x100000 + k % 8 * 0x10000 + 4 * (k / 8) := by
  simp [regAddr, rowOffset, rFabPlaneCfg, blockBase]

/-- R273: the write of the spine role of a plane. -/
def roleWritten (entry : Nat → Nat) (k : Nat) (s : State) : State := regPut s rFabPlaneCfg (k % 8) [k / 8] (entry k)

theorem roleWritten_eq (entry : Nat → Nat) (ks : List Nat) (s : State) :
    forEach ks (roleWritten entry) s = { s with regs := (forEach ks (roleWritten entry) s).regs } := by
  refine forEach_inv (fun x => x = { s with regs := x.regs }) _ (fun k x hx => ?_) ks s rfl
  rw [roleWritten, regPut_eq, hx]

/-- R273: the spine roles of the planes after they have been written. -/
theorem planeCfg_rolesWritten {entry : Nat → Nat} {k : Nat} (hentry : entry k < 2 ^ 64) (hk : k < 32) (ks : List Nat)
    (hks : ∀ j ∈ ks, j < 32) (s : State) :
    regGet (forEach ks (roleWritten entry) s) rFabPlaneCfg (k % 8) [k / 8] =
      if k ∈ ks then entry k else regGet s rFabPlaneCfg (k % 8) [k / 8] := by
  induction ks generalizing s with
  | nil => simp
  | cons j ks ih =>
    have hj : j < 32 := hks j List.mem_cons_self
    rw [forEach_cons, ih fun i hi => hks i (List.mem_cons_of_mem j hi)]
    by_cases hjk : k = j
    · subst hjk
      have hself : regGet (roleWritten entry k s) rFabPlaneCfg (k % 8) [k / 8] = entry k :=
        (congrArg BitVec.toNat (Cells.get_set_self ..)).trans ((BitVec.toNat_ofNat ..).trans (Nat.mod_eq_of_lt hentry))
      simp [hself]
    · have haddr : regAddr rFabPlaneCfg (k % 8) [k / 8] ≠ regAddr rFabPlaneCfg (j % 8) [j / 8] := by
        rw [planeCfg_addr, planeCfg_addr]
        omega
      have hother : regGet (roleWritten entry j s) rFabPlaneCfg (k % 8) [k / 8] =
          regGet s rFabPlaneCfg (k % 8) [k / 8] :=
        congrArg BitVec.toNat (Cells.get_set_other _ _ _ _ haddr)
      simp [hother, hjk]

/-- R273: the record of a discovery that begins. -/
def discoveryAsked (h : Header) (p : List Byte) : Disc where
  code := 1
  round := 0
  start := leAt p 0 8 * 1000000000 + leAt p 8 4
  mask := leAt p 12 4
  pods := leAt p 16 4
  tags := (List.range 32).map (fun i => leAt p (24 + 4 * i) 4)
  remote := (List.range 32).map (fun i => leAt p (280 + 4 * i) 4)
  heard := []
  cmd := ⟨h.session, h.seq⟩

/-- R273: the state in which a discovery waits for its first round. -/
def discoveryPlanned (h : Header) (p : List Byte) (s : State) : State :=
  let u := forEach ((List.range 32).filter (bitOf (leAt p 12 4))) (roleWritten fun k => leAt p (152 + 4 * k) 4) s
  { u with fab := { u.fab with disc := discoveryAsked h p } }

theorem discoveryPlanned_eq (h : Header) (p : List Byte) (s : State) : discoveryPlanned h p s =
    { s with regs := (discoveryPlanned h p s).regs, fab := { s.fab with disc := discoveryAsked h p } } := by
  unfold discoveryPlanned
  dsimp only
  rw [roleWritten_eq]

theorem fabricDiscover_busy (h : Header)
    (hbusy : armedMask s &&& leAt c.payload 12 4 ≠ 0 ∨ s.fab.disc.code = 1 ∨ s.fab.disc.code = 2) :
    fabricDiscover h c s = (s, .reply 1 []) := if_pos hbusy

theorem fabricDiscover_badStart (h : Header) (harmed : armedMask s &&& leAt c.payload 12 4 = 0)
    (hidle : s.fab.disc.code = 0 ∨ s.fab.disc.code = 3)
    (hstart : leAt c.payload 0 8 * 1000000000 + leAt c.payload 8 4 < nowNs s + 1000000 ∨
      nowNs s + 10000000000 < leAt c.payload 0 8 * 1000000000 + leAt c.payload 8 4) :
    fabricDiscover h c s = (s, .reply 5 []) := by
  refine (if_neg (by omega)).trans (if_pos ?_)
  exact hstart.elim .inl fun hlate => .inr (.inl hlate)

/-- R273: the operands of FABRIC_DISCOVER are in range. -/
structure DiscoverArgs (s : State) (p : List Byte) : Prop where
  soon : nowNs s + 1000000 ≤ leAt p 0 8 * 1000000000 + leAt p 8 4
  late : leAt p 0 8 * 1000000000 + leAt p 8 4 ≤ nowNs s + 10000000000
  reserved : leAt p 6 2 = 0
  ns : leAt p 8 4 < 1000000000
  reserved' : leAt p 20 4 = 0
  roles : ∀ k < 32, bits (leAt p (152 + 4 * k) 4) 30 27 = 0 ∧ bits (leAt p (152 + 4 * k) 4) 15 11 = 0 ∧
    (bitOf (leAt p 12 4) k = true → bitOf (leAt p (152 + 4 * k) 4) 31 = true →
      leAt p (152 + 4 * k) 4 % 2048 = bits (leAt p (152 + 4 * k) 4) 26 16)

theorem fabricDiscover_begins (h : Header) (harmed : armedMask s &&& leAt c.payload 12 4 = 0)
    (hidle : s.fab.disc.code = 0 ∨ s.fab.disc.code = 3) (hp : DiscoverArgs s c.payload) :
    fabricDiscover h c s = (discoveryPlanned h c.payload s, .wait) := by
  have hroles : (List.range 32).any (fun k => decide (bits (leAt c.payload (152 + 4 * k) 4) 30 27 ≠ 0 ∨
      bits (leAt c.payload (152 + 4 * k) 4) 15 11 ≠ 0)) = false := by
    simp only [List.any_eq_false, List.mem_range, decide_eq_true_eq, not_or, not_not]
    intro k hk
    obtain ⟨hhigh, hlow, -⟩ := hp.roles k hk
    exact ⟨hhigh, hlow⟩
  have hpods : ((List.range 32).filter (bitOf (leAt c.payload 12 4))).any (fun k =>
      bitOf (leAt c.payload (152 + 4 * k) 4) 31 &&
        decide (leAt c.payload (152 + 4 * k) 4 % 2048 ≠ bits (leAt c.payload (152 + 4 * k) 4) 26 16)) = false := by
    simp only [List.any_eq_false, List.mem_filter, List.mem_range, Bool.and_eq_true, decide_eq_true_eq, not_and,
      not_not]
    rintro k ⟨hk, hmasked⟩
    obtain ⟨-, -, hsame⟩ := hp.roles k hk
    exact hsame hmasked
  obtain ⟨hsoon, hlate, hreserved, hns, hreserved', -⟩ := hp
  unfold fabricDiscover
  dsimp only
  rw [hroles, hpods, if_neg (by omega), if_neg (by simp only [Bool.false_eq_true, or_false]; omega)]
  rfl

/-- R273: FABRIC_DISCOVER writes the spine roles, and waits for its rounds. -/
theorem fabricDiscover_runs (ha : Admitted s h (hostCmd 0x0504 p [])) (harmed : armedMask s &&& leAt p 12 4 = 0)
    (hidle : s.fab.disc.code = 0 ∨ s.fab.disc.code = 3) (hp : DiscoverArgs s p) :
    ∃ s', exec (.fabricDiscover h p) s = .next s' ∧ RunsOn s s' h (hostCmd 0x0504 p []) ∧ s'.host.out = s.host.out ∧
      s'.fab = { s.fab with disc := discoveryAsked h p } ∧ s'.mem = s.mem ∧
      ∀ k < 32, regGet s' rFabPlaneCfg (k % 8) [k / 8] =
        if bitOf (leAt p 12 4) k then leAt p (152 + 4 * k) 4 else regGet s rFabPlaneCfg (k % 8) [k / 8] := by
  obtain ⟨b, hb⟩ : ∃ b, b = begun h (hostCmd 0x0504 p []) s := ⟨_, rfl⟩
  have hbfab : b.fab = s.fab := hb ▸ begun_fab
  have hargs : DiscoverArgs b p := by
    refine ⟨?_, ?_, hp.reserved, hp.ns, hp.reserved', hp.roles⟩
    · rw [hb, nowNs_begun]
      exact hp.soon
    · rw [hb, nowNs_begun]
      exact hp.late
  have hrun := fabricDiscover_begins (c := hostCmd 0x0504 p []) h (by rwa [armedMask_congr hbfab]) (by rwa [hbfab])
    hargs
  have heq := discoveryPlanned_eq h p b
  obtain ⟨hexec, hruns, hout⟩ := ha.runsOn rfl rfl (hb ▸ hrun) (by rw [← hb, heq, hb])
  refine ⟨_, congrArg Host.Outcome.next hexec, hruns, hout, ?_, ?_, fun k hk => ?_⟩
  · rw [← hb, heq, hbfab]
  · rw [← hb, heq, hb, begun_mem]
  · have hroles := planeCfg_rolesWritten (entry := fun k => leAt p (152 + 4 * k) 4) (k := k)
      ((leAt_lt ..).trans_le (by decide)) hk ((List.range 32).filter (bitOf (leAt p 12 4)))
      (fun j hj => List.mem_range.1 (List.mem_filter.1 hj).1) b
    rw [hb, ha.begun_stands.regGet (by decide)] at hroles
    exact hroles.trans (by simp [hk])

end Discoveries

/-- Settles O46: each command comes to its checks, and where they pass to one operation on the fabric. -/
theorem plansWindowsAndDiscovery : Obligations.PlansWindowsAndDiscovery := by
  refine ⟨fun s s1 h p bs hfab ha => ⟨fun hbad => ?loadBadArgs, fun hslot hzero halign hend => ?load⟩, ?arm, ?windows⟩
  case loadBadArgs =>
    exact ha.completes_unchanged rfl (planLoad_badArgs (c := hostCmd 0x0501 p []) h (not_planArgs.2 hbad))
  case load =>
    have hp : planArgs p := ⟨hslot, hzero, halign, hend⟩
    refine ⟨fun harmed => ?_, fun hfree hread => planLoad_answers hfab ha hp hfree hread⟩
    exact ha.completes_unchanged rfl (planLoad_armed (c := hostCmd 0x0501 p []) h hp (by rwa [slotAt_begun]))
  case arm =>
    rintro s h p n hfab ha rfl
    refine ⟨fun hbad => ?badArgs, fun hn hzero hzero' hns hzero'' => ⟨fun hop => ?arms, fun hop => ?disarms⟩⟩
    case badArgs => exact planArm_completes ha (planArm_badArgs h (not_armArgs.2 hbad))
    case arms =>
      have hp : armArgs p := ⟨hn, by omega, hzero, hzero', hns, hzero''⟩
      refine ⟨fun hcode => planArm_completes ha (planArm_armed h hp hop (by rwa [slotAt_begun])),
        fun hcode => planArm_completes ha (planArm_empty h hp hop (by rwa [slotAt_begun])),
        fun pl hcode hplan => ⟨fun e he => ?_, fun hok hne => ?_⟩⟩
      · exact planArm_completes ha ((planArm_loaded h hp hop (by rwa [slotAt_begun]) (by rwa [slotAt_begun])).1 e
          (by rwa [ha.begun_stands.armFault begun_fab]))
      · obtain ⟨s', hexec, hans, hentry, hcodes, helems⟩ := planArm_answers hfab ha hp hop hcode hplan hok hne
        simp only [planEntry, Prod.mk.injEq] at hentry
        obtain ⟨hcode', hplan', hphase, hloops, ht0, hbias⟩ := hentry
        exact ⟨s', hexec, hans, hcode', hplan', hphase, hloops, ht0, hbias, hcodes, helems⟩
    case disarms =>
      have hp : armArgs p := ⟨hn, by omega, hzero, hzero', hns, hzero''⟩
      obtain ⟨hunarmed, hsteered⟩ := planDisarm_refuses ha hp hop
      refine ⟨hunarmed, hsteered, fun hcode hst hsw => planDisarm_waits ha hp hop hcode hst hsw,
        fun hcode hst hsw hun hclosed => planDisarm_leaves hfab ha hp hop hcode hst hsw hun hclosed, ?_⟩
      rintro hcode hst hsw ⟨i, hi, hset, hsums, hspine, hdark⟩
      obtain ⟨helem, hlane⟩ := List.mem_filter.1 hi
      obtain ⟨hslot, hrel⟩ := of_decide_eq_true hlane
      exact planDisarm_held hfab ha hp hop hcode hst hsw
        ⟨helem, hslot, Bool.eq_false_iff.2 hrel, hset, hsums, hspine, hdark⟩
  case windows =>
    intro s h p mask start
    refine ⟨fun ha => ?window, fun ha => ?discover⟩
    case window =>
      rintro rfl rfl hzero hzero' hspine hsoon hlate
      have hp : WindowArgs s p := ⟨hspine, hzero, hzero', hsoon, hlate⟩
      exact ⟨darkWindow_badDuration ha hp, fun hlong hshort => (darkWindow_keeps ha hp hlong hshort).1,
        fun hlong hshort => (darkWindow_keeps ha hp hlong hshort).2, fun hdur => (darkWindow_cancels ha hp hdur).1,
        fun hdur => (darkWindow_cancels ha hp hdur).2⟩
    case discover =>
      rintro rfl rfl
      refine ⟨fun hbusy => ?_, fun harmed hidle => ⟨fun hstart => ?_, fun hsoon hlate hzero hns hzero' hroles => ?_⟩⟩
      · exact ha.completes_unchanged rfl (fabricDiscover_busy h (by rwa [armedMask_begun, begun_fab]))
      · exact ha.completes_unchanged rfl (fabricDiscover_badStart h (by rwa [armedMask_begun]) (by rwa [begun_fab])
          (by rwa [nowNs_begun]))
      · obtain ⟨s', hexec, hruns, hout, hfab, hmem, hcfg⟩ :=
          fabricDiscover_runs ha harmed hidle ⟨hsoon, hlate, hzero, hns, hzero', hroles⟩
        exact ⟨s', hexec, hruns, hout, by rw [hfab]; rfl, by rw [hfab], hmem, hcfg⟩

end Sys2Proof.Machine

/-! ### O32, O33: collective instances, their bursts and their segments (chapter 10) -/

namespace Sys2Proof.Machine

section EngineMemory

variable {s s1 t : State} {a bank c fmt g i k key n off row source u w : Nat} {bs payload : List Byte}

/-! #### What the engine's reads and writes of memory leave -/

/-- The collective engine, the fabric, the sync objects and the descriptors of the job are the same. -/
structure EngineStands (s t : State) : Prop where
  coll : t.coll = s.coll
  fab : t.fab = s.fab
  sync : t.sync = s.sync
  colls : t.job.colls = s.job.colls

theorem EngineStands.refl (s : State) : EngineStands s s := ⟨rfl, rfl, rfl, rfl⟩

theorem EngineStands.trans (h : EngineStands s s1) (h' : EngineStands s1 t) : EngineStands s t :=
  ⟨h'.coll.trans h.coll, h'.fab.trans h.fab, h'.sync.trans h.sync, h'.colls.trans h.colls⟩

section Updates

variable {pending : List Instr} {fresh : Nat} {regs : Cells W64} {rwo : List Nat} {peat : Peat} {tiles : List Tile}
  {loaded launched stopDue : Bool} {mem : Mem} {wse : Wse} {red : Red} {pups : Pups} {host : HostIf} {time : TimeB}
  {pwr : Pwr} {light : List Chiplet} {mar : List MarEngine} {cal : Cal} {fw : Fw} {rst : Rst}

/-- An update of any other part of the state. -/
protected theorem EngineStands.frame (hs : EngineStands s t) :
    EngineStands s ⟨pending, fresh, regs, rwo, peat, tiles, t.job, mem, wse, t.sync, t.fab, t.coll, red, pups, host,
      time, pwr, light, mar, cal, fw, rst⟩ :=
  ⟨hs.coll, hs.fab, hs.sync, hs.colls⟩

end Updates

protected theorem EngineStands.ite {p : Prop} [Decidable p] {t' : State} (h : EngineStands s t)
    (h' : EngineStands s t') : EngineStands s (if p then t else t') := by
  split
  · exact h
  · exact h'

protected theorem EngineStands.when {p : Prop} [Decidable p] {t' : State} (h : EngineStands s t)
    (hf : EngineStands s t → EngineStands s t') : EngineStands s (if p then t' else t) :=
  .ite (hf h) h

protected theorem EngineStands.forEach {α : Type} {xs : List α} {f : α → State → State} (hs : EngineStands s t)
    (hf : ∀ {x t}, EngineStands s t → EngineStands s (f x t)) : EngineStands s (forEach xs f t) :=
  forEach_inv (EngineStands s) f (fun _ _ => hf) xs t hs

protected theorem EngineStands.foldlFst {α β : Type} {xs : List β} {f : State × α → β → State × α} {p : State × α}
    (hp : EngineStands s p.1) (hf : ∀ {p x}, EngineStands s p.1 → EngineStands s (f p x).1) :
    EngineStands s (xs.foldl f p).1 :=
  List.foldlRecOn (motive := fun p => EngineStands s p.1) xs f hp fun _ hp _ _ => hf hp

protected theorem EngineStands.emit (hs : EngineStands s t) : EngineStands s (emit c source payload t) :=
  hs.trans ⟨emit_coll .., emit_fab .., emit_sync .., by rw [emit_job]⟩

/-- Reads of LPDDR5X (`Staged`). -/
protected theorem EngineStands.staged (hs : EngineStands s t) (h : Staged t s1) : EngineStands s s1 := by
  unfold Staged at h
  rw [h]
  exact hs.frame

protected theorem EngineStands.ddrRead (hs : EngineStands s t) : EngineStands s (ddrRead a n t).1 :=
  hs.staged (Staged.refl t).readGrans

protected theorem EngineStands.ddrWrite (hs : EngineStands s t) : EngineStands s (ddrWrite a bs t).1 := by
  unfold Machine.ddrWrite
  dsimp only
  split
  · exact hs.frame
  · exact hs.forEach (·.frame)

/-! ##### Tiles that errors retire (R100, R184) -/

protected theorem EngineStands.unloadFor (hs : EngineStands s t) : EngineStands s (unloadFor u t) :=
  hs.when fun h => ⟨h.coll, h.fab, h.sync, h.colls⟩

protected theorem EngineStands.dropSlice (hs : EngineStands s t) : EngineStands s (dropSlice u t) :=
  .ite hs hs.frame

protected theorem EngineStands.awaitSlice (hs : EngineStands s t) : EngineStands s (awaitSlice u k t) :=
  .ite hs hs.frame

protected theorem EngineStands.retireTile (hs : EngineStands s t) : EngineStands s (retireTile u t) := by
  unfold Machine.retireTile
  dsimp only
  split
  · exact hs.unloadFor.frame.dropSlice.emit
  · split
    · exact hs.unloadFor.frame.awaitSlice.dropSlice.frame.emit
    · exact hs.unloadFor.frame.awaitSlice.dropSlice.emit.emit

protected theorem EngineStands.retireWhenFree (hs : EngineStands s t) : EngineStands s (retireWhenFree u t) :=
  .ite hs (.ite hs.frame hs.retireTile)

/-! ##### Words of the SRAMs (R178 to R184) -/

protected theorem EngineStands.scratchCe (hs : EngineStands s t) : EngineStands s (scratchCe u t) :=
  hs.frame.emit.when (·.retireWhenFree)

protected theorem EngineStands.sparesOut (hs : EngineStands s t) : EngineStands s (sparesOut u t) :=
  hs.frame.emit.retireWhenFree

protected theorem EngineStands.updSlice {f : SliceRep → SliceRep} (hs : EngineStands s t) :
    EngineStands s (updSlice u f t) :=
  hs.frame

protected theorem EngineStands.countRepair (hs : EngineStands s t) : EngineStands s (countRepair t) := hs.frame

protected theorem EngineStands.copyWord (hs : EngineStands s t) : EngineStands s (copyWord u w t) := by
  unfold Machine.copyWord
  split
  · exact hs.frame.emit
  · exact hs.frame.emit
  · exact hs

protected theorem EngineStands.repairRow (hs : EngineStands s t) : EngineStands s (repairRow u bank row t) :=
  .ite hs.sparesOut (hs.forEach (·.copyWord)).updSlice.countRepair.emit

protected theorem EngineStands.wantColumn {col : Nat} (hs : EngineStands s t) :
    EngineStands s (wantColumn u bank col t) :=
  .ite hs (.ite hs.sparesOut hs.frame)

protected theorem EngineStands.sliceCe {bit : Nat} (hs : EngineStands s t) : EngineStands s (sliceCe u off bit t) :=
  EngineStands.when (hs.frame.emit.frame.when (·.wantColumn)) (·.repairRow)

protected theorem EngineStands.sliceUe (hs : EngineStands s t) : EngineStands s (sliceUe u off t) :=
  .ite hs.frame.emit hs.frame.emit.repairRow

protected theorem EngineStands.sliceCheck (hs : EngineStands s t) : EngineStands s (sliceCheck u off n t).1 := by
  refine EngineStands.foldlFst (p := (t, [])) hs ?_
  intro p w hp
  dsimp only
  split
  · exact hp
  · exact hp.frame.sliceCe
  · exact hp.sliceUe

protected theorem EngineStands.sramWrite {ce : Nat → Nat → State → State} (hs : EngineStands s t)
    (hce : ∀ {w b t}, EngineStands s t → EngineStands s (ce w b t)) : EngineStands s (sramWrite key bs ce t) := by
  refine EngineStands.frame (hs.forEach (xs := wordRange key bs.length) ?_)
  intro w t hs
  refine .ite hs.frame ?_
  split
  · exact hce hs.frame
  · exact hs.frame
  · exact hs

protected theorem EngineStands.storeBytes (hs : EngineStands s t) : EngineStands s (storeBytes u a bs t) := by
  unfold Machine.storeBytes
  split
  · exact hs
  · exact hs.when (·.sramWrite (·.scratchCe))
  · exact hs.when (·.sramWrite (·.sliceCe))
  · exact hs.ddrWrite

/-! ##### Elements (R314, R326) -/

protected theorem EngineStands.readElems (hs : EngineStands s t) : EngineStands s (readElems fmt a k n t).1 := by
  show EngineStands s (engineRead (a + elemOff fmt k) (n / 32 * blockSize fmt) t).1
  unfold engineRead
  split
  · exact hs.ddrRead
  · split
    · exact hs
    · exact hs.sliceCheck
  · exact hs

protected theorem EngineStands.engineWrite (hs : EngineStands s t) : EngineStands s (engineWrite a bs t) :=
  hs.storeBytes

protected theorem EngineStands.ownElems {x : Inst} (hs : EngineStands s t) : EngineStands s (ownElems x k t).1 :=
  hs.readElems

protected theorem EngineStands.localCopy {x : Inst} (hs : EngineStands s t) : EngineStands s (localCopy x t) := by
  unfold Machine.localCopy
  dsimp only
  split
  · exact hs.readElems.engineWrite
  · exact hs.readElems.engineWrite
  · exact hs.when (·.readElems.engineWrite)
  · exact hs

end EngineMemory

end Sys2Proof.Machine

namespace Sys2Proof.Machine

section InstancesStand

variable {s t u : State} {c ctx dest g i k n off total : Nat} {spans : List (Nat × Nat)} {data payload : List Byte}
  {x y : Inst}

/-! #### What sending, granting and dealing leave of the instances -/

/-- An instance without what the engine's own progress changes: the credit that it has granted, its slots and the
spans that it agrees and sends. -/
def instCore (x : Inst) : Inst :=
  { x with
    deg := false, peers := x.peers.map (fun p => { p with given := 0 }), slots := [], segsDone := [], spans := []
    spanTx := [] }

/-- Each context holds the same instance, with what it has taken and what was granted to it; the numbers expected of
each source, the fabric, the sync objects and the descriptors of the job are the same. -/
structure InstancesStand (s t : State) : Prop where
  insts : t.coll.insts.map instCore = s.coll.insts.map instCore
  rxSeq : t.coll.rxSeq = s.coll.rxSeq
  fab : t.fab = s.fab
  sync : t.sync = s.sync
  colls : t.job.colls = s.job.colls

theorem InstancesStand.refl (s : State) : InstancesStand s s := ⟨rfl, rfl, rfl, rfl, rfl⟩

protected theorem InstancesStand.ite {p : Prop} [Decidable p] (h : InstancesStand s t) (h' : InstancesStand s u) :
    InstancesStand s (if p then t else u) := by
  split
  · exact h
  · exact h'

protected theorem InstancesStand.when {p : Prop} [Decidable p] (h : InstancesStand s t)
    (hf : InstancesStand s t → InstancesStand s u) : InstancesStand s (if p then u else t) :=
  .ite (hf h) h

protected theorem InstancesStand.forEach {α : Type} {xs : List α} {f : α → State → State} (hs : InstancesStand s t)
    (hf : ∀ {x t}, InstancesStand s t → InstancesStand s (f x t)) : InstancesStand s (forEach xs f t) :=
  forEach_inv (InstancesStand s) f (fun _ _ => hf) xs t hs

/-- R314: memory is reached. -/
protected theorem InstancesStand.memory (hs : InstancesStand s t) (h : EngineStands t u) : InstancesStand s u :=
  ⟨by rw [h.coll, hs.insts], by rw [h.coll, hs.rxSeq], h.fab.trans hs.fab, h.sync.trans hs.sync, h.colls.trans hs.colls⟩

protected theorem InstancesStand.emit (hs : InstancesStand s t) : InstancesStand s (emit c n payload t) :=
  hs.memory (EngineStands.refl t).emit

protected theorem InstancesStand.regPut {r : RegRow} {ix : List Nat} (hs : InstancesStand s t) :
    InstancesStand s (regPut t r i ix n) :=
  ⟨hs.insts, hs.rxSeq, hs.fab, hs.sync, hs.colls⟩

/-- A change of the engine that leaves its instances and the numbers expected. -/
protected theorem InstancesStand.updColl {f : Coll → Coll} (hs : InstancesStand s t)
    (hi : ∀ c : Coll, (f c).insts.map instCore = c.insts.map instCore := by intro; rfl)
    (hr : ∀ c : Coll, (f c).rxSeq = c.rxSeq := by intro; rfl) : InstancesStand s (updColl f t) :=
  ⟨(hi _).trans hs.insts, (hr _).trans hs.rxSeq, hs.fab, hs.sync, hs.colls⟩

theorem map_instCore_of {f : Inst → Inst} {xs : List Inst} (hf : ∀ x ∈ xs, instCore (f x) = instCore x) :
    (xs.map f).map instCore = xs.map instCore := by
  rw [List.map_map]
  exact List.map_congr_left hf

protected theorem InstancesStand.updInst {f : Inst → Inst} (hs : InstancesStand s t)
    (hf : ∀ x, instCore (f x) = instCore x := by intro; rfl) : InstancesStand s (updInst ctx f t) := by
  refine hs.updColl fun c => map_instCore_of fun x _ => ?_
  split
  · exact hf x
  · rfl

/-! ##### Slots and credit (R322, R326) -/

protected theorem InstancesStand.sendCtl (hs : InstancesStand s t) :
    InstancesStand s (sendCtl dest x i off total data t) :=
  hs.updColl

protected theorem InstancesStand.openSlot (hs : InstancesStand s t) : InstancesStand s (openSlot ctx k t) := by
  unfold Machine.openSlot
  split
  · exact hs
  · exact (hs.memory (EngineStands.refl t).ownElems).updInst

protected theorem InstancesStand.closeSlot (hs : InstancesStand s t) : InstancesStand s (closeSlot ctx k t) := by
  unfold Machine.closeSlot
  split
  · exact hs
  · split
    · exact hs.when fun hs => (hs.memory (EngineStands.refl t).engineWrite).updInst
    · exact hs

protected theorem InstancesStand.takeSlots (hs : InstancesStand s t) : InstancesStand s (takeSlots ctx t) := by
  unfold Machine.takeSlots
  split
  · exact hs
  · exact .ite hs (hs.forEach (·.openSlot))

/-- R322: credit that is granted to a peer is no part of what has been granted by it. -/
theorem instCore_mapPeer_given (m n : Nat) (x : Inst) :
    instCore (mapPeer m (fun p => { p with given := n }) x) = instCore x := by
  simp only [instCore, mapPeer, List.map_map]
  congr 1
  refine List.map_congr_left fun p _ => ?_
  simp only [Function.comp_apply]
  split <;> rfl

protected theorem InstancesStand.grantCredit (hs : InstancesStand s t) : InstancesStand s (grantCredit ctx t) := by
  unfold Machine.grantCredit
  split
  · exact hs
  · exact .ite hs (hs.forEach fun hs => hs.when fun hs => (hs.updInst (instCore_mapPeer_given _ _)).sendCtl)

protected theorem InstancesStand.pumpColl (hs : InstancesStand s t) : InstancesStand s (pumpColl t) :=
  hs.forEach (·.takeSlots.grantCredit)

/-! ##### Spans dealt to bursts (R331, R333) -/

protected theorem InstancesStand.scheduleBurst (hs : InstancesStand s t) :
    InstancesStand s (scheduleBurst x g spans t) :=
  hs.updColl.forEach (·.sendCtl)

protected theorem InstancesStand.dealBurst (hs : InstancesStand s t) : InstancesStand s (dealBurst ctx g spans t) := by
  unfold Machine.dealBurst
  split
  · exact hs
  · exact (hs.when (·.updColl.scheduleBurst)).scheduleBurst.updColl.updInst

protected theorem InstancesStand.dealLoop (hs : InstancesStand s t) : InstancesStand s (dealLoop ctx n t) := by
  induction n generalizing t with
  | zero => exact hs
  | succ n ih =>
    unfold Machine.dealLoop
    split
    · exact hs
    · split
      · exact hs
      · split
        · exact hs
        · exact ih hs.dealBurst

protected theorem InstancesStand.dealSpans (hs : InstancesStand s t) : InstancesStand s (dealSpans t) :=
  hs.forEach (·.dealLoop)

/-! ##### The instance in a context -/

/-- Two instances that differ by the engine's progress alone. -/
structure SameInst (x y : Inst) : Prop where
  ctx : y.ctx = x.ctx
  desc : y.desc = x.desc
  num : y.num = x.num
  begun : y.begun = x.begun
  fail : y.fail = x.fail
  segIn : y.segIn = x.segIn
  peers : y.peers.map (fun p => { p with given := 0 }) = x.peers.map (fun p => { p with given := 0 })

theorem sameInst_of_instCore (h : instCore y = instCore x) : SameInst x y :=
  have hfield {α : Type} (f : Inst → α) : f (instCore y) = f (instCore x) := congrArg f h
  ⟨hfield Inst.ctx, hfield Inst.desc, hfield Inst.num, hfield Inst.begun, hfield Inst.fail, hfield Inst.segIn,
    hfield Inst.peers⟩

/-- Instances that stand are found alike, by what the engine's progress leaves. -/
theorem InstancesStand.find? (h : InstancesStand s t) {p : Inst → Bool} (hp : ∀ x, p (instCore x) = p x) :
    (t.coll.insts.find? p).map instCore = (s.coll.insts.find? p).map instCore := by
  have hcore : ∀ xs : List Inst, (xs.find? p).map instCore = (xs.map instCore).find? p := fun xs => by
    rw [List.find?_map]
    congr 2
    exact funext fun x => (hp x).symm
  rw [hcore, hcore, h.insts]

theorem InstancesStand.find?_eq_some (h : InstancesStand s t) {p : Inst → Bool} (hp : ∀ x, p (instCore x) = p x)
    (hx : s.coll.insts.find? p = some x) : ∃ y, t.coll.insts.find? p = some y ∧ SameInst x y := by
  have hmap := h.find? hp
  rw [hx] at hmap
  obtain ⟨y, hy, hcore⟩ := Option.map_eq_some_iff.1 hmap
  exact ⟨y, hy, sameInst_of_instCore hcore⟩

theorem InstancesStand.instAt (h : InstancesStand s t) (hx : instAt s ctx = some x) :
    ∃ y, instAt t ctx = some y ∧ SameInst x y :=
  h.find?_eq_some (fun _ => rfl) hx

theorem InstancesStand.instAt_none (h : InstancesStand s t) (hx : Machine.instAt s ctx = none) :
    Machine.instAt t ctx = none := by
  have hmap := h.find? (p := fun x => decide (x.ctx = ctx)) fun _ => rfl
  change (Machine.instAt t ctx).map instCore = (Machine.instAt s ctx).map instCore at hmap
  rw [hx] at hmap
  exact Option.map_eq_none_iff.1 hmap

theorem SameInst.map_peers (h : SameInst x y) {α : Type} (f : CollPeer → α)
    (hf : ∀ p n, f { p with given := n } = f p := by intros; rfl) : y.peers.map f = x.peers.map f := by
  have hcore := congrArg (List.map f) h.peers
  simpa only [List.map_map, Function.comp_def, hf] using hcore

theorem SameInst.segGot (h : SameInst x y) : segGot y = segGot x :=
  funext fun r => funext fun k => by rw [Machine.segGot, h.segIn, Machine.segGot]

theorem SameInst.segSupplier (h : SameInst x y) : segSupplier y = segSupplier x :=
  funext fun r => funext fun k => by rw [Machine.segSupplier, h.segIn, Machine.segSupplier]

theorem find?_eq_some_of_unique {α : Type} {p : α → Bool} {l : List α} {x : α} (hx : x ∈ l) (hp : p x = true)
    (huniq : ∀ y ∈ l, p y = true → y = x) : l.find? p = some x := by
  cases hfind : l.find? p with
  | none => exact absurd hp (List.find?_eq_none.1 hfind x hx)
  | some y => rw [huniq y (List.mem_of_find?_eq_some hfind) (List.find?_some hfind)]

/-- R316: an instance is found by its context. -/
theorem instAt_of_mem (hx : x ∈ s.coll.insts) (huniq : ∀ y ∈ s.coll.insts, y.ctx = x.ctx → y = x) :
    instAt s x.ctx = some x :=
  find?_eq_some_of_unique hx (decide_eq_true rfl) fun y hy hctx => huniq y hy (of_decide_eq_true hctx)

theorem EngineStands.instAt (h : EngineStands s t) : instAt t ctx = instAt s ctx := by
  rw [Machine.instAt, h.coll, Machine.instAt]

theorem instAt_updInst {f : Inst → Inst} (hf : ∀ x, (f x).ctx = x.ctx := by intro; rfl) :
    instAt (updInst ctx f s) ctx = (instAt s ctx).map f := by
  simp only [instAt, updInst, updColl]
  rw [List.find?_map]
  have hctx : (fun x : Inst => decide (x.ctx = ctx)) ∘ (fun x => if x.ctx = ctx then f x else x) =
      fun x => decide (x.ctx = ctx) := funext fun x => by
    simp only [Function.comp_apply]
    split
    · rw [hf]
    · rfl
  rw [hctx]
  cases hfind : List.find? (fun x : Inst => decide (x.ctx = ctx)) s.coll.insts with
  | none => rfl
  | some x =>
    have hx := List.find?_some hfind
    rw [Option.map_some, Option.map_some, if_pos (of_decide_eq_true hx)]

theorem dealSpans_of_insts_nil (h : s.coll.insts = []) : dealSpans s = s := by
  rw [dealSpans, h]
  rfl

theorem pumpColl_of_insts_nil (h : s.coll.insts = []) : pumpColl s = s := by
  rw [pumpColl, h]
  rfl

end InstancesStand

end Sys2Proof.Machine

namespace Sys2Proof.Machine

section InstanceLife

variable {s : State} {i : Inst} {x : InUnit} {rest : List InUnit} {p : CollPeer} {status peer : Nat}

/-! #### An instance begins (R316, R317, R322) -/

/-- R322: the credit that came early is granted to an instance that begins. -/
theorem beginInst_begins (hi : instAt s i.ctx = some i) (hfail : i.fail = none) :
    ∃ i', instAt (beginInst i s) i.ctx = some i' ∧ i'.begun = true ∧ i'.fail = none ∧ i'.desc = i.desc ∧
      i'.num = i.num ∧ i'.peers.map (·.module) = (peersOf s i).map (·.module) := by
  unfold beginInst
  extract_lets dn mine grant ps early
  have hset : instAt (updInst i.ctx (fun i => { i with begun := true, peers := ps }) early) i.ctx =
      some { i with begun := true, peers := ps } := by
    rw [instAt_updInst]
    exact congrArg (Option.map _) hi
  obtain ⟨i', hi', hsame⟩ :=
    ((InstancesStand.refl _).memory (EngineStands.refl _).localCopy).pumpColl.instAt hset
  refine ⟨i', hi', hsame.begun, hsame.fail.trans hfail, hsame.desc, hsame.num, ?_⟩
  rw [hsame.map_peers (·.module), List.map_map]
  rfl

theorem collInstanceStart_begins (hi : instAt s i.ctx = some i) (hbegun : i.begun = false) (hfail : i.fail = none)
    (hfault : startFault s i = none) (hheld : streamHeld s i = false) :
    exec (.collInstanceStart i.ctx) s = .next (beginInst i s) := by
  show execCollInstanceStart i.ctx s = _
  simp [execCollInstanceStart, hi, hbegun, hfail, hfault, hheld]

/-! #### A unit of CREDIT arrives (R321, R322) -/

theorem takeInbox_head {f : InUnit → Bool} (hin : s.fab.inbox = x :: rest) (hf : f x = true) :
    takeInbox f s = some (x, tookIn rest s) := by
  simp [takeInbox, hin, hf, tookIn]

/-- R321: an expected number is taken. -/
def collSeqTaken (x : InUnit) (s : State) : State :=
  updColl (fun c => { c with rxSeq := Cells.set 0 c.rxSeq x.src ((x.u.opseq + 1) % 2 ^ 32) }) s

/-- R321: the first COLL unit delivered, where its checks pass. -/
theorem exec_collUnitRx (hin : s.fab.inbox = x :: rest) (hk : x.u.kind = 3) (hp : FromPeer s x)
    (hseq : seqBehind (Cells.get 0 s.coll.rxSeq x.src) x.u.opseq = false) (hready : collReady s x.u = true) :
    exec .collUnitRx s = .next (collApply x.src x.u (collSeqTaken x (tookIn rest s))) := by
  have htook : takeInbox (fun x => decide (x.u.kind = 3)) s = some (x, tookIn rest s) :=
    takeInbox_head hin (decide_eq_true hk)
  have hcheck : remoteCheck x false (tookIn rest s) = none := remoteCheck_fromPeer (s := tookIn rest s) hp
  have hnew : seqBehind (Cells.get 0 (tookIn rest s).coll.rxSeq x.src) x.u.opseq = false := hseq
  show execCollUnitRx s = _
  simp only [execCollUnitRx, htook, hready, hcheck, hnew, Bool.not_true, Bool.false_eq_true, if_false]
  rfl

/-- R321, R322: a unit of CREDIT of a peer, for an instance that runs and is the one of its descriptor. -/
structure CreditFor (s : State) (i : Inst) (x : InUnit) (p : CollPeer) : Prop where
  here : i ∈ s.coll.insts
  sole : ∀ j ∈ s.coll.insts, j.desc = i.desc → j = i
  begun : i.begun = true
  fail : i.fail = none
  desc : x.u.addr % 1024 = i.desc
  num : bits x.u.addr 31 16 = i.num
  sub : bits x.u.addr 35 32 = 1
  peer : p ∈ i.peers
  source : p.module = x.src
  only : ∀ q ∈ i.peers, q.module = x.src → q = p

/-- R172: a unit waits for the memory of the instance that it names alone. -/
theorem CreditFor.collReady (h : CreditFor s i x p) (hheld : streamHeld s i = false) : collReady s x.u = true := by
  have hfind : s.coll.insts.find?
      (fun j => decide (j.desc = x.u.addr % 1024 ∧ j.num = bits x.u.addr 31 16) && j.begun) = some i :=
    find?_eq_some_of_unique h.here (by simp [h.desc, h.num, h.begun]) fun j hj hfound =>
      h.sole j hj (by simp_all [h.desc])
  simp only [Machine.collReady, hfind, hheld, Bool.not_false]

/-- R322: what the peer has granted rises to what the unit says. -/
def creditRaised (i : Inst) (x : InUnit) (p : CollPeer) (s : State) : State :=
  updInst i.ctx (mapPeer p.module (fun q => { q with granted := max q.granted x.u.total })) (collCount 1 s)

theorem CreditFor.collApply (h : CreditFor s i x p) :
    collApply x.src x.u s = bump (pumpColl (creditRaised i x p s)) rCollSyncCount 0 [1] := by
  have hfind : (collCount 1 s).coll.insts.find?
      (fun j => decide (j.desc = x.u.addr % 1024 ∧ j.num = bits x.u.addr 31 16) && instRuns j) = some i :=
    find?_eq_some_of_unique h.here (by simp [h.desc, h.num, h.begun, instRuns, h.fail]) fun j hj hfound =>
      h.sole j hj (by simp_all [h.desc])
  have hfrom : i.peers.find? (fun q => decide (q.module = x.src)) = some p :=
    find?_eq_some_of_unique h.peer (decide_eq_true h.source) fun q hq hsrc => h.only q hq (of_decide_eq_true hsrc)
  simp only [Machine.collApply, hfind, hfrom, takeUnit, h.sub]
  rfl

theorem mem_mapPeer {m : Nat} {f : CollPeer → CollPeer} (hp : p ∈ i.peers) (hm : p.module = m) :
    f p ∈ (mapPeer m f i).peers :=
  List.mem_map.2 ⟨p, hp, if_pos hm⟩

/-- R322: the engine's progress leaves what a peer has granted. -/
theorem SameInst.granted {x y : Inst} (h : SameInst x y) (hp : p ∈ x.peers) :
    ∃ q ∈ y.peers, q.module = p.module ∧ q.granted = p.granted := by
  have hmem : (p.module, p.granted) ∈ y.peers.map (fun q => (q.module, q.granted)) := by
    rw [h.map_peers (fun q => (q.module, q.granted))]
    exact List.mem_map_of_mem hp
  obtain ⟨q, hq, heq⟩ := List.mem_map.1 hmem
  exact ⟨q, hq, congrArg Prod.fst heq, congrArg Prod.snd heq⟩

theorem collUnitRx_credits (h : CreditFor s i x p) (hctx : ∀ j ∈ s.coll.insts, j.ctx = i.ctx → j = i)
    (hin : s.fab.inbox = x :: rest) (hk : x.u.kind = 3) (hfrom : FromPeer s x)
    (hseq : seqBehind (Cells.get 0 s.coll.rxSeq x.src) x.u.opseq = false) (hheld : streamHeld s i = false) :
    ∃ s' i' q, exec .collUnitRx s = .next s' ∧ s'.fab.inbox = rest ∧
      Cells.get 0 s'.coll.rxSeq x.src = (x.u.opseq + 1) % 2 ^ 32 ∧ instAt s' i.ctx = some i' ∧
      q ∈ i'.peers ∧ q.module = x.src ∧ q.granted = max p.granted x.u.total := by
  have hexec := exec_collUnitRx hin hk hfrom hseq (h.collReady hheld)
  have htaken : CreditFor (collSeqTaken x (tookIn rest s)) i x p := { h with }
  rw [htaken.collApply] at hexec
  obtain ⟨s1, hs1⟩ : ∃ s1, s1 = creditRaised i x p (collSeqTaken x (tookIn rest s)) := ⟨_, rfl⟩
  rw [← hs1] at hexec
  have hset : instAt s1 i.ctx =
      some (mapPeer p.module (fun q => { q with granted := max q.granted x.u.total }) i) := by
    rw [hs1, creditRaised, instAt_updInst]
    exact congrArg (Option.map _) (instAt_of_mem h.here hctx)
  have hstand : InstancesStand s1 (bump (pumpColl s1) rCollSyncCount 0 [1]) := (InstancesStand.refl s1).pumpColl.regPut
  obtain ⟨i', hi', hsame⟩ := hstand.instAt hset
  obtain ⟨q, hq, hqmod, hqgrant⟩ := hsame.granted (mem_mapPeer h.peer rfl)
  refine ⟨_, i', q, hexec, ?_, ?_, hi', hq, hqmod.trans h.source, hqgrant⟩
  · rw [hstand.fab, hs1]
    rfl
  · rw [hstand.rxSeq, hs1]
    exact Cells.get_set_self ..

/-! #### An instance is complete (R319) -/

/-- R319: a completed instance has left its context. -/
def instLeft (i : Inst) (s : State) : State :=
  updColl (fun c =>
    { c with insts := c.insts.filter (fun j => j.ctx ≠ i.ctx)
             bursts := c.bursts.filter (fun b => b.desc ≠ i.desc || b.begun) }) s

theorem completeInst_eq (hdeg : bitOf (descOf s i).degObj 15 = false) :
    completeInst i s = dealSpans (pumpColl (if bitOf (descOf s i).sync 15 then
      syncAdd ((descOf s i).sync % 16384) (BitVec.ofNat 64 (descOf s i).addend) (instLeft i s) else instLeft i s)) := by
  simp only [completeInst, hdeg, Bool.false_eq_true, false_and, if_false, instLeft]

theorem collInstanceComplete_completes (hi : instAt s i.ctx = some i) (hdone : instDone s i = true)
    (hdeg : bitOf (descOf s i).degObj 15 = false) :
    ∃ s', exec (.collInstanceComplete i.ctx) s = .next s' ∧ instAt s' i.ctx = none ∧
      (bitOf (descOf s i).sync 15 = true → syncGet s' ((descOf s i).sync % 16384) =
        syncGet s ((descOf s i).sync % 16384) + BitVec.ofNat 64 (descOf s i).addend) ∧
      (bitOf (descOf s i).sync 15 = false → s'.sync = s.sync) := by
  have hexec : exec (.collInstanceComplete i.ctx) s = .next (completeInst i s) := by
    show execCollInstanceComplete i.ctx s = _
    simp only [execCollInstanceComplete, hi, hdone, if_true]
  rw [completeInst_eq hdeg] at hexec
  refine ⟨_, hexec, ?_, fun hadd => ?_, fun hadd => ?_⟩
  · refine (InstancesStand.refl _).pumpColl.dealSpans.instAt_none ?_
    have hgone : instAt (instLeft i s) i.ctx = none := List.find?_eq_none.2 fun j hj => by
      simpa using (List.mem_filter.1 hj).2
    split
    · exact hgone
    · exact hgone
  · rw [if_pos hadd, syncGet, (InstancesStand.refl _).pumpColl.dealSpans.sync]
    exact (syncGet_syncAdd ..).trans (if_pos rfl)
  · rw [if_neg (by simp [hadd]), (InstancesStand.refl _).pumpColl.dealSpans.sync]
    rfl

/-! #### An instance ends with a status other than OK (R318) -/

theorem collEnd_coll (status peer : Nat) (i : Inst) (s : State) :
    (collEnd status peer i s).coll = { s.coll with
      insts := s.coll.insts.filter (fun j => j.ctx ≠ i.ctx)
      ctl := s.coll.ctl.filter (fun u => !(decide (u.desc = i.desc ∧ u.num = i.num)))
      bursts := s.coll.bursts.filter (fun b => b.desc ≠ i.desc || b.begun)
      lastValid := true, lastDesc := i.desc, lastStatus := status, lastInst := i.num
      lastPeer := peer } := by
  unfold collEnd
  split
  · rfl
  · exact emit_coll ..

theorem collEnd_job (status peer : Nat) (i : Inst) (s : State) : (collEnd status peer i s).job = s.job :=
  collEnd_keeps (·.job) status peer i emit_job (fun _ _ => rfl) s

theorem noteEnd_running {e : JobEnd} (hrun : jobRunning s = true) (he : s.job.ending = none) :
    noteEnd e s = { s with job := { s.job with ending := some e, endTick := s.time.ticks } } := by
  unfold noteEnd endsFirst
  rw [he]
  exact if_pos ⟨hrun, rfl⟩

/-- R154: a job that stops without an instance leaves the engine as it is, and the cause of its end. -/
theorem stopJob_of_insts_nil (h : s.coll.insts = []) :
    (stopJob s).coll = s.coll ∧ (stopJob s).job.ending = s.job.ending := by
  unfold stopJob
  split
  · exact ⟨rfl, rfl⟩
  · split
    · exact ⟨rfl, rfl⟩
    · obtain ⟨-, -, hjob, -⟩ := stopNow_stops s
      refine ⟨?_, by rw [hjob]⟩
      have htiles : (forEach (List.range s.tiles.length) stopTile s).coll = s.coll :=
        forEach_keeps (·.coll) _ (stopTile_keeps (·.coll) (fun _ _ _ => rfl) fun _ _ => rfl) _ s
      unfold stopNow
      dsimp only
      rw [htiles, h]
      rfl

/-- R318: the last instance ends, and the job with it. -/
theorem failInst_last (hrun : jobRunning s = true) (he : s.job.ending = none) (hs : s.coll.insts = [i])
    (hstatus : status ≠ 7) :
    (failInst i status peer s).coll = (collEnd status peer i s).coll ∧ (failInst i status peer s).coll.insts = [] ∧
      (failInst i status peer s).job.ending = some ⟨1, 0, 0, 0⟩ := by
  obtain ⟨s1, hs1⟩ : ∃ s1, s1 = collEnd status peer i s := ⟨_, rfl⟩
  have hjob : s1.job = s.job := hs1 ▸ collEnd_job status peer i s
  have hnone : s1.coll.insts = [] := by
    rw [hs1, collEnd_insts, hs]
    simp
  have hnoted : noteEnd ⟨1, 0, 0, 0⟩ s1 =
      { s1 with job := { s1.job with ending := some ⟨1, 0, 0, 0⟩, endTick := s1.time.ticks } } :=
    noteEnd_running (by rwa [jobRunning, hjob]) (by rwa [hjob])
  obtain ⟨hcoll, hending⟩ := stopJob_of_insts_nil (s := noteEnd ⟨1, 0, 0, 0⟩ s1) (by rwa [hnoted])
  rw [hnoted] at hcoll hending
  have hend : failInst i status peer s = endJob ⟨1, 0, 0, 0⟩ s1 := by
    have hempty : (endJob ⟨1, 0, 0, 0⟩ s1).coll.insts = [] := by rwa [endJob, hnoted, hcoll]
    rw [failInst, if_neg hstatus, ← hs1, pumpColl_of_insts_nil hempty, dealSpans_of_insts_nil hempty]
  rw [hend, endJob, hnoted, hcoll, hending]
  have hsame : s1.coll = (collEnd status peer i s).coll := congrArg State.coll hs1
  exact ⟨hsame, hnone, rfl⟩

end InstanceLife

/-- Settles O32: a start, a unit of CREDIT, a completion, and the two ways to end, each by its own lemma above. -/
theorem collectiveInstances : Obligations.CollectiveInstances := by
  intro s i hi huniq
  have hat := instAt_of_mem hi huniq
  refine ⟨fun hbegun hfail hfault hheld => ?begins, fun x rest p hin hk hfrom hseq hbegun hfail hheld hdesc hnum hsub
    hone hp hmod hpeer => ?credit, collInstanceComplete_completes hat, fun status peer hrun hending honly =>
      ⟨fun hfail hstatus => ?ends, fun hbegun hfail hpolicy => ?timeout⟩⟩
  case begins =>
    obtain ⟨i', hbegins⟩ := beginInst_begins hat hfail
    exact ⟨_, i', collInstanceStart_begins hat hbegun hfail hfault hheld, hbegins⟩
  case credit =>
    exact collUnitRx_credits ⟨hi, hone, hbegun, hfail, hdesc, hnum, hsub, hp, hmod, hpeer⟩ huniq hin hk hfrom hseq hheld
  case ends =>
    obtain ⟨hcoll, hnone, hjob⟩ := failInst_last (peer := peer) hrun hending honly hstatus
    refine ⟨failInst i status peer s, ?_, hnone, ?_, ?_, ?_, ?_, hjob⟩
    · show execCollInstanceEnd i.ctx s = _
      simp only [execCollInstanceEnd, hat, hfail]
    all_goals rw [hcoll, collEnd_coll]
  case timeout =>
    obtain ⟨hcoll, hnone, hjob⟩ := failInst_last (status := 5) (peer := 0) hrun hending honly (by decide)
    refine ⟨failInst i 5 0 s, ?_, hnone, ?_, hjob⟩
    · show execCollTimeout i.ctx s = _
      simp [execCollTimeout, hat, hbegun, hfail, hpolicy]
    · rw [hcoll, collEnd_coll]

end Sys2Proof.Machine

namespace Sys2Proof.Machine

section BurstStarts

/-! #### Bursts begin (R333) -/

/-- R332: the levels to launch are read from memory. -/
theorem burstLevels_stands (x : Inst) (rank : Nat) (xs : List SpanTx) (s : State) :
    EngineStands s (burstLevels x rank xs s).1 := by
  refine EngineStands.foldlFst (p := (s, [])) (.refl s) ?_
  intro p y hp
  dsimp only
  split
  · exact hp.readElems
  · exact hp

/-- R328: light launched is no change of the bursts scheduled. -/
theorem launchBurst_bursts (ctx g start owner : Nat) (s : State) :
    (launchBurst ctx g start owner s).coll.bursts = s.coll.bursts ∧
      (launchBurst ctx g start owner s).sync = s.sync := by
  unfold launchBurst
  split
  · exact ⟨rfl, rfl⟩
  · extract_lets mine levels
    have hread : EngineStands s levels.1 := burstLevels_stands ..
    exact ⟨(congrArg Coll.bursts hread.coll :), hread.sync⟩

theorem osumBurstStart_begins (s : State) (g : Nat) : ∃ s', exec (.osumBurstStart g) s = .next s' ∧
    s'.coll.bursts = s.coll.bursts.map
      (fun b => { b with begun := b.begun || decide (b.group = g ∧ b.start ≤ nowNs s) }) ∧
    s'.sync = s.sync := by
  refine ⟨_, rfl, ?_⟩
  extract_lets now begun due jobs
  obtain ⟨hbursts, hsync⟩ := forEach_inv (fun t => t.coll.bursts = begun.coll.bursts ∧ t.sync = begun.sync)
    (fun j st => launchBurst j.1 g j.2.1 j.2.2 st) (fun j st ⟨hb, hs⟩ =>
      ⟨(launchBurst_bursts ..).1.trans hb, (launchBurst_bursts ..).2.trans hs⟩) jobs begun ⟨rfl, rfl⟩
  refine ⟨hbursts.trans (List.map_congr_left fun b _ => ?_), hsync⟩
  by_cases hdue : b.group = g ∧ b.start ≤ now
  · rw [if_pos hdue, decide_eq_true hdue, Bool.or_true]
  · rw [if_neg hdue, decide_eq_false hdue, Bool.or_false]

end BurstStarts

section FibresChecked

variable {s t u : State} {b : Burst} {c f g i n p slot skew why : Nat} {payload : List Byte} {m : FibreSeen}
  {fs : List FibreSeen} {rs : List (Nat × Nat × Nat)}

/-! #### What the check of a fibre leaves (R334, R336, R339) -/

/-- Memory, the job, the plan slots and the bursts are the same, and no instance has begun. -/
structure FibresChecked (s t : State) : Prop where
  mem : t.mem = s.mem
  job : t.job = s.job
  slots : t.fab.slots = s.fab.slots
  bursts : t.coll.bursts = s.coll.bursts
  insts : s.coll.insts = [] → t.coll.insts = []

theorem FibresChecked.refl (s : State) : FibresChecked s s := ⟨rfl, rfl, rfl, rfl, id⟩

protected theorem FibresChecked.ite {q : Prop} [Decidable q] (h : FibresChecked s t) (h' : FibresChecked s u) :
    FibresChecked s (if q then t else u) := by
  split
  · exact h
  · exact h'

protected theorem FibresChecked.forEach {α : Type} {xs : List α} {f : α → State → State} (hs : FibresChecked s t)
    (hf : ∀ {x t}, FibresChecked s t → FibresChecked s (f x t)) : FibresChecked s (forEach xs f t) :=
  forEach_inv (FibresChecked s) f (fun _ _ => hf) xs t hs

protected theorem FibresChecked.emit (hs : FibresChecked s t) : FibresChecked s (emit c n payload t) :=
  ⟨by rw [emit_mem, hs.mem], by rw [emit_job, hs.job], by rw [emit_fab, hs.slots], by rw [emit_coll, hs.bursts],
    by rw [emit_coll]; exact hs.insts⟩

protected theorem FibresChecked.regPut {r : RegRow} {ix : List Nat} (hs : FibresChecked s t) :
    FibresChecked s (regPut t r i ix n) :=
  ⟨hs.mem, hs.job, hs.slots, hs.bursts, hs.insts⟩

protected theorem FibresChecked.updColl {f : Coll → Coll} (hs : FibresChecked s t)
    (hb : ∀ c : Coll, (f c).bursts = c.bursts := by intro; rfl)
    (hi : ∀ c : Coll, c.insts = [] → (f c).insts = [] := by intro _ h; exact h) : FibresChecked s (updColl f t) :=
  ⟨hs.mem, hs.job, hs.slots, (hb _).trans hs.bursts, fun h => hi _ (hs.insts h)⟩

protected theorem FibresChecked.updRx {f : RxCh → RxCh} (hs : FibresChecked s t) : FibresChecked s (updRx i f t) :=
  ⟨hs.mem, hs.job, hs.slots, hs.bursts, hs.insts⟩

protected theorem FibresChecked.scanRing (hs : FibresChecked s t) : FibresChecked s (scanRing c i n t) :=
  .ite hs ⟨hs.mem, hs.job, hs.slots, hs.bursts, hs.insts⟩

protected theorem FibresChecked.nameDiscard (hs : FibresChecked s t) : FibresChecked s (nameDiscard i t) :=
  .ite hs.updColl hs.updColl.updRx.scanRing.emit

protected theorem FibresChecked.discardFibre (hs : FibresChecked s t) :
    FibresChecked s (discardFibre b p rs why slot t) := by
  unfold Machine.discardFibre
  extract_lets counted noted named
  have hnamed : FibresChecked s named := by
    unfold named
    split
    · exact hs.regPut.emit.nameDiscard
    · exact hs.regPut.emit.updColl
  split
  · exact .ite hnamed (hnamed.forEach (·.updColl))
  · exact hnamed

protected theorem FibresChecked.degradeFibre (hs : FibresChecked s t) :
    FibresChecked s (degradeFibre b p skew t) :=
  .ite hs.regPut.emit (hs.regPut.emit.updColl (hi := fun _ h => by rw [h]; rfl))

protected theorem FibresChecked.checkFibre (hs : FibresChecked s t) : FibresChecked s (checkFibre b f m t).1 := by
  unfold Machine.checkFibre
  dsimp only
  split
  · exact hs
  · have hnoted : FibresChecked s (noteSkew (fibreRxs t (4 * b.group + f)) m t) := hs.forEach fun h => .ite h.regPut h
    split
    · exact hnoted.discardFibre
    · exact .ite hnoted.updColl.degradeFibre hnoted.updColl

/-- R334: one of the fibres of a burst is checked; its sums are kept with the sources that it hears. -/
def fibreStep (b : Burst) (g : Nat) (fs : List FibreSeen) (acc : State × List (List Nat × FibreSeen)) (f : Nat) :
    State × List (List Nat × FibreSeen) :=
  ((checkFibre b f (fs.getD f ⟨0, [], []⟩) acc.1).1,
    if (checkFibre b f (fs.getD f ⟨0, [], []⟩) acc.1).2 then
      acc.2 ++ [((fibreRxs acc.1 (4 * g + f)).map (fun x => x.2.2), fs.getD f ⟨0, [], []⟩)]
    else acc.2)

/-- R334: a burst that ends leaves the schedule. -/
def burstLeft (b : Burst) (s : State) : State :=
  collCount 4 (updColl (fun c => { c with bursts := c.bursts.erase b }) s)

/-- R334: the fibres of a burst that ends are checked. -/
def fibresChecked (b : Burst) (g : Nat) (fs : List FibreSeen) (s : State) : State × List (List Nat × FibreSeen) :=
  (List.range 4).foldl (fibreStep b g fs) (burstLeft b s, [])

theorem fibresChecked_checks (b : Burst) (g : Nat) (fs : List FibreSeen) (s : State) :
    FibresChecked (burstLeft b s) (fibresChecked b g fs s).1 :=
  List.foldlRecOn (motive := fun acc : State × List (List Nat × FibreSeen) => FibresChecked _ acc.1) _ _ (.refl _)
    fun _ h _ _ => h.checkFibre

/-- R326, R334: a span of a burst, with its place in the burst, enters its slot of the instance in a context. -/
def spanAdded (c : Nat) (kept : List (List Nat × FibreSeen)) (x : (Nat × Nat) × Nat) (s : State) : State :=
  match instAt s c with
  | some i => addSpan i x.2 x.1.1 x.1.2 kept s
  | none => s

/-- R326, R334: the spans of a burst enter their slots. -/
def spansAdded (c : Nat) (b : Burst) (kept : List (List Nat × FibreSeen)) (s : State) : State :=
  forEach b.spans.zipIdx (spanAdded c kept) s

/-- R337: a burst counts towards the next SKEW report, and brings it where it is due. -/
def skewReported (i : Inst) (b : Burst) (g : Nat) (s : State) : State :=
  let n := Cells.get 0 s.coll.sinceSkew g + 1
  let due := b.spans = [] ∨ 10 ≤ n
  let s := updColl (fun c => { c with sinceSkew := Cells.set 0 c.sinceSkew g (if due then 0 else n) }) s
  if due then reportSkew i g s else s

/-- R334: what follows the check of the fibres, by the instance of the burst. -/
def burstEnded (b : Burst) (g : Nat) (r : State × List (List Nat × FibreSeen)) : State :=
  match r.1.coll.insts.find? (fun i => i.desc = b.desc && instRuns i) with
  | none => dealSpans (releaseSums r.1)
  | some i => dealSpans (pumpColl (releaseSums (skewReported i b g (spansAdded i.ctx b r.2 r.1))))

/-- R334: the first burst of a plane group that has begun and is over. -/
def dueBurst (s : State) (g : Nat) : Option Burst :=
  s.coll.bursts.find? (fun b => decide (b.group = g) && b.begun && decide (b.start + burstNs ≤ nowNs s))

theorem exec_osumBurstEnd (hdue : dueBurst s g = some b) :
    exec (.osumBurstEnd g fs) s = .next (burstEnded b g (fibresChecked b g fs s)) := by
  show execOsumBurstEnd g fs s = _
  have hstep (acc : State × List (List Nat × FibreSeen)) (f : Nat) : fibreStep b g fs acc f =
      ((checkFibre b f (fs.getD f ⟨0, [], []⟩) acc.1).1,
        if (checkFibre b f (fs.getD f ⟨0, [], []⟩) acc.1).2 then
          acc.2 ++ [((fibreRxs acc.1 (4 * g + f)).map (fun x => x.2.2), fs.getD f ⟨0, [], []⟩)]
        else acc.2) := rfl
  obtain ⟨r, hr⟩ : ∃ r, fibresChecked b g fs s = r := ⟨_, rfl⟩
  rw [hr]
  unfold fibresChecked burstLeft at hr
  unfold dueBurst at hdue
  simp only [execOsumBurstEnd, hdue, ← hstep, hr]
  rfl

theorem burstEnded_none {r : State × List (List Nat × FibreSeen)}
    (h : r.1.coll.insts.find? (fun i => i.desc = b.desc && instRuns i) = none) :
    burstEnded b g r = dealSpans (releaseSums r.1) := by
  rw [burstEnded, h]

theorem burstEnded_some {r : State × List (List Nat × FibreSeen)} {i : Inst}
    (h : r.1.coll.insts.find? (fun i => i.desc = b.desc && instRuns i) = some i) :
    burstEnded b g r = dealSpans (pumpColl (releaseSums (skewReported i b g (spansAdded i.ctx b r.2 r.1)))) := by
  rw [burstEnded, h]

/-- R302: with no plan armed, no switch waits for a burst. -/
theorem releaseSums_of_armedSlots_nil (h : armedSlots s = []) : releaseSums s = s := by
  rw [releaseSums, h]
  rfl

theorem osumBurstEnd_alone {bs : List Burst} (hb : s.coll.bursts = b :: bs) (hg : b.group = g) (hbegun : b.begun = true)
    (hdue : b.start + burstNs ≤ nowNs s) (hi : s.coll.insts = []) (harmed : armedSlots s = []) :
    ∃ s', exec (.osumBurstEnd g fs) s = .next s' ∧ s'.coll.bursts = bs ∧ s'.mem = s.mem ∧ s'.job = s.job := by
  have hfound : dueBurst s g = some b := by
    rw [dueBurst, hb, List.find?_cons_of_pos]
    simp [hg, hbegun, hdue]
  have hchecked := fibresChecked_checks b g fs s
  have hnone : (fibresChecked b g fs s).1.coll.insts = [] := hchecked.insts hi
  have hunarmed : armedSlots (fibresChecked b g fs s).1 = [] := by
    rw [← harmed]
    simp only [armedSlots, slotAt, hchecked.slots]
    rfl
  have hexec : exec (.osumBurstEnd g fs) s = .next (fibresChecked b g fs s).1 := by
    rw [exec_osumBurstEnd hfound, burstEnded_none (by rw [hnone]; rfl), releaseSums_of_armedSlots_nil hunarmed,
      dealSpans_of_insts_nil hnone]
  refine ⟨_, hexec, ?_, hchecked.mem, hchecked.job⟩
  rw [hchecked.bursts]
  show s.coll.bursts.erase b = bs
  rw [hb, List.erase_cons_head]

end FibresChecked

section SegmentRestart

variable {s : State} {i : Inst} {c k m rank : Nat}

/-! #### A segment is restarted (R340) -/

/-- R340: what has been taken of a segment is dropped: from every rank where the segment is added to. -/
def segLost (reduced : Bool) (rank k : Nat) (i : Inst) : Inst :=
  { i with segIn := i.segIn.filter (fun x => !(decide (x.seg = k) && (reduced || decide (x.rank = rank)))) }

theorem segLost_find? (reduced : Bool) (rank k : Nat) (i : Inst) :
    (segLost reduced rank k i).segIn.find? (fun x => decide (x.rank = rank ∧ x.seg = k)) = none :=
  List.find?_eq_none.2 fun x hx hfound => by
    obtain ⟨hrank, hseg⟩ := of_decide_eq_true hfound
    have hkept := (List.mem_filter.1 hx).2
    simp [hrank, hseg] at hkept

/-- R340: the segment's slot starts again; the peers, what they granted and the sync objects stand. -/
theorem rebuildSegment_rebuilds (hi : instAt s c = some i) :
    ∃ i' reduced, instAt (rebuildSegment c rank k s) c = some i' ∧ i'.segIn = (segLost reduced rank k i).segIn ∧
      i'.peers = i.peers ∧ (rebuildSegment c rank k s).sync = s.sync := by
  obtain ⟨s', hs'⟩ : ∃ s', s' = rebuildSegment c rank k s := ⟨_, rfl⟩
  rw [← hs']
  unfold rebuildSegment at hs'
  split at hs'
  · next hnone => exact absurd (hnone.symm.trans hi) nofun
  next j hj =>
  obtain rfl : i = j := Option.some.inj (hi.symm.trans hj)
  extract_lets d reduced mine dropped read n rebuilt at hs'
  have hdropped : instAt dropped c = some (segLost reduced rank k i) := by
    rw [instAt_updInst, hi]
    rfl
  have hrebuilt : ∃ i', instAt rebuilt c = some i' ∧ i'.segIn = (segLost reduced rank k i).segIn ∧ i'.peers = i.peers ∧
      rebuilt.sync = s.sync := by
    unfold rebuilt
    split
    · have hread : EngineStands dropped read.1 := (EngineStands.refl _).ownElems
      exact ⟨_, (instAt_updInst ..).trans (congrArg _ (hread.instAt.trans hdropped)), rfl, rfl,
        (updColl_sync ..).trans (hread.sync.trans (updColl_sync ..))⟩
    · exact ⟨_, hdropped, rfl, rfl, rfl⟩
  obtain ⟨i', hat, hseg, hpeers, hsync⟩ := hrebuilt
  have hinsts : s'.coll.insts = rebuilt.coll.insts := hs' ▸ forEach_keeps (·.coll.insts) _ (by intros; rfl) _ rebuilt
  have hkept : s'.sync = rebuilt.sync := hs' ▸ forEach_keeps (·.sync) _ (by intros; rfl) _ rebuilt
  exact ⟨i', reduced, by rwa [instAt, hinsts], hseg, hpeers, hkept.trans hsync⟩

theorem exec_collSegRestart (hi : instAt s i.ctx = some i) (hruns : instRuns i = true)
    (hsup : segSupplier i rank k = some m) (htwin : twinOf s m ≠ none) (hring : (descOf s i).ring = false)
    (hgot : segGot i rank k < segPart (streamLen s (descOf s i) rank (ownRank s i)) k) :
    ∃ source payload, exec (.collSegRestart i.ctx rank k) s =
      .next (emit 0x0C04 source payload (rebuildSegment i.ctx rank k (collCount 8 s))) := by
  show ∃ source payload, execCollSegRestart i.ctx rank k s =
    .next (emit 0x0C04 source payload (rebuildSegment i.ctx rank k (collCount 8 s)))
  simp only [execCollSegRestart, hi, hsup]
  rw [if_pos ⟨hruns, Option.isSome_iff_ne_none.2 htwin, hgot, by simp [hring]⟩]
  exact ⟨_, _, rfl⟩

theorem collSegRestart_restarts (hi : instAt s i.ctx = some i) (hruns : instRuns i = true)
    (hsup : segSupplier i rank k = some m) (htwin : twinOf s m ≠ none) (hring : (descOf s i).ring = false)
    (hgot : segGot i rank k < segPart (streamLen s (descOf s i) rank (ownRank s i)) k) :
    ∃ s' i', exec (.collSegRestart i.ctx rank k) s = .next s' ∧ instAt s' i.ctx = some i' ∧ segGot i' rank k = 0 ∧
      segSupplier i' rank k = none ∧ i'.peers = i.peers ∧ s'.sync = s.sync := by
  obtain ⟨source, payload, hexec⟩ := exec_collSegRestart hi hruns hsup htwin hring hgot
  obtain ⟨i', reduced, hat, hseg, hpeers, hsync⟩ :=
    rebuildSegment_rebuilds (rank := rank) (k := k) (show instAt (collCount 8 s) i.ctx = some i from hi)
  have hfind := segLost_find? reduced rank k i
  rw [← hseg] at hfind
  refine ⟨_, i', hexec, ?_, by rw [segGot, hfind], by rw [segSupplier, hfind, Option.map_none], hpeers, ?_⟩
  · rw [instAt, emit_coll]
    exact hat
  · rw [emit_sync, hsync]
    rfl

end SegmentRestart

end Sys2Proof.Machine

namespace Sys2Proof.Machine

section ElementsTaken

variable {i : Inst} {ps : List CollPeer} {k k' n r r' src : Nat}

/-! #### Elements of a segment that ranks are taken to have sent (R326) -/

theorem addGot_frame (r k src n : Nat) (i : Inst) :
    addGot r k src n i = { i with segIn := (addGot r k src n i).segIn } := by
  unfold addGot
  split <;> rfl

/-- R326: elements taken count towards their own segment from their own rank. -/
theorem segGot_addGot : segGot (addGot r k src n i) r' k' = segGot i r' k' + if r' = r ∧ k' = k then n else 0 := by
  unfold addGot
  split
  case h_1 x hsup =>
    obtain ⟨y, hfound, -⟩ := Option.map_eq_some_iff.1 hsup
    have hkey : (fun x : SegIn => decide (x.rank = r' ∧ x.seg = k')) ∘
        (fun x => if x.rank = r ∧ x.seg = k then { x with got := x.got + n } else x) =
        fun x => decide (x.rank = r' ∧ x.seg = k') := funext fun x => by
      simp only [Function.comp_apply]
      split <;> rfl
    unfold segGot
    simp only [List.find?_map, hkey]
    by_cases hsame : r' = r ∧ k' = k
    · obtain ⟨rfl, rfl⟩ := hsame
      have hy := List.find?_some hfound
      simp only [hfound, Option.map_some, if_pos (of_decide_eq_true hy), and_self, if_true]
    · rw [if_neg hsame, Nat.add_zero]
      cases hother : i.segIn.find? (fun x => decide (x.rank = r' ∧ x.seg = k')) with
      | none => rfl
      | some z =>
        have hkind := List.find?_some hother
        obtain ⟨hrank, hseg⟩ := of_decide_eq_true hkind
        have hz : ¬ (z.rank = r ∧ z.seg = k) := by rwa [hrank, hseg]
        simp only [Option.map_some, if_neg hz]
  case h_2 hsup =>
    have hnone : i.segIn.find? (fun x => decide (x.rank = r ∧ x.seg = k)) = none := Option.map_eq_none_iff.1 hsup
    unfold segGot
    simp only [List.find?_append]
    by_cases hsame : r' = r ∧ k' = k
    · obtain ⟨rfl, rfl⟩ := hsame
      simp only [hnone, Option.none_or, and_self, if_true, Nat.zero_add, List.find?_cons_of_pos, decide_true]
    · have hother : ¬ (r = r' ∧ k = k') := fun h => hsame ⟨h.1.symm, h.2.symm⟩
      simp [hsame, hother]

/-- R326: elements of a segment taken from each of a list of peers. -/
def peersGot (ps : List CollPeer) (k n : Nat) (i : Inst) : Inst :=
  ps.foldl (fun i p => addGot p.rank k p.module n i) i

theorem peersGot_frame (ps : List CollPeer) (k n : Nat) (i : Inst) :
    peersGot ps k n i = { i with segIn := (peersGot ps k n i).segIn } := by
  induction ps generalizing i with
  | nil => rfl
  | cons p ps ih =>
    have hnext : peersGot (p :: ps) k n i = peersGot ps k n (addGot p.rank k p.module n i) := rfl
    rw [hnext, ih, addGot_frame]

theorem segGot_peersGot :
    segGot (peersGot ps k n i) r k' =
      segGot i r k' + if k' = k then ps.countP (fun p => decide (p.rank = r)) * n else 0 := by
  induction ps generalizing i with
  | nil => simp [peersGot]
  | cons p ps ih =>
    show segGot (peersGot ps k n (addGot p.rank k p.module n i)) r k' = _
    rw [ih, segGot_addGot, List.countP_cons]
    by_cases hk : k' = k
    · by_cases hr : r = p.rank
      · simp [hk, hr]
        ring
      · simp [hk, hr, Ne.symm hr]
    · simp [hk]

/-- R340: an instance exchanges units with a module of a rank, and with no other of that rank. -/
def SoleOfRank (ps : List CollPeer) (m r : Nat) : Prop :=
  (∃ q ∈ ps, q.module = m) ∧ ∀ q ∈ ps, q.module = m ↔ q.rank = r

/-- R326: the contributors heard are of a module's rank as often as the module itself is heard. -/
theorem SoleOfRank.countP_heard {m : Nat} (h : SoleOfRank ps m r) (heard : List Nat) :
    (heard.filterMap (fun x => ps.find? (fun q => decide (q.module = x)))).countP (fun q => decide (q.rank = r)) =
      heard.countP (fun x => decide (x = m)) := by
  obtain ⟨hsome, hrank⟩ := h
  induction heard with
  | nil => rfl
  | cons x heard ih =>
    rw [List.countP_cons, List.filterMap_cons, ← ih]
    cases hfound : ps.find? (fun q => decide (q.module = x)) with
    | none =>
      have hx : x ≠ m := by
        rintro rfl
        obtain ⟨q, hq, hqm⟩ := hsome
        exact List.find?_eq_none.1 hfound q hq (decide_eq_true hqm)
      rw [if_neg (by simpa using hx)]
      rfl
    | some q =>
      have hqm := List.find?_some hfound
      have hiff := hrank q (List.mem_of_find?_eq_some hfound)
      rw [of_decide_eq_true hqm] at hiff
      simp only [List.countP_cons, hiff]

end ElementsTaken

end Sys2Proof.Machine

namespace Sys2Proof.Machine

section BurstEnds

variable {s t st st' : State} {i j x y z : Inst} {b : Burst} {f g k m n p r span e pos : Nat} {fs : List FibreSeen}
  {kept : List (List Nat × FibreSeen)} {rs : List (Nat × Nat × Nat)}

/-! #### The fibres of a burst are kept (R334, R336) -/

theorem fibreRxs_congr (h : t.fab = s.fab) (p : Nat) : fibreRxs t p = fibreRxs s p := by
  unfold fibreRxs rxAt
  rw [h]

/-- R336: a degraded burst marks its instance, which goes on where its descriptor does not say otherwise. -/
protected theorem InstancesStand.degradeFibre (hs : InstancesStand s t)
    (hdeg : (s.job.colls[b.desc]?).any (·.degFail) = false) : InstancesStand s (degradeFibre b p n t) := by
  have hcounted : InstancesStand s (emit 0x0C03 p (leBytes 1 p ++ leBytes 1 n) (collCount 5 t)) := hs.regPut.emit
  unfold Machine.degradeFibre
  refine .ite hcounted (hcounted.updColl fun c => map_instCore_of fun x _ => ?_)
  split
  · next hx =>
    rw [if_neg (by rw [hx.1, hcounted.colls, hdeg]; exact Bool.false_ne_true)]
    rfl
  · rfl

/-- R334: a fibre of a plane group hears nothing, or what it measured of a burst is kept. -/
def FibreKept (s : State) (g : Nat) (fs : List FibreSeen) (f : Nat) : Prop :=
  fibreRxs s (4 * g + f) ≠ [] → discardWhy (fibreRxs s (4 * g + f)) (fs.getD f ⟨0, [], []⟩) = none

/-- R334: a fibre that hears nothing, or whose burst is not discarded, leaves the instances. -/
theorem InstancesStand.checkFibre (hs : InstancesStand s t) (hdeg : (s.job.colls[b.desc]?).any (·.degFail) = false)
    (hkeep : FibreKept s b.group fs f) :
    InstancesStand s (Machine.checkFibre b f (fs.getD f ⟨0, [], []⟩) t).1 ∧
      (Machine.checkFibre b f (fs.getD f ⟨0, [], []⟩) t).2 = decide (fibreRxs s (4 * b.group + f) ≠ []) := by
  unfold Machine.checkFibre
  simp only [fibreRxs_congr hs.fab]
  by_cases hnone : fibreRxs s (4 * b.group + f) = []
  · simp only [hnone, if_true, ne_eq, not_true_eq_false, decide_false]
    exact ⟨hs, trivial⟩
  · have hnoted : InstancesStand s (noteSkew (fibreRxs s (4 * b.group + f)) (fs.getD f ⟨0, [], []⟩) t) :=
      hs.forEach (·.when (·.regPut))
    simp only [hnone, hkeep hnone, if_false, ne_eq, not_false_eq_true, decide_true, and_true]
    exact hnoted.updColl.when (·.degradeFibre hdeg)

theorem fibreStep_keeps (hdeg : (s.job.colls[b.desc]?).any (·.degFail) = false) (hg : b.group = g) (fibres : List Nat)
    (hkeep : ∀ f ∈ fibres, FibreKept s g fs f) (acc : State × List (List Nat × FibreSeen))
    (hs : InstancesStand s acc.1) :
    InstancesStand s (fibres.foldl (fibreStep b g fs) acc).1 ∧
      (fibres.foldl (fibreStep b g fs) acc).2.flatMap (·.1) =
        acc.2.flatMap (·.1) ++ (fibres.flatMap (fun f => fibreRxs s (4 * g + f))).map (fun x => x.2.2) := by
  subst hg
  induction fibres generalizing acc with
  | nil => exact ⟨hs, (List.append_nil _).symm⟩
  | cons f fibres ih =>
    obtain ⟨hnext, hsums⟩ := hs.checkFibre hdeg (hkeep f List.mem_cons_self)
    obtain ⟨hlast, hheard⟩ := ih (fibreStep b b.group fs acc f) hnext fun f hf => hkeep f (List.mem_cons_of_mem _ hf)
    refine ⟨hlast, hheard.trans ?_⟩
    rw [fibreStep, hsums, fibreRxs_congr hs.fab, List.flatMap_cons, List.map_append, ← List.append_assoc]
    by_cases hnone : fibreRxs s (4 * b.group + f) = []
    · simp [hnone]
    · simp [hnone]

theorem fibresChecked_keeps (hdeg : (s.job.colls[b.desc]?).any (·.degFail) = false) (hg : b.group = g)
    (hkeep : ∀ f < 4, FibreKept s g fs f) :
    InstancesStand s (fibresChecked b g fs s).1 ∧
      (fibresChecked b g fs s).2.flatMap (·.1) =
        ((List.range 4).flatMap (fun f => fibreRxs s (4 * g + f))).map (fun x => x.2.2) := by
  have hstart : InstancesStand s (burstLeft b s) := (InstancesStand.refl s).updColl.regPut
  exact fibreStep_keeps hdeg hg (List.range 4) (fun f hf => hkeep f (List.mem_range.1 hf)) _ hstart

/-! #### The spans of a burst enter their slots (R326) -/

/-- The instance of `s` is `j` in `st`, but for the engine's progress and the elements that it has taken. -/
structure TakesOn (s : State) (i : Inst) (st : State) (j : Inst) : Prop where
  there : instAt st i.ctx = some j
  same : SameInst { i with segIn := j.segIn } j
  fab : st.fab = s.fab
  colls : st.job.colls = s.job.colls

theorem SameInst.trans (h : SameInst x y) (h' : SameInst y z) : SameInst x z :=
  ⟨h'.ctx.trans h.ctx, h'.desc.trans h.desc, h'.num.trans h.num, h'.begun.trans h.begun, h'.fail.trans h.fail,
    h'.segIn.trans h.segIn, h'.peers.trans h.peers⟩

theorem TakesOn.descOf (h : TakesOn s i st j) : descOf st j = descOf s i := by
  rw [Machine.descOf, h.colls, h.same.desc, Machine.descOf]

theorem TakesOn.stands (h : TakesOn s i st j) (hs : InstancesStand st st') :
    ∃ j', TakesOn s i st' j' ∧ segGot j' = segGot j := by
  obtain ⟨j', hj', hsame⟩ := hs.instAt h.there
  refine ⟨j', ⟨hj', ?_, hs.fab.trans h.fab, hs.colls.trans h.colls⟩, hsame.segGot⟩
  rw [hsame.segIn]
  exact h.same.trans hsame

theorem SoleOfRank.same (h : SoleOfRank x.peers m r) (hs : SameInst x y) : SoleOfRank y.peers m r := by
  have hpairs := hs.map_peers (fun q => (q.module, q.rank))
  have hmem {a c : Nat} :
      (∃ q ∈ y.peers, (q.module, q.rank) = (a, c)) ↔ ∃ q ∈ x.peers, (q.module, q.rank) = (a, c) := by
    rw [← List.mem_map, hpairs, List.mem_map]
  obtain ⟨⟨q, hq, hqm⟩, hrank⟩ := h
  refine ⟨?_, fun q' hq' => ?_⟩
  · obtain ⟨q', hq', heq⟩ := hmem.2 ⟨q, hq, rfl⟩
    exact ⟨q', hq', (congrArg Prod.fst heq).trans hqm⟩
  · obtain ⟨q, hq, heq⟩ := hmem.1 ⟨q', hq', rfl⟩
    obtain ⟨hmodule, hsame⟩ := Prod.mk.inj heq
    rw [← hmodule, ← hsame]
    exact hrank q hq

/-- R326: the elements of a span are taken from each contributor heard. -/
theorem TakesOn.addSpan (h : TakesOn s i st j) (hsole : SoleOfRank i.peers m r) :
    ∃ j', TakesOn s i (addSpan j pos span e kept st) j' ∧ segGot j' r k = segGot j r k +
      if span * 128 / segSize = k then
        (kept.flatMap (·.1)).countP (fun x => decide (x = m)) * spanPart (Machine.descOf s i) span else 0 := by
  unfold Machine.addSpan
  rw [h.descOf]
  extract_lets d n c off xs ranks put
  have hset : instAt (updInst j.ctx (fun i => peersGot ranks c n (mapSlot c put i)) st) i.ctx =
      some (peersGot ranks c n (mapSlot c put j)) := by
    have hctx : j.ctx = i.ctx := h.same.ctx
    rw [hctx, instAt_updInst fun x => by rw [peersGot_frame]; rfl, h.there]
    rfl
  have hgot : TakesOn s i (updInst j.ctx (fun i => peersGot ranks c n (mapSlot c put i)) st)
      (peersGot ranks c n (mapSlot c put j)) := by
    refine ⟨hset, ?_, h.fab, h.colls⟩
    rw [peersGot_frame]
    exact ⟨h.same.ctx, h.same.desc, h.same.num, h.same.begun, h.same.fail, rfl, h.same.peers⟩
  obtain ⟨j', hj', hseg⟩ := hgot.stands (InstancesStand.refl _).closeSlot
  refine ⟨j', hj', ?_⟩
  have hheard : ranks.countP (fun q => decide (q.rank = r)) = (kept.flatMap (·.1)).countP (fun x => decide (x = m)) :=
    (SoleOfRank.same (x := { i with segIn := j.segIn }) hsole h.same).countP_heard _
  rw [hseg, segGot_peersGot, hheard]
  by_cases hk : c = k
  · rw [if_pos hk.symm, if_pos hk]
    rfl
  · rw [if_neg (Ne.symm hk), if_neg hk]
    rfl

theorem TakesOn.forEach_spanAdded (h : TakesOn s i st j) (hsole : SoleOfRank i.peers m r)
    (spans : List ((Nat × Nat) × Nat)) :
    ∃ j', TakesOn s i (forEach spans (spanAdded i.ctx kept) st) j' ∧ segGot j' r k = segGot j r k +
      (kept.flatMap (·.1)).countP (fun x => decide (x = m)) *
        (((spans.map Prod.fst).filter (fun x => x.1 * 128 / segSize = k)).map
          (fun x => spanPart (Machine.descOf s i) x.1)).sum := by
  induction spans generalizing st j with
  | nil => exact ⟨j, h, by rw [List.map_nil, List.filter_nil, List.map_nil, List.sum_nil, Nat.mul_zero, Nat.add_zero]⟩
  | cons x spans ih =>
    have hadded : spanAdded i.ctx kept x st = Machine.addSpan j x.2 x.1.1 x.1.2 kept st := by rw [spanAdded, h.there]
    obtain ⟨j1, h1, hgot1⟩ := h.addSpan (pos := x.2) (span := x.1.1) (e := x.1.2) (kept := kept) (k := k) hsole
    obtain ⟨j2, h2, hgot2⟩ := ih h1
    refine ⟨j2, by rwa [forEach_cons, hadded], ?_⟩
    rw [hgot2, hgot1, List.map_cons, List.filter_cons]
    by_cases hk : x.1.1 * 128 / segSize = k
    · rw [if_pos hk, if_pos (decide_eq_true hk), List.map_cons, List.sum_cons, Nat.mul_add, Nat.add_assoc]
    · rw [if_neg hk, if_neg (by simpa using hk), Nat.add_zero]

theorem TakesOn.spansAdded (h : TakesOn s i st j) (hsole : SoleOfRank i.peers m r) :
    ∃ j', TakesOn s i (spansAdded i.ctx b kept st) j' ∧ segGot j' r k = segGot j r k +
      (kept.flatMap (·.1)).countP (fun x => decide (x = m)) *
        ((b.spans.filter (fun x => x.1 * 128 / segSize = k)).map (fun x => spanPart (Machine.descOf s i) x.1)).sum := by
  have hspans := h.forEach_spanAdded (kept := kept) (k := k) hsole b.spans.zipIdx
  rwa [List.zipIdx_map_fst] at hspans

/-! #### The burst ends (R326, R337) -/

/-- R302: no switch waits for a burst. -/
theorem releaseSums_of_settled (hsw : ∀ n < 16, (slotAt s n).switching = none) : releaseSums s = s := by
  refine foldl_fixed _ s (armedSlots s) fun n hn => ?_
  have hlt : n < 16 := List.mem_range.1 (List.mem_filter.1 hn).1
  exact if_neg (by rw [hsw n hlt]; exact Bool.false_ne_true)

protected theorem InstancesStand.skewReported (hs : InstancesStand s t) : InstancesStand s (skewReported x b g t) :=
  hs.updColl.when (·.forEach fun hs => .ite hs hs.sendCtl)

/-- R326, R334: where every fibre that hears anything is kept, the elements are taken of the instance of the burst. -/
theorem osumBurstEnd_takes (hdue : dueBurst s g = some b) (hi : i ∈ s.coll.insts) (hdesc : i.desc = b.desc)
    (hruns : instRuns i = true) (huniq : ∀ j ∈ s.coll.insts, j.ctx = i.ctx ∨ j.desc = i.desc → j = i)
    (hdeg : (s.job.colls[b.desc]?).any (·.degFail) = false) (hsw : ∀ n < 16, (slotAt s n).switching = none)
    (hkeep : ∀ f < 4, FibreKept s g fs f) (hsole : SoleOfRank i.peers m r) :
    ∃ s' i', exec (.osumBurstEnd g fs) s = .next s' ∧ instAt s' i.ctx = some i' ∧ i'.desc = i.desc ∧ i'.fail = none ∧
      segGot i' r k = segGot i r k + ((List.range 4).flatMap (fun f => fibreRxs s (4 * g + f))).countP
        (fun x => decide (x.2.2 = m)) *
          ((b.spans.filter (fun x => x.1 * 128 / segSize = k)).map (fun x => spanPart (descOf s i) x.1)).sum := by
  have hg : b.group = g := by
    have hb := List.find?_some hdue
    simp only [Bool.and_eq_true, decide_eq_true_eq] at hb
    obtain ⟨⟨hgroup, -⟩, -⟩ := hb
    exact hgroup
  have hfail : i.fail = none := by
    simp only [instRuns, Bool.and_eq_true, Option.isNone_iff_eq_none] at hruns
    exact hruns.2
  obtain ⟨hchecked, hheard⟩ := fibresChecked_keeps hdeg hg hkeep
  have hmine : s.coll.insts.find? (fun i => i.desc = b.desc && instRuns i) = some i :=
    find?_eq_some_of_unique hi (by simp [hdesc, hruns]) fun j hj hfound => huniq j hj (.inr (by simp_all))
  obtain ⟨i0, hi0, hsame0⟩ := hchecked.find?_eq_some (fun _ => rfl) hmine
  obtain ⟨i1, hi1, hsame1⟩ := hchecked.instAt (instAt_of_mem hi fun j hj hctx => huniq j hj (.inl hctx))
  have hstart : TakesOn s i (fibresChecked b g fs s).1 i1 := by
    refine ⟨hi1, ?_, hchecked.fab, hchecked.colls⟩
    rw [hsame1.segIn]
    exact hsame1
  obtain ⟨i2, h2, hgot⟩ := hstart.spansAdded (b := b) (kept := (fibresChecked b g fs s).2) (k := k) hsole
  obtain ⟨s2, hs2⟩ : ∃ s2, s2 = spansAdded i.ctx b (fibresChecked b g fs s).2 (fibresChecked b g fs s).1 := ⟨_, rfl⟩
  rw [← hs2] at h2
  have hreported : InstancesStand s2 (skewReported i0 b g s2) := (InstancesStand.refl s2).skewReported
  have hsettled : releaseSums (skewReported i0 b g s2) = skewReported i0 b g s2 :=
    releaseSums_of_settled fun n hn => by rw [slotAt_congr (hreported.fab.trans h2.fab), hsw n hn]
  have hexec := exec_osumBurstEnd (fs := fs) hdue
  rw [burstEnded_some hi0, hsame0.ctx, ← hs2, hsettled] at hexec
  obtain ⟨i3, h3, hgot3⟩ := h2.stands hreported.pumpColl.dealSpans
  refine ⟨_, i3, hexec, h3.there, h3.same.desc, h3.same.fail.trans hfail, ?_⟩
  rw [hgot3, hgot, hsame1.segGot, hheard, List.countP_map]
  rfl

end BurstEnds

/-- Settles O33: a start marks the bursts that are due, an end takes the elements of its spans, and a restart drops what
has been taken of the segment. -/
theorem burstsAndSegments : Obligations.BurstsAndSegments := by
  refine ⟨osumBurstStart_begins, fun s g b bs fs hb hg hbegun hdue hi harmed =>
    osumBurstEnd_alone hb hg hbegun hdue hi harmed, ?ends, ?restarts⟩
  case ends =>
    rintro s g k b fs i p rs hfind hi hdesc hruns huniq hdeg hsw rfl hkeep hp hpeer
    refine osumBurstEnd_takes hfind hi hdesc hruns huniq (by rwa [← hdesc]) hsw hkeep ⟨⟨p, hp, rfl⟩, fun q hq => ?_⟩
    exact ⟨fun hm => congrArg CollPeer.rank (hpeer q hq (.inl hm)),
      fun hr => congrArg CollPeer.module (hpeer q hq (.inr hr))⟩
  case restarts =>
    intro s i rank seg m hi huniq hbegun hfail hsup htwin hring hgot
    exact collSegRestart_restarts (instAt_of_mem hi huniq) (by simp [instRuns, hbegun, hfail]) hsup htwin hring hgot

end Sys2Proof.Machine
